-- ==== Sys2Proof/Word.lean ====
section
/-!
DEFINITION. The words of the Plenik 16: bytes, 24-bit native words, 32-bit registers, 48-bit heat numbers and
64-bit counters (spec/00_scope.md, "Numbers, units and names"; R5, R9, R15, R16).
-/

namespace Sys2Proof

/-- One byte of a packet, a frame or a structure in host memory. -/
abbrev Byte := BitVec 8

/-- The 48-bit heat number; it wraps to 0 (R5, R6). -/
abbrev Heat := BitVec 48

/-- A 64-bit counter; it wraps to 0 (R9, R15). -/
abbrev Cnt := BitVec 64

/-- A 32-bit register word (R9). -/
abbrev Word := BitVec 32

/-- The 40-byte parameter area of a command header, byte 0 in bits [7:0] (R7, Table 4.1). -/
abbrev Params := BitVec 320

/-- A 16-byte result of a reply, byte 0 in bits [7:0] (Table 4.3). -/
abbrev Result := BitVec 128

end Sys2Proof
end

