-- ==== Sys2Proof/Types.lean ====
section
/-!
DEFINITION. The operand types of the events and commands: who sends a command, the command packet, frames,
descriptors and the other records that the world outside hands to the device. They are plain data.
-/

namespace Sys2Proof

/-- Who reads or writes a register, or claims the mailbox: a host link, by number (0 HA, 1 HB). -/
abbrev LinkId := Nat

/-- Where a command comes from: the command queue of a function, named by its instance ID (R102, R153), or the
register mailbox (R181). -/
inductive Src where
  | queue (func : Nat)
  | mbox
deriving DecidableEq, Repr

/-- How a DMA read failed (Table 3.10). -/
inductive ReadFault where
  | unsupported | abort | poisoned | ecrc | timeout
deriving DecidableEq, Repr

/-- One read of a translation table entry: the 8-byte entry, or how the read failed (R222, R224). -/
inductive WalkRead where
  | entry (e : Nat)
  | failed (r : ReadFault)
deriving DecidableEq, Repr

/-- Translation table entries as the host's memory gives them, by host address: host memory is outside the device, so the
events on which the device may walk carry what they find there (log entry 17). -/
abbrev TableMem := List (Nat × WalkRead)

/-- One entry of a pointer list (R159): host address, byte length, and the four reserved bytes. -/
structure PtrEntry where
  addr : Nat
  len : Nat
  resv : Nat
deriving DecidableEq, Repr

/-- A command packet as the device fetches it: the header fields of Table 4.1 (but OPCODE, which is the row of the
opcode table) and its data. With DATA_PTR the data is the concatenation of the entries of `ptrs` (R159). From the mailbox the
header and the data come from CMD_MBOX_HDR and CMD_MBOX_DATA instead (R181). `mem` are the table entries that its
translations may read, where the function is PROTECTED (R160). `spare` is how many CU fewer than its listed cost the
command takes, which the spec leaves to the firmware (R170; log entry 64). -/
structure Cmd where
  src : Src
  flags : BitVec 16
  tag : BitVec 32
  inst : BitVec 16
  length : BitVec 16
  target : Heat
  resv : BitVec 48
  params : Params
  data : List Byte
  ptrs : List PtrEntry
  mem : TableMem
  spare : Nat
deriving DecidableEq, Repr

/-- What resets a link (Table 3.9); Link Disable takes the data link down without being a Surprise Down (R148). -/
inductive LinkResetKind where
  | perst | hotReset | linkDown | disable
deriving DecidableEq, Repr

/-- What a host write of a register aims at: BAR0 or BAR2 of a function at a byte offset, or a field of its
configuration space. -/
inductive Space where
  | bar0
  | bar2
  | cfg
deriving DecidableEq, Repr

/-- The reply of a command (Table 4.3). -/
structure Reply where
  tag : BitVec 32
  status : Nat
  detail : BitVec 24
  heat : Heat
  phase : Bool
  result : Result
deriving DecidableEq, Repr

/-- What one lane's receiver counted in a heat (R258): corrected symbols, received symbols, uncorrectable codewords, and
whether its PCS indicates a high bit error ratio. -/
structure LaneHeat where
  corr : Nat
  recv : Nat
  uncorr : Nat
  hiBer : Bool
deriving DecidableEq, Repr

/-- A received Clause 73 page (R255, R729): selector field, whether a reserved ability bit is set, whether its
Acknowledge bit comes before the device has sent the page it acknowledges, and the speeds it offers. -/
structure AnPage where
  selector : Nat
  reservedBit : Bool
  earlyAck : Bool
  speeds : Nat
deriving DecidableEq, Repr

/-- What stands at the device's inputs when a strike samples them (Table 2.1, order 3): the STRIKE_IO pins, the
twelve filtered sensor readings in 1/16 °C, the lowest droop-detector reading of the heat in mV, the telemetry work
of the heat that begins in CU, which the spec does not fix (Table 2.2), the nanosecond of that heat from which the
management cores make no progress, if they stall (R195, R775), what each lane counted in the heat that ends, the receiver and
FLIT errors and the replays of each host link in it (Table 3.10), and, where the log memory fails on the strike edge, the SEQs
of main-ring entries that cannot be read (R671). -/
structure StrikeIn where
  pins : BitVec 8
  sensors : List Int
  minMv : Nat
  telemCu : Nat
  stall : Option Nat
  lanes : List LaneHeat
  links : List (Nat × Nat)
  logFail : Option (List Word)
deriving DecidableEq, Repr

/-- What a boot stage found (Table 17.3): failed units by the bits of ID_BOOT.FAILED, the filtered sensor readings in
1/16 °C, the size of the flash that answers in MiB (0 none), SEQs of main-ring entries that the scan finds unreadable and
whether the region fails its test (R695), and the measured time since the release of RST_N in ms (ID_BOOT.BOOT_MS). -/
structure BootIn where
  failed : Nat
  temps : List Int
  mib : Nat
  badSeqs : List Word
  ringBad : Bool
  ms : Nat
deriving DecidableEq, Repr

/-- A host write of a register (R10): the link it arrives on, the function written, the space and byte offset, its
size in bytes and its value. -/
structure RegWrite where
  link : LinkId
  func : Nat
  space : Space
  offset : Nat
  size : Nat
  value : BitVec 64
deriving DecidableEq, Repr

/-- A host access to a BAR or to configuration space (R108): the function, the space and byte offset, and its size in bytes. -/
structure BarAccess where
  func : Nat
  space : Space
  offset : Nat
  size : Nat
deriving DecidableEq, Repr

/-- What a link has resolved to when its training completes (R255): the speed, and whether 25GbE resolved RS-FEC. -/
structure LinkResult where
  speed : Nat
  rs : Bool
deriving DecidableEq, Repr

/-- A receive descriptor as it lies in host memory (Table 5.17): address, the length word and the reserved bytes. -/
structure RxDesc where
  addr : Nat
  len : Nat
  resv : Nat
deriving DecidableEq, Repr

/-- What a DMA read of the device brought: nothing that the model follows, the receive descriptor at the queue's next
position (R246), or the 64-byte header slot of the command at the head of the queue, with its pointer list (R156, R159). -/
inductive DmaGot where
  | data
  | rx (d : RxDesc)
  | header (slot : List Byte) (ptrs : List PtrEntry)
deriving DecidableEq, Repr

/-- A DMA read of the device that the host has answered (R113, R148, R160): the function, the queue pair (none: the
command queue), the input address, the table entries that its translation may read where the instance is PROTECTED, how the
read failed if it did, and what it brought. -/
structure DmaRead where
  func : Nat
  qp : Option Nat
  addr : Nat
  mem : TableMem
  fate : Option ReadFault
  got : DmaGot
deriving DecidableEq, Repr

/-- An uncorrectable memory error that the processing of a frame meets (R371, R372, R453, R454, R490): a flow entry by
position, an ordered entry by owner × 65,536 + index, a context by owner × 1,048,576 + index, a key-store slot, a
connection by queue-pair key. -/
inductive EccHit where
  | flow (pos : Nat)
  | rule (key : Nat)
  | ctx (key : Nat)
  | slot (n : Nat)
  | conn (key : Nat)
deriving DecidableEq, Repr

/-- A frame as a port's MAC receives it whole (R289, R290, R327): its bytes without the FCS, the start of the frame (0
an express frame's SFD, 1 a preemptable frame's SMD, 2 an SMD not recognised), its fragments (1 when whole), broken
reassembly, FCS good, ended by an error code or loss of link, memory errors met, and whether the cipher engine or the
pipelines had no room for it (R42, R413). -/
structure RxFrame where
  port : Nat
  bytes : List Byte
  smd : Nat
  frags : Nat
  assyErr : Bool
  fcsOk : Bool
  abort : Bool
  ecc : List EccHit
  sat : Bool
  overrun : Bool
deriving DecidableEq, Repr

/-- The head of a frame in CUT mode (R291): its first 256 bytes and the length under R289 that it will have. -/
structure CutHead where
  port : Nat
  head : List Byte
  len : Nat
  smd : Nat
  ecc : List EccHit
  overrun : Bool
deriving DecidableEq, Repr

/-- The tail of a CUT frame (R292): the bytes after the head without the FCS, the fragments in which the frame came (0 where it
came whole), and the tail's status. -/
structure CutTail where
  port : Nat
  rest : List Byte
  frags : Nat
  fcsOk : Bool
  abort : Bool
  ecc : List EccHit
  sat : Bool
deriving DecidableEq, Repr

/-- The descriptors and data of one host frame, fetched (R245): the 64-byte descriptors in ring order, the data of their
buffers, the placement records that the storage block's address names (Table 11.3), the table entries that the translations of
its descriptors and buffers may read, memory errors met, and whether the engine or the pipelines had no room. -/
structure TxFetch where
  func : Nat
  qp : Nat
  descs : List (List Byte)
  data : List Byte
  recs : List (Nat × List (Nat × Nat))
  mem : TableMem
  ecc : List EccHit
  sat : Bool
  overrun : Bool
deriving DecidableEq, Repr

/-- A copy of a round frame as it arrives (R497, R512): channel, hub branch (none: the node port or the bus), no code,
disparity or framing error, the words with the CRC word, and the instant of the first bit of its SOF in 1/256 ns into the
heat. -/
structure VirasRx where
  chan : Nat
  branch : Option Nat
  ok : Bool
  words : List Nat
  at_ : Nat
deriving DecidableEq, Repr

end Sys2Proof
end

