-- ==== Sys2Proof/Syntax.lean ====
section
/-!
DEFINITION. The events and commands of the Plenik 16: one constructor per row of spec/opcode_table.json, in the table's
order. The docstring of each gives the row's mnemonic and the rule that the table names for it.
-/

namespace Sys2Proof

/-- The rows of the opcode table. -/
inductive Instr where
  /-- STRIKE (R57): The nanosecond counter reaches the active heat length, and the strike unit performs snapshot, activation,
  sampling, latching, time and status in order. -/
  | strike (x : StrikeIn)
  /-- TIME_JUMP (R538): At the next strike of the adopted time the device adopts the cluster heat number and length, discards staged
  items and enters INTEGRATE. -/
  | timeJump (x : StrikeIn)
  /-- SEAL_POINT (R73): The nanosecond counter reaches the heat length minus the seal guard and the device judges overrun of the
  heat; `h` is the number of that heat. -/
  | sealPoint (h : Heat)
  /-- STK_NS_READ (R55): A read of STK_NS copies the heat number into the requester's shadow. -/
  | stkNsRead (r : LinkId)
  /-- COUNTER_LOW_READ (R22): A 32-bit read of a counter's low half copies its high half into the requester's shadow. -/
  | counterLowRead (r : LinkId) (bank : Bool) (key : Nat)
  /-- REGISTER_WRITE (R10): A write to a register without a row of its own acts on its fields as their access codes state. -/
  | registerWrite (w : RegWrite)
  /-- STK_SHARES_WRITE (R87): A write to STK_SHARES is refused when its shares sum above 90, and otherwise stored with clamping for
  the next strike. -/
  | stkSharesWrite (v : Word)
  /-- STRIKE_IO_PULSE_END (R85): STK_IO_PULSE ns after a strike, an output in PULSE mode goes low. -/
  | strikeIoPulseEnd
  /-- MBOX_CLAIM (R183): A write of a link to CMD_MBOX_OWNER while it reads 0 claims the mailbox. -/
  | mboxClaim (l : LinkId) (v : Nat)
  /-- MBOX_RELEASE (R183): A write of 0 by the owner's link while BUSY is 0 releases and clears the mailbox. -/
  | mboxRelease (l : LinkId)
  /-- QUEUE_ENABLE (R186): Setting CTRL.ENABLE resets the queue's indices and phase and starts service. -/
  | queueEnable (f : Nat)
  /-- QUEUE_DISABLE (R187): Clearing CTRL.ENABLE lets the current command finish, discards open chains and held replies and stops
  taking commands. -/
  | queueDisable (f : Nat)
  /-- QUEUE_IDLE (R187): A disabled queue whose last command has finished sets STATE to IDLE and applies a pending enable. -/
  | queueIdle (f : Nat)
  /-- DOORBELL_PRODUCER (R110): A producer index written to a command, transmit or receive doorbell adds new entries to the ring. -/
  | doorbellProducer (f slot : Nat) (rx : Bool) (idx : BitVec 16)
  /-- DOORBELL_CONSUMER (R780): A consumer index written to a reply ring or completion queue doorbell frees entries, or is ignored
  and counted when beyond those written. -/
  | doorbellConsumer (f slot : Nat) (idx : BitVec 16)
  /-- ARM (R778): A doorbell write with ARM 1 arms the queue's vector, firing at once when unconsumed entries remain. -/
  | arm (f slot : Nat) (idx : BitVec 16)
  /-- REPLY_HELD_WRITE (R180): A reply waiting for room in the reply ring is written once room appears. -/
  | replyHeldWrite (f : Nat)
  /-- MSIX_MESSAGE (R130): A pending, unmasked vector past its holdoff and per-heat limit sends its message. -/
  | msixMessage (f v : Nat)
  /-- MMIO_ACCESS (R108): A BAR access of unsupported size or alignment is completed with Completer Abort or ignored and counted. -/
  | mmioAccess (a : BarAccess) (write ecrc : Bool)
  /-- MMIO_POISON (R148): A poisoned memory write to BAR0 or BAR2 is discarded and reported. -/
  | mmioPoison (f : Nat) (ecrc : Bool)
  /-- UNSUPPORTED_REQUEST (R148): A request to an unimplemented BAR, an I/O or Type 1 configuration request, or a write while Memory
  Space Enable is 0 gets Unsupported Request. -/
  | unsupportedRequest (l : LinkId) (ecrc : Bool)
  /-- MALFORMED (R148): A malformed TLP is discarded and reported as fatal. -/
  | malformed (l : LinkId)
  /-- UNEXPECTED_COMPLETION (R148): An unexpected completion is discarded and reported as advisory. -/
  | unexpectedCompletion (l : LinkId) (ecrc : Bool)
  /-- DMA_READ_COMPLETION (R113): A completion to a DMA read delivers descriptor, command or data bytes to the requesting engine. -/
  | dmaReadCompletion (d : DmaRead)
  /-- DMA_TIMEOUT (R149): A DMA read completion timeout stops the queue in ERROR and sends vector 0. -/
  | dmaTimeout (f : Nat) (qp : Option Nat)
  /-- ATS_INVALIDATE (R124): An ATS Invalidate Request removes cached translations and is answered within 10 µs. -/
  | atsInvalidate (f page count : Nat)
  /-- LINK_UP (R150): A host link trains and operates at its trained width and speed. -/
  | linkUp (l : LinkId) (width speed : Nat) (flit : Bool)
  /-- LINK_RESET (R143): PERST assertion, Hot Reset or Data Link Down resets every function of the link and retraining begins. -/
  | linkReset (l : LinkId) (kind : LinkResetKind)
  /-- PERST_DEASSERT (R691): Deassertion of a link's PERST starts its training no earlier than 1 ms after the release of RST_N. -/
  | perstDeassert (l : LinkId)
  /-- FLR (R144): A function-level reset stops fetching for the function and clears its state of Table 3.9. -/
  | flr (f : Nat)
  /-- FLR_COMPLETE (R144): An FLR completes with no request of the function pending. -/
  | flrComplete (f : Nat)
  /-- BUS_MASTER_CLEAR (R140): Clearing Bus Master Enable stops further requests and holds pending replies and vectors. -/
  | busMasterClear (f : Nat)
  /-- D3HOT_ENTRY (R132): A function entering D3hot stops its DMA and its frames are dropped and counted. -/
  | d3hotEntry (f : Nat)
  /-- D0_RETURN (R132): A function returning to D0 resumes where it stopped. -/
  | d0Return (f : Nat)
  /-- VF_ENABLE_SET (R146): Setting VF Enable attaches each present VF to the instance assigned to its position. -/
  | vfEnableSet (l : LinkId) (n : Nat)
  /-- VF_ENABLE_CLEAR (R146): Clearing VF Enable removes the VFs and leaves their instances DETACHED. -/
  | vfEnableClear (l : LinkId)
  /-- TX_DESCRIPTOR_FETCH_DONE (R30): Completion of a transmit descriptor fetch fixes the configuration and starts processing of the
  host frame. -/
  | txDescriptorFetchDone (t : TxFetch)
  /-- FRAME_RECEIVED (R290): A frame received in STORE mode, or a short frame, is filtered and passed to a packet pipeline. -/
  | frameReceived (x : RxFrame)
  /-- CUT_HANDOFF (R291): In CUT mode, 256 received bytes pass a frame to a pipeline before its tail. -/
  | cutHandoff (h : CutHead)
  /-- FRAME_TAIL (R292): The tail of a CUT frame arrives and the frame is marked slag on a bad tail. -/
  | frameTail (t : CutTail)
  /-- CTRL_FRAME_PAUSE (R296): A received PAUSE frame holds all classes for its quanta. -/
  | ctrlFramePause (p q : Nat)
  /-- CTRL_FRAME_PFC (R296): A received PFC frame holds each enabled class for its quanta. -/
  | ctrlFramePfc (p mask : Nat) (quanta : List Nat)
  /-- CTRL_MALFORMED (R325): A malformed MAC control frame is ignored and counted. -/
  | ctrlMalformed (p opcode : Nat)
  /-- PAUSE_EXPIRY (R296): The quanta of a received pause run out and the class may start frames again. -/
  | pauseExpiry (p c : Nat)
  /-- PFC_REPEAT (R298): Half of the quanta time elapses while a class stays above XOFF and the pause frame is repeated. -/
  | pfcRepeat (p c : Nat)
  /-- PAUSE_CAP_HIT (R299): Own pause time of a class reaches 500 µs in a window and quanta 0 is sent. -/
  | pauseCapHit (p c : Nat)
  /-- PAUSE_WINDOW_END (R299): A 1 ms pause duty window ends and the next begins. -/
  | pauseWindowEnd (p : Nat)
  /-- PAUSE_STORM (R300): Received pause holds a class for WD_LIMIT, its queue is flushed and pause is ignored for RECOVERY. -/
  | pauseStorm (p c : Nat)
  /-- RECOVERY_END (R300): The RECOVERY time of a class ends and received pause is honoured again. -/
  | recoveryEnd (p c : Nat)
  /-- VERIFY_TIMER (R302): VERIFY_TIME elapses and another verify mPacket is sent, or verification fails after three. -/
  | verifyTimer (p : Nat)
  /-- RESPOND_MPACKET (R302): A valid respond mPacket makes verification SUCCEEDED and preemption active. -/
  | respondMpacket (p : Nat)
  /-- VERIFY_MPACKET (R302): A peer's verify mPacket is answered with a respond mPacket. -/
  | verifyMpacket (p : Nat)
  /-- HOLD_ASSERT (R304): HOLD_ADVANCE before a SET_AND_HOLD entry, HOLD is asserted. -/
  | holdAssert (p : Nat)
  /-- HOLD_RELEASE (R304): RELEASE_ADVANCE before a SET_AND_RELEASE entry, HOLD is released. -/
  | holdRelease (p : Nat)
  /-- GATE_ENTRY_BOUNDARY (R305): A gate list entry interval ends and the next entry's gate states apply. -/
  | gateEntryBoundary (p : Nat)
  /-- GATE_ACTIVE (R308): A pending gate list reaches its start and becomes operational. -/
  | gateActive (p : Nat)
  /-- FRAME_TX_START (R309): The scheduler grants an eligible frame, shapers are charged and transmission starts. -/
  | frameTxStart (root : Nat) (tsPend : Nat) (badCell : Option Nat) (ecc : List EccHit)
  /-- FRAME_TX_DONE (R380): A frame's last byte enters the MAC transmit FIFO and its cells are released. -/
  | frameTxDone (root : Nat)
  /-- HOST_WRITE_DONE (R247): A frame's host write completes, its completion entry is written and its cells are released. -/
  | hostWriteDone (l : LinkId) (d : RxDesc) (mem : TableMem)
  /-- STALE_DROP (R406): A frame at the head of its queue for TM_STALE_MAX is discarded. -/
  | staleDrop (root owner cls : Nat)
  /-- AGING_SLICE (R359): The management complex visits the heat's slice of flow entries, ageing out idle ones. -/
  | agingSlice (n : Nat) (hits : List Nat)
  /-- FLUSH_DONE (R370): A FLOW_FLUSH completes in the aging engine and replies. -/
  | flushDone
  /-- LOG_FLUSH_WORK (R667): The due log flush writes unflushed entries to the log partition as log work. -/
  | logFlushWork
  /-- CHAIN_OPEN (R179): A chain not closed within 64 heats is discarded with ABORTED replies. -/
  | chainOpen (f : Nat)
  /-- FW_RESTART (R195): The firmware watchdog fires after 10 ms without progress and Odjan restarts. -/
  | fwRestart
  /-- FW_RUN (R697): Odjan reaches RUN, creates instances 0 and 2, records deferred events and issues the stored port chain. -/
  | fwRun
  /-- NOP (R169): Command 0x0101 does nothing and replies DONE. -/
  | nop (c : Cmd)
  /-- GET_DEVICE_INFO (R2): Command 0x0102 returns device ID, revision, firmware version, image and Viras role. -/
  | getDeviceInfo (c : Cmd)
  /-- GET_SERIAL (R647): Command 0x0103 returns the 128-bit serial number. -/
  | getSerial (c : Cmd)
  /-- GET_QUEUE_INFO (R168): Command 0x0104 returns a queue's backlog, level, weight, charge and cap. -/
  | getQueueInfo (c : Cmd)
  /-- SET_HEAT_LENGTH (R39): Command 0x0201 stages a new heat length. -/
  | setHeatLength (c : Cmd)
  /-- GET_TIME (R56): Command 0x0202 returns heat, nanoseconds and precision class from one edge. -/
  | getTime (c : Cmd)
  /-- QUERY_STAGED (R88): Command 0x0203 returns sealed items of a landing heat and pending landing heats. -/
  | queryStaged (c : Cmd)
  /-- CANCEL_STAGED (R93): Command 0x0204 cancels the staged items of a tagged command. -/
  | cancelStaged (c : Cmd)
  /-- BARRIER (R97): Command 0x0205 seals at once and returns its landing heat. -/
  | barrier (c : Cmd)
  /-- COMMIT_OPEN (R548): Command 0x0220 opens a cluster unit with a commit ID, mask and target heat. -/
  | commitOpen (c : Cmd)
  /-- COMMIT_CANCEL (R559): Command 0x0221 discards a cluster unit before it arms. -/
  | commitCancel (c : Cmd)
  /-- COMMIT_QUERY (R550): Command 0x0222 returns the phase and accepted reports of a cluster unit. -/
  | commitQuery (c : Cmd)
  /-- INS_CREATE (R201): Command 0x0301 stages creation of an instance with its classes and grants. -/
  | insCreate (c : Cmd)
  /-- INS_DESTROY (R204): Command 0x0302 stages release of an instance. -/
  | insDestroy (c : Cmd)
  /-- INS_RESIZE (R217): Command 0x0303 stages new grants of an elastic instance. -/
  | insResize (c : Cmd)
  /-- INS_SET_LIMITS (R233): Command 0x0304 stages an instance's limiters, weight, level and cap. -/
  | insSetLimits (c : Cmd)
  /-- INS_QUERY (R235): Command 0x0305 returns a page of an instance's grants and limits. -/
  | insQuery (c : Cmd)
  /-- POOL_QUERY (R209): Command 0x0306 returns total, granted, reserved and free of a pool. -/
  | poolQuery (c : Cmd)
  /-- QP_CONFIG (R214): Command 0x0310 configures the rings and vector of a queue pair. -/
  | qpConfig (c : Cmd)
  /-- QP_START (R214): Command 0x0311 resets ring positions and makes a queue pair RUNNING. -/
  | qpStart (c : Cmd)
  /-- QP_STOP (R216): Command 0x0312 stops a queue pair once its requests complete. -/
  | qpStop (c : Cmd)
  /-- QP_STATE (R214): Command 0x0313 returns a queue pair's state. -/
  | qpState (c : Cmd)
  /-- ITU_SET_ROOT (R228): Command 0x0401 sets an instance's root table and invalidates its IOTLB entries. -/
  | ituSetRoot (c : Cmd)
  /-- ITU_INVALIDATE (R226): Command 0x0402 removes IOTLB entries of a scope and waits for their accesses. -/
  | ituInvalidate (c : Cmd)
  /-- ITU_PROBE (R224): Command 0x0403 walks an address without installing or faulting. -/
  | ituProbe (c : Cmd) (mem : TableMem)
  /-- ITU_FAULT_READ (R242): Command 0x0404 removes and returns the oldest fault record. -/
  | ituFaultRead (c : Cmd)
  /-- PORT_CONFIG (R252): Command 0x0501 stages a port's group, rates, flags or removal. -/
  | portConfig (c : Cmd)
  /-- PORT_BANK (R268): Command 0x0502 stages entry to or exit from the banked state. -/
  | portBank (c : Cmd)
  /-- PORT_STATUS (R253): Command 0x0503 returns a port's state, failed lanes and last change. -/
  | portStatus (c : Cmd)
  /-- LN_SET_EQ (R281): Command 0x0504 sets a lane's equalisation mode and taps. -/
  | lnSetEq (c : Cmd)
  /-- LN_GET_EQ (R288): Command 0x0505 returns a lane's taps and mode. -/
  | lnGetEq (c : Cmd)
  /-- PORT_RESTORE (R267): Command 0x0506 stages a restore of a degraded port to its configured width. -/
  | portRestore (c : Cmd)
  /-- LN_DIAG (R273): Command 0x0507 starts or stops a diagnostic mode on unassigned lanes. -/
  | lnDiag (c : Cmd)
  /-- LN_DIAG_RESULT (R274): Command 0x0508 returns diagnostic error counts or the highest rate swept. -/
  | lnDiagResult (c : Cmd)
  /-- MAC_SET_RX (R290): Command 0x0601 stages a port's receive mode and MAX_FRAME. -/
  | macSetRx (c : Cmd)
  /-- MAC_SET_FC (R298): Command 0x0602 stages a port's flow-control settings. -/
  | macSetFc (c : Cmd)
  /-- MAC_SET_PREEMPT (R316): Command 0x0603 stages a port's preemption settings. -/
  | macSetPreempt (c : Cmd)
  /-- GATE_SET (R307): Command 0x0604 stages a new gate list. -/
  | gateSet (c : Cmd)
  /-- GATE_DISABLE (R320): Command 0x0605 stages opening of every gate and discards lists. -/
  | gateDisable (c : Cmd)
  /-- GATE_STATUS (R308): Command 0x0606 returns a port's gate list state. -/
  | gateStatus (c : Cmd)
  /-- FC_STATUS (R299): Command 0x0607 returns a port's pause, recovery, cap and preemption state. -/
  | fcStatus (c : Cmd)
  /-- FC_WD_RELEASE (R300): Command 0x0608 ends RECOVERY at once for named classes. -/
  | fcWdRelease (c : Cmd)
  /-- RULE_WRITE (R354): Command 0x0701 writes ordered entries, staged or immediate. -/
  | ruleWrite (c : Cmd)
  /-- RULE_DELETE (R354): Command 0x0702 deletes ordered entries, staged or immediate. -/
  | ruleDelete (c : Cmd)
  /-- RULE_READ (R338): Command 0x0703 copies an ordered entry image to host memory. -/
  | ruleRead (c : Cmd)
  /-- RULE_COUNT (R344): Command 0x0704 returns an ordered entry's frame and byte counts. -/
  | ruleCount (c : Cmd)
  /-- FLOW_INSERT (R356): Command 0x0710 inserts or replaces flow entries. -/
  | flowInsert (c : Cmd)
  /-- FLOW_DELETE (R354): Command 0x0711 deletes flow entries by key. -/
  | flowDelete (c : Cmd)
  /-- FLOW_LOOKUP (R338): Command 0x0713 looks up a flow key and returns its counts. -/
  | flowLookup (c : Cmd)
  /-- FLOW_FLUSH (R370): Command 0x0714 starts removal of flow entries by BD, target or learned state. -/
  | flowFlush (c : Cmd)
  /-- FLOW_AGED_READ (R360): Command 0x0715 removes the oldest aged notice. -/
  | flowAgedRead (c : Cmd)
  /-- CAPTURE_READ (R350): Command 0x0716 removes a frame from the Hearth capture ring. -/
  | captureRead (c : Cmd)
  /-- SRC_CONFIG (R361): Command 0x0720 stages a source's BD, learning, key layer, flow key and RSS bits. -/
  | srcConfig (c : Cmd)
  /-- BD_CONFIG (R345): Command 0x0721 stages a bridge domain's unknown action, learning and flood group. -/
  | bdConfig (c : Cmd)
  /-- REWRITE_SET (R353): Command 0x0722 stages a rewrite profile. -/
  | rewriteSet (c : Cmd)
  /-- TUNNEL_SET (R352): Command 0x0723 stages a tunnel profile. -/
  | tunnelSet (c : Cmd)
  /-- MIRROR_SET (R349): Command 0x0724 stages a mirror session. -/
  | mirrorSet (c : Cmd)
  /-- PARSER_PORTS (R361): Command 0x0725 stages the VXLAN, GENEVE and NVMe/TCP ports. -/
  | parserPorts (c : Cmd)
  /-- TM_SHAPER_SET (R388): Command 0x0801 stages a shaper or limiter setting. -/
  | tmShaperSet (c : Cmd)
  /-- TM_GROUP_SET (R396): Command 0x0802 stages a scheduler group. -/
  | tmGroupSet (c : Cmd)
  /-- TM_OWNER_SET (R399): Command 0x0803 stages an owner's group and weight. -/
  | tmOwnerSet (c : Cmd)
  /-- TM_CLASS_SCHED (R384): Command 0x0804 stages the strict mask and class weights of a root. -/
  | tmClassSched (c : Cmd)
  /-- TM_ADMIT_SET (R382): Command 0x0805 stages admission thresholds of a port. -/
  | tmAdmitSet (c : Cmd)
  /-- TM_QLIM_SET (R378): Command 0x0806 stages QLIM of a root. -/
  | tmQlimSet (c : Cmd)
  /-- TM_SRC_CLASS (R374): Command 0x0807 stages a source's trust, default class and colour setting. -/
  | tmSrcClass (c : Cmd)
  /-- TM_POLICER_SET (R404): Command 0x0810 stages a policer. -/
  | tmPolicerSet (c : Cmd)
  /-- TM_POLICER_READ (R410): Command 0x0811 copies a policer's counts to host memory. -/
  | tmPolicerRead (c : Cmd)
  /-- TM_SHAPER_READ (R410): Command 0x0812 returns a shaper's tokens and FORGIVEN count. -/
  | tmShaperRead (c : Cmd)
  /-- KEK_LOAD (R421): Command 0x0901 loads a key-store slot in the clear or wrapped. -/
  | kekLoad (c : Cmd)
  /-- KEK_ERASE (R452): Command 0x0902 erases an unused key-store slot. -/
  | kekErase (c : Cmd)
  /-- CTX_SET (R422): Command 0x0903 sets a cipher context's kind, algorithm, keys and state. -/
  | ctxSet (c : Cmd)
  /-- CTX_KEY (R436): Command 0x0904 stages a key rotation, or for TLS_RX names the record after which the key changes. -/
  | ctxKey (c : Cmd)
  /-- CTX_BIND (R418): Command 0x0905 binds or unbinds a context to its receive key. -/
  | ctxBind (c : Cmd)
  /-- CTX_QUERY (R415): Command 0x0906 returns a context's state, sequence and counts. -/
  | ctxQuery (c : Cmd)
  /-- CTX_SAVE (R439): Command 0x0907 writes a 320-byte context image. -/
  | ctxSave (c : Cmd)
  /-- CTX_RESTORE (R442): Command 0x0908 checks and restores a context image. -/
  | ctxRestore (c : Cmd)
  /-- CTX_CLEAR (R443): Command 0x0909 returns an unbound context to UNSET. -/
  | ctxClear (c : Cmd)
  /-- TLS_RESYNC (R434): Command 0x090A names a record start to resume a TLS_RX context in RESYNC. -/
  | tlsResync (c : Cmd)
  /-- REPLAY_SET (R441): Command 0x090B sets an instance's EXPORT_CNT and FLOOR. -/
  | replaySet (c : Cmd)
  /-- SECY_SET (R423): Command 0x090C stages a port's SecY settings. -/
  | secySet (c : Cmd)
  /-- STO_CONN_SET (R459): Command 0x0A01 sets a storage connection on a queue pair. -/
  | stoConnSet (c : Cmd)
  /-- STO_CONN_CLEAR (R484): Command 0x0A02 clears a storage connection and frees its slots. -/
  | stoConnClear (c : Cmd)
  /-- STO_CONN_QUERY (R459): Command 0x0A03 returns a connection's state and counts. -/
  | stoConnQuery (c : Cmd)
  /-- STO_RESYNC (R479): Command 0x0A04 names a PDU header to resume a connection in RESYNC. -/
  | stoResync (c : Cmd)
  /-- STO_NS_SET (R462): Command 0x0A10 sets or removes a namespace entry. -/
  | stoNsSet (c : Cmd)
  /-- STO_NS_QUOTA (R462): Command 0x0A11 stages an instance's namespace quota. -/
  | stoNsQuota (c : Cmd)
  /-- STO_NS_QUERY (R462): Command 0x0A12 returns a namespace entry. -/
  | stoNsQuery (c : Cmd)
  /-- SCHED_LOAD (R517): Command 0x0B01 checks and stages a Viras schedule image. -/
  | schedLoad (c : Cmd)
  /-- TIM_JOIN (R553): Command 0x0B02 moves the time state from OFF to LISTEN. -/
  | timJoin (c : Cmd)
  /-- TIM_LEAVE (R528): Command 0x0B03 returns the time state to OFF and aborts pending units. -/
  | timLeave (c : Cmd)
  /-- TIM_QUERY (R532): Command 0x0B04 returns the time state, class and corrections. -/
  | timQuery (c : Cmd)
  /-- TIM_STEER (R545): Command 0x0B05 stages a steering rate. -/
  | timSteer (c : Cmd)
  /-- TIM_PTP_MAP (R544): Command 0x0B06 stages the mapping from device time to PTP time. -/
  | timPtpMap (c : Cmd)
  /-- TRI_SET (R590): Command 0x0C01 stages configuration or removal of a triad. -/
  | triSet (c : Cmd)
  /-- TRI_QUERY (R569): Command 0x0C02 returns a triad's last word, causes and owner. -/
  | triQuery (c : Cmd)
  /-- TRI_HANDOVER (R593): Command 0x0C03 stages an orderly handover by the owner. -/
  | triHandover (c : Cmd)
  /-- TRI_REARM (R577): Command 0x0C04 clears the latched MEM cause. -/
  | triRearm (c : Cmd)
  /-- TRI_ISO_CLEAR (R588): Command 0x0C05 clears the ISOLATE discrepancy latch. -/
  | triIsoClear (c : Cmd)
  /-- TRI_FORCE (R594): Command 0x0C06 makes a fit member OWNER at the next strike without checks. -/
  | triForce (c : Cmd)
  /-- PWR_SET (R630): Command 0x0D01 stages power settings for a strike. -/
  | pwrSet (c : Cmd)
  /-- THM_SET (R630): Command 0x0D02 stages temperature settings for a strike. -/
  | thmSet (c : Cmd)
  /-- PWR_QUERY (R605): Command 0x0D03 returns ratio, ceiling, floor, bands and current. -/
  | pwrQuery (c : Cmd)
  /-- THM_QUERY (R622): Command 0x0D04 returns temperature, hottest sensor and throttle state. -/
  | thmQuery (c : Cmd)
  /-- PWR_INJECT (R641): Command 0x0D05 imitates a sag or alert source for a duration. -/
  | pwrInject (c : Cmd)
  /-- INJECT_END (R641): The duration of an injected source ends and the source is released. -/
  | injectEnd (src : Nat)
  /-- THM_CLEAR_LATCH (R629): Command 0x0D06 clears THM_TRIP. -/
  | thmClearLatch (c : Cmd)
  /-- NVM_INFO (R653): Command 0x0E01 returns flash size, boot header state and SVNs. -/
  | nvmInfo (c : Cmd)
  /-- NVM_CFG_WRITE (R662): Command 0x0E02 appends a configuration record by journalled write. -/
  | nvmCfgWrite (c : Cmd)
  /-- NVM_CFG_READ (R662): Command 0x0E03 copies the current value of a key to host memory. -/
  | nvmCfgRead (c : Cmd)
  /-- NVM_PROV_WRITE (R663): Command 0x0E04 appends a provisioning record. -/
  | nvmProvWrite (c : Cmd)
  /-- FW_BEGIN (R658): Command 0x0E10 opens an update session and erases the inactive image. -/
  | fwBegin (c : Cmd)
  /-- FW_WRITE (R658): Command 0x0E11 programs and reads back image data. -/
  | fwWrite (c : Cmd)
  /-- FW_END (R654): Command 0x0E12 checks the inactive image and closes the session. -/
  | fwEnd (c : Cmd)
  /-- FW_ACTIVATE (R658): Command 0x0E13 makes a verified image ACTIVE in trial. -/
  | fwActivate (c : Cmd)
  /-- FW_CONFIRM (R656): Command 0x0E14 clears TRIAL. -/
  | fwConfirm (c : Cmd)
  /-- FW_ABORT (R658): Command 0x0E15 closes the session and marks the image EMPTY. -/
  | fwAbort (c : Cmd)
  /-- SVN_COMMIT (R657): Command 0x0E16 raises the SVN floor to the running image's SVN. -/
  | svnCommit (c : Cmd)
  /-- LOG_READ (R783): Command 0x0E20 copies log entries from a given SEQ to host memory. -/
  | logRead (c : Cmd)
  /-- LOG_FLUSH (R667): Command 0x0E21 flushes the log and returns LOG_SEQ_FLUSHED. -/
  | logFlush (c : Cmd)
  /-- LOG_CLEAR_FAIL (R673): Command 0x0E22 clears LOG_MEM_FAIL. -/
  | logClearFail (c : Cmd)
  /-- LOG_MARK (R783): Command 0x0E23 records a HOST_MARK event. -/
  | logMark (c : Cmd)
  /-- ID_CERT_READ (R649): Command 0x0E30 copies the identity certificate to host memory. -/
  | idCertRead (c : Cmd)
  /-- ID_ATTEST (R650): Command 0x0E31 writes a signed attestation record. -/
  | idAttest (c : Cmd)
  /-- ECHO (R166): Command 0x0F01 returns its parameters. -/
  | echo (c : Cmd)
  /-- BURN (R171): Command 0x0F02 occupies a management core for a given CU count. -/
  | burn (c : Cmd)
  /-- FLASH_OP_DONE (R660): A flash program, erase or read-back completes and the journalled write advances or ends. -/
  | flashOpDone (ok : Bool)
  /-- SESSION_TIMEOUT (R658): An update session idle for 60 s is aborted. -/
  | sessionTimeout
  /-- AUTO_CONFIRM (R659): After 60 s in RUN without restart, Odjan confirms a trial image. -/
  | autoConfirm
  /-- PORT_UP (R253): Training of a port completes and it becomes UP or DEGRADED, as its link resolved. -/
  | portUp (p : Nat) (r : LinkResult)
  /-- LANE_SIGNAL_LOSS (R262): A lane loses signal, lock or alignment and the port goes DOWN. -/
  | laneSignalLoss (n reason : Nat)
  /-- LANE_SIGNAL_RETURN (R262): A short loss ends and the port returns to UP without retraining. -/
  | laneSignalReturn (n : Nat)
  /-- LANE_FAILED (R263): A loss lasting 1 ms fails the lane and the port is degraded or taken DOWN. -/
  | laneFailed (ns : List (Nat × Nat))
  /-- LANE_RECOVERED (R264): A lane failed by loss is healthy again after 100 ms of signal. -/
  | laneRecovered (n : Nat)
  /-- TRAIN_FAIL (R257): A bring-up attempt without link up after 500 ms fails and is retried. -/
  | trainFail (p : Nat)
  /-- PLL_LOCK_FAIL (R287): A lane PLL not locked within 500 µs fails the lane. -/
  | pllLockFail (n : Nat)
  /-- LANE_POWER_STEP (R271): After each 20 µs interval the next lane is powered up or down. -/
  | lanePowerStep
  /-- AUTO_RESTORE (R267): After 1 s with all lanes healthy the device stages a restore. -/
  | autoRestore (p : Nat)
  /-- SWEEP_STEP (R274): A rate sweep step ends its settle or count time and moves to the next rate or stops. -/
  | sweepStep (anchor errors : Nat)
  /-- AN_PAGE (R255): A Clause 73 page is received during auto-negotiation. -/
  | anPage (p : Nat) (page : AnPage)
  /-- COEFF_REQUEST (R730): A peer's coefficient request during training is applied or held at the limit. -/
  | coeffRequest (n tap : Nat) (delta : Int)
  /-- REF_LOST (R760): SYS_REFCLK is declared lost, the reference runs on the oscillator, lanes drop and precision falls to T3. -/
  | refLost
  /-- REF_RETURNED (R760): SYS_REFCLK has been good for 10 ms, the reference switches back and ports retrain. -/
  | refReturned
  /-- VIRAS_FRAME_TX (R503): At its action point, the device sends its frame in an owned slot on each usable channel. -/
  | virasFrameTx (n lag : Nat)
  /-- GUARD_WINDOW_CLOSE (R506): A guardian window closes and any frame still driven is cut. -/
  | guardWindowClose (n c : Nat)
  /-- VIRAS_COPY_RECEIVED (R512): A copy of a round frame arrives on a channel and is judged good or counted as an error. -/
  | virasCopyReceived (x : VirasRx)
  /-- SLOT_VIOLATION (R525): A hub blocks input on a branch outside its windows. -/
  | slotViolation (c b : Nat)
  /-- BRANCH_SHUT (R525): A branch cut in 16 consecutive heats is shut. -/
  | branchShut (c b : Nat)
  /-- BRANCH_RESTART (R525): 1 s after a branch is shut, its ladder restarts. -/
  | branchRestart (c b : Nat)
  /-- SLOT_END_VOTE (R513): At the end of a slot, the good copies are voted and accepted content is passed on. -/
  | slotEndVote (n : Nat)
  /-- LAST_SLOT_END (R532): At the end of the last slot of a heat, offset correction is computed and spread over the network idle
  time. -/
  | lastSlotEnd
  /-- CHAN_DOWN (R523): A channel without a good copy for 8 consecutive heats goes DOWN. -/
  | chanDown (c : Nat)
  /-- CHAN_UP (R523): A channel with good copies in 2 consecutive heats is UP again. -/
  | chanUp (c : Nat)
  /-- HELLO (R507): Upstream checks a HELLO and replies HELLO_ACK or REJECT. -/
  | hello (c b w0 w1 : Nat)
  /-- HELLO_ACK (R507): Downstream receives HELLO_ACK and the ladder proceeds. -/
  | helloAck (c w0 w1 : Nat)
  /-- RATE_REQ (R507): Downstream answers a RATE_REQ with RATE_ACK. -/
  | rateReq (c w0 : Nat)
  /-- RATE_ACK (R507): Upstream receives RATE_ACK and both ends prepare to switch rate. -/
  | rateAck (c b w0 : Nat)
  /-- RATE_SWITCH (R507): 10 µs after the EOF of RATE_ACK both ends switch to the next rate. -/
  | rateSwitch (k : Nat)
  /-- PING (R508): Downstream receives a PING and schedules its PONG. -/
  | ping (c : Nat)
  /-- PONG_SEND (R508): 2,000 ns after receiving a PING, downstream sends PONG. -/
  | pongSend (c : Nat)
  /-- PONG (R508): Upstream receives a PONG, measures the round trip and sends the next PING or READY. -/
  | pong (c b rt : Nat)
  /-- READY (R507): Downstream receives READY with its path delay and the link becomes UP at the next strike. -/
  | ready (c p : Nat)
  /-- REJECT (R507): A REJECT holds the link idle for 1 s. -/
  | reject (c reason : Nat)
  /-- LADDER_BAD (R526): A ladder message with bad CRC or unknown or out-of-order MSG is ignored and counted. -/
  | ladderBad (k msg : Nat)
  /-- HELLO_TIMER (R507): Every 1 ms downstream sends HELLO. -/
  | helloTimer (c : Nat)
  /-- LADDER_TIMEOUT (R507): A ladder wait for lock, HELLO_ACK or PONG runs out and the link restarts, retries or enters LOW. -/
  | ladderTimeout (k : Nat)
  /-- LADDER_HOLD_END (R510): After a REJECT hold or 1 s on a LOW link, the ladder restarts. -/
  | ladderHoldEnd (k : Nat)
  /-- COLDSTART (R539): A sync node in LISTEN for 3 plus rank heats enters COLDSTART. -/
  | coldstart
  /-- SYNC_LOST (R543): 8 consecutive invalid heats put a device in SYNC into HOLDOVER. -/
  | syncLost
  /-- HOLDOVER_END (R543): After 1 s in HOLDOVER the device enters LISTEN. -/
  | holdoverEnd
  /-- ISOLATE_LEVEL_CHANGE (R586): Three consecutive samples change the filtered level of an ISOLATE input. -/
  | isolateLevelChange (b level : Bool)
  /-- ISO_DISCREPANCY (R588): Disagreeing ISOLATE levels for DISC_MS latch DISCREPANCY. -/
  | isoDiscrepancy
  /-- ANNOUNCEMENT (R583): At each 1 ms interval a new owner sends its next gratuitous ARP or Neighbor Advertisement. -/
  | announcement (t : Nat)
  /-- DROOP_SOFT (R607): A detector goes below SOFT and the ratio steps down within 2 core cycles. -/
  | droopSoft (d : Nat)
  /-- DROOP_SOFT_STEP (R607): Each further 20 ns below SOFT lowers the ratio one more step. -/
  | droopSoftStep (mask : Nat)
  /-- DROOP_HARD (R609): A detector goes below HARD and the ratio goes to 1/4. -/
  | droopHard (d : Nat)
  /-- HARD_END (R609): No detector is below HARD and the floor binds again. -/
  | hardEnd (mask : Nat)
  /-- HOLD_EXPIRY (R610): The hold time passes without sag or alert and the ratio steps up once. -/
  | holdExpiry
  /-- STEP_UP (R610): Each PWR_STEP_UP interval the ratio steps up once more. -/
  | stepUp
  /-- BRD_ALERT (R612): BRD_ALERT_N asserted for 5 ns takes the ratio to PWR_ALERT_CFG.STEP. -/
  | brdAlert
  /-- BRD_ALERT_DEASSERT (R612): BRD_ALERT_N deasserts and recovery may begin. -/
  | brdAlertDeassert
  /-- HINT_LEAD_EXPIRY (R618): The LEAD time after announcing a higher band ends and the current may rise. -/
  | hintLeadExpiry
  /-- DETECTOR_FAIL (R642): A detector below SOFT for 10 ms while 8 others are above is excluded. -/
  | detectorFail (d : Nat)
  /-- SUPPLY_LOW (R643): VDD_CORE below HARD for 1 ms is recorded. -/
  | supplyLow
  /-- SUPPLY_HIGH (R762): VDD_CORE above setpoint plus 40 mV for 1 ms is recorded. -/
  | supplyHigh
  /-- TEMP_WARN (R623): The device temperature reaches WARN. -/
  | tempWarn (t : List Int)
  /-- THROTTLE (R624): The device temperature reaches THROTTLE and the ceiling becomes 3/4. -/
  | throttle (t : List Int)
  /-- THM_STEP (R624): Each THM_STEP_MS interval the thermal ceiling steps down or up. -/
  | thmStep (t : List Int)
  /-- SENSOR_FAIL (R644): An invalid sensor is excluded and recorded. -/
  | sensorFail (k : Nat) (t : List Int)
  /-- QUENCH (R626): The device temperature reaches 115 °C and the orderly shutdown begins. -/
  | quench (t : List Int)
  /-- QUENCH_HALT (R628): After the lanes are down and the flash page finishes or 4 ms pass, the device halts. -/
  | quenchHalt (flashDone : Bool)
  /-- HARD_TRIP (R629): A sensor reaches 125 °C and the analogue circuit holds the core in reset. -/
  | hardTrip (t : List Int)
  /-- POWER_ON_RESET (R689): VDD_AUX falls below 2.7 V and rises again. -/
  | powerOnReset
  /-- STANDBY_RELEASE (R689): VDD_AUX above 2.9 V for 10 ms releases the standby domain reset. -/
  | standbyRelease
  /-- RST_N_ASSERT (R746): RST_N asserted for 5 µs or more causes a warm reset. -/
  | rstNAssert (t : List Int)
  /-- RAIL_DROP (R713): A monitored rail below 90 % of nominal puts the device in warm reset. -/
  | railDrop
  /-- RST_N_RELEASE (R693): Release of RST_N samples the straps and starts strikes and the boot. -/
  | rstNRelease (straps : Nat) (refLost : Bool) (t : List Int)
  /-- BOOT_STAGE_DONE (R694): A boot stage completes and the next begins, or the lifeboat is entered. -/
  | bootStageDone (b : BootIn)
  /-- TEMP_WAIT_RECHECK (R694): Every 10 ms in TEMP_WAIT the temperature is read again. -/
  | tempWaitRecheck (temps : List Int)
  /-- ID_RESET_WARM (R707): A write to ID_RESET with the key and WARM set causes a warm reset after any page program. -/
  | idResetWarm (l : LinkId) (pageDone : Bool)
  /-- ID_RESET_LIFEBOAT (R699): A warm reset requested with LIFEBOAT set enters the lifeboat. -/
  | idResetLifeboat (l : LinkId) (pageDone : Bool)
  /-- RESET_KEY (R707): A write to ID_RESET with a wrong key is ignored and recorded. -/
  | resetKey (l : LinkId)
  /-- SET_ENDPOINT_ID (R674): The MCTP Set Endpoint ID message assigns the port's EID. -/
  | setEndpointId (p op eid : Nat)
  /-- GET_ENDPOINT_ID (R675): The MCTP Get Endpoint ID message is answered. -/
  | getEndpointId (p : Nat)
  /-- GET_MCTP_VERSION_SUPPORT (R675): The MCTP Get MCTP Version Support message is answered. -/
  | getMctpVersionSupport (p mtype : Nat)
  /-- GET_MESSAGE_TYPE_SUPPORT (R675): The MCTP Get Message Type Support message is answered. -/
  | getMessageTypeSupport (p : Nat)
  /-- GET_ENDPOINT_UUID (R675): The MCTP Get Endpoint UUID message returns a UUID of the serial number. -/
  | getEndpointUuid (p : Nat)
  /-- GETTID (R675): The PLDM GetTID command is answered. -/
  | gettid (p : Nat)
  /-- SETTID (R675): The PLDM SetTID command sets the terminus ID. -/
  | settid (p tid : Nat)
  /-- GETPLDMVERSION (R675): The PLDM GetPLDMVersion command is answered. -/
  | getpldmversion (p ptype : Nat)
  /-- GETPLDMTYPES (R675): The PLDM GetPLDMTypes command is answered. -/
  | getpldmtypes (p : Nat)
  /-- GETPLDMCOMMANDS (R675): The PLDM GetPLDMCommands command is answered. -/
  | getpldmcommands (p ptype : Nat)
  /-- GETPDR (R675): The PLDM GetPDR command returns a platform descriptor record. -/
  | getpdr (p handle : Nat)
  /-- GETSENSORREADING (R676): The PLDM GetSensorReading command returns a latched numeric sensor. -/
  | getsensorreading (p sensor : Nat)
  /-- GETSTATESENSORREADINGS (R676): The PLDM GetStateSensorReadings command returns port and time states. -/
  | getstatesensorreadings (p sensor : Nat)
  /-- SETEVENTRECEIVER (R666): The PLDM SetEventReceiver command sets the port's event receiver. -/
  | seteventreceiver (p enable eid : Nat)
  /-- QUERYDEVICEIDENTIFIERS (R675): The PLDM QueryDeviceIdentifiers command returns the serial number. -/
  | querydeviceidentifiers (p : Nat)
  /-- GETFIRMWAREPARAMETERS (R675): The PLDM GetFirmwareParameters command is answered. -/
  | getfirmwareparameters (p : Nat)
  /-- REQUESTUPDATE (R659): The PLDM RequestUpdate command enters update mode or returns ALREADY_IN_UPDATE_MODE. -/
  | requestupdate (p : Nat)
  /-- PASSCOMPONENTTABLE (R659): The PLDM PassComponentTable command is answered. -/
  | passcomponenttable (p : Nat)
  /-- UPDATECOMPONENT (R659): The PLDM UpdateComponent command opens the session and erases the inactive image. -/
  | updatecomponent (p size : Nat)
  /-- REQUESTFIRMWAREDATA (R659): A response to the device's RequestFirmwareData delivers 2,048 bytes of image to be programmed. -/
  | requestfirmwaredata (p : Nat) (data : List Byte)
  /-- ACTIVATEFIRMWARE (R659): The PLDM ActivateFirmware command is accepted and reports that a reset is required. -/
  | activatefirmware (p : Nat)
  /-- GETSTATUS (R675): The PLDM GetStatus command returns the update state. -/
  | getstatus (p : Nat)
  /-- CANCELUPDATECOMPONENT (R675): The PLDM CancelUpdateComponent command cancels the component transfer. -/
  | cancelupdatecomponent (p : Nat)
  /-- CANCELUPDATE (R675): The PLDM CancelUpdate command ends update mode. -/
  | cancelupdate (p : Nat)
  /-- UNSUPPORTED_MESSAGE (R675): An unsupported MCTP message or PLDM command gets the unsupported response. -/
  | unsupportedMessage (p kind cmd : Nat)
  /-- SMBUS_BAD_PEC (R687): A packet with a bad PEC is discarded with its message. -/
  | smbusBadPec (p party mtype : Nat)
  /-- MCTP_BAD_PACKET (R687): A packet with bad header, out of sequence or over length is discarded. -/
  | mctpBadPacket (p party mtype : Nat)
  /-- MCTP_FOREIGN_EID (R732): A packet for another EID is discarded and counted. -/
  | mctpForeignEid (p : Nat)
  /-- ARBITRATION_LOST (R677): The device loses SMBus arbitration, releases the bus and waits to retry. -/
  | arbitrationLost (p : Nat)
  /-- ARBITRATION_RETRY (R677): After bus free and a random back-off the packet is sent again, or the message fails after eight
  retries. -/
  | arbitrationRetry (p : Nat) (lost : Bool)
  /-- SMBUS_SCL_TIMEOUT (R678): SCL held low for 35 ms resets the port. -/
  | smbusSclTimeout (p : Nat)
  /-- SMBUS_SDA_STUCK (R731): SDA held low for 35 ms while waiting resets the transmit state. -/
  | smbusSdaStuck (p ms : Nat)
  /-- BUS_MASTER_SET (R140): Bus Master Enable set again lets waiting replies and completion entries be written in order and held
  vectors be sent. -/
  | busMasterSet (f : Nat)
  /-- BANKED_EXIT_TIMEOUT (R270): When the peer does not complete training from the stored state within 5 ms of the EXIT landing
  strike, the device runs full bring-up. -/
  | bankedExitTimeout (p : Nat)
  /-- REFILL_TICK (R387): Every 8 ns of reference time each shaper and policer bucket is refilled at its rate up to its size. -/
  | refillTick
  /-- GOVERNOR_TICK (R613): Every 8 ns of reference time the current governor raises or ramps down the effective rate E by at most
  SLEW × 8 ns / DYN_FULL and counts held time. -/
  | governorTick (demand : Nat)
  /-- STAR_LINK_DOWN (R763): A star link loses signal or lock, goes DOWN, stops carrying frames and restarts its ladder. -/
  | starLinkDown (k : Nat)
  /-- GUARD_CRC (R524): The guardian's slot table fails its CRC, every window closes and VRS_STATUS.GUARD_CRC is set until a new
  image lands. -/
  | guardCrc
  /-- TEMP_WARN_END (R623): The device temperature falls below WARN − 5 °C and the warning ends, so a new warning may follow. -/
  | tempWarnEnd (t : List Int)
  /-- RAIL_RETURN (R690): VDD_CORE, VDD_SRAM and VDD_IO are all back at 90 % of nominal and the internal reset hold is released. -/
  | railReturn (refLost : Bool)
  /-- DRAM_UNAVAILABLE (R49): Package DRAM becomes unavailable as a whole, the data path stops and cause MEM becomes present for
  every triad. -/
  | dramUnavailable
  /-- MANAGEMENT_SRAM_ERROR (R577): An uncorrectable error in management SRAM makes cause MEM present, and in the lifeboat the boot
  ROM bank failure makes mailbox commands return FAULT. -/
  | managementSramError (ring : Option (List Word)) (romBank : Bool)
deriving DecidableEq, Repr

end Sys2Proof
end

