-- ==== Sys2Proof/Decode.lean ====
section
/-!
DEFINITION. The decoder of the words of spec/opcode_table.json: no row of that table gives bits, so no word spells a
command (log entry 8).
-/

namespace Sys2Proof

/-- The command that a word spells by the table's bits: none, since no row of the table has any. -/
def decodeTableWord (_nbits _w : Nat) : Option Instr := none

end Sys2Proof
end

