-- ==== Sys2Proof/Config.lean ====
section
/-!
DEFINITION. What one implementation or the outside fixes, and the free values: constants with no body, so that no
proof can see a value of theirs (log entries named beside each).
-/

namespace Sys2Proof

/-- A fresh free value for each point the spec leaves open: applied to the counter `State.free` (log entry 1). -/
opaque Config.freeNat : Nat → Nat

/-- Fused values of the die: 0 the setpoint of PWR_VSET above 700 mV, 1 DYN_FULL in mA, 3 the serial number (log entry 2). -/
opaque Config.fuse : Nat → Nat

/-- The fused setpoint of VDD_CORE in mV, within 700–800 (Table 15.9, R632). -/
def Config.vsetFused : Nat := 700 + Config.fuse 0 % 101

/-- DYN_FULL in mA (Table 15.9). -/
def Config.dynFull : Nat := Config.fuse 1 % 2 ^ 24

/-- The 128-bit serial number (R647). -/
def Config.serial : BitVec 128 := BitVec.ofNat 128 (Config.fuse 3)

/-- Static current in mA at a temperature in 1/16 °C, from the table fused at test (current governor; log entry 2). -/
opaque Config.iStatic : Int → Nat

/-- The external cipher standards (log entry 3). Chaining state of an AEAD after key, nonce and additional data:
algorithm code of Table 10.1, key, nonce, additional data to accumulator, counter block and partial block, 48 bytes. -/
opaque Config.aeadInit : Nat → List Byte → List Byte → List Byte → List Byte

/-- One step of an AEAD over more data: algorithm, key, chaining state, true to encrypt, data to output and chaining
state (log entry 3). -/
opaque Config.aeadStep : Nat → List Byte → List Byte → Bool → List Byte → List Byte × List Byte

/-- The 16-byte tag: algorithm, key, nonce, chaining state, additional data length, data length (log entry 3). -/
opaque Config.aeadTag : Nat → List Byte → List Byte → List Byte → Nat → Nat → List Byte

/-- AES-XTS of part of one data unit (IEEE 1619): the two keys, logical block address, true to encrypt, bytes of the unit
before the part, the part. Where a part ends inside a 16-byte block of the unit, the spec does not say what the device
makes of that block's bytes (log entries 3 and 30). -/
opaque Config.xts : List Byte → List Byte → Nat → Bool → List Byte → List Byte → List Byte

/-- CRC-64 of G64 protection information, as the NVM Command Set defines it (R477; log entry 3). -/
opaque Config.crc64 : List Byte → Nat

/-- The device key of key-store slot 0, which the boot ROM derives from the fuses of the die (R419; log entry 2). -/
opaque Config.deviceKey : List Byte

/-- The two candidate buckets of a flow key: key type, key, 0 or 1 (Table 8.9; the spec gives no hash; log entry 26). -/
opaque Config.flowHash : Nat → Nat → Nat → Nat

/-- Fields of tunnel headers that the spec gives no value: field number (0 IPv4 identification, 1 IPv6 flow label, 2 NVGRE
FlowID, 3 outer ECN) and flow hash (R352; log entry 27). -/
opaque Config.encapField : Nat → Nat → Nat

/-- SHA-384 (log entry 3). -/
opaque Config.sha384 : List Byte → List Byte

/-- ECDSA P-384 verification: public key, message, signature (log entry 3). -/
opaque Config.ecdsaVerify : List Byte → List Byte → List Byte → Bool

/-- ECDSA P-384 signature with the die's identity key, whose private key nothing returns (R648): the message to
signature r then s (log entry 3). -/
opaque Config.ecdsaSign : List Byte → List Byte

/-- The public half of the identity key of the die (R648, log entry 3). -/
opaque Config.identityKey : List Byte

/-- The fused SHA-384 hash of the Tvedari root public key at a key index (log entry 2). -/
opaque Config.rootHash : Nat → List Byte

/-- A platform descriptor record, by record handle; the spec gives its sensors, not its bytes (R675; log entry 48). -/
opaque Config.pdr : Nat → List Byte

/-- Payloads of sideband responses that only the standards lay out, by command (log entry 47). -/
opaque Config.sbData : Nat → List Byte

/-- The page that the host's translation agent answers for a page of a PASS function with ATS (R123; log entry 29). -/
opaque Config.atsPage : Nat → Nat → Nat

/-- The public key that a DER certificate carries (R649; log entry 3). -/
opaque Config.certKey : List Byte → List Byte

end Sys2Proof
end

