-- ==== Sys2Proof/Machine/Parts/Strike.lean ====
section
/-!
DEFINITION. State of the strike unit, the work budget, the staging store, the register file, the counters and the
snapshot bank (spec/02_strike.md, spec/00_scope.md, spec/20_register_index.md).
-/

namespace Sys2Proof.Machine

/-- A sparse table: (key, value) pairs, keys strictly rising. -/
abbrev SMap (α : Type) := List (Nat × α)

/-- Device time and the reference (R4, R5, R51, R53, R61, R95, R130, R772). -/
structure Time where
  /-- Heat number (R6). -/
  heat : Heat
  /-- While the actions of a strike edge are under way, the heat that the strike begins: what comes about on the edge carries that
  heat and nanosecond 0 (R5). -/
  edge : Option Heat
  /-- Nanoseconds into the heat, below the heat length (R5, R51). -/
  ns : Nat
  /-- 8-bit fraction of the nanosecond counter, in 1/256 ns (R51). -/
  frac : Nat
  /-- Active heat length in ns (R4). -/
  heatLen : Nat
  /-- Precision class, 0 T0 to 3 T3 (Table 2.7). -/
  cls : Nat
  /-- Active seal guard: STK_SEAL_GUARD as taken at the last strike (R61, R87). -/
  guard : Nat
  /-- The seal point of this heat has been judged (R61, R73). -/
  sealDone : Bool
  /-- Reference nanoseconds since reset; no correction or adoption changes it (R130). -/
  refNow : Nat
  /-- Device nanoseconds of all ended heats since reset: the base of a count of device time that no heat number resets
  (R773). -/
  devBase : Nat
  /-- Reference cycles since the strike; the fraction kept at the strike; rate correction of this heat in 1/256 ns (R534);
  offset correction in 1/256 ns, the cycle at which it began to be spread and the cycles over which it is (R532). -/
  hk : Nat
  base : Nat
  rate : Int
  corr : Int
  corrAt : Nat
  corrLen : Nat
  /-- Strikes since reset (R772 counts spans of heats by them). -/
  strikes : Nat
  /-- STK_STATUS.REF_HOLD: the reference runs on the internal oscillator (R95). -/
  refHold : Bool
  /-- Reference ns at which the loss of SYS_REFCLK was declared (event 0x1003, Table 2.12). -/
  refLostAt : Nat
deriving DecidableEq, Repr

/-- The STRIKE_IO pins (R83 to R85). -/
structure StrikeIo where
  /-- Levels standing at the pins from outside, bit n pin n. -/
  pinIn : BitVec 8
  /-- Direction in force since the last strike: 1 output (R83). -/
  dir : BitVec 8
  /-- Levels the device drives on its output pins (R85). -/
  drive : BitVec 8
  /-- Pins of mode PULSE whose pulse runs (R85). -/
  pulsing : BitVec 8
deriving DecidableEq, Repr

/-- An amount for each category of Table 2.2: CU, management cycles, or hundredths of a cycle, as the field that holds it
says. -/
structure Work where
  svc : Nat
  cmds : Nat
  aging : Nat
  log : Nat
  telem : Nat
deriving DecidableEq, Repr

/-- The work budget of the heat (R68 to R77, R170 to R174, R774 to R776). -/
structure Budget where
  /-- The budget applies to this heat: CMD_FW_STATE was RUN at its strike (R775). -/
  full : Bool
  /-- The heat in which Odjan reached RUN (R775). -/
  runHeat : Bool
  planned : Nat
  pool : Nat
  /-- CU of carried work that remained at the strike beginning this heat (R68, R74, R774). -/
  carriedIn : Nat
  /-- Management cycles of work that the device began or took in this heat and that are not yet served (R69, R73). -/
  todo : Work
  /-- Management cycles of work carried from earlier heats and not yet served, a batch for each heat, oldest first (R69, R74,
  R774). -/
  carried : List Work
  /-- Hundredths of a cycle that a category's share has earned and that are not yet whole (R69, R72). -/
  credit : Work
  /-- Share of each category in this heat, in CU (R68). -/
  share : Work
  /-- Command share that remains for R71, in CU. -/
  cmdLeft : Nat
  /-- Management cycles spent on work that count in STK_BUDGET_USED of this heat: in its usable part and in the seal guard before
  it (R774). -/
  used : Nat
  /-- Management cycles spent in the seal guard of this heat, which count in the next (R774). -/
  guardUsed : Nat
  /-- Management cycles of the four cores delivered in the usable part (R72). -/
  delivered : Nat
  /-- Log entries of the due flush whose work the ledger holds (R667). -/
  logBooked : Nat
  /-- Nanosecond of this heat from which the management cores make no progress (R195, R775), if they stall; and reference time
  since which they have made none. -/
  stall : Option Nat
  stallFrom : Option Nat
  /-- STK_SHARES in force (R87): aging, log, telemetry in percent. -/
  pctAging : Nat
  pctLog : Nat
  pctTelem : Nat
  /-- An overrun was judged at the seal point of this heat (R73), and its cause bits (R74). -/
  overrun : Bool
  cause : Nat
  /-- Heats since the last overrun, and overrunning heats since the last event 0x1001 and strikes since it (R76). -/
  quiet : Nat
  runCount : Nat
  runHeats : Nat
deriving DecidableEq, Repr

/-- One staged item: one table entry or one parameter set of one object, kept as the command that staged it (R61,
R64). -/
structure Item where
  /-- Opcode of the staging command; the landing acts by it. -/
  op : Nat
  inst : Nat
  params : Params
  data : List Byte
  /-- Which entry of the command this item is, where a command stages several. -/
  sub : Nat
  owner : Src
  tag : BitVec 32
  /-- Sealing unit (R64), and which member of it the item's command is, in ring order. -/
  unit : Nat
  mem : Nat
  target : Heat
  landing : Heat
  isSealed : Bool
  /-- Amounts of the seven pools that its seal reserved (R210). -/
  resv : List Nat
  /-- Item of the flow table, counted against its own limit (R88). -/
  flow : Bool
  /-- Number of the cluster unit that holds it (R548), if any. -/
  commit : Option Nat
deriving DecidableEq, Repr

/-- The staging store (R61 to R67, R88). -/
structure Staging where
  items : List Item
  nextUnit : Nat
  /-- Units sealed and not yet landed that hold no item (BARRIER, R97): unit, landing heat. -/
  barriers : List (Nat × Heat)
deriving DecidableEq, Repr

/-- The last values of the SNAP fields other than counters live in the register file; the counters' copies and the
snapshot heat lie here (R57, R58, R767, R768). -/
structure SnapBank where
  heat : Heat
  ctrs : SMap Cnt
deriving DecidableEq, Repr

/-- What a requester's shadows hold (R22, R55): the counter whose high half is held, that half, and the heat
number. -/
structure Shadow where
  ctr : Option Nat
  hi : Word
  heat : Option Heat
deriving DecidableEq, Repr

end Sys2Proof.Machine
end

