-- ==== Sys2Proof/Machine/Maps.lean ====
section
/-!
DEFINITION. Sparse maps in their one canonical form (keys strictly rising), bytes, bit fields and check sums: the small
named operations everything else is written with.
-/

namespace Sys2Proof.Machine

/-- The entry at a key. -/
def mGet? {α : Type} : SMap α → Nat → Option α
  | [], _ => none
  | (k, v) :: t, q => if k = q then some v else mGet? t q

/-- The entry at a key, or a default. -/
def mGetD {α : Type} (m : SMap α) (q : Nat) (d : α) : α := (mGet? m q).getD d

/-- Enter a value at a key, keeping the keys rising. -/
def mPut {α : Type} : SMap α → Nat → α → SMap α
  | [], q, x => [(q, x)]
  | (k, v) :: t, q, x =>
    if q < k then (q, x) :: (k, v) :: t else if q = k then (q, x) :: t else (k, v) :: mPut t q x

/-- Remove a key. -/
def mDel {α : Type} (m : SMap α) (q : Nat) : SMap α := m.filter (fun p => p.1 != q)

/-- Enter what stood at a key, or remove the key. -/
def mSet {α : Type} (m : SMap α) (q : Nat) (x : Option α) : SMap α := match x with | some v => mPut m q v | none => mDel m q

/-- What stood in `old` at each key at which `new` differs. -/
def mChanged {α : Type} [DecidableEq α] (old new : SMap α) : SMap (Option α) :=
  (((old ++ new).map (·.1)).filter (fun k => decide (mGet? old k ≠ mGet? new k))).foldl (fun m k => mPut m k (mGet? old k)) []

/-- Enter each entry of `x`, over what the map holds. -/
def mOver {α : Type} (m : SMap α) (x : SMap (Option α)) : SMap α := x.foldl (fun m e => mSet m e.1 e.2) m

/-- Bring back at the keys of `x` what the map `live` holds. -/
def mBack {α : Type} (m live : SMap α) (x : SMap (Option α)) : SMap α := x.foldl (fun m e => mSet m e.1 (mGet? live e.1)) m

/-- Add the entries of `y` whose keys `x` lacks. -/
def mElse {α : Type} (x y : SMap α) : SMap α := y.foldl (fun m e => if (mGet? m e.1).isSome then m else mPut m e.1 e.2) x

/-- Change the entry at a key, or the default where there is none. -/
def mMod {α : Type} (m : SMap α) (q : Nat) (d : α) (f : α → α) : SMap α := mPut m q (f (mGetD m q d))

/-- The keys rise strictly. -/
def mWf {α : Type} : SMap α → Bool
  | [] => true
  | [_] => true
  | a :: b :: t => decide (a.1 < b.1) && mWf (b :: t)

/-- Set element `i` of a list, where it exists. -/
def lSet {α : Type} : List α → Nat → α → List α
  | [], _, _ => []
  | _ :: t, 0, x => x :: t
  | h :: t, n + 1, x => h :: lSet t n x

/-- Bytes hi..lo of a parameter area, little-endian (R7). -/
def pf (p : Params) (hi lo : Nat) : Nat := p.toNat / 2 ^ (8 * lo) % 2 ^ (8 * (hi - lo + 1))

/-- Bits hi..lo of a number. -/
def bits (v hi lo : Nat) : Nat := v / 2 ^ lo % 2 ^ (hi - lo + 1)

/-- One bit of a number. -/
def bit (v i : Nat) : Bool := v / 2 ^ i % 2 == 1

/-- A number from a Bool. -/
def b2n (b : Bool) : Nat := if b then 1 else 0

/-- `v` with bits hi..lo replaced by `x`. -/
def setBits (v hi lo x : Nat) : Nat :=
  v / 2 ^ (hi + 1) * 2 ^ (hi + 1) + (x % 2 ^ (hi - lo + 1)) * 2 ^ lo + v % 2 ^ lo

/-- The numbers of the bits that are 1, below `n`. -/
def bitList (v n : Nat) : List Nat := (List.range n).filter (bit v)

/-- A mask from bit numbers. -/
def maskOf (l : List Nat) : Nat := l.foldl (fun a i => if bit a i then a else a + 2 ^ i) 0

/-- The number that bytes spell, least significant first (R7). -/
def leNat : List Byte → Nat
  | [] => 0
  | b :: t => b.toNat + 256 * leNat t

/-- The number that bytes spell, most significant first (R8). -/
def beNat (l : List Byte) : Nat := l.foldl (fun a b => a * 256 + b.toNat) 0

/-- `n` bytes of a number, least significant first. -/
def leBytes : Nat → Nat → List Byte
  | 0, _ => []
  | n + 1, v => BitVec.ofNat 8 v :: leBytes n (v / 256)

/-- `n` bytes of a number, most significant first. -/
def beBytes (n v : Nat) : List Byte := (leBytes n v).reverse

/-- Bytes hi..lo of a byte string as a little-endian number; bytes beyond its end count as 0. -/
def dn (d : List Byte) (hi lo : Nat) : Nat := leNat ((d.drop lo).take (hi - lo + 1))

/-- A list of bytes of length `n`: cut, or padded with zeros. -/
def padTo (n : Nat) (l : List Byte) : List Byte := l.take n ++ List.replicate (n - l.length) 0

/-- The first `n` pieces of `k` bytes. -/
def chunks (k : Nat) : Nat → List Byte → List (List Byte)
  | 0, _ => []
  | n + 1, l => l.take k :: chunks k n (l.drop k)

/-- ceil(a / b). -/
def ceilDiv (a b : Nat) : Nat := (a + b - 1) / b

/-- All of a list's bytes are 0. -/
def allZero (l : List Byte) : Bool := l.all (· == 0)

/-- One bit of a most-significant-first CRC of width `w` with polynomial `poly`. -/
def crcBit (w poly c : Nat) (b : Bool) : Nat :=
  let c' := c * 2 % 2 ^ w
  if (bit c (w - 1)) != b then Nat.xor c' poly else c'

/-- A most-significant-first CRC over bytes (R664, R500). -/
def crcMsb (w poly init : Nat) (l : List Byte) : Nat :=
  l.foldl (fun c x => (List.range 8).foldl (fun c i => crcBit w poly c (bit x.toNat (7 - i))) c) init

/-- CRC-16 of a log entry (R664). -/
def crc16 (l : List Byte) : Nat := crcMsb 16 0x1021 0xFFFF l

/-- One bit step of the reflected CRC-32C. -/
def crc32cBit (c : Nat) : Nat := if c % 2 = 1 then Nat.xor (c / 2) 0x82F63B78 else c / 2

/-- CRC-32C (polynomial 0x1EDC6F41 reflected, initial value and final XOR 0xFFFF_FFFF). -/
def crc32c (l : List Byte) : Nat :=
  Nat.xor (l.foldl (fun c x => (List.range 8).foldl (fun c _ => crc32cBit c) (Nat.xor c x.toNat)) 0xFFFFFFFF)
    0xFFFFFFFF

/-- Two's complement of `w` bits as an integer. -/
def toInt (w v : Nat) : Int := if v % 2 ^ w < 2 ^ (w - 1) then (v % 2 ^ w : Nat) else (v % 2 ^ w : Nat) - (2 ^ w : Nat)

/-- An integer as two's complement of `w` bits, wrapped. -/
def ofInt (w : Nat) (i : Int) : Nat := (i % (2 ^ w : Nat)).toNat

/-- Saturate an integer to `lo..hi`. -/
def clampInt (lo hi i : Int) : Int := if i < lo then lo else if hi < i then hi else i

/-- Saturate a number to `lo..hi`. -/
def clampNat (lo hi v : Nat) : Nat := if v < lo then lo else if hi < v then hi else v

end Sys2Proof.Machine
end

