-- ==== Sys2Proof/Machine/Headers.lean ====
section
/-!
DEFINITION. Frames as bytes: header fields, check sums, the parser and its record, keys and the flow hash (R330 to R337,
R351, Tables 8.1 to 8.5). Frames are kept without their FCS.
-/

namespace Sys2Proof.Machine

/-- Byte `i` of a frame as a number; 0 beyond its end. -/
def byteAt (b : List Byte) (i : Nat) : Nat := (b.getD i 0).toNat
/-- Bytes of a frame from `i`, as a number in network order (R8). -/
def netAt (b : List Byte) (i n : Nat) : Nat := beNat (padTo n ((b.drop i).take n))
/-- Replace bytes from offset `i`. -/
def putAt (b : List Byte) (i : Nat) (x : List Byte) : List Byte := b.take i ++ x ++ b.drop (i + x.length)

/-- One's complement sum of 16-bit words. -/
def onesSum : List Byte → Nat
  | [] => 0
  | [a] => a.toNat * 256
  | a :: b :: t =>
    let v := a.toNat * 256 + b.toNat + onesSum t
    v % 65536 + v / 65536
/-- The Internet check sum of bytes: 16 bits. -/
def inetSum (l : List Byte) : Nat := 65535 - onesSum l % 65536

/-- One bit of the reflected CRC-32 of the FCS. -/
def fcsBit (c : Nat) : Nat := if c % 2 = 1 then Nat.xor (c / 2) 0xEDB88320 else c / 2
/-- The FCS of a frame (IEEE 802.3). -/
def fcs (l : List Byte) : List Byte :=
  leBytes 4 (Nat.xor (l.foldl (fun c x => (List.range 8).foldl (fun c _ => fcsBit c) (Nat.xor c x.toNat)) 0xFFFFFFFF)
    0xFFFFFFFF)

/-- The L2 to L4 fields of the outer or the inner headers (R335); a field whose header is absent is 0. -/
structure Layer where
  dmac : Nat := 0
  smac : Nat := 0
  etype : Nat := 0
  tci1 : Nat := 0
  tci2 : Nat := 0
  v4 : Bool := false
  v6 : Bool := false
  frag : Bool := false
  firstFrag : Bool := false
  proto : Nat := 0
  tos : Nat := 0
  sip : Nat := 0
  dip : Nat := 0
  sport : Nat := 0
  dport : Nat := 0
  tcpFlags : Nat := 0
  offL3 : Nat := 0xFF
  offL4 : Nat := 0xFF
  tags : Nat := 0
  exts : Nat := 0
deriving DecidableEq, Repr

/-- What the parser found (Table 8.3). -/
structure Parse where
  present : Nat := 0
  reason : Nat := 0
  done : Bool := false
  tun : Nat := 0
  inner : Bool := false
  out : Layer := {}
  inn : Layer := {}
  offVlan : Nat := 0xFF
  offMpls : Nat := 0xFF
  labels : Nat := 0
  mpls : Nat := 0
  offTun : Nat := 0xFF
  offInL2 : Nat := 0xFF
  offTerm : Nat := 0xFF
  options : Bool := false
  ptpEvent : Bool := false
  csumBad : Bool := false
  tunId : Nat := 0
  vni : Nat := 0
  geneve : Nat := 0
  stop : Nat := 0
deriving DecidableEq, Repr

/-- UDP and TCP ports that the parser knows (PARSER_PORTS). -/
structure ParsePorts where
  vxlan : Nat
  geneve : Nat
  nvme : Nat
deriving DecidableEq, Repr

/-- What the parser looks at next. -/
inductive Hdr where
  | eth | etype (e : Nat) | vlan | mpls | v4 | v6 | ip6 (n : Nat) | ext (n : Nat) | arp | icmp | udp | tcp | vxlan
  | geneve | gre | esp | macsec | ptp | nvme
deriving DecidableEq, Repr

namespace Parse

/-- The layer being parsed. -/
def cur (p : Parse) : Layer := if p.inner then p.inn else p.out
/-- Change the layer being parsed. -/
def set (p : Parse) (f : Layer → Layer) : Parse := if p.inner then { p with inn := f p.inn } else { p with out := f p.out }
/-- The parse ends partial (R332). -/
def halt (p : Parse) (reason off : Nat) : Parse := { p with reason := reason, done := true, stop := off }
/-- The parse ends complete. -/
def finish (p : Parse) (off : Nat) : Parse := { p with done := true, stop := off }
/-- A header is present. -/
def mark (p : Parse) (b : Nat) : Parse := { p with present := if bit p.present b then p.present else p.present + 2 ^ b }
def has (p : Parse) (b : Nat) : Bool := bit p.present b

end Parse

/-- A header of `n` bytes at `off` ends within the window and the frame, or the reason it does not (R330, Table 8.2). -/
def room (b : List Byte) (off n : Nat) : Option Nat :=
  if 256 < off + n then some 2 else if b.length < off + n then some 4 else none

/-- An IPv4 address in its mapped form (R336). -/
def mapped (a : Nat) : Nat := 0xFFFF * 2 ^ 32 + a

/-- The header after an IP protocol number (Table 8.1). -/
def afterIp (v6 : Bool) (n : Nat) : Option Hdr :=
  if n = 6 then some .tcp else if n = 17 then some .udp else if n = 47 then some .gre else if n = 50 then some .esp
  else if n = 1 ∧ !v6 then some .icmp else if n = 58 ∧ v6 then some .icmp
  else if v6 && (n == 0 || n == 43 || n == 44 || n == 60) then some (.ext n) else none

/-- One header of the parser: the next header to look at, or none at the end, with what it found (R330 to R332). -/
def parseStep (ports : ParsePorts) (b : List Byte) (h : Hdr) (off : Nat) (p : Parse) : Parse × Option (Hdr × Nat) :=
  let stop (r : Nat) : Parse × Option (Hdr × Nat) := (p.halt r off, none)
  let term (n bit : Nat) (q : Parse) : Parse × Option (Hdr × Nat) := ((q.mark bit).finish (off + n), none)
  match h with
  | .eth =>
    match room b off 14 with
    | some r => stop r
    | none =>
      let q := p.set (fun l => { l with dmac := netAt b off 6, smac := netAt b (off + 6) 6 })
      let q := if p.inner then { q.mark 14 with offInL2 := off } else q
      (q, some (.etype (netAt b (off + 12) 2), off + 14))
  | .etype e =>
    if e = 0x8100 ∨ e = 0x88A8 then (p, some (.vlan, off))
    else
      let q := p.set (fun l => { l with etype := e })
      if e = 0x8847 ∨ e = 0x8848 then (if p.inner then q.halt 5 off else q, if p.inner then none else some (.mpls, off))
      else if e = 0x0800 then (q, some (.v4, off))
      else if e = 0x86DD then (q, some (.v6, off))
      else if e = 0x0806 then (q, some (.arp, off))
      else if e = 0x88E5 then (q, some (.macsec, off))
      else if e = 0x88F7 then (q, some (.ptp, off))
      else (q.halt 1 off, none)
  | .vlan =>
    if (if p.inner then 1 else 2) ≤ p.cur.tags then stop 3
    else match room b off 4 with
      | some r => stop r
      | none =>
        let tci := netAt b off 2
        let q := p.set (fun l =>
          if l.tags = 0 then { l with tci1 := tci, tags := 1 } else { l with tci2 := tci, tags := l.tags + 1 })
        let q := if p.inner then q else
          { q.mark (if p.out.tags = 0 then 0 else 1) with offVlan := if p.out.tags = 0 then off - 2 else q.offVlan }
        (q, some (.etype (netAt b (off + 2) 2), off + 4))
  | .mpls =>
    if 4 ≤ p.labels then stop 3
    else match room b off 4 with
      | some r => stop r
      | none =>
        let w := netAt b off 4
        let q := { p.mark 2 with
          labels := p.labels + 1, offMpls := if p.labels = 0 then off else p.offMpls,
          mpls := if p.labels = 0 then w / 4096 else p.mpls }
        if bit w 8 then
          if 256 ≤ off + 4 then (q.halt 2 (off + 4), none)
          else if b.length ≤ off + 4 then (q.halt 4 (off + 4), none)
          else if byteAt b (off + 4) / 16 = 4 then (q, some (.v4, off + 4))
          else if byteAt b (off + 4) / 16 = 6 then (q, some (.v6, off + 4))
          else (q.halt 1 (off + 4), none)
        else (q, some (.mpls, off + 4))
  | .v4 =>
    match room b off 20 with
    | some r => stop r
    | none =>
      let ihl := byteAt b off % 16 * 4
      let fo := netAt b (off + 6) 2
      if byteAt b off / 16 ≠ 4 ∨ ihl < 20 ∨ netAt b (off + 2) 2 < ihl then stop 4
      else match room b off ihl with
        | some r => stop r
        | none =>
          let q := p.set (fun l => { l with
            v4 := true, proto := byteAt b (off + 9), tos := byteAt b (off + 1), sip := mapped (netAt b (off + 12) 4),
            dip := mapped (netAt b (off + 16) 4), frag := fo % 8192 != 0, firstFrag := fo % 8192 == 0 && bit fo 13,
            offL3 := off })
          let q := { q.mark (if p.inner then 15 else 3) with
            csumBad := p.csumBad || onesSum ((b.drop off).take ihl) % 65536 != 65535, options := p.options || ihl != 20 }
          if fo % 8192 ≠ 0 then (q.finish (off + ihl), none)
          else match afterIp false (byteAt b (off + 9)) with
            | some h' => (q, some (h', off + ihl))
            | none => (q.halt 1 (off + ihl), none)
  | .v6 =>
    match room b off 40 with
    | some r => stop r
    | none =>
      if byteAt b off / 16 ≠ 6 then stop 4
      else
        let q := p.set (fun l => { l with
          v6 := true, proto := byteAt b (off + 6), tos := netAt b off 2 / 16 % 256, sip := netAt b (off + 8) 16,
          dip := netAt b (off + 24) 16, offL3 := off })
        ((q.mark (if p.inner then 15 else 4)), some (.ip6 (byteAt b (off + 6)), off + 40))
  | .ip6 n =>
    let q := p.set (fun l => { l with proto := n })
    if n = 59 then (q.finish off, none)
    else match afterIp true n with
      | some h' => (q, some (h', off))
      | none => (q.halt 1 off, none)
  | .ext n =>
    if 4 ≤ p.cur.exts then stop 3
    else match room b off 8 with
      | some r => stop r
      | none =>
        let len := if n = 44 then 8 else (byteAt b (off + 1) + 1) * 8
        match room b off len with
        | some r => stop r
        | none =>
          let fo := netAt b (off + 2) 2
          let frag := n == 44 && fo / 8 != 0
          let first := n == 44 && fo / 8 == 0 && bit fo 0
          let q := { p.set (fun l => { l with exts := l.exts + 1, frag := l.frag || frag,
                                              firstFrag := l.firstFrag || first }) with options := true }
          if frag then ((q.set (fun l => { l with proto := byteAt b off })).finish (off + len), none)
          else (q, some (.ip6 (byteAt b off), off + len))
  | .arp =>
    match room b off 28 with
    | some r => stop r
    | none => term 28 5 (p.set (fun l => { l with offL3 := off }))
  | .icmp =>
    match room b off 8 with
    | some r => stop r
    | none => term 8 6 (p.set (fun l => { l with offL4 := off }))
  | .udp =>
    match room b off 8 with
    | some r => stop r
    | none =>
      let q := (p.set (fun l => { l with sport := netAt b off 2, dport := netAt b (off + 2) 2, offL4 := off })).mark 7
      let d := netAt b (off + 2) 2
      if !p.inner && d == ports.vxlan then (q, some (.vxlan, off + 8))
      else if !p.inner && d == ports.geneve then (q, some (.geneve, off + 8))
      else if d = 319 ∨ d = 320 then (q, some (.ptp, off + 8))
      else (q.finish (off + 8), none)
  | .tcp =>
    match room b off 20 with
    | some r => stop r
    | none =>
      let hl := byteAt b (off + 12) / 16 * 4
      if hl < 20 then stop 4
      else match room b off hl with
        | some r => stop r
        | none =>
          let q := (p.set (fun l => { l with
            sport := netAt b off 2, dport := netAt b (off + 2) 2, tcpFlags := byteAt b (off + 13), offL4 := off })).mark 8
          let l3 := p.cur.offL3
          let last := if p.cur.v4 then l3 + netAt b (l3 + 2) 2 else l3 + 40 + netAt b (l3 + 4) 2
          if (netAt b off 2 == ports.nvme || netAt b (off + 2) 2 == ports.nvme) && decide (off + hl < last) then
            (q, some (.nvme, off + hl))
          else (q.finish (off + hl), none)
  | .vxlan =>
    match room b off 8 with
    | some r => stop r
    | none =>
      if !bit (byteAt b off) 3 then stop 4
      else ({ p.mark 9 with tun := 1, offTun := off, tunId := netAt b (off + 4) 3, vni := netAt b (off + 4) 3,
                            inner := true }, some (.eth, off + 8))
  | .geneve =>
    match room b off 8 with
    | some r => stop r
    | none =>
      let ol := byteAt b off % 64 * 4
      if byteAt b off / 64 ≠ 0 then stop 4
      else if 64 < ol then stop 3
      else match room b off (8 + ol) with
        | some r => stop r
        | none =>
          let q := { p.mark 9 with tun := 2, offTun := off, tunId := netAt b (off + 4) 3, vni := netAt b (off + 4) 3,
                                   geneve := ol, inner := true }
          if netAt b (off + 2) 2 = 0x6558 then (q, some (.eth, off + 8 + ol))
          else (q.halt 1 (off + 8 + ol), none)
  | .gre =>
    if p.inner then stop 5
    else match room b off 4 with
      | some r => stop r
      | none =>
        let f := netAt b off 2
        let c := bit f 15
        let k := bit f 13
        let len := 4 + 4 * b2n c + 4 * b2n k + 4 * b2n (bit f 12)
        if f % 8 ≠ 0 ∨ bit f 14 then stop 4
        else match room b off len with
          | some r => stop r
          | none =>
            let q := p.set (fun l => { l with offL4 := off })
            let key := if k then netAt b (off + 4 + 4 * b2n c) 4 else 0
            let pr := netAt b (off + 2) 2
            let q' := { q.mark 9 with tun := 3, offTun := off, tunId := key,
                                      vni := if pr = 0x6558 then key / 256 else 0, inner := true }
            if pr = 0x6558 then (q', some (.eth, off + len))
            else if pr = 0x0800 then (q', some (.v4, off + len))
            else if pr = 0x86DD then (q', some (.v6, off + len))
            else (q.halt 1 (off + len), none)
  | .esp =>
    match room b off 8 with
    | some r => stop r
    | none => term 8 10 { p.set (fun l => { l with offL4 := off }) with offTerm := off }
  | .macsec =>
    match room b off 8 with
    | some r => stop r
    | none =>
      let n := if bit (byteAt b off) 5 then 16 else 8
      match room b off n with
      | some r => stop r
      | none => term n 11 { p with offTerm := off }
  | .ptp =>
    match room b off 34 with
    | some r => stop r
    | none => term 34 12 { p with offTerm := off, ptpEvent := decide (byteAt b off % 16 ≤ 3) }
  | .nvme =>
    match room b off 8 with
    | some r => stop r
    | none => term 8 13 { p with offTerm := off }

/-- The parser's run. -/
def parseRun (ports : ParsePorts) (b : List Byte) : Nat → Hdr → Nat → Parse → Parse
  | 0, _, _, p => p
  | n + 1, h, off, p =>
    match parseStep ports b h off p with
    | (q, some (h', off')) => parseRun ports b n h' off' q
    | (q, none) => q

/-- Parse a frame (R330). -/
def parse (ports : ParsePorts) (b : List Byte) : Parse := parseRun ports b 64 .eth 0 {}

/-- The layer that a source's key layer selects (R335). -/
def Parse.layer (p : Parse) (inner : Bool) : Layer := if inner && p.inner then p.inn else p.out

/-- The flow hash (R351). -/
def flowHash (l : Layer) : Nat :=
  crc32c (if l.v4 || l.v6 then
      beBytes 16 l.sip ++ beBytes 16 l.dip ++ beBytes 1 l.proto ++ beBytes 2 l.sport ++ beBytes 2 l.dport
    else padTo 37 (beBytes 6 l.dmac ++ beBytes 6 l.smac))

/-- Byte 2 of the parse record. -/
def Parse.flags (p : Parse) : Nat :=
  b2n (p.reason != 0) + 2 * b2n (p.out.frag || p.inn.frag) + 4 * b2n (p.out.firstFrag || p.inn.firstFrag) +
  8 * b2n p.options + 16 * b2n p.ptpEvent + 32 * b2n p.csumBad

/-- The parse record (Table 8.3) with an EXC_REASON. -/
def Parse.record (p : Parse) (hash exc : Nat) : List Byte :=
  leBytes 2 p.present ++ leBytes 1 p.flags ++ leBytes 1 (p.reason + 16 * p.tun) ++
  ([p.offVlan, p.offMpls, p.out.offL3, p.out.offL4, p.offTun, p.offInL2, p.inn.offL3, p.inn.offL4, p.offTerm,
    p.stop].flatMap (leBytes 1)) ++
  leBytes 1 (p.out.tags + 4 * p.labels + 32 * p.out.exts) ++ [0] ++ leBytes 2 p.out.etype ++ leBytes 1 p.out.proto ++
  leBytes 1 p.inn.proto ++ leBytes 4 p.tunId ++ leBytes 4 hash ++ leBytes 1 p.geneve ++ [0] ++ leBytes 1 exc ++ [0]

/-- The ordered key (Table 8.4) as its 72 bytes. -/
def orderedKey (p : Parse) (src bd : Nat) (inner : Bool) : List Byte :=
  let l := p.layer inner
  let isIn := inner && p.inner
  leBytes 2 (src % 16384) ++ leBytes 2 (bd % 4096) ++ beBytes 6 l.dmac ++ beBytes 6 l.smac ++ beBytes 2 l.etype ++
  beBytes 2 l.tci1 ++ beBytes 2 l.tci2 ++ beBytes 3 (if isIn then 0 else p.mpls * 16) ++
  leBytes 1 (b2n l.v4 + 2 * b2n l.v6 + 4 * b2n l.frag + 8 * b2n l.firstFrag) ++ leBytes 1 l.proto ++ leBytes 1 l.tos ++
  beBytes 16 l.sip ++ beBytes 16 l.dip ++ beBytes 2 l.sport ++ beBytes 2 l.dport ++ leBytes 1 l.tcpFlags ++
  leBytes 1 (b2n (p.reason != 0) + 2 * b2n p.csumBad + 4 * b2n (p.has 9) + 8 * b2n p.ptpEvent + 16 * b2n (p.has 10) +
    32 * b2n (p.has 11) + 64 * b2n (p.has 13)) ++ beBytes 3 p.vni ++ [0, 0, 0]

/-- A flow key: type, and the number its 40 bytes spell. -/
abbrev FlowKey := Nat × Nat

/-- The L2 flow key of a MAC address in a bridge domain (Table 8.5, type 1). -/
def l2Key (bd mac : Nat) : FlowKey := (1, leNat (padTo 40 (leBytes 2 bd ++ beBytes 6 mac)))

/-- The flow key that a source's setting looks up (R337, Table 8.5). -/
def flowKey (p : Parse) (src setting : Nat) (inner : Bool) : Option FlowKey :=
  let l := p.layer inner
  if setting = 1 then
    if l.v4 then some (2, leNat (padTo 40 (leBytes 2 src ++ leBytes 1 l.proto ++ [0] ++ beBytes 4 l.sip ++
      beBytes 4 l.dip ++ beBytes 2 l.sport ++ beBytes 2 l.dport)))
    else if l.v6 then some (3, leNat (padTo 40 (leBytes 2 src ++ leBytes 1 l.proto ++ [0] ++ beBytes 16 l.sip ++
      beBytes 16 l.dip ++ beBytes 2 l.sport ++ beBytes 2 l.dport)))
    else none
  else if setting = 2 && p.has 9 then
    some (4, leNat (padTo 40 (beBytes 3 p.vni ++ [0] ++ beBytes 6 p.inn.dmac)))
  else none

/-- Bytes that DECAP removes: up to and including the tunnel header (R348). -/
def decapLen (p : Parse) (b : List Byte) : Nat :=
  if p.offInL2 ≠ 0xFF then p.offInL2 else if p.tun = 3 ∧ p.inn.offL3 ≠ 0xFF then p.inn.offL3 else
  if p.tun = 0 then 0 else min b.length p.stop

end Sys2Proof.Machine
end

