-- ==== Sys2Proof/Machine/Parts/Cipher.lean ====
section
/-!
DEFINITION. State of the cipher engine and of storage offload (spec/10_cipher.md, spec/11_storage.md).
-/

namespace Sys2Proof.Machine

/-- A loaded key-store slot (R419, R420): owner instance, key, and the slot it was unwrapped under, if any. -/
structure KeySlot where
  owner : Nat
  key : List Byte
  under : Option Nat
deriving DecidableEq, Repr

/-- Context states (R415). -/
inductive CtxState where
  | unset | ready | halted | fault | resync
deriving DecidableEq, Repr

/-- The binding of a context (R414, R418). -/
inductive Binding where
  | macTx (port an : Nat)
  | macRx (port sci an : Nat)
  | espIn (spi addr : Nat)
  | tlsRx (ver src dst sport dport : Nat)
  /-- An XTS context named by a namespace entry (R462); the number of entries that name it. -/
  | xts (names : Nat)
deriving DecidableEq, Repr

/-- Chaining state of the record in progress (Table 10.8): accumulator, counter block, partial block. -/
structure Chaining where
  acc : List Byte
  ctr : List Byte
  part : List Byte
deriving DecidableEq, Repr

/-- A cipher context (Tables 10.2 and 10.8). The data keys are held with the slot that wraps them. -/
structure Ctx where
  st : CtxState
  kind : Nat
  alg : Nat
  flags : Nat
  slot : Nat
  key1 : List Byte
  key2 : List Byte
  salt : List Byte
  spi : Nat
  nextSeq : Nat
  winTop : Nat
  bitmap : Nat
  /-- Replay window size. -/
  win : Nat
  chain : Chaining
  /-- Bytes of the record's header seen so far, and bytes left in the record (TLS). -/
  hdr : List Byte
  left : Nat
  tcpSeq : Nat
  /-- Sequence number of the first record of the TLS_RX key, or N of a pending key change (R437). -/
  firstRec : Nat
  /-- The pending key of TLS_RX, or the new key of a TLS_TX record in progress: salt and key (R436, R437). -/
  nextKey : Option (List Byte × List Byte)
  /-- Old XTS keys still recorded by slots: generation and the two keys (R476). -/
  oldKeys : Option (Nat × List Byte × List Byte)
  /-- XTS key generation. -/
  gen : Nat
  binding : Option Binding
  /-- Events of R446 recorded for this key. -/
  toldMargin : Bool
  toldEnd : Bool
  /-- Authentication failures and replay drops, and their snapshot. -/
  authFails : Nat
  replays : Nat
  /-- RESYNC: record start named by TLS_RESYNC (R434). -/
  resume : Option (Nat × Nat)
  snap : List Nat
deriving DecidableEq, Repr

/-- SecY of a port (R423). -/
structure SecY where
  enable : Bool
  protect : Bool
  replay : Bool
  includeSci : Bool
  suite : Nat
  /-- 0 DISABLED, 1 CHECK, 2 STRICT. -/
  validate : Nat
  offset : Nat
  an : Nat
  window : Nat
  ownSci : Nat
  peerSci : Nat
deriving DecidableEq, Repr

/-- The cipher engine: contexts keyed instance × 1,048,576 + index. -/
structure CipUnit where
  slots : SMap KeySlot
  ctxs : SMap Ctx
  secys : SMap SecY
  /-- EXPORT_CNT and FLOOR of each instance ID (R441). -/
  counts : SMap (Nat × Nat)
deriving DecidableEq, Repr

/-- A namespace entry (R462). -/
structure Ns where
  ctrl : Nat
  nsid : Nat
  lba : Nat
  pi : Nat
  piType : Nat
  txAct : Nat
  rxAct : Nat
  appTag : Nat
  appMask : Nat
  xts : Option Nat
deriving DecidableEq, Repr

/-- A command slot (R465): what the capsule captured. -/
structure Slot where
  cid : Nat
  write : Bool
  nsid : Nat
  slba : Nat
  nlb : Nat
  refTag : Nat
  ns : Option Ns
  gen : Nat
  /-- Placement buffers: address and length (Table 11.3). -/
  place : Option (List (Nat × Nat))
  /-- The last PDU of the command's data has come (Table 11.6). -/
  done : Bool
deriving DecidableEq, Repr

/-- Connection states (Table 11.8). -/
inductive ConnState where
  | ready | halted | resync | fault
deriving DecidableEq, Repr

/-- A storage connection (R459), of a queue pair. -/
structure Conn where
  st : ConnState
  /-- IP version, source and destination address, ports. -/
  ver : Nat
  srcIp : Nat
  dstIp : Nat
  sport : Nat
  dport : Nat
  hdgst : Bool
  ddgst : Bool
  cpda : Nat
  logSlots : Nat
  ctrl : Nat
  rxSeq : Nat
  /-- Bytes of the PDU in progress in each direction, as they are on the wire (receive) or as host software gave them
  (transmit). -/
  rxPdu : List Byte
  txPdu : List Byte
  /-- Bytes of the transmit PDU in progress as they go out, for its digests. -/
  txOut : List Byte
  /-- Placement records that the segment in which the transmit PDU began supplied (R465). -/
  txRecs : List (Nat × List (Nat × Nat))
  /-- First failing block of the receive PDU in progress: its address and PI_WHICH (R474, R478). -/
  rxPi : Option (Nat × Nat)
  slots : SMap Slot
  resume : Option Nat
  piErrs : Nat
  ddErrs : Nat
  /-- Strike of the last PI failure (event 0x7003). -/
  lastPi : Option Nat
  /-- Strike of the last event 0x7002 (R489). -/
  lastDd : Option Nat
  snap : List Nat
deriving DecidableEq, Repr

/-- Storage offload: connections by queue-pair key, namespaces by instance × 65,536 + index, quotas by instance. -/
structure StoUnit where
  conns : SMap Conn
  nss : SMap Ns
  quotas : SMap Nat
deriving DecidableEq, Repr

end Sys2Proof.Machine
end

