-- ==== Sys2Proof/Machine/Parts/Rules.lean ====
section
/-!
DEFINITION. State of the packet pipelines: the two rule tables, sources, bridge domains, profiles, mirror sessions and
the rings (spec/08_parse_rules.md).
-/

namespace Sys2Proof.Machine

/-- The action of an entry (Table 8.6). -/
structure Action where
  /-- 0 DROP, 1 FORWARD, 2 COPY_TO_PROC, 3 MIRROR. -/
  act : Nat
  /-- 0 NONE, 1 PORT, 2 QUEUE, 3 TUNNEL, 4 SWITCH. -/
  ttype : Nat
  count : Bool
  police : Bool
  rewrite : Bool
  decap : Bool
  static : Bool
  age : Bool
  notify : Bool
  proc : Nat
  target : Nat
  queue : Nat
  aux : Nat
  policer : Nat
  rewriteId : Nat
  cls : Nat
  setClass : Bool
deriving DecidableEq, Repr

/-- An ordered entry (Table 8.11); key and mask are the numbers their 72 bytes spell. `sframes` and `sbytes` are the
snapshot copies of its counter. -/
structure Rule where
  key : Nat
  mask : Nat
  prio : Nat
  tier : Nat
  action : Action
  frames : Cnt
  bytes : Cnt
  sframes : Cnt
  sbytes : Cnt
deriving DecidableEq, Repr

/-- A flow entry (Table 8.13), kept under its position in the table (R359, R363). `sframes` and `sbytes` are the snapshot
copies of its counter (R37). -/
structure Flow where
  ktype : Nat
  key : Nat
  owner : Nat
  action : Action
  learned : Bool
  hit : Bool
  idle : Nat
  frames : Cnt
  bytes : Cnt
  sframes : Cnt
  sbytes : Cnt
deriving DecidableEq, Repr

/-- A source's settings of SRC_CONFIG and TM_SRC_CLASS (R361, R395). -/
structure SrcCfg where
  bd : Nat
  learn : Bool
  inner : Bool
  /-- 0 NONE, 1 FIVE_TUPLE, 2 VNI. -/
  flowKey : Nat
  rssBits : Nat
  /-- 0 NONE, 1 PCP, 2 DSCP. -/
  trust : Nat
  defClass : Nat
  colourDscp : Bool
deriving DecidableEq, Repr

/-- One member of a flood group. -/
structure Flood where
  id : Nat
  ttype : Nat
  queue : Nat
deriving DecidableEq, Repr

/-- A bridge domain (R345 to R347). -/
structure BdCfg where
  /-- 0 FLOOD, 1 DROP, 2 TO_PROC. -/
  unknown : Nat
  age : Bool
  notify : Bool
  limit : Nat
  excQueue : Nat
  excInst : Nat
  members : List Flood
deriving DecidableEq, Repr

/-- A mirror session (R349); `seen` counts the frames of the current sampling period. -/
structure Mirror where
  ttype : Nat
  target : Nat
  queue : Nat
  trunc : Nat
  ratio : Nat
  seen : Nat
deriving DecidableEq, Repr

/-- What a FLOW_FLUSH in progress removes (R370). -/
structure Flush where
  flags : Nat
  bd : Nat
  ttype : Nat
  target : Nat
deriving DecidableEq, Repr

/-- The packet pipelines' tables. Ordered entries are keyed owner × 65,536 + local index; flow entries by position,
bucket × 8 + way. -/
structure RulUnit where
  rules : SMap Rule
  flows : SMap Flow
  srcs : SMap SrcCfg
  bds : SMap BdCfg
  rewrites : SMap (List Byte)
  tunnels : SMap (List Byte)
  mirrors : SMap Mirror
  vxlan : Nat
  geneve : Nat
  nvme : Nat
  /-- Aged notices, oldest first (R360). -/
  aged : List (List Byte)
  /-- Frames captured for the Hearth with their parse records, oldest first (R350). -/
  capture : List (List Byte × List Byte)
  /-- Position of the scan, and slices planned and not complete (R359). -/
  scanPos : Nat
  behind : Nat
  /-- Entry positions of the oldest incomplete slice already visited. -/
  partDone : Nat
  /-- RUL_AGE_PERIOD and RUL_AGE_LIMIT in force (R361). -/
  period : Nat
  limit : Nat
  flush : Option Flush
  /-- The reference time, in eighths of a nanosecond, at which the learns pending now will be done (Table 8.9). -/
  learnTo : Nat
  /-- Package DRAM is unavailable as a whole: the data path has stopped (R49). -/
  dramDown : Bool
deriving DecidableEq, Repr

end Sys2Proof.Machine
end

