-- ==== Sys2Proof/Machine/Parts/Traffic.lean ====
section
/-!
DEFINITION. State of the traffic manager: frames in the packet buffer, queues, scheduler, shapers and policers
(spec/09_traffic.md).
-/

namespace Sys2Proof.Machine

/-- A change that a frame's bytes take between its reception and its leaving, in the order of the list. The profiles are
those in force when the frame was decided (R30). -/
inductive Edit where
  /-- Remove the first bytes: DECAP (R348). -/
  | strip (n : Nat)
  /-- Apply a rewrite profile (R353). -/
  | rewrite (profile : List Byte)
  /-- Set the DSCP (R390, REMARK). -/
  | remark (dscp : Nat)
  /-- Prepend a tunnel profile's headers (R352): profile, flow hash, UDP destination port. -/
  | encap (profile : List Byte) (hash port : Nat)
  /-- Cut to a length (R349). -/
  | cut (n : Nat)
deriving DecidableEq, Repr

/-- Where a copy of a frame goes. -/
inductive Dest where
  | port (p : Nat)
  /-- A queue pair of an instance; `exc` is the EXC_REASON of an exception delivery (R334), 0 otherwise. -/
  | queue (inst qp exc : Nat)
deriving DecidableEq, Repr

/-- What a transmit completion needs (Table 5.18): queue pair, ring index of the last descriptor, descriptors of the
frame, cookie, timestamp request. -/
structure TxInfo where
  inst : Nat
  qp : Nat
  index : Nat
  ndesc : Nat
  cookie : Nat
  ts : Bool
deriving DecidableEq, Repr

/-- A timestamp (R312): heat, nanoseconds, fraction, precision class. -/
structure Stamp where
  heat : Heat
  ns : Nat
  frac : Nat
  cls : Nat
deriving DecidableEq, Repr

/-- One frame, or one copy of one, in the packet buffer. -/
structure Frame where
  /-- Reception number, which every copy of one received frame carries. -/
  id : Nat
  /-- Content without the FCS, before `edits`; of a CUT frame whose tail is not known, its head. -/
  bytes : List Byte
  /-- Length under R289 of the frame as received. -/
  len : Nat
  edits : List Edit
  src : Nat
  owner : Nat
  region : Nat
  cells : Nat
  ing : Option Nat
  cls : Nat
  colour : Nat
  dest : Dest
  /-- The tail status is known (R293). -/
  tail : Bool
  slag : Bool
  hash : Nat
  /-- The parse record of 32 bytes (Table 8.3). -/
  record : List Byte
  stamp : Option Stamp
  lateTs : Bool
  /-- Cipher and storage status of the completion (Tables 10.12 and 11.7). -/
  cip : List Byte
  sto : List Byte
  /-- Placed data: host address and bytes (R473), written with the frame. -/
  placed : List (Nat × List Byte)
  /-- Offsets into the frame that placement leaves undefined in the receive buffer (R473): start and length. -/
  holes : List (Nat × Nat)
  tx : Option TxInfo
  /-- The receive bindings of its owner apply to it once its tail is known (R417, R460), with its source's key layer. -/
  crypt : Bool
  inner : Bool
deriving DecidableEq, Repr

/-- What waits for the tail of a CUT frame: a learn (R346), the count of a drop at a BANKED port (R324), a copy for the
Hearth with its parse record (R350). -/
inductive TailAct where
  | learn (src bd mac : Nat)
  | banked (p : Nat)
  | hearth (record : List Byte)
deriving DecidableEq, Repr

/-- What strikes have replaced of the configuration under which a frame began (R30, R47): the entry that stood at each key, none
where there was none. -/
structure OldConfig where
  bds : SMap (Option BdCfg)
  ctxs : SMap (Option Ctx)
  conns : SMap (Option Conn)
  nss : SMap (Option Ns)
deriving DecidableEq, Repr

/-- A CUT frame of a port whose tail has not come: reception number, head, length under R289, MAX_FRAME and parser ports of the
configuration that it is processed under, and what strikes have replaced of that configuration since (R30). -/
structure CutFrame where
  id : Nat
  head : List Byte
  len : Nat
  maxFrame : Nat
  ports : List Nat
  old : OldConfig
deriving DecidableEq, Repr

/-- A class queue of a (root, owner): frames in order, and the reference time since which its head has waited. -/
structure ClassQ where
  frames : List Frame
  since : Nat
deriving DecidableEq, Repr

/-- A shaper (R387, R388): `tok` in millibits; `sforgiven` and `stok` are its snapshot. -/
structure Shaper where
  rate : Nat
  burst : Nat
  overhead : Int
  zero : Bool
  tok : Int
  forgiven : Nat
  stok : Int
  sforgiven : Nat
deriving DecidableEq, Repr

/-- Where a pool shaper node serves (R396). -/
inductive NodeUse where
  | group (root g : Nat)
  | cls (root owner c : Nat)
deriving DecidableEq, Repr

/-- A pool shaper node. -/
structure Node where
  sh : Shaper
  use : Option NodeUse
deriving DecidableEq, Repr

/-- A policer (R389 to R391). Tokens are kept in thousandths of a byte, in which a rate of R Mb/s is R every 8 ns;
`counts` are frames and bytes of green, yellow and red, then dropped frames, and `scounts` their snapshot. -/
structure Policer where
  /-- 0 DROP, 1 SR_TCM, 2 TR_TCM. -/
  mode : Nat
  aware : Bool
  cir : Nat
  pir : Nat
  cbs : Nat
  ebs : Nat
  acts : List Nat
  yDscp : Nat
  rDscp : Nat
  c : Nat
  e : Nat
  counts : List Nat
  scounts : List Nat
deriving DecidableEq, Repr

/-- A scheduler group (Table 9.2): weight, PRIO, owner and local index of its node. -/
structure Group where
  weight : Nat
  prio : Nat
  nodeInst : Nat
  node : Nat
deriving DecidableEq, Repr

/-- Admission thresholds of a port and class, in KiB (R381, R382). -/
structure Admit where
  xon : Nat
  xoff : Nat
  dropY : Nat
  drop : Nat
deriving DecidableEq, Repr

/-- Deficit round robin at one node: the deficit of each child, and the child last granted (R384). -/
structure Dwrr where
  deficit : SMap Nat
  last : Nat
deriving DecidableEq, Repr

/-- A frame being sent on a root (R385): the frame, whether it is preemptable, whether it stands interrupted and the reference
instant at which the fragment before ends on the wire, the fragments of it, the reference instant at which the present one began,
and the bytes of those before (R301). -/
structure Grant where
  frame : Frame
  preemptable : Bool
  cutShort : Bool
  freeAt : Nat
  frags : Nat
  since : Nat
  sent : Nat
deriving DecidableEq, Repr

/-- The traffic manager. Roots 0–15 are ports, 16 HA, 17 HB. -/
structure TmUnit where
  /-- Class queues, key (root × 16,384 + owner) × 8 + class. -/
  queues : SMap ClassQ
  /-- Frames being sent, per root. -/
  sending : SMap (List Grant)
  groups : SMap Group
  /-- Group of an owner under a root, key root × 16,384 + owner. -/
  ownerGroup : SMap Nat
  /-- Weight of a port or tunnel owner under a root. -/
  ownerWeight : SMap Nat
  /-- Strict mask and weights of the eight classes of a root. -/
  strict : SMap Nat
  weights : SMap (List Nat)
  /-- Thresholds, key port × 8 + class; QLIM in KiB, key root × 8 + class. -/
  admits : SMap Admit
  qlim : SMap Nat
  /-- Root shapers; instance limiters, key instance × 2 + direction; pool nodes, key instance × 65,536 + index. -/
  rootSh : SMap Shaper
  limiters : SMap Shaper
  nodes : SMap Node
  /-- Policers, key instance × 262,144 + index. -/
  policers : SMap Policer
  /-- DWRR at a root over groups; at a group over owners, key root × 1,024 + group; at an owner over classes. -/
  rrRoot : SMap Dwrr
  rrGroup : SMap Dwrr
  rrOwner : SMap Dwrr
  /-- Classes reported above XOFF, per port (R381). -/
  above : SMap Nat
  /-- Retired cells of each region (R407). -/
  retired : List Nat
  /-- TM_QUANTUM and TM_STALE_MAX in force (R395). -/
  quantum : Nat
  stale : Nat
  nextId : Nat
  /-- CUT frames whose tail has not come, by port (R291, R292), and what waits for it, by reception number. -/
  cuts : SMap CutFrame
  tailWait : List (Nat × TailAct)
deriving DecidableEq, Repr

end Sys2Proof.Machine
end

