-- ==== Sys2Proof/Machine/Edits.lean ====
section
/-!
DEFINITION. What the pipelines change in a frame: rewrite profiles, remarking, tunnel encapsulation, decapsulation, and
the check sums that go with them (R348, R352, R353, R390, Table 5.16, Table 8.12).
-/

namespace Sys2Proof.Machine

/-- The L3 offset of a frame and whether it is IPv4 (first) or IPv6; none without IP. -/
def ipOf (b : List Byte) : Option (Bool × Nat) :=
  let p := parse { vxlan := 0, geneve := 0, nvme := 0 } b
  if p.out.v4 then some (true, p.out.offL3) else if p.out.v6 then some (false, p.out.offL3) else none

/-- Write the check sum of the IPv4 header at an offset. -/
def fixIpSum (b : List Byte) (off : Nat) : List Byte :=
  let z := putAt b (off + 10) [0, 0]
  putAt z (off + 10) (beBytes 2 (inetSum ((z.drop off).take (byteAt b off % 16 * 4))))

/-- Set the DSCP of a frame with IP; a frame without IP is unchanged (R353, R390). -/
def setDscp (d : Nat) (b : List Byte) : List Byte :=
  match ipOf b with
  | none => b
  | some (true, o) => fixIpSum (putAt b (o + 1) (beBytes 1 (d % 64 * 4 + byteAt b (o + 1) % 4))) o
  | some (false, o) =>
    let w := netAt b o 2
    putAt b o (beBytes 2 (w / 4096 * 4096 + d % 64 * 64 + w % 64))

/-- The TTL or hop limit of a frame with IP. -/
def ttlOf (b : List Byte) : Option Nat :=
  match ipOf b with
  | none => none
  | some (true, o) => some (byteAt b (o + 8))
  | some (false, o) => some (byteAt b (o + 7))

/-- Lower the TTL or hop limit by one. -/
def decTtl (b : List Byte) : List Byte :=
  match ipOf b with
  | none => b
  | some (true, o) => fixIpSum (putAt b (o + 8) (beBytes 1 (byteAt b (o + 8) - 1))) o
  | some (false, o) => putAt b (o + 7) (beBytes 1 (byteAt b (o + 7) - 1))

/-- The frame's outer header after the MAC addresses is a VLAN tag. -/
def tagged (b : List Byte) : Bool := netAt b 12 2 == 0x8100 || netAt b 12 2 == 0x88A8

/-- Apply a rewrite profile in the order of R353. -/
def rewriteBytes (p : List Byte) (b : List Byte) : List Byte :=
  let ops := byteAt p 0
  let b1 := if bit ops 0 then putAt b 0 ((p.drop 2).take 6) else b
  let b2 := if bit ops 1 then putAt b1 6 ((p.drop 8).take 6) else b1
  let b3 := match bits ops 3 2 with
    | 1 => b2.take 12 ++ (p.drop 16).take 2 ++ (p.drop 14).take 2 ++ b2.drop 12
    | 2 => if tagged b2 then b2.take 12 ++ b2.drop 16 else b2
    | 3 => if tagged b2 then
        putAt b2 14 (beBytes 2 (netAt b2 14 2 / 4096 * 4096 + netAt p 14 2 % 4096)) else b2
    | _ => b2
  let b4 := if bit ops 4 then decTtl b3 else b3
  if bit ops 5 then setDscp (byteAt p 1 % 64) b4 else b4

/-- The rewrite's DEC_TTL would take the TTL or hop limit to 0 (R353). -/
def ttlEnds (p b : List Byte) : Bool :=
  bit (byteAt p 0) 4 && (match ttlOf b with | some t => decide (t ≤ 1) | none => false)

/-- The headers of a tunnel profile before a frame of `n` bytes (R352, Table 8.12). Fields to which the spec gives no
value are free values of the hash (log entry 27). -/
def encapBytes (p : List Byte) (hash port : Nat) (b : List Byte) : List Byte :=
  let typ := byteAt p 0 % 4
  let v6 := bit (byteAt p 0) 4
  let tunHdr :=
    if typ = 1 then [8, 0, 0, 0] ++ (p.drop 4).take 3 ++ [0]
    else if typ = 2 then [0, 0] ++ beBytes 2 0x6558 ++ (p.drop 4).take 3 ++ [0]
    else beBytes 2 0x2000 ++ beBytes 2 0x6558 ++ (p.drop 4).take 3 ++ beBytes 1 (Config.encapField 2 hash)
  let udp := if typ = 3 then []
    else beBytes 2 (49152 + hash % 16384) ++ beBytes 2 port ++ beBytes 2 (8 + tunHdr.length + b.length) ++ [0, 0]
  let body := udp ++ tunHdr ++ b
  let proto := if typ = 3 then 47 else 17
  let ecn := Config.encapField 3 hash % 4
  let dscp := byteAt p 2 % 64
  let l3 := if v6 then
      beBytes 4 (6 * 2 ^ 28 + (dscp * 4 + ecn) * 2 ^ 20 + Config.encapField 1 hash % 2 ^ 20) ++ beBytes 2 body.length ++
      beBytes 1 proto ++ (p.drop 1).take 1 ++ (p.drop 24).take 16 ++ (p.drop 40).take 16
    else
      fixIpSum ([0x45] ++ beBytes 1 (dscp * 4 + ecn) ++ beBytes 2 (20 + body.length) ++
        beBytes 2 (Config.encapField 0 hash) ++ beBytes 2 (if bit (byteAt p 2) 6 then 0x4000 else 0) ++ (p.drop 1).take 1 ++
        beBytes 1 proto ++ [0, 0] ++ (p.drop 36).take 4 ++ (p.drop 52).take 4) 0
  (p.drop 8).take 12 ++ (if bit (byteAt p 0) 5 then beBytes 2 0x8100 ++ (p.drop 20).take 2 else []) ++
    beBytes 2 (if v6 then 0x86DD else 0x0800) ++ l3 ++ body

/-- One edit. -/
def Edit.apply (e : Edit) (b : List Byte) : List Byte :=
  match e with
  | .strip n => b.drop n
  | .rewrite p => rewriteBytes p b
  | .remark d => setDscp d b
  | .encap p h port => encapBytes p h port b
  | .cut n => b.take n

/-- The frame as it leaves, without the FCS. -/
def Frame.sent (f : Frame) : List Byte := f.edits.foldl (fun b e => e.apply b) f.bytes

/-- Its length under R289 as it leaves. -/
def Frame.sentLen (f : Frame) : Nat := f.sent.length + 4

/-- Write the check sum of the outermost UDP or TCP header (Table 5.16). -/
def fixL4Sum (b : List Byte) : List Byte :=
  let p := parse { vxlan := 0, geneve := 0, nvme := 0 } b
  let l := p.out
  if l.offL4 = 0xFF ∨ !(l.proto == 6 || l.proto == 17) then b
  else
    let at_ := l.offL4 + (if l.proto = 6 then 16 else 6)
    let last := if l.v4 then l.offL3 + netAt b (l.offL3 + 2) 2 else l.offL3 + 40 + netAt b (l.offL3 + 4) 2
    let z := putAt b at_ [0, 0]
    let seg := (z.take last).drop l.offL4
    let pseudo := if l.v4 then beBytes 4 (l.sip % 2 ^ 32) ++ beBytes 4 (l.dip % 2 ^ 32) ++ [0] ++ beBytes 1 l.proto ++
        beBytes 2 seg.length
      else beBytes 16 l.sip ++ beBytes 16 l.dip ++ beBytes 4 seg.length ++ [0, 0, 0] ++ beBytes 1 l.proto
    let c := inetSum (pseudo ++ seg)
    putAt z at_ (beBytes 2 (if c = 0 ∧ l.proto = 17 then 65535 else c))

/-- Write the outer IPv4 header check sum (Table 5.16). -/
def fixOuterIp (b : List Byte) : List Byte :=
  match ipOf b with | some (true, o) => fixIpSum b o | _ => b

end Sys2Proof.Machine
end

