-- ==== Sys2Proof/Machine/Parts/Log.lean ====
section
/-!
DEFINITION. State of the event log and what the device sends out: the record of its writes to hosts, pins, wires and
buses (spec/16_identity_nvm_log.md, Table 16.6).
-/

namespace Sys2Proof.Machine

/-- One log entry (Table 16.6); its CRC is `LogEntry.crc`. -/
structure LogEntry where
  seq : Word
  code : Nat
  /-- Byte 6: SEVERE, INJECTED, FORCED, DEFERRED, FALLBACK in bits 0 to 4. -/
  flags : Nat
  cls : Nat
  heat : Heat
  ns : Nat
  /-- DATA bytes, bytes 18 to 29; a missing byte is 0. -/
  data : List Byte
deriving DecidableEq, Repr

/-- The log engine and the log partition (R664 to R673, R782). Rings are oldest first. -/
structure Log where
  main : List LogEntry
  fb : List LogEntry
  /-- The fallback ring is active (LOG_STATUS.FALLBACK). -/
  fallback : Bool
  /-- LOG_STATUS.LOG_MEM_FAIL, STICKY. -/
  memFail : Bool
  seqNext : Word
  seqFlushed : Word
  /-- Main-ring entries found unreadable at the failure of the ring memory (R671), by SEQ. -/
  badSeqs : List Word
  /-- A flush is due (R667, R672). -/
  flushDue : Bool
  /-- Entries lost since the last event 0xA002 (R669). -/
  lostSince : Nat
  /-- Write position of the log partition, in pages (R668). -/
  page : Nat
  /-- Pages written: page number and entries, newest first. -/
  pages : List (Nat × List LogEntry)
deriving DecidableEq, Repr

/-- A sideband message as its protocol's fields say it: EID of the other end, message type (0 MCTP control, 1 PLDM),
command (of PLDM, 256 × type + command), whether it is a request, completion code of a response, and data. The framing of
DSP0236, DSP0237 and DSP0240 around it is the standards' (log entry 47). -/
structure SbMsg where
  peer : Nat
  kind : Nat
  cmd : Nat
  request : Bool
  cc : Nat
  data : List Byte
deriving DecidableEq, Repr

/-- How a memory request stands on a host link: the requester ID's function, the address, whether it is a translated request
(R122, R123), and the attributes Relaxed Ordering, ID-Based Ordering and No Snoop (R114). -/
structure Req where
  id : Nat
  addr : Nat
  xlat : Bool
  ro : Bool
  ido : Bool
  noSnoop : Bool
deriving DecidableEq, Repr

/-- What the device has sent to the world, newest first: the model's own record of its outputs. -/
inductive Output where
  /-- A reply written to slot of a function's reply ring (R161). -/
  | reply (func slot : Nat) (q : Req) (r : Reply)
  /-- An MSI-X message of a function's vector (R130). -/
  | msix (func vec : Nat) (q : Req) (data : Word)
  /-- Data written to host memory. -/
  | hostData (q : Req) (bytes : List Byte)
  /-- A completion entry of a queue pair, at its index (Table 5.18). -/
  | completion (inst qp idx : Nat) (q : Req) (entry : List Byte)
  /-- The data that a register read returns: the link it came on and the value (R10). -/
  | readData (link : Nat) (value : Nat)
  /-- An AER report: link, error number, severity: 0 correctable, 1 non-fatal, 2 fatal (R148). -/
  | aer (link err sev : Nat)
  /-- A completion status for a host request: link and whether Completer Abort (else Unsupported Request). -/
  | cplAbort (link : Nat) (ca : Bool)
  /-- An ATS Invalidate Completion (R124). -/
  | atsInvalidated (func : Nat)
  /-- A frame sent on a port: class and bytes. -/
  | frame (port cls : Nat) (bytes : List Byte)
  /-- A MAC control frame sent: PFC quanta per class, or PAUSE for all. -/
  | pause (port : Nat) (pfc : Bool) (classes quanta : Nat)
  /-- An mPacket sent: verify or respond (R302). -/
  | mpacket (port : Nat) (respond : Bool)
  /-- A Viras frame sent on a channel in a slot: words. -/
  | viras (chan slot : Nat) (words : List Nat)
  /-- A frame that a hub repeats: channel, branch (255 the uplink), words. -/
  | relay (chan branch : Nat) (words : List Nat)
  /-- A frame that the guardian cut: channel, slot (R506). -/
  | cutFrame (chan slot : Nat)
  /-- A star-link control word sent: channel, branch (255 uplink), kind, argument. -/
  | ladder (chan branch kind arg : Nat)
  /-- An MCTP message sent on an SMBus port. -/
  | mctp (sb : Nat) (m : SbMsg)
  /-- A Clause 73 page sent on a port. -/
  | anPage (port : Nat) (page : Nat)
deriving DecidableEq, Repr

end Sys2Proof.Machine
end

