-- ==== Sys2Proof/Machine/Parts/Boot.lean ====
section
/-!
DEFINITION. State of power-up, reset, boot and the straps (spec/17_startup.md).
-/

namespace Sys2Proof.Machine

/-- Power-up, reset and boot (R689 to R715, Tables 17.2, 17.3 and 17.9). -/
structure Boot where
  /-- Straps as sampled at the last release of RST_N (R693): HUB, lifeboat, HA only, node ID. -/
  strapHub : Bool
  strapBoot : Bool
  strapLink : Bool
  strapNode : Nat
  /-- ID_BOOT.STAGE (Table 17.3): 1 SELFTEST to 8 RUN, 9 LIFEBOAT. -/
  stage : Nat
  lbReason : Nat
  failed : Nat
  bootMs : Nat
  /-- ID_RESET_CAUSE: POWER_ON, PIN, REGISTER, TRIP, RAIL in bits 0 to 4. -/
  cause : Nat
  /-- RST_N is asserted; a monitored rail holds the device in reset (R690); the standby domain is released (R689). -/
  rstN : Bool
  railHold : Bool
  standby : Bool
  /-- ID_RESET asked for the lifeboat (R699). -/
  lbRequest : Bool
  /-- The functions are presented: stage IMAGE has ended, or the lifeboat function is (R696, R701). -/
  presented : Bool
  /-- Provisioning in force since the last reset: VF_SPLIT_A, VF MSI-X table size, Subsystem IDs (R103, R135, R663). -/
  vfSplit : Nat
  vfMsix : Nat
  subVendor : Nat
  subId : Nat
  autoConfirm : Bool
  /-- Deferred events of R665, in order: code and DATA. -/
  deferred : List (Nat × List Byte)
  /-- The boot ROM's SRAM bank has failed in the lifeboat (R714). -/
  romBankBad : Bool
  /-- Core, management and lane clocks are stopped: reset, the halted state of a quench, or a hard trip (R627, R629,
  R690). -/
  stopped : Bool
  /-- 115 °C was reached during the boot (R711). -/
  hot : Bool
deriving DecidableEq, Repr

end Sys2Proof.Machine
end

