-- ==== Sys2Proof/Machine/Parts/Flash.lean ====
section
/-!
DEFINITION. State of the flash and of its controller (spec/16_identity_nvm_log.md, Tables 16.1 to 16.5): the contents of
the partitions, the journalled writes, the update session.
-/

namespace Sys2Proof.Machine

/-- A good copy of the boot header (Table 16.2). -/
structure BootHdr where
  seq : Nat
  active : Nat
  trial : Bool
  count : Nat
deriving DecidableEq, Repr

/-- An image partition: programmed bytes by offset, all others erased; 0 EMPTY, 1 WRITING, 2 VERIFIED. -/
structure ImgPart where
  data : SMap (List Byte)
  mark : Nat
deriving DecidableEq, Repr

/-- A record of the configuration or the provisioning partition (R662); an invalidated one has KEY 0. -/
structure NvmRec where
  key : Nat
  version : Nat
  value : List Byte
deriving DecidableEq, Repr

/-- A journal entry (Table 16.4); its CRC is `JEntry.bytes`'s last field. -/
structure JEntry where
  seq : Nat
  kind : Nat
  part : Nat
  off : Nat
  len : Nat
  crc : Nat
  heat : Heat
deriving DecidableEq, Repr

/-- One operation of the flash within a write: an erase, a page program, a read-back, or a journal entry. -/
inductive FlashStep where
  | intent | erase | program | readback | commit
deriving DecidableEq, Repr

/-- What a flash operation is for. -/
inductive FlashWhat where
  /-- An update session begins: the image's partition is erased (R658). -/
  | eraseImage (n : Nat)
  /-- The first sector of an image is erased (R658, step 3). -/
  | voidImage (n : Nat)
  /-- Image data is programmed. -/
  | image (n off : Nat) (data : List Byte)
  /-- The boot header is rewritten; true where it makes an image ACTIVE. -/
  | header (h : BootHdr) (activates : Bool)
  /-- A record is appended to the provisioning (true) or the configuration partition; second try (R686). -/
  | record (prov : Bool) (key : Nat) (value : List Byte) (again : Bool)
  /-- A log flush: the pages, and the SEQ after the newest entry (R667). -/
  | logPages (pages : List (List LogEntry)) (next : Word)
  /-- The configuration records are copied into the other half (R662). -/
  | compact
deriving DecidableEq, Repr

/-- Who waits for a flash operation. -/
inductive Asker where
  | nobody
  /-- The command that waits under this engine number in `CmdUnit.busyOps`. -/
  | command (engine : Nat)
  /-- The PLDM update on a sideband port. -/
  | pldm (sb : Nat)
deriving DecidableEq, Repr

/-- A flash operation: steps left, journal SEQ, whether its INTENT stands, place and length. -/
structure FlashOp where
  what : FlashWhat
  steps : List FlashStep
  seq : Nat
  isOpen : Bool
  part : Nat
  off : Nat
  len : Nat
  asker : Asker
deriving DecidableEq, Repr

/-- Who owns the update session (R658). -/
inductive SessOwner where
  | command (src : Src)
  | port (sb : Nat)
deriving DecidableEq, Repr

/-- The update session: owner, image, end of the previous write, reference instant of the last update step. -/
structure Session where
  owner : SessOwner
  img : Nat
  nextOff : Nat
  stepAt : Nat
deriving DecidableEq, Repr

/-- The flash and its controller. -/
structure Nvm where
  /-- Flash size in MiB; 0 when absent. -/
  mib : Nat
  /-- The two copies of the boot header; none where the copy is not good. -/
  hdrA : Option BootHdr
  hdrB : Option BootHdr
  imgA : ImgPart
  imgB : ImgPart
  /-- Records of the current half of partition 5, its number and bytes used, and of the provisioning partition. -/
  cfg : List NvmRec
  half : Nat
  cfgUsed : Nat
  prov : List NvmRec
  provUsed : Nat
  /-- The identity certificate (R649). -/
  cert : Option (List Byte)
  /-- The journal, newest first, and its position in entries (R660). -/
  journal : List JEntry
  jpos : Nat
  nextSeq : Nat
  /-- The operation in progress and those that wait, in order. -/
  cur : Option FlashOp
  waiting : List FlashOp
  session : Option Session
  /-- Number of fuse bits blown of the SVN field (R657). -/
  floor : Nat
  /-- The running image: none under the boot ROM; image, VERSION, SVN and header bytes 0 to 167. -/
  running : Option (Nat × Nat × Nat × List Byte)
  /-- Image chosen at stage IMAGE, and its header bytes 0 to 167, to be loaded (R655). -/
  chosen : Option Nat
  /-- Reference instant at which Odjan last reached RUN (R659). -/
  runFrom : Nat
  /-- ID_STATUS.CERT_BAD. -/
  certBad : Bool
  nextEngine : Nat
deriving DecidableEq, Repr

end Sys2Proof.Machine
end

