-- ==== Sys2Proof/Machine/Parts/Host.lean ====
section
/-!
DEFINITION. State of the host links, the functions, their MSI-X vectors and their command queues
(spec/03_host_link.md, spec/04_commands.md).
-/

namespace Sys2Proof.Machine

/-- One host link (R99, R101, R107, R133, R134, R143, R150, R691). -/
structure HostLink where
  trained : Bool
  /-- WIDTH and SPEED codes of Table 3.11; 0 while the link is down. -/
  width : Nat
  speed : Nat
  flit : Bool
  /-- PERST of the link is asserted. -/
  perst : Bool
  /-- ECRC checking and ECRC generation enabled (Table 3.1). -/
  ecrc : Bool
  ecrcGen : Bool
  /-- ASPM L1 enabled in Link Control; the link is in L1 (R133). -/
  aspm : Bool
  inL1 : Bool
  /-- System Page Size of the SR-IOV capability, as its register holds it: bit n stands for 2^(n+12) bytes (R107). -/
  pageSize : Nat
  /-- PF1's VF Enable and NumVFs (R146). -/
  vfEnable : Bool
  /-- VF MSE of PF1's SR-IOV control (log entry 29). -/
  vfMse : Bool
  numVfs : Nat
  /-- Cached ATS translations: function, input page, output page (R123). -/
  atc : List (Nat × Nat × Nat)
deriving DecidableEq, Repr

/-- One MSI-X vector with its moderation words (R128 to R131, Table 3.6). -/
structure Vec where
  addr : BitVec 64
  data : Word
  mask : Bool
  pending : Bool
  holdoff : Nat
  maxPerHeat : Nat
  /-- Reference time of the last message. -/
  lastSent : Option Nat
  sentInHeat : Nat
  /-- The message now withheld by MAX_PER_HEAT has been counted (R131). -/
  counted : Bool
deriving DecidableEq, Repr

/-- STATE of a queue block (Table 4.14). -/
inductive QState where
  | idle | run | error
deriving DecidableEq, Repr

/-- One member of an open chain that has been taken (R177). -/
structure Member where
  op : Nat
  tag : BitVec 32
  /-- RESULT of its QUEUED reply, and NO_REPLY (R161, R165). -/
  result : Nat
  quiet : Bool
deriving DecidableEq, Repr

/-- An open chain of a queue (R175 to R180). -/
structure Chain where
  members : List Member
  /-- Flags and target of the first member govern the chain (R175). -/
  flags : BitVec 16
  target : Heat
  lateRun : Bool
  /-- Sealing unit of the chain. -/
  unit : Nat
  /-- Strikes since the last member was taken (R179). -/
  age : Nat
  /-- The chain is a cluster unit opened by COMMIT_OPEN. -/
  cluster : Bool
deriving DecidableEq, Repr

/-- The command at the head of a queue, as its header slot and pointer list told it when the device read them (R169, R172):
listed cost, slots, and whether it may need room for two replies (R164). -/
structure Head where
  cost : Nat
  slots : Nat
  cluster : Bool
deriving DecidableEq, Repr

/-- A command queue (R153 to R187, Table 4.14). -/
structure Queue where
  base : Nat
  replyBase : Nat
  logSlots : Nat
  logReplies : Nat
  enable : Bool
  /-- ENABLE was set again before the queue reached IDLE (R187). -/
  again : Bool
  st : QState
  consumer : Nat
  producer : Nat
  phase : Bool
  replyProd : Nat
  replyCons : Nat
  armed : Bool
  /-- What the device has read of the head command, if it has read it (R172). -/
  head : Option Head
  chain : Option Chain
  /-- The next commands up to the first without CHAIN belong to a chain that has failed, and are separate commands (R178). -/
  loose : Bool
  /-- Replies that wait for room or for the function (R140, R180), each with whether it is one that disabling the queue discards:
  of a chain, or the second of a cluster unit (R187). -/
  held : List (Reply × Bool)
  /-- Room promised to second replies of pending cluster units (R164). -/
  promised : Nat
  /-- REPLY_STALL has been set for the wait in progress (R164). -/
  stalled : Bool
  deficit : Nat
  /-- CU charged in this heat and in the last one. -/
  heatCu : Nat
  lastCu : Nat
deriving DecidableEq, Repr

/-- What a function holds (R102, R128, R132, R136, R140, R151; Tables 3.6, 3.11 and 5.14). -/
structure Func where
  d3 : Bool
  bme : Bool
  mse : Bool
  msixEn : Bool
  funcMask : Bool
  ats : Bool
  inFlr : Bool
  /-- Max Payload Size and Max Read Request Size in bytes (R136). -/
  mps : Nat
  mrrs : Nat
  /-- Completion Timeout Value and Disable of Device Control 2 (Table 3.1). -/
  cplRange : Nat
  cplOff : Bool
  /-- BAR0 and BAR2 as configuration software set them: the address bits above the size (R105). -/
  bar0 : Nat
  bar2 : Nat
  vecs : SMap Vec
  /-- Function status word: QERR, DB_ERR, DMA_ERR (Table 3.11). -/
  qerr : Bool
  dbErr : Bool
  dmaErr : Bool
  /-- AER severities that host software changed: error number and true for fatal (R148). -/
  aerSev : SMap Bool
  /-- Queue pairs with a transmit that was being fetched when Bus Master Enable was cleared (R140). -/
  cut : List Nat
  q : Queue
deriving DecidableEq, Repr

/-- CMD_FW_STATE (Table 4.15). -/
inductive FwState where
  | boot | run | restart | lifeboat
deriving DecidableEq, Repr

/-- The register mailbox (R181 to R185). Header and data stand in the register file. -/
structure Mbox where
  /-- 0 free, 1 HA, 2 HB. -/
  owner : Nat
  busy : Bool
  done : Bool
  reply : Option Reply
deriving DecidableEq, Repr

/-- How a command in work ends once its cycles have been served: with its answer, whose effect stands; with the seal of its
unit; or, for the last member of a chain, with the seal of the chain (R62, R64, R194). -/
inductive JobEnd where
  | reply (status field cause : Nat) (heat : Heat) (result : Nat)
  | seal (unit : Nat) (target : Heat) (late : Bool) (result : Nat)
  | chain
deriving DecidableEq, Repr

/-- A command that has been taken and is not finished (R73 to R75, R163, R194, R196). -/
structure Job where
  cmd : Cmd
  /-- CU less than its listed cost that it takes (R170). -/
  spare : Nat
  /-- Management cycles of commands to be served until it is finished; its own part of them. -/
  left : Nat
  own : Nat
  /-- It finished before the seal point of the heat (R62, R89). -/
  early : Bool
  fin : JobEnd
deriving DecidableEq, Repr

/-- A command that was taken and not decided when the watchdog fired: its source, its tag, and whether it was a member of an open
chain (R187, R196). -/
structure Undecided where
  src : Src
  tag : BitVec 32
  member : Bool
deriving DecidableEq, Repr

/-- The command interpreter (R172, R188, R195). -/
structure CmdUnit where
  fw : FwState
  mbox : Mbox
  /-- Round-robin pointer of each level 0–3, and whether the visit to the queue that it names goes on (R172). -/
  ptrs : List Nat
  visits : List Bool
  /-- CMD_QUANTUM in force (R188). -/
  quantum : Nat
  /-- Commands taken and undecided when the watchdog fired (R196). -/
  undecided : List Undecided
  /-- Immediate-class commands whose long operation is in progress: engine, source, tag, opcode, parameters, data. -/
  busyOps : List (Nat × Cmd)
  /-- Commands in work, in the order in which they were taken. -/
  jobs : List Job
deriving DecidableEq, Repr

end Sys2Proof.Machine
end

