-- ==== Sys2Proof/Machine/Parts/Instance.lean ====
section
/-!
DEFINITION. State of instances, pools, queue pairs and the translation unit (spec/05_instances.md).
-/

namespace Sys2Proof.Machine

/-- Instance states (Table 5.1). -/
inductive InsState where
  | free | detached | attached | releasing
deriving DecidableEq, Repr

/-- A tenant (R199 to R211, R230 to R234). -/
structure Ins where
  st : InsState
  elastic : Bool
  prot : Bool
  clearExp : Bool
  level : Nat
  weight : Nat
  cap : Nat
  /-- Grants of the seven pools, in the order of Table 5.3. -/
  grants : List Nat
  h2wRate : Nat
  w2hRate : Nat
  h2wBurst : Nat
  w2hBurst : Nat
  /-- Root table address, 0 for none (R228). -/
  root : Nat
  /-- INS_WIN_STATUS bits (Table 5.14). -/
  grantChg : Bool
  limitChg : Bool
  ituFault : Bool
  /-- INS_WIN_GRANT_HEAT (Table 5.14). -/
  grantHeat : Heat
  /-- SNAP grant and limit registers of the window, 0x0110 to 0x013C: seven grants, two rates, weight, level, cap. -/
  win : List Nat
  /-- CU charged to the instance in this heat (R172, R191). -/
  heatCu : Nat
deriving DecidableEq, Repr

/-- Queue-pair states (R214). -/
inductive QpState where
  | unconfigured | stopped | running | error
deriving DecidableEq, Repr

/-- A queue pair (R213 to R216, R245 to R248). -/
structure Qp where
  st : QpState
  logTx : Nat
  logRx : Nat
  logCq : Nat
  vec : Nat
  txAddr : Nat
  rxAddr : Nat
  cqAddr : Nat
  txProd : Nat
  txCons : Nat
  rxProd : Nat
  rxCons : Nat
  cqProd : Nat
  cqCons : Nat
  cqPhase : Bool
  armed : Bool
  /-- Completion entries of work finished that wait for the function or for room (R140, R248), without PHASE. -/
  held : List (List Byte)
deriving DecidableEq, Repr

/-- A cached leaf translation (R225): instance, page base, page size code 0–2, host page address, RD, WR. -/
structure Tlb where
  inst : Nat
  base : Nat
  size : Nat
  page : Nat
  rd : Bool
  wr : Bool
deriving DecidableEq, Repr

/-- A translation fault record (Table 5.11, ITU_FAULT_READ). -/
structure FaultRec where
  addr : Nat
  inst : Nat
  reason : Nat
  write : Bool
  level : Nat
  heat : Heat
deriving DecidableEq, Repr

/-- Instances, their queue pairs and the translation unit. A queue pair's key is instance × 65,536 + local number. -/
structure InsUnit where
  ins : SMap Ins
  qps : SMap Qp
  tlb : List Tlb
  /-- Entries of translation tables in host memory, by host address, as the last event that carried them gave them (log
  entry 17). -/
  tables : SMap WalkRead
  faults : List FaultRec
deriving DecidableEq, Repr

end Sys2Proof.Machine
end

