-- ==== Sys2Proof/Machine/Parts/Lane.lean ====
section
/-!
DEFINITION. State of lanes and ports (spec/06_lanes_ports.md) and of the repeat windows of violation events
(spec/18_misbehaviour.md).
-/

namespace Sys2Proof.Machine

/-- One lane (Table 6.8, R258 to R264). -/
structure Lane where
  sig : Bool
  cdr : Bool
  align : Bool
  failed : Bool
  /-- Failure reason: 0 none, 1 LOS, 2 CDR lock, 3 alignment, 4 error rate, 5 training, 6 PLL. -/
  reason : Nat
  powered : Bool
  /-- Equalisation mode FIXED. -/
  fixed : Bool
  /-- LN_EQ_TX and LN_EQ_RX: the taps in use. -/
  eqTx : Nat
  eqRx : Nat
  /-- Corrected and received symbols of the last heats, newest first (R258). -/
  hist : List (Nat × Nat)
  /-- LN_RATE_PPM (SNAP). -/
  ppm : Nat
  /-- A re-adaptation is under way or its window is running: its end in reference time, and the whole heats since then (R260). -/
  readapt : Option (Nat × Nat)
  /-- The window restarts at the next strike (R281). -/
  restart : Bool
  /-- Reference instant since which signal, lock or alignment is lost (R262), and since which, of a failed lane, it is there again
  (R264). -/
  lossAt : Option Nat
  backAt : Option Nat
  /-- Reference instant at which the lane was powered up (R287), and the rate code it runs at (Table 6.4). -/
  upAt : Option Nat
  rate : Nat
deriving DecidableEq, Repr

/-- Port states (Table 6.9). -/
inductive PState where
  | disabled | banked | down | training | up | degraded
deriving DecidableEq, Repr

/-- A port's configuration as PORT_CONFIG landed it (Table 6.6). -/
structure PortCfg where
  flags : Nat
  rate : Nat
  width : Nat
  minWidth : Nat
  fec : Nat
  adv : Nat
deriving DecidableEq, Repr

/-- What is stored of a port on entry to the banked state (R270): UP (or DEGRADED), speed, rate, base, width, FEC, and the transmit
and receive words of each of its lanes. -/
structure Stored where
  up : Bool
  speed : Nat
  rate : Nat
  base : Nat
  width : Nat
  fec : Nat
  eq : List (Nat × Nat × Nat)
deriving DecidableEq, Repr

/-- One port (Table 6.9, R252 to R270). -/
structure Port where
  st : PState
  cfg : Option PortCfg
  /-- Lanes carrying or training the port: first lane and log2 of the width. -/
  base : Nat
  width : Nat
  rate : Nat
  speed : Nat
  /-- FEC in force, coded as PORT_CONFIG codes it, 0 while the port carries nothing (R255). -/
  fec : Nat
  /-- The group is one that R265 chose. -/
  reduced : Bool
  stored : Option Stored
  /-- The port has left the banked state and has not come up since; it retrains from the stored state; the landing strike of its
  EXIT (R270). -/
  exiting : Bool
  fromStore : Bool
  exitAt : Nat
  /-- Start of the bring-up attempt (R257). -/
  trainAt : Nat
  /-- Reference instant since which every configured lane is healthy (R267). -/
  healthyFrom : Option Nat
  /-- Went DOWN for a short loss from this state, with this FEC (R262). -/
  lossFrom : Option PState
  lossFec : Nat
  changeHeat : Heat
deriving DecidableEq, Repr

/-- A diagnostic running on a group of lanes (R273, R274): mode as LN_DIAG codes it, rate code, pattern, and the reference instant at
which the mode, or the sweep's present rate, began. -/
structure Diag where
  anchor : Nat
  width : Nat
  mode : Nat
  rate : Nat
  pattern : Nat
  /-- Highest rate a sweep has passed, and whether it has ended. -/
  best : Nat
  ended : Bool
  since : Nat
deriving DecidableEq, Repr

/-- A repeat window of a violation event: code, unit, strike count at the recording, suppressed occurrences (R718). -/
structure Repeat where
  code : Nat
  unit : Nat
  since : Nat
  count : Nat
deriving DecidableEq, Repr

/-- Lanes, ports and diagnostics. -/
structure LnUnit where
  lanes : SMap Lane
  ports : SMap Port
  diags : List Diag
  /-- Lane power steps waiting, in order: lane and whether it powers up (R271). -/
  power : List (Nat × Bool)
  /-- Earliest reference instant of the next lane power step (R271). -/
  powerAt : Nat
  /-- Active LN_FAIL_THRESH and LN_FAIL_WINDOW (R275). -/
  thresh : Nat
  window : Nat
  /-- Reference instant of the last strike. -/
  strikeAt : Nat
  /-- VDD_CORE current of the lanes when it last began to change, in mA, and that instant (R271). -/
  coreFrom : Nat
  coreAt : Nat
deriving DecidableEq, Repr

end Sys2Proof.Machine
end

