-- ==== Sys2Proof/Machine/Parts/Mac.lean ====
section
/-!
DEFINITION. State of the MAC of each port: active configuration, received and own pause, the watchdog, preemption and
gate lists (spec/07_mac.md).
-/

namespace Sys2Proof.Machine

/-- Active MAC configuration of a port (Table 7.6). -/
structure MacCfg where
  cut : Bool
  maxFrame : Nat
  /-- 0 NONE, 1 PAUSE, 2 PFC. -/
  fcMode : Nat
  honour : Nat
  generate : Nat
  quanta : Nat
  wdLimit : Nat
  recovery : Nat
  preEn : Bool
  verifyDis : Bool
  addFrag : Nat
  express : Nat
  verifyTime : Nat
  holdAdv : Nat
  relAdv : Nat
deriving DecidableEq, Repr

/-- One entry of a gate list (Table 7.4). -/
structure GateEntry where
  interval : Nat
  gates : Nat
  /-- 0 SET, 1 SET_AND_HOLD, 2 SET_AND_RELEASE. -/
  op : Nat
deriving DecidableEq, Repr

/-- A gate list with its cycle and its start, as device time and as an instant of `State.devNow` (R305 to R307, R773). -/
structure GateList where
  locked : Bool
  entries : List GateEntry
  cycle : Nat
  baseHeat : Heat
  baseNs : Nat
  startHeat : Heat
  startNs : Nat
  startRef : Nat
deriving DecidableEq, Repr

/-- Pause of one class (or of the port, in class 0): received pause with its end and the start of the uninterrupted
hold, recovery with its end (R296, R300), and the device's own XOFF with its accounts in the duty window (R298, R299).
Times are reference nanoseconds. -/
structure PauseClass where
  pausedTo : Option Nat
  heldFrom : Option Nat
  recoverTo : Option Nat
  xoff : Bool
  xoffFrom : Nat
  xoffAccum : Nat
  repeatAt : Nat
  capped : Bool
deriving DecidableEq, Repr

/-- The MAC of one port. -/
structure MacPort where
  cfg : MacCfg
  pause : SMap PauseClass
  /-- Start of the current duty window of 1 ms (R299). -/
  winFrom : Nat
  /-- Verify state (Table 7.6) and verify mPackets sent in this attempt, the instant of the next one (R302). -/
  verify : Nat
  verifySent : Nat
  verifyAt : Nat
  preActive : Bool
  hold : Bool
  /-- The operational list, its current entry and the instant of `State.devNow` at which its current cycle began. -/
  gate : Option GateList
  gateIdx : Nat
  cycleFrom : Nat
  /-- A landed list that awaits its start (R307). -/
  next : Option GateList
  /-- Entries of the lists that begin before these instants of `State.devNow` have had their HOLD, or its release (R304). -/
  holdTo : Nat
  relTo : Nat
deriving DecidableEq, Repr

end Sys2Proof.Machine
end

