-- ==== Sys2Proof/Machine/Parts/Power.lean ====
section
/-!
DEFINITION. State of the power block and of the temperature block (spec/15_power_thermal.md). Ratio codes are 0 full,
1 for 3/4, 2 for 1/2, 3 for 1/4; currents are in mA; times are reference nanoseconds.
-/

namespace Sys2Proof.Machine

/-- Power and temperature. -/
structure PwrUnit where
  /-- Ratio code that SOFT sags and alerts have brought about and that recovers under R610. -/
  sag : Nat
  /-- Detectors below SOFT, below HARD, and excluded (R606, R642). -/
  belowSoft : Nat
  belowHard : Nat
  failed : Nat
  /-- Since when each detector that is below SOFT has been so (R642), and since when one has been below HARD (R643); SUPPLY_LOW has
  been recorded for this sag. Reference instants. -/
  belowFrom : SMap Nat
  hardFrom : Nat
  lowTold : Bool
  /-- The last SOFT step, from which 20 ns count (R607); the last instant at which a detector was known below SOFT or an alert
  present, from which the hold time counts (R610); the last step-up made (R633). Reference instants. -/
  softAt : Nat
  sagAt : Nat
  steppedAt : Option Nat
  /-- BRD_ALERT_N is asserted and honoured (R612). -/
  alert : Bool
  /-- A SOFT sag, a HARD sag is being counted (R611); the floor override of this HARD sag has been counted. -/
  softSag : Bool
  hardSag : Bool
  /-- The hold time has expired: the reference instant of the next step-up (R610). -/
  stepAt : Option Nat
  /-- Strike of the last SOFT sag, HARD sag and alert (R611, R612). -/
  lastSoft : Option Nat
  lastHard : Option Nat
  lastAlert : Option Nat
  /-- Sources that PWR_INJECT imitates: 1 SOFT, 2 HARD, 3 ALERT, each with its end (R641). -/
  inject : SMap Nat
  /-- Fewer than 8 detectors remain (R642). -/
  blind : Bool
  /-- Dynamic current issued, E × DYN_FULL, and the one demanded (R613). -/
  dyn : Nat
  demand : Nat
  /-- Band on LOAD_HINT, the band of the target, and the rise that waits for LEAD: its end and the edge it keeps below
  (R618). -/
  pins : Nat
  target : Nat
  wait : Option (Nat × Nat)
  /-- LOAD_HINT is held at 0b111 until the first strike in RUN (R619). -/
  hintHeld : Bool
  /-- Thermal ceiling code, warning in force, throttling in force (R623, R624). -/
  ceiling : Nat
  warn : Bool
  throttled : Bool
  /-- Device temperature and hottest valid sensor, in 1/16 °C (R622), and invalid sensors (R644). -/
  temp : Int
  /-- Reference instant of the last step of the ceiling (R624). -/
  thmAt : Nat
  /-- Where the device temperature stands for R624: 0 below THROTTLE − 5 °C, 2 at or above THROTTLE, 1 between. -/
  region : Nat
  hottest : Nat
  badSensors : Nat
  /-- Ports that the derate banked (R625). -/
  derated : List Nat
  /-- Step of Table 15.5 reached, 0 outside a quench. -/
  quench : Nat
  /-- Reference instant at which step 5 of Table 15.5 began (R628). -/
  quenchAt : Nat
  /-- THM_TRIP: QUENCHED and HARD_TRIP (STICKY). -/
  quenched : Bool
  tripped : Bool
  /-- The hard trip holds the device (R629). -/
  tripHold : Bool
  /-- HINT words of accepted frames of this heat, by node, and those visible in PWR_PEER_HINT (R620). -/
  hintIn : SMap Nat
  hintSeen : SMap Nat
  /-- Own HINT word latched at the last strike (R620). -/
  hintWord : Nat
deriving DecidableEq, Repr

end Sys2Proof.Machine
end

