-- ==== Sys2Proof/Machine/Parts/Sideband.lean ====
section
/-!
DEFINITION. State of the SMBus sideband (spec/16_identity_nvm_log.md, "The SMBus sideband").
-/

namespace Sys2Proof.Machine

/-- PLDM type 5 states of the device as firmware device (R659). -/
inductive FdState where
  | idle | learn | ready | download | verify | apply | activate
deriving DecidableEq, Repr

/-- One SMBus port (R663, R674 to R678). -/
structure SbPort where
  eid : Nat
  /-- Target address and speed since the last warm reset. -/
  addr : Nat
  speed : Nat
  tid : Nat
  /-- Event receiver: none, or its EID (R666). -/
  receiver : Option Nat
  /-- Messages to be sent, in order; retries of the packet of the first, and whether it waits out a back-off (R677). -/
  tx : List SbMsg
  retries : Nat
  backoff : Bool
  /-- SMBus component size and bytes received in the update in progress (R659). -/
  size : Nat
  got : Nat
  /-- Firmware-device state: update mode is any but `idle`. -/
  fd : FdState
deriving DecidableEq, Repr

end Sys2Proof.Machine
end

