-- ==== Sys2Proof/Machine/Parts/Triad.lean ====
section
/-!
DEFINITION. State of the triad unit (spec/14_triads.md).
-/

namespace Sys2Proof.Machine

/-- Member states (Table 14.2). -/
inductive TriState where
  | init | standby | owner | yield | claim | out
deriving DecidableEq, Repr

/-- Configuration of a triad slot as TRI_SET lands it (Table 14.6). -/
structure TriCfg where
  triad : Nat
  nodes : List Nat
  ssp : Bool
  announce : Nat
  port : Nat
  mac : Nat
  tci : Nat
  svc : Nat
  ipv4 : Nat
  ipv6 : List Byte
deriving DecidableEq, Repr

/-- One triad slot. -/
structure Triad where
  cfg : TriCfg
  st : TriState
  epoch : Nat
  /-- Rank of the known owner, and the rank that OWNER_RANK names as owner or successor; 3 none (Table 14.1). -/
  owner : Nat
  named : Nat
  /-- The slot was configured at this strike (R591). -/
  fresh : Bool
  /-- The word latched at the last strike. -/
  word : Nat
  /-- Words accepted in the heat in progress, by rank; and ranks of which a word was accepted in the heat before. -/
  heard : SMap Nat
  seen : Nat
  /-- Missed heats in a row of the owner, unconfirmed and confirmed heats in a row (R570, R577). -/
  missed : Nat
  unconf : Nat
  conf : Nat
  virasCause : Bool
  /-- Causes present at the last strike edge, before what came about on it (R595). -/
  causes : Nat
  inGap : Bool
  gap : List Frame
  /-- The successor chosen at the end of the heat (R572, R574). -/
  decided : Option Nat
  /-- A YIELD owner has accepted a newer OWNER word (R578). -/
  relieved : Bool
  /-- The claimant's check at the end of the heat held (R575). -/
  claimOk : Bool
  /-- The owner is to step down at the next strike, and whether for an OWNER word (R576). -/
  stepDown : Option Bool
  /-- A handover has landed: target rank (R593); TRI_FORCE waits for the next strike (R594). -/
  handover : Option Nat
  forced : Bool
  ownerHeat : Heat
  /-- Announcements left and the instant of the next (R583). -/
  announceLeft : Nat
  announceAt : Nat
deriving DecidableEq, Repr

/-- The triad unit (R567 to R603). -/
structure TriUnit where
  slots : SMap Triad
  /-- Cause MEM is latched (Table 14.3, bit 0). -/
  mem : Bool
  /-- Filtered levels of ISOLATE_A and ISOLATE_B (R586). -/
  isoA : Bool
  isoB : Bool
  /-- Reference time at which the levels began to disagree (R588). -/
  disagreeFrom : Nat
  latched : Bool
  /-- Isolate state sampled at the last strike (R587). -/
  isolated : Bool
  /-- TRI_ISO_CFG.EN in force. -/
  isoEn : Bool
deriving DecidableEq, Repr

end Sys2Proof.Machine
end

