-- ==== Sys2Proof/Machine/Parts/Viras.lean ====
section
/-!
DEFINITION. State of the Viras controller and of cluster time (spec/12_viras_bus.md, spec/13_cluster_time.md). Link
instants, path delays, deviations and corrections are in 1/256 ns.
-/

namespace Sys2Proof.Machine

/-- A slot of a schedule image (Table 12.7). -/
structure ImgSlot where
  start : Nat
  owner : Nat
  sync : Bool
  len : Nat
  pmax : Nat
deriving DecidableEq, Repr

/-- A node of a schedule image: sync mark, hub marks of channels A to C, and its parent on each channel: valid, hub node,
branch (Table 12.7). -/
structure ImgNode where
  id : Nat
  sync : Bool
  hub : Nat
  parents : List (Bool × Nat × Nat)
deriving DecidableEq, Repr

/-- A schedule image (R516). Modes: 0 OFF, 1 BUS, 2 STAR. -/
structure Img where
  id : Nat
  rev : Nat
  heatLen : Nat
  modes : List Nat
  starRate : Nat
  ap : Nat
  gw : Nat
  rxWin : Nat
  slots : List ImgSlot
  nodes : List ImgNode
deriving DecidableEq, Repr

/-- What an end of a star link waits for in the ladder of Table 12.5. -/
inductive LadderStep where
  /-- Idles run and the receiver locks. -/
  | lock
  /-- HELLO (upstream) or HELLO_ACK (downstream) is awaited; after a switch, within 2 ms. -/
  | hello (switched : Bool)
  /-- RATE_REQ has been sent, or is awaited. -/
  | rate
  /-- RATE_ACK has passed; the switch comes 10 µs after its end. -/
  | switching
  | ping
  /-- READY has passed; the link is UP from the next strike. -/
  | ready
  /-- A REJECT holds the link idle. -/
  | hold
  | idle
deriving DecidableEq, Repr

/-- One end of a star link of this device: its uplink on a channel, or a branch of a hub. -/
structure VLink where
  /-- 0 DOWN, 1 LADDER, 2 UP, 3 LOW. -/
  st : Nat
  step : LadderStep
  rate : Nat
  /-- Reference instant at which the step began. -/
  since : Nat
  /-- Reference instant of the last HELLO sent since the end waits for HELLO_ACK (Table 12.5). -/
  helloAt : Option Nat
  /-- Instant of this heat, in 1/256 ns, at which the link went DOWN (R520). -/
  lostAt : Option Nat
  /-- PONGs received, repeats of the PING in flight, and the sum of t2 - t1 (R508). -/
  pongs : Nat
  repeats : Nat
  total : Nat
  /-- Link delay d of a branch, or path delay P that READY gave to the uplink. -/
  delay : Nat
  idValid : Bool
  node : Nat
  /-- Input was blocked in this heat; consecutive heats before it in which it was; branch shut (R525). -/
  cutNow : Bool
  cutRun : Nat
  shut : Bool
  /-- A PING has been received whose PONG is due at this reference instant. -/
  pongAt : Option Nat
deriving DecidableEq, Repr

/-- Reception on a channel (R520, R523). -/
structure VChan where
  /-- A good copy has arrived in this heat. -/
  good : Bool
  miss : Nat
  run : Nat
  down : Bool
  /-- The channel transmits in this heat: as it stood at the strike. -/
  txUp : Bool
deriving DecidableEq, Repr

/-- A good copy of the slot in progress: channel, header and payload words, deviation. -/
structure VCopy where
  chan : Nat
  words : List Nat
  dev : Int
deriving DecidableEq, Repr

/-- The Viras controller. Links lie by key: 8 × channel + branch, and 24 + channel for the uplink. -/
structure Viras where
  /-- Role HUB and node ID in force since the last reset (R496). -/
  hub : Bool
  node : Nat
  img : Option Img
  /-- VRS_STATUS.GUARD_CRC (R524). -/
  guardCrc : Bool
  /-- The guardian has blocked the controller until the next strike (R524). -/
  blocked : Bool
  chans : SMap VChan
  links : SMap VLink
  copies : List VCopy
  /-- Nodes of which a frame was accepted in this heat and in the heat before (R500). -/
  seen : Nat
  member : Nat
  /-- Own frames sent in this heat, by slot. -/
  sent : SMap (List Nat)
  /-- Actions of the heat's plan that have been done (R773), and the slots whose frame the controller starts late, with the ns. -/
  pos : Nat
  lags : SMap Nat
  /-- Frames being driven: channel, slot, reference instant of the end. -/
  driving : List (Nat × Nat × Nat)
  /-- Words latched at the last strike (R546, R549, R569, R620). -/
  mboxTx : List Nat
  commitTx : List Nat
  triTx : List Nat
  hintTx : Option Nat
deriving DecidableEq, Repr

/-- A cluster unit (R548 to R552). Masks are over node IDs. -/
structure CUnit where
  cid : Nat
  mask : Nat
  target : Heat
  /-- Sealing unit of the staging store. -/
  unit : Nat
  owner : Src
  tag : BitVec 32
  /-- NO_REPLY of its COMMIT_OPEN (R165). -/
  quiet : Bool
  isSealed : Bool
  /-- 1 sealed, 2 armed, 3 GO sent, 4 NOGO sent, 5 committed, 6 aborted (0 not sealed). -/
  phase : Nat
  armed : Nat
  go : Nat
  committed : Nat
  aborted : Nat
  /-- Cause of Table 13.10 that an event gave the unit (R558), and the cause and failing node of its abort. -/
  lost : Bool
  cause : Nat
  failing : Nat
deriving DecidableEq, Repr

/-- Cluster time, mailboxes and commit (Tables 13.1 to 13.11). -/
structure TimUnit where
  /-- 0 OFF, 1 LISTEN, 2 COLDSTART, 3 INTEGRATE, 4 SYNC, 5 HOLDOVER. -/
  st : Nat
  /-- Transmission is permitted in this heat (R528). -/
  txOn : Bool
  /-- Joined with COLDSTART (R539). -/
  cold : Bool
  /-- State from which INTEGRATE was entered, and own heats spent in the present state. -/
  from_ : Nat
  heats : Nat
  /-- Consecutive valid heats in COLDSTART, invalid ones in SYNC; a valid heat has come in HOLDOVER. -/
  good : Nat
  bad : Nat
  /-- Deviations of this heat and of the one before, by node; validity, correction, image and length of that one. -/
  devs : SMap Int
  prevDevs : SMap Int
  prevValid : Bool
  prevC : Int
  prevId : Nat
  prevLen : Nat
  /-- The end of the last slot of this heat has been worked; what it computed. -/
  closed : Bool
  valid : Bool
  raw : Int
  c : Int
  usedMask : Nat
  /-- Deviations used in the last closed heat (TIM_STATE.USED). -/
  usedCnt : Nat
  r : Int
  ppb : Int
  minSync : Nat
  holdFrom : Nat
  lastClamp : Option Nat
  /-- Adopted heat number and the reference instant of the adoption strike (R538). -/
  adopt : Option (Heat × Nat)
  adoptLen : Nat
  /-- The mapping to PTP time (R544). -/
  ptpHeat : Heat
  ptpSec : Nat
  ptpNs : Nat
  /-- Mailbox words accepted in this heat: node, single, words (R547). -/
  mbox : SMap (Bool × List Nat)
  units : List CUnit
  /-- TIM_COMMIT_LAST as of now; the register takes it at a strike. -/
  last : Nat
deriving DecidableEq, Repr

end Sys2Proof.Machine
end

