-- ==== Sys2Proof/Machine/State.lean ====
section
/-!
DEFINITION. The state of the Plenik 16 as plain data, its faults and refusals, and the state right after power-on
reset, at the release of RST_N.
-/

namespace Sys2Proof.Machine

/-- The reasons for which a step faults: none. Every event and command of the opcode table has an effect, or leaves
the state as it is; the device has no architectural stop that a fault would stand for (log entry 4). -/
inductive Fault where
deriving DecidableEq, Repr

/-- The reasons for which a step is refused. -/
inductive Refusal where
  /-- The row's meaning is not written: raised by arms of Dispatch.lean alone. Safe: the run stops. -/
  | notModelled (mnemonic : String)
deriving DecidableEq, Repr

/-- The device. Registers whose home is no named field lie in `regs`, a sparse map from PF0 BAR0 offset to the word
where it differs from its reset value; counters lie in `ctrs` by BAR0 offset (function pages at 0x100_0000 + 0x200 × id,
R767, R768; blocks of instance windows at 0x800_0000 + 0x1_0000 × id). -/
structure State where
  time : Time
  io : StrikeIo
  budget : Budget
  staging : Staging
  regs : SMap Nat
  ctrs : SMap Cnt
  snap : SnapBank
  /-- Status bits set by events in the reference cycle `setAt`, by word: a write of 1 in the same cycle does not clear them
  (R20). -/
  setAt : Nat
  setNow : SMap Nat
  /-- Shadows of each requester (R22, R55), by link. -/
  shadows : SMap Shadow
  links : SMap HostLink
  /-- Functions, by the instance ID they carry (R102). -/
  funcs : SMap Func
  cmd : CmdUnit
  ins : InsUnit
  log : Log
  /-- Repeat windows of violation events (R718). -/
  viol : List Repeat
  ln : LnUnit
  macs : SMap MacPort
  rul : RulUnit
  tm : TmUnit
  cip : CipUnit
  sto : StoUnit
  pwr : PwrUnit
  tri : TriUnit
  vrs : Viras
  tim : TimUnit
  nvm : Nvm
  sb : SMap SbPort
  /-- Sensor readings latched at the last strike for the sideband, by sensor number 1 to 33 (R676; log entry 48). -/
  sbSeen : SMap Nat
  boot : Boot
  /-- Levels and readings at the inputs, as the last event that carried them left them. -/
  env : StrikeIn
  /-- The model's record of what the device sent, newest first. -/
  out : List Output
  /-- The model's own counter of free values drawn (log entry 1). -/
  free : Nat
  /-- Commands and events waiting, first in first out. -/
  pending : List Instr
deriving DecidableEq, Repr

-- The state right after power-on reset, part by part.

/-- Device time after power-on reset (R53): heat 0, 125,000 ns, T3. -/
def Time.reset : Time :=
  { heat := 0, edge := none, ns := 0, frac := 0, heatLen := 125000, cls := 3, guard := 2000, sealDone := false, refNow := 0, devBase := 0,
    hk := 0, base := 0, rate := 0, corr := 0, corrAt := 0, corrLen := 0, strikes := 0, refHold := false, refLostAt := 0 }

/-- No work. -/
def Work.zero : Work := { svc := 0, cmds := 0, aging := 0, log := 0, telem := 0 }

/-- No budget is planned before RUN (R775); STK_SHARES at its reset value. -/
def Budget.reset : Budget :=
  { full := false, runHeat := false, planned := 0, pool := 0, carriedIn := 0, todo := Work.zero, carried := [],
    credit := Work.zero, share := Work.zero, cmdLeft := 0, used := 0, guardUsed := 0, delivered := 0, logBooked := 0,
    stall := none, stallFrom := none, pctAging := 10, pctLog := 10, pctTelem := 10, overrun := false, cause := 0, quiet := 1024,
    runCount := 0, runHeats := 0 }

/-- The interpreter before firmware runs. -/
def CmdUnit.reset : CmdUnit :=
  { fw := .boot, mbox := { owner := 0, busy := false, done := false, reply := none }, ptrs := [0, 0, 0, 0],
    visits := [false, false, false, false], quantum := 4, undecided := [], busyOps := [], jobs := [] }

/-- An empty log. -/
def Log.reset : Log :=
  { main := [], fb := [], fallback := false, memFail := false, seqNext := 0, seqFlushed := 0, badSeqs := [], flushDue := false,
    lostSince := 0, page := 0, pages := [] }

/-- Lanes and ports: all DISABLED, powered down, in ADAPT mode (R277). -/
def LnUnit.reset : LnUnit :=
  { lanes := [], ports := [], diags := [], power := [], powerAt := 0, thresh := 1000, window := 8,
    strikeAt := 0, coreFrom := 80, coreAt := 0 }

/-- Empty tables of the pipelines; the standard UDP and TCP ports of Table 8.14. -/
def RulUnit.reset : RulUnit :=
  { rules := [], flows := [], srcs := [], bds := [], rewrites := [], tunnels := [], mirrors := [], vxlan := 4789,
    geneve := 6081, nvme := 4420, aged := [], capture := [], scanPos := 0, behind := 0, partDone := 0, period := 8000,
    limit := 30, flush := none, learnTo := 0, dramDown := false }

/-- An empty traffic manager. -/
def TmUnit.reset : TmUnit :=
  { queues := [], sending := [], groups := [], ownerGroup := [], ownerWeight := [], strict := [], weights := [], admits := [],
    qlim := [], rootSh := [], limiters := [], nodes := [], policers := [], rrRoot := [], rrGroup := [], rrOwner := [],
    above := [], retired := [0, 0, 0, 0], quantum := 256, stale := 100, nextId := 0, cuts := [], tailWait := [] }

/-- Power and temperature: full ratio, LOAD_HINT held at 0b111 (R619), THM_STATE.TEMP 0 (Table 15.10). -/
def PwrUnit.reset : PwrUnit :=
  { sag := 0, belowSoft := 0, belowHard := 0, failed := 0, belowFrom := [], hardFrom := 0, lowTold := false, softAt := 0,
    sagAt := 0, steppedAt := none, alert := false, softSag := false, hardSag := false, stepAt := none,
    lastSoft := none, lastHard := none, lastAlert := none, inject := [], blind := false, dyn := 0, demand := 0, pins := 7,
    target := 0, wait := none, hintHeld := true, ceiling := 0, warn := false, throttled := false, temp := 0, thmAt := 0, region := 0,
    hottest := 0, badSensors := 0, derated := [], quench := 0, quenchAt := 0, quenched := false, tripped := false, tripHold := false,
    hintIn := [], hintSeen := [], hintWord := 0 }

/-- No triad is configured. -/
def TriUnit.reset : TriUnit :=
  { slots := [], mem := false, isoA := false, isoB := false, disagreeFrom := 0, latched := false, isolated := false,
    isoEn := true }

/-- No schedule image; the role and node ID are the straps' (R496). -/
def Viras.reset (hub : Bool) (node : Nat) : Viras :=
  { hub := hub, node := node, img := none, guardCrc := false, blocked := false, chans := [], links := [], copies := [],
    seen := 0, member := 0, sent := [], pos := 0, lags := [], driving := [], mboxTx := [], commitTx := [], triTx := [], hintTx := none }

/-- The time state is OFF (R555, R697). -/
def TimUnit.reset : TimUnit :=
  { st := 0, txOn := false, cold := false, from_ := 1, heats := 0, good := 0, bad := 0, devs := [], prevDevs := [],
    prevValid := false, prevC := 0, prevId := 0, prevLen := 0, closed := false, valid := false, raw := 0, c := 0,
    usedMask := 0, usedCnt := 0, r := 0, ppb := 0, minSync := 1, holdFrom := 0, lastClamp := none, adopt := none,
    adoptLen := 0, ptpHeat := 0, ptpSec := 0, ptpNs := 0, mbox := [], units := [], last := 0 }

/-- A blank flash, whose size no boot has read yet (log entry 15). -/
def Nvm.reset : Nvm :=
  { mib := 0, hdrA := none, hdrB := none, imgA := { data := [], mark := 0 }, imgB := { data := [], mark := 0 }, cfg := [],
    half := 0, cfgUsed := 0, prov := [], provUsed := 0, cert := none, journal := [], jpos := 0, nextSeq := 0, cur := none,
    waiting := [], session := none, floor := 0, running := none, chosen := none, runFrom := 0, certBad := false,
    nextEngine := 0 }

/-- A sideband port with an address and a speed (R663). -/
def SbPort.reset (addr speed : Nat) : SbPort :=
  { eid := 0, addr := addr, speed := speed, tid := 0, receiver := none, tx := [], retries := 0, backoff := false, size := 0,
    got := 0, fd := .idle }

/-- RST_N has just been released after a power-on: straps sampled low, provisioning at its defaults, stage SELFTEST. -/
def Boot.reset : Boot :=
  { strapHub := false, strapBoot := false, strapLink := false, strapNode := 0, stage := 1, lbReason := 0, failed := 0,
    bootMs := 0, cause := 1, rstN := false, railHold := false, standby := true, lbRequest := false, presented := false,
    vfSplit := 2046, vfMsix := 8, subVendor := 0x1F8C, subId := 0, autoConfirm := false, deferred := [],
    romBankBad := false, stopped := false, hot := false }

/-- The machine right after power-on reset, at the release of RST_N (R12, R53, R277, R698). -/
def State.reset : State :=
  { time := Time.reset,
    io := { pinIn := 0, dir := 0, drive := 0, pulsing := 0 },
    budget := Budget.reset,
    staging := { items := [], nextUnit := 0, barriers := [] },
    regs := [], ctrs := [], snap := { heat := 0, ctrs := [] }, setAt := 0, setNow := [], shadows := [],
    links := [], funcs := [], cmd := CmdUnit.reset, ins := { ins := [], qps := [], tlb := [], tables := [], faults := [] },
    log := Log.reset, viol := [], ln := LnUnit.reset, macs := [], rul := RulUnit.reset, tm := TmUnit.reset,
    cip := { slots := [], ctxs := [], secys := [], counts := [] },
    sto := { conns := [], nss := [], quotas := [] },
    pwr := PwrUnit.reset, tri := TriUnit.reset, vrs := Viras.reset false 0, tim := TimUnit.reset, nvm := Nvm.reset,
    sb := [(0, SbPort.reset 0x1D 0), (1, SbPort.reset 0x1E 0)], sbSeen := [], boot := Boot.reset,
    env := { pins := 0, sensors := List.replicate 12 400, minMv := 750, telemCu := 0, stall := none, lanes := [], links := [], logFail := none },
    out := [], free := 0, pending := [] }

end Sys2Proof.Machine
end

