-- ==== Sys2Proof/Machine/Regs.lean ====
section
/-!
DEFINITION. The register map: the addresses of the counters, the writable fields with their codes, reset values and
ranges (the field tables of spec/02_strike.md to spec/18_misbehaviour.md; spec/20_register_index.md), and the one read
and the one write of a register word and of a field.
-/

namespace Sys2Proof.Machine

/-- A writable field of the register map: PF0 BAR0 offset of its word, array length and stride, bits, whether a write
of 1 clears it (else it is read/write), reset value, and range (Tables 0.4 and R18). -/
structure Fld where
  addr : Nat
  n : Nat := 1
  stride : Nat := 0
  hi : Nat
  lo : Nat
  w1c : Bool := false
  rst : Nat := 0
  mn : Nat := 0
  mx : Nat := 2 ^ 32 - 1

namespace Reg
-- Strike unit (Tables 2.8, 2.9, 2.11)
def guard : Fld := { addr := 0x010024, hi := 23, lo := 0, rst := 2000, mn := 1000, mx := 20000 }
def shAging : Fld := { addr := 0x010028, hi := 7, lo := 0, rst := 10, mx := 30 }
def shLog : Fld := { addr := 0x010028, hi := 15, lo := 8, rst := 10, mn := 5, mx := 30 }
def shTelem : Fld := { addr := 0x010028, hi := 23, lo := 16, rst := 10, mx := 30 }
def stkStatus : Fld := { addr := 0x010030, hi := 4, lo := 0, w1c := true }
def stkIntEn : Fld := { addr := 0x010034, hi := 5, lo := 0 }
def ioDir : Fld := { addr := 0x010080, hi := 7, lo := 0 }
def ioOut : Fld := { addr := 0x010084, hi := 7, lo := 0 }
def ioMode : Fld := { addr := 0x01008C, hi := 15, lo := 0 }
def ioPulse : Fld := { addr := 0x010090, hi := 23, lo := 0, rst := 100, mn := 8, mx := 10000 }
def ioChg : Fld := { addr := 0x010094, hi := 7, lo := 0, w1c := true }
-- Cluster time (Table 13.11)
def timStatus : Fld := { addr := 0x010104, hi := 7, lo := 0, w1c := true }
def timIntEn : Fld := { addr := 0x010108, hi := 7, lo := 0 }
def minSync : Fld := { addr := 0x01010C, hi := 3, lo := 0, rst := 1, mn := 1, mx := 15 }
def mboxTxCnt : Fld := { addr := 0x010140, hi := 2, lo := 0, mx := 4 }
def mboxTx : Fld := { addr := 0x010144, n := 4, stride := 4, hi := 23, lo := 0 }
-- Power and temperature (Tables 15.9, 15.10)
def pwrStatus : Fld := { addr := 0x020000, hi := 4, lo := 0, w1c := true }
def pwrIntEn : Fld := { addr := 0x020004, hi := 4, lo := 0 }
def vset : Fld := { addr := 0x020008, hi := 9, lo := 0, rst := Config.vsetFused, mn := 700, mx := 800 }
def droopHard : Fld := { addr := 0x02000C, hi := 15, lo := 8, rst := 50, mn := 20, mx := 150 }
def droopSoft : Fld := { addr := 0x02000C, hi := 7, lo := 0, rst := 30, mn := 10, mx := 100 }
def hold : Fld := { addr := 0x020010, hi := 23, lo := 0, rst := 2000, mn := 100, mx := 50000 }
def stepUp : Fld := { addr := 0x020014, hi := 23, lo := 0, rst := 500, mn := 100, mx := 10000 }
def clkFloor : Fld := { addr := 0x020018, hi := 1, lo := 0 }
def alertEn : Fld := { addr := 0x02001C, hi := 8, lo := 8, rst := 1 }
def alertStep : Fld := { addr := 0x02001C, hi := 1, lo := 0, rst := 2 }
def rampDown : Fld := { addr := 0x020020, hi := 16, lo := 16, rst := 1 }
def idleFloor : Fld := { addr := 0x020020, hi := 14, lo := 8, rst := 25, mx := 100 }
def slew : Fld := { addr := 0x020020, hi := 5, lo := 0, rst := 8, mn := 1, mx := 40 }
def hintViras : Fld := { addr := 0x020024, hi := 24, lo := 24 }
def hintStep : Fld := { addr := 0x020024, hi := 20, lo := 16, rst := 25, mn := 5, mx := 31 }
def hintLead : Fld := { addr := 0x020024, hi := 13, lo := 0, rst := 2000, mn := 500, mx := 10000 }
def thmStatus : Fld := { addr := 0x021000, hi := 4, lo := 0, w1c := true }
def thmIntEn : Fld := { addr := 0x021004, hi := 4, lo := 0 }
def thmThrottle : Fld := { addr := 0x021008, hi := 15, lo := 8, rst := 105, mn := 70, mx := 105 }
def thmWarn : Fld := { addr := 0x021008, hi := 7, lo := 0, rst := 100, mn := 60, mx := 100 }
def stepMs : Fld := { addr := 0x02100C, hi := 9, lo := 0, rst := 100, mn := 10, mx := 1000 }
def deratePorts : Fld := { addr := 0x021010, hi := 15, lo := 0 }
-- Log, flash, sideband (Tables 16.13, 16.14)
def logStatus : Fld := { addr := 0x030000, hi := 2, lo := 0, w1c := true }
def logIntEn : Fld := { addr := 0x030004, hi := 2, lo := 0 }
def nvmStatus : Fld := { addr := 0x031000, hi := 2, lo := 1, w1c := true }
def nvmIntEn : Fld := { addr := 0x031004, hi := 2, lo := 1 }
def sbStatus : Fld := { addr := 0x001004, n := 2, stride := 0x40, hi := 3, lo := 0, w1c := true }
def sbIntEn : Fld := { addr := 0x001080, hi := 7, lo := 0 }
-- Command interpreter (Tables 4.13, 4.15)
def cmdStatus : Fld := { addr := 0x040104, hi := 1, lo := 0, w1c := true }
def quantum : Fld := { addr := 0x04010C, hi := 6, lo := 0, rst := 4, mn := 1, mx := 64 }
def mboxHdr : Fld := { addr := 0x040400, n := 16, stride := 4, hi := 31, lo := 0 }
def mboxData : Fld := { addr := 0x041000, n := 1024, stride := 4, hi := 31, lo := 0 }
-- Instances and translation (Table 5.13)
def insStatus : Fld := { addr := 0x080040, hi := 1, lo := 0, w1c := true }
def ituStatus : Fld := { addr := 0x080100, hi := 7, lo := 7, w1c := true }
-- Viras and triads (Tables 12.11, 14.8)
def vrsStatus : Fld := { addr := 0x100008, hi := 6, lo := 0, w1c := true }
def vrsIntEn : Fld := { addr := 0x10000C, hi := 7, lo := 0 }
def triStatus : Fld := { addr := 0x101000, hi := 7, lo := 0, w1c := true }
def triIntEn : Fld := { addr := 0x101004, hi := 7, lo := 0 }
def isoEn : Fld := { addr := 0x101008, hi := 8, lo := 8, rst := 1 }
def discMs : Fld := { addr := 0x101008, hi := 7, lo := 0, rst := 10, mn := 1, mx := 255 }
def unfitWatchdog : Fld := { addr := 0x101010, hi := 4, lo := 4, rst := 1 }
def unfitLane : Fld := { addr := 0x101010, hi := 2, lo := 2, rst := 1 }
def unfitMem : Fld := { addr := 0x101010, hi := 0, lo := 0, rst := 1 }
-- Lanes and MAC (Tables 6.10, 7.6)
def lnStatus : Fld := { addr := 0x202000, hi := 2, lo := 1, w1c := true }
def lnIntEn : Fld := { addr := 0x202004, hi := 2, lo := 0 }
def failThresh : Fld := { addr := 0x202008, hi := 23, lo := 0, rst := 1000, mn := 1, mx := 100000 }
def failWindow : Fld := { addr := 0x20200C, hi := 10, lo := 0, rst := 8, mn := 1, mx := 1024 }
def macStatus : Fld := { addr := 0x300040, n := 16, stride := 0x1000, hi := 5, lo := 0, w1c := true }
def macIntEn : Fld := { addr := 0x300044, n := 16, stride := 0x1000, hi := 5, lo := 0 }
-- Rules, traffic, cipher, storage (Tables 8.15, 9.8, 10.13, 11.10)
def rulStatus : Fld := { addr := 0x400100, hi := 4, lo := 0, w1c := true }
def rulIntEn : Fld := { addr := 0x400104, hi := 4, lo := 0 }
def agePeriod : Fld := { addr := 0x400108, hi := 23, lo := 0, rst := 8000, mn := 16, mx := 1000000 }
def ageLimit : Fld := { addr := 0x40010C, hi := 7, lo := 0, rst := 30, mn := 1, mx := 255 }
def tmStatus : Fld := { addr := 0x500000, hi := 2, lo := 0, w1c := true }
def tmIntEn : Fld := { addr := 0x500004, hi := 2, lo := 0 }
def tmQuantum : Fld := { addr := 0x500008, hi := 14, lo := 0, rst := 256, mn := 64, mx := 16384 }
def staleMax : Fld := { addr := 0x50000C, hi := 9, lo := 0, rst := 100, mn := 1, mx := 1000 }
def cipStatus : Fld := { addr := 0x600000, hi := 5, lo := 1, w1c := true }
def cipIntEn : Fld := { addr := 0x600004, hi := 5, lo := 0 }
def pnMargin : Fld := { addr := 0x60000C, hi := 5, lo := 0, rst := 24, mn := 10, mx := 32 }
def stoStatus : Fld := { addr := 0x700000, hi := 3, lo := 0, w1c := true }
def stoIntEn : Fld := { addr := 0x700004, hi := 3, lo := 0 }
-- Fields the hardware writes: SNAP and RO fields with no other home
def snapPlanned : Fld := { addr := 0x010060, hi := 23, lo := 0 }
def snapDelivered : Fld := { addr := 0x010064, hi := 23, lo := 0 }
def snapUsed : Fld := { addr := 0x010068, hi := 23, lo := 0 }
def snapCause : Fld := { addr := 0x01006C, hi := 4, lo := 0 }
def snapCarried : Fld := { addr := 0x010070, hi := 23, lo := 0 }
def ioIn : Fld := { addr := 0x010088, hi := 7, lo := 0 }
def minMv : Fld := { addr := 0x020038, hi := 9, lo := 0 }
def costMax : Fld := { addr := 0x040110, hi := 23, lo := 0, rst := 0xCE8 }
end Reg

/-- The fields that a plain register write acts on (R10), STK_SHARES, the mailbox owner and control and the queue
blocks apart: those have rows or rules of their own. -/
def writable : List Fld :=
  [Reg.guard, Reg.stkStatus, Reg.stkIntEn, Reg.ioDir, Reg.ioOut, Reg.ioMode, Reg.ioPulse, Reg.ioChg,
   Reg.timStatus, Reg.timIntEn, Reg.minSync, Reg.mboxTxCnt, Reg.mboxTx] ++
  [Reg.pwrStatus, Reg.pwrIntEn, Reg.vset, Reg.droopHard, Reg.droopSoft, Reg.hold, Reg.stepUp, Reg.clkFloor,
   Reg.alertEn, Reg.alertStep, Reg.rampDown, Reg.idleFloor, Reg.slew, Reg.hintViras, Reg.hintStep, Reg.hintLead] ++
  [Reg.thmStatus, Reg.thmIntEn, Reg.thmThrottle, Reg.thmWarn, Reg.stepMs, Reg.deratePorts,
   Reg.logStatus, Reg.logIntEn, Reg.nvmStatus, Reg.nvmIntEn, Reg.sbStatus, Reg.sbIntEn] ++
  [Reg.cmdStatus, Reg.quantum, Reg.insStatus, Reg.ituStatus, Reg.vrsStatus, Reg.vrsIntEn, Reg.triStatus,
   Reg.triIntEn, Reg.isoEn, Reg.discMs, Reg.unfitWatchdog, Reg.unfitLane, Reg.unfitMem] ++
  [Reg.lnStatus, Reg.lnIntEn, Reg.failThresh, Reg.failWindow, Reg.macStatus, Reg.macIntEn, Reg.rulStatus,
   Reg.rulIntEn, Reg.agePeriod, Reg.ageLimit] ++
  [Reg.tmStatus, Reg.tmIntEn, Reg.tmQuantum, Reg.staleMax, Reg.cipStatus, Reg.cipIntEn, Reg.pnMargin,
   Reg.stoStatus, Reg.stoIntEn]

/-- Fields with a reset value other than 0 that no row of `writable` lists. -/
def resetOnly : List Fld := [Reg.shAging, Reg.shLog, Reg.shTelem, Reg.costMax]

/-- A word offset is one of a field's. -/
def Fld.hits (f : Fld) (a : Nat) : Bool :=
  if f.stride = 0 then a == f.addr
  else decide (f.addr ≤ a) && (a - f.addr) % f.stride == 0 && decide ((a - f.addr) / f.stride < f.n)

/-- The reset value of a register word (R12): the sum of its fields' reset values in place. -/
def resetWord (a : Nat) : Nat :=
  ((writable ++ resetOnly).filter (fun f => f.hits a && f.rst != 0)).foldl (fun v f => setBits v f.hi f.lo f.rst) 0

namespace State

/-- A register word. -/
def word (s : State) (a : Nat) : Nat := (mGet? s.regs a).getD (resetWord a)

/-- Store a register word; a word at its reset value is not listed. -/
def setWord (s : State) (a v : Nat) : State :=
  { s with regs := if v = resetWord a then mDel s.regs a else mPut s.regs a v }

/-- A field. -/
def fld (s : State) (f : Fld) (i : Nat := 0) : Nat := bits (s.word (f.addr + i * f.stride)) f.hi f.lo

/-- Set a field. -/
def setFld (s : State) (f : Fld) (v : Nat) (i : Nat := 0) : State :=
  s.setWord (f.addr + i * f.stride) (setBits (s.word (f.addr + i * f.stride)) f.hi f.lo v)

/-- A live counter. -/
def ctr (s : State) (k : Nat) : Cnt := mGetD s.ctrs k 0

/-- Advance a counter by an amount, wrapping (R15). -/
def add (s : State) (k n : Nat) : State := { s with ctrs := mPut s.ctrs k (s.ctr k + BitVec.ofNat 64 n) }

/-- Advance a counter by one. -/
def inc (s : State) (k : Nat) : State := s.add k 1

end State

/-- Key of a counter of the function status page of an instance ID (R768). -/
def fspKey (id y : Nat) : Nat := 0x1000000 + 0x200 * id + y

namespace Ctr
def overrun : Nat := 0x010040
def slip : Nat := 0x010048
def late : Nat := 0x010050
def taken : Nat := 0x040118
def err : Nat := 0x040120
def fwRestart : Nat := 0x040128
def ituHit : Nat := 0x080108
def ituWalk : Nat := 0x080110
def ituFault : Nat := 0x080118
def ituLost : Nat := 0x080120
def ituInval : Nat := 0x080128
def insDrop (id : Nat) : Nat := 0x090008 + 0x10 * id
def dbErr (id : Nat) : Nat := fspKey id 0x010
def dmaErr (id : Nat) : Nat := fspKey id 0x018
def mmioErr (id : Nat) : Nat := fspKey id 0x020
def msg (id : Nat) : Nat := fspKey id 0x028
def hold (id : Nat) : Nat := fspKey id 0x030
def notReady (id : Nat) : Nat := fspKey id 0x038
def trunc (id : Nat) : Nat := fspKey id 0x040
def linkDown (id : Nat) : Nat := fspKey id 0x108
def corrErr (id : Nat) : Nat := fspKey id 0x110
def replay (id : Nat) : Nat := fspKey id 0x118
/-- TAKEN_CNT and CU_CNT of a queue block (Table 4.14): of the PF0s in BAR0, of the others in their windows. -/
def qTaken (id : Nat) : Nat := if id = 0 then 0x040028 else if id = 2 then 0x040068 else 0x8000000 + 0x10000 * id + 0x28
def qCu (id : Nat) : Nat := if id = 0 then 0x040030 else if id = 2 then 0x040070 else 0x8000000 + 0x10000 * id + 0x30
def logEntry : Nat := 0x030020
def logLost : Nat := 0x030028
def logSevere : Nat := 0x030030
def logPage : Nat := 0x030038
end Ctr

end Sys2Proof.Machine
end

