-- ==== Sys2Proof/Machine/Ops.lean ====
section
/-!
DEFINITION. The named operations over the state that the meanings share: functions and vectors, status bits and their
interrupts, the event log, free values, the reference clock, the reply ring.
-/

namespace Sys2Proof.Machine

/-- A function before anything has written it: D0, all enables 0, every vector masked (log entry 5). -/
def Func.fresh : Func :=
  { d3 := false, bme := false, mse := false, msixEn := false, funcMask := false, ats := false, inFlr := false,
    mps := 128, mrrs := 512, cplRange := 0, cplOff := false, bar0 := 0, bar2 := 0, vecs := [], qerr := false, dbErr := false, dmaErr := false, aerSev := [],
    cut := [],
    q := { base := 0, replyBase := 0, logSlots := 7, logReplies := 4, enable := false, again := false, st := .idle,
           consumer := 0, producer := 0, phase := true, replyProd := 0, replyCons := 0, armed := false, head := none, chain := none, loose := false,
           held := [], promised := 0, stalled := false, deficit := 0, heatCu := 0, lastCu := 0 } }

/-- A vector of a cleared MSI-X table and moderation table: masked, as PCI Express leaves it (log entry 5). -/
def Vec.fresh : Vec :=
  { addr := 0, data := 0, mask := true, pending := false, holdoff := 0, maxPerHeat := 0, lastSent := none,
    sentInHeat := 0, counted := false }

/-- A link before it trains. -/
def HostLink.fresh : HostLink :=
  { trained := false, width := 0, speed := 0, flit := false, perst := false, ecrc := false, ecrcGen := false,
    aspm := false, inL1 := false, pageSize := 1, vfEnable := false, vfMse := false, numVfs := 0, atc := [] }

/-- A FREE instance (R199). -/
def Ins.fresh : Ins :=
  { st := .free, elastic := false, prot := false, clearExp := false, level := 0, weight := 0, cap := 0,
    grants := [0, 0, 0, 0, 0, 0, 0], h2wRate := 0, w2hRate := 0, h2wBurst := 16384, w2hBurst := 16384, root := 0,
    grantChg := false, limitChg := false, ituFault := false, grantHeat := 0,
    win := [0, 0, 0, 0, 0, 0, 0, 0, 0, 0, 0, 0], heatCu := 0 }

/-- A new local queue pair (R214). -/
def Qp.fresh : Qp :=
  { st := .unconfigured, logTx := 6, logRx := 6, logCq := 6, vec := 0, txAddr := 0, rxAddr := 0, cqAddr := 0,
    txProd := 0, txCons := 0, rxProd := 0, rxCons := 0, cqProd := 0, cqCons := 0, cqPhase := true, armed := false, held := [] }

namespace State

def link (s : State) (l : Nat) : HostLink := mGetD s.links l HostLink.fresh
def func (s : State) (f : Nat) : Func := mGetD s.funcs f Func.fresh
def insOf (s : State) (i : Nat) : Ins := mGetD s.ins.ins i Ins.fresh
def setLink (s : State) (l : Nat) (x : HostLink) : State := { s with links := mPut s.links l x }
def setFunc (s : State) (f : Nat) (x : Func) : State := { s with funcs := mPut s.funcs f x }
def modFunc (s : State) (f : Nat) (g : Func → Func) : State := s.setFunc f (g (s.func f))
def modQueue (s : State) (f : Nat) (g : Queue → Queue) : State := s.modFunc f (fun x => { x with q := g x.q })
def setIns (s : State) (i : Nat) (x : Ins) : State := { s with ins := { s.ins with ins := mPut s.ins.ins i x } }
def modIns (s : State) (i : Nat) (g : Ins → Ins) : State := s.setIns i (g (s.insOf i))
/-- Key of a queue pair (R213). -/
def qpKey (i k : Nat) : Nat := i * 65536 + k
def qp (s : State) (i k : Nat) : Qp := mGetD s.ins.qps (qpKey i k) Qp.fresh
def setQp (s : State) (i k : Nat) (x : Qp) : State :=
  { s with ins := { s.ins with qps := mPut s.ins.qps (qpKey i k) x } }
/-- The storage connection of a queue pair (R458). -/
def conn? (s : State) (k : Nat) : Option Conn := mGet? s.sto.conns k
def setConn (s : State) (k : Nat) (c : Conn) : State := { s with sto := { s.sto with conns := mPut s.sto.conns k c } }
/-- Every command slot of a queue pair's connection is freed: the queue pair stops, by command, on an error or with its
function (R466; log entry 38). -/
def freeSlots (s : State) (i n : Nat) : State :=
  match s.conn? (qpKey i n) with
  | some c => s.setConn (qpKey i n) { c with slots := [] }
  | none => s
/-- Record something sent. -/
def emit (s : State) (o : Output) : State := { s with out := o :: s.out }
/-- Record something sent on a host link, which it finds in L0 or wakes from L1 (R133). -/
def emitLink (s : State) (l : Nat) (o : Output) : State := (s.emit o).setLink l { s.link l with inL1 := false }
/-- A fresh free value (log entry 1). -/
def draw (s : State) : Nat × State := (Config.freeNat s.free, { s with free := s.free + 1 })

/-- The links that STRAP_LINK enables (R134). -/
def enabledLinks (s : State) : List Nat := if s.boot.strapLink then [0] else [0, 1]
/-- VF_SPLIT_A in force (R104). -/
def vfSplit (s : State) : Nat := if s.boot.strapLink then 4092 else s.boot.vfSplit
/-- The link of an instance ID (Table 3.2). -/
def linkOf (s : State) (id : Nat) : Nat := if id < 2 then 0 else if id < 4 then 1 else if id ≤ 3 + s.vfSplit then 0 else 1
/-- The number n ≥ 1 of the VF that carries an instance ID, or 0 for a PF. -/
def vfNum (s : State) (id : Nat) : Nat := if id < 4 then 0 else if id ≤ 3 + s.vfSplit then id - 3 else id - 3 - s.vfSplit
/-- The PFs: 0 and 2 are PF0, 1 and 3 are PF1. -/
def isPf0 (id : Nat) : Bool := id == 0 || id == 2
/-- The function of an instance ID is present (R102, R134, R146, R696). -/
def present (s : State) (id : Nat) : Bool :=
  s.boot.presented && s.cmd.fw != .lifeboat && s.enabledLinks.contains (s.linkOf id) && decide (id < 4096) &&
  (decide (id < 4) || ((s.link (s.linkOf id)).vfEnable && decide (s.vfNum id ≤ (s.link (s.linkOf id)).numVfs)))
/-- MSI-X vectors of a function (R125). -/
def vecCount (s : State) (id : Nat) : Nat := if id < 4 then 2048 else s.boot.vfMsix

/-- A source of a vector fires: the pending condition is set (R128); in a function with one vector every source uses vector 0
(R126), and vectors 7 to 15 of PF0 are never sent (Table 3.5); a function in reset sets none, nor does any function while the
reset of its link lasts, which is until the link has trained again (R128; log entry 65). -/
def fire (s : State) (f v : Nat) : State :=
  if s.present f && !(s.func f).inFlr && (s.link (s.linkOf f)).trained then
    let v' := if s.vecCount f = 1 then 0 else v
    if isPf0 f && decide (7 ≤ v') && decide (v' ≤ 15) then s
    else s.modFunc f (fun x => { x with vecs := mMod x.vecs v' Vec.fresh (fun w => { w with pending := true }) })
  else s

/-- A device-wide source fires on PF0 of each enabled link (R127). -/
def fireDev (s : State) (v : Nat) : State := s.enabledLinks.foldl (fun s l => s.fire (2 * l) v) s

/-- The status bits of a word that events have set in this reference cycle (R20). -/
def justSet (s : State) (a : Nat) : Nat := if s.setAt = s.time.refNow then mGetD s.setNow a 0 else 0

/-- An event has set status bits of a word in this reference cycle (R20). -/
def mark (s : State) (a bits : Nat) : State :=
  { s with setAt := s.time.refNow
           setNow := if s.setAt = s.time.refNow then mPut s.setNow a (Nat.lor (mGetD s.setNow a 0) bits) else [(a, bits)] }

/-- A status bit becomes 1: where it was 0 and its enable (the next word, same bit) is 1, the block's vector fires
(R98 and its like of each block). -/
def raise (s : State) (f : Fld) (b vec : Nat) (i : Nat := 0) : State :=
  let a := f.addr + i * f.stride
  let s0 := s.mark a (2 ^ b)
  if bit (s.word a) b then s0
  else
    let s' := s0.setWord a (setBits (s.word a) b b 1)
    if bit (s.word (a + 4)) b then s'.fireDev vec else s'

/-- QERR, DB_ERR or DMA_ERR (bit 0, 1 or 2) of the function status word becomes 1 (Table 3.11, R20). -/
def flagFunc (s : State) (f b : Nat) : State :=
  (s.mark (fspKey f 4) (2 ^ b)).modFunc f (fun x =>
    { x with qerr := x.qerr || b == 0, dbErr := x.dbErr || b == 1, dmaErr := x.dmaErr || b == 2 })

/-- Key of the window's status word of an instance among the words of `setNow` (Table 5.14). -/
def winKey (i : Nat) : Nat := 0x8000000 + 0x10000 * i + 0x104

/-- GRANT_CHG, LIMIT_CHG or ITU_FAULT (bit 0, 1 or 2) of INS_WIN_STATUS becomes 1 (Table 5.14, R20). -/
def flagIns (s : State) (i b : Nat) : State :=
  (s.mark (winKey i) (2 ^ b)).modIns i (fun x =>
    { x with grantChg := x.grantChg || b == 0, limitChg := x.limitChg || b == 1, ituFault := x.ituFault || b == 2 })

end State

/-- The severe events of Table 16.7. -/
def severeCodes : List Nat :=
  [0x2060, 0x4001, 0x4002, 0x5001, 0x6001, 0x6007, 0x7005, 0x8011, 0x8014, 0x9014, 0x9015, 0xA001, 0xA011, 0xA012,
   0xA020, 0xA021]

/-- Bytes 0 to 29 of a log entry (Table 16.6). -/
def LogEntry.body (e : LogEntry) : List Byte :=
  leBytes 4 e.seq.toNat ++ leBytes 2 e.code ++ leBytes 1 e.flags ++ leBytes 1 e.cls ++ leBytes 6 e.heat.toNat ++
  leBytes 3 e.ns ++ [0] ++ padTo 12 e.data

/-- The 32 bytes of a log entry with its CRC (R664). -/
def LogEntry.bytes (e : LogEntry) : List Byte := e.body ++ leBytes 2 (crc16 e.body)

/-- Order of the events of one edge: code, and of violation events of one code INTERFACE, then UNIT (R680, R725). -/
def LogEntry.rank (e : LogEntry) : Nat :=
  e.code * 65536 + if e.code / 4096 = 0xB then dn e.data 0 0 * 256 + dn e.data 1 1 else 0

/-- Two entries stand at one edge. -/
def LogEntry.sameEdge (e p : LogEntry) : Bool := p.heat == e.heat && p.ns == e.ns

/-- An entry that no other of its edge changes places with: a deferred one (R665), LOG_MEM_FAIL (R682), and a mark, whose SEQ has
been reported (R783; log entry 98). -/
def LogEntry.settled (e : LogEntry) : Bool := bit e.flags 3 || e.code == 0xA001 || e.code == 0xA0F0

/-- An event takes its place among those of the same edge, the newest first in the list; the SEQ numbers stay where they are
(R664, R680). -/
def placeEntry (e : LogEntry) : List LogEntry → List LogEntry
  | [] => [e]
  | p :: t =>
    if e.sameEdge p && decide (e.rank < p.rank) && !p.settled && !e.settled
    then { p with seq := e.seq } :: placeEntry { e with seq := p.seq } t
    else e :: p :: t

/-- A ring with one more entry, in its place (R680, R725). -/
def intoRing (e : LogEntry) (ring : List LogEntry) : List LogEntry := (placeEntry e ring.reverse).reverse

namespace State

/-- A SEQ that no flush has written yet (R667). -/
def unflushed (s : State) (q : Word) : Bool := decide ((q - s.log.seqFlushed).toNat < 2 ^ 31)

/-- The oldest entry of a full ring is overwritten; where it was not flushed it is lost (R669). -/
def overwrite (s : State) (ring : List LogEntry) (cap : Nat) : State × List LogEntry :=
  match ring with
  | [] => (s, [])
  | e :: t =>
    if t.length + 1 < cap then (s, e :: t)
    else if s.unflushed e.seq then
      (({ s with log := { s.log with lostSince := s.log.lostSince + 1 } }.inc Ctr.logLost).raise Reg.logStatus 1 0, t)
    else (s, t)

/-- An event that makes cause MEM present (Table 14.3, R577). -/
def memCause (code : Nat) : Bool := [0x4001, 0x4002, 0x5001, 0x6001, 0x6007, 0x7005].contains code

/-- Queue a message on a sideband port behind those that wait (R674). -/
def sbSend (s : State) (p : Nat) (m : SbMsg) : State :=
  { s with sb := s.sb.map (fun x => if x.1 = p then (x.1, { x.2 with tx := x.2.tx ++ [m] }) else x) }

/-- A severe entry goes as a PLDM PlatformEventMessage to the event receiver of each port that has one (R666). -/
def sbEvent (s : State) (e : LogEntry) : State :=
  { s with sb := s.sb.map (fun x =>
      match x.2.receiver with
      | some r => (x.1, { x.2 with tx := x.2.tx ++
          [{ peer := r, kind := 1, cmd := 0x020A, request := true, cc := 0, data := e.bytes }] })
      | none => x) }

/-- Messages that wait follow the entries they carry, where those have given way to another of the edge (R666, R680). -/
def renumber (s : State) (e : LogEntry) (old new : List LogEntry) : State :=
  let now := new.reverse.takeWhile e.sameEdge
  let moved := (old.reverse.takeWhile e.sameEdge).filter (fun p => severeCodes.contains p.code && !now.contains p)
  let redo (m : SbMsg) (p : LogEntry) : SbMsg :=
    if m.cmd = 0x020A ∧ m.data = p.bytes then { m with data := { p with seq := p.seq + 1 }.bytes } else m
  if moved.isEmpty then s
  else { s with sb := s.sb.map (fun x => (x.1, { x.2 with tx := x.2.tx.map (fun m => moved.foldl redo m) })) }

/-- Post an event with given bits of byte 6 (R577, R664, R666, R671, R672). -/
def postF (s0 : State) (code : Nat) (data : List Byte) (flags : Nat) : State :=
  let s : State := if memCause code then { s0 with tri := { s0.tri with mem := true } } else s0
  let sev := severeCodes.contains code
  let e : LogEntry :=
    { seq := s.log.seqNext, code := code,
      flags := (if sev then 1 else 0) + flags + (if s.log.fallback then 16 else 0),
      cls := s.time.cls, heat := s.time.edge.getD s.time.heat, ns := if s.time.edge.isSome then 0 else s.time.ns,
      data := padTo 12 data }
  let (s', t) := if s.log.fallback then s.overwrite s.log.fb 16 else s.overwrite s.log.main 4096
  let ring := intoRing e t
  let s1 := renumber { s' with log := { s'.log with
    fb := if s.log.fallback then ring else s'.log.fb, main := if s.log.fallback then s'.log.main else ring,
    seqNext := s.log.seqNext + 1 } } e t ring
  let s2 := s1.inc Ctr.logEntry
  let due := sev || (s2.log.fallback && decide (8 ≤ (s2.log.fb.filter (fun x => s2.unflushed x.seq)).length))
  let s3 := { s2 with log := { s2.log with flushDue := s2.log.flushDue || due } }
  if sev then (((s3.inc Ctr.logSevere).raise Reg.logStatus 0 0).fireDev 0).sbEvent
    ((ring.reverse.find? (fun x => { x with seq := e.seq } == e)).getD e) else s3

/-- Post an event (R664). -/
def post (s : State) (code : Nat) (data : List Byte := []) : State := s.postF code data 0

/-- Post a violation event of class 0xB (Tables 18.1 and 18.2): interface, unit, party and detail. A limited code is
recorded once per unit in any 1,024 heats; what is not recorded is counted into SUPPRESSED of the next (R718). -/
def postB (s : State) (code iface unit party detail : Nat) (limited : Bool) : State :=
  let data (n : Nat) : List Byte :=
    leBytes 1 iface ++ leBytes 1 unit ++ leBytes 2 party ++ leBytes 4 detail ++ leBytes 4 n
  if !limited then s.post code (data 0)
  else
    match s.viol.find? (fun r => r.code == code && r.unit == unit) with
    | some r =>
      let rest := s.viol.filter (fun x => !(x.code == code && x.unit == unit))
      if s.time.strikes < r.since + 1024 then
        { s with viol := { r with count := min (r.count + 1) 0xFFFFFFFF } :: rest }
      else ({ s with viol := { r with since := s.time.strikes, count := 0 } :: rest }).post code (data r.count)
    | none =>
      ({ s with viol := { code := code, unit := unit, since := s.time.strikes, count := 0 } :: s.viol }).post code (data 0)

/-- Entries that a flush which begins now writes, in SEQ order (R667, R672). -/
def flushEntries (s : State) : List LogEntry :=
  let live (e : LogEntry) : Bool := s.unflushed e.seq && !s.log.badSeqs.contains e.seq
  s.log.main.filter live ++ (if s.log.fallback then s.log.fb.filter (fun e => s.unflushed e.seq) else [])

/-- Effective seal guard (R61); a quarter of a heat length that 4 does not divide is rounded down to whole nanoseconds (log entry
67). -/
def effGuard (s : State) : Nat := min s.time.guard (s.time.heatLen / 4)
/-- The instant of the seal point in the heat (R61). -/
def sealNs (s : State) : Nat := s.time.heatLen - s.effGuard
/-- The heat's seal point has come (R61, R89). -/
def pastSeal (s : State) : Bool := s.time.sealDone || decide (s.sealNs ≤ s.time.ns)
/-- The landing heat of what seals in this heat with a target, before its seal point or not (R62). -/
def landingAt (s : State) (past : Bool) (target : Heat) : Heat :=
  let first := if past then s.time.heat + 2 else s.time.heat + 1
  if target.toNat < first.toNat then first else target
/-- The landing heat of what seals now with a target (R62). -/
def landing (s : State) (target : Heat) : Heat := s.landingAt s.pastSeal target

/-- Entries of a reply ring written and not yet consumed. -/
def replyUsed (q : Queue) : Nat := (q.replyProd + 65536 - q.replyCons) % 65536
/-- Replies that the ring has room for beyond those promised and waiting (R164). -/
def replyRoom (q : Queue) : Nat := 2 ^ q.logReplies - 1 - replyUsed q - q.promised - q.held.length
/-- Slots covered by doorbells and not yet taken (BACKLOG, Table 4.14). -/
def backlog (q : Queue) : Nat := (q.producer + 65536 - q.consumer) % 65536

/-- The vector of a function's reply ring (Table 3.5). -/
def replyVec (f : Nat) : Nat := if isPf0 f then 2 else 0

/-- The function may issue requests: bus master enabled and in D0 (R132, R140). -/
def canDma (s : State) (f : Nat) : Bool := (s.func f).bme && !(s.func f).d3 && !(s.func f).inFlr

/-- STK_SHARES as written (Table 2.8). -/
def shares (s : State) : Nat × Nat × Nat := (s.fld Reg.shAging, s.fld Reg.shLog, s.fld Reg.shTelem)

end State

-- Errors of Table 3.10, numbered for the output record (log entry 21).
namespace Aer
def unsupported : Nat := 1
def completerAbort : Nat := 2
def poisonedTlp : Nat := 3
def completionErr : Nat := 4
def timeout : Nat := 5
def ecrc : Nat := 7
def malformed : Nat := 8
def unexpected : Nat := 9
def surpriseDown : Nat := 10
/-- Receiver or bad FLIT error, or replay: correctable. -/
def receiver : Nat := 11
end Aer

/-- Severity of an error: receiver errors are correctable (0); of the others, Malformed TLP and Surprise Down are fatal (2) and
the rest non-fatal (1), unless the function's AER Severity register says otherwise (R148). -/
def aerSeverity (s : State) (f err : Nat) : Nat :=
  if err = Aer.receiver then 0
  else if mGetD (s.func f).aerSev err (err == Aer.malformed || err == Aer.surpriseDown) then 2 else 1

/-- Report an error through AER against a function (R148). -/
def aer (s : State) (f err : Nat) : State := s.emitLink (s.linkOf f) (.aer (s.linkOf f) err (aerSeverity s f err))

/-- The AER error of a DMA read that fails (Table 3.10). -/
def readAer : ReadFault → Nat
  | .unsupported => Aer.completionErr
  | .abort => Aer.completionErr
  | .poisoned => Aer.poisonedTlp
  | .ecrc => Aer.ecrc
  | .timeout => Aer.timeout

end Sys2Proof.Machine
end

