-- ==== Sys2Proof/Machine/Translate.lean ====
section
/-!
DEFINITION. The translation unit: walk, cache, faults; the requests of PASS and PROTECTED instances; and how a queue stops on an
error (R114, R122, R123, R149, R215, R222 to R229, R242 to R244).
-/

namespace Sys2Proof.Machine

-- Fault reasons (Table 5.6).
namespace Itu
def notValid : Nat := 1
def readDenied : Nat := 2
def writeDenied : Nat := 3
def reserved : Nat := 4
def range : Nat := 5
def align : Nat := 6
def walkErr : Nat := 7
def noRoot : Nat := 8
end Itu

/-- Bits of a page by size code 0 4 KiB, 1 2 MiB, 2 1 GiB (R222). -/
def pageBits (size : Nat) : Nat := 12 + 9 * size

/-- A leaf at a level, judged (R223, R224): reserved bits, alignment, permission; else page address and size. -/
def judgeLeaf (e level : Nat) (write : Bool) : Except Nat (Nat × Nat × Bool × Bool) :=
  let size := level - 1
  if bits e 51 12 * 4096 % 2 ^ pageBits size ≠ 0 then .error Itu.align
  else if !write && !bit e 1 then .error Itu.readDenied
  else if write && !bit e 2 then .error Itu.writeDenied
  else .ok (bits e 51 12 * 4096, size, bit e 1, bit e 2)

/-- One entry read at a level (R223, R224): none goes on to the next level. Where several reasons hold the first judged here is
the one declared (log entry 75). -/
def judgeEntry (e level : Nat) (write : Bool) : Except Nat (Option (Nat × Nat × Bool × Bool)) :=
  if !bit e 0 then .error Itu.notValid
  else if bits e 7 4 ≠ 0 ∨ bits e 63 52 ≠ 0 then .error Itu.reserved
  else if bit e 3 then
    if level = 4 then .error Itu.reserved
    else match judgeLeaf e level write with
      | .error r => .error r
      | .ok x => .ok (some x)
  else if level = 1 then .error Itu.reserved
  else .ok none

/-- Index of an input address into the tables of a level (R222): bits [47:39] at level 4 down to [20:12] at level 1. -/
def tableIndex (addr level : Nat) : Nat := bits addr (9 * level + 11) (9 * level + 3)

/-- One read of a table entry in host memory; one that no event has carried is not answered and times out (log entry 17). -/
def readEntry (s : State) (a : Nat) : WalkRead := (mGet? s.ins.tables a).getD (.failed .timeout)

/-- Why a translation faults: reason and level (Table 5.6), and how the table read failed where it did. -/
structure WalkFault where
  reason : Nat
  level : Nat
  read : Option ReadFault := none
deriving DecidableEq, Repr

/-- The walk (R222, R223): from the table of a level downwards, one entry read a level; a pointer entry names the next table. -/
def walk (s : State) (addr : Nat) (write : Bool) : Nat → Nat → Except WalkFault (Nat × Nat × Bool × Bool)
  | 0, _ => .error { reason := Itu.reserved, level := 1 }
  | lv + 1, table =>
    match readEntry s (table + 8 * tableIndex addr (lv + 1)) with
    | .failed r => .error { reason := Itu.walkErr, level := lv + 1, read := some r }
    | .entry e =>
      match judgeEntry e (lv + 1) write with
      | .error r => .error { reason := r, level := lv + 1 }
      | .ok (some x) => .ok x
      | .ok none => walk s addr write lv (bits e 51 12 * 4096)

/-- A cached translation that maps an address with the permission asked (R225); one that lacks it leads to a new walk (log entry
76). -/
def tlbHit (s : State) (i addr : Nat) (write : Bool) : Option Tlb :=
  s.ins.tlb.find? (fun t => t.inst == i && t.base == addr / 2 ^ pageBits t.size && (if write then t.wr else t.rd))

/-- Install a leaf; a full cache replaces an entry, the oldest here (R225, R236; log entry 17). -/
def tlbPut (s : State) (t : Tlb) : State := { s with ins := { s.ins with tlb := (t :: s.ins.tlb).take 16384 } }

/-- A translation: the host address, the leaf, and whether the cache held it (R225). -/
structure Xlat where
  addr : Nat
  leaf : Tlb
  hit : Bool
deriving DecidableEq, Repr

/-- What translating one access comes to (R222 to R225), or the fault. Beyond the 48 bits and without a root no entry is read, and
level 4 is recorded (log entry 75). -/
def translate (s : State) (i addr : Nat) (write : Bool) : Except WalkFault Xlat :=
  if 2 ^ 48 ≤ addr then .error { reason := Itu.range, level := 4 }
  else if (s.insOf i).root = 0 then .error { reason := Itu.noRoot, level := 4 }
  else
    match tlbHit s i addr write with
    | some t => .ok { addr := t.page + addr % 2 ^ pageBits t.size, leaf := t, hit := true }
    | none =>
      match walk s addr write 4 (s.insOf i).root with
      | .error f => .error f
      | .ok (page, size, rd, wr) =>
        .ok { addr := page + addr % 2 ^ pageBits size, hit := false,
              leaf := { inst := i, base := addr / 2 ^ pageBits size, size := size, page := page, rd := rd, wr := wr } }

/-- Room promised to a second reply is given back (R164). -/
def unpromise (s : State) (src : Src) : State :=
  match src with
  | .queue f => if f < 4096 then s.modQueue f (fun q => { q with promised := q.promised - 1 }) else s
  | .mbox => s

/-- Discard a unit's items, and the cluster unit that they belong to (R178). -/
def dropUnit (s : State) (unit : Nat) : State :=
  let gone := s.tim.units.filter (fun u => u.unit == unit)
  gone.foldl (fun s u => unpromise s u.owner)
    { s with staging := { s.staging with items := s.staging.items.filter (fun i => i.unit != unit) },
             tim := { s.tim with units := s.tim.units.filter (fun u => u.unit != unit) } }

/-- Discard an open chain with the items it staged, without replies (R187, R197). -/
def dropChain (s : State) (f : Nat) : State :=
  match (s.func f).q.chain with
  | none => s
  | some ch => (dropUnit s ch.unit).modQueue f (fun q => { q with chain := none })

/-- A queue stops in the error state: a queue pair goes to ERROR and frees its command slots, a command queue to STATE ERROR and
its open chain is discarded (R111, R149, R197, R215, R466). -/
def stopQueue (s : State) (f : Nat) (k : Option Nat) : State :=
  match k with
  | some n => (s.setQp f n { s.qp f n with st := .error }).freeSlots f n
  | none => (dropChain s f).modQueue f (fun q => { q with st := .error, head := none })

/-- A translation fault stops the access's queue, is recorded and signalled (R127, R242, R243). -/
def ituFault (s : State) (f : Nat) (k : Option Nat) (addr : Nat) (write : Bool) (w : WalkFault) : State :=
  let s1 := stopQueue s f k
  let s2 := ((s1.flagFunc f 2).flagIns f 2).fire f 0
  let r : FaultRec := { addr := addr, inst := f, reason := w.reason, write := write, level := w.level, heat := s.time.heat }
  let s3 :=
    if s2.ins.faults.length < 64 then { s2 with ins := { s2.ins with faults := s2.ins.faults ++ [r] } }
    else
      let told := bit (s2.word Reg.ituStatus.addr) 7
      let s' := (s2.inc Ctr.ituLost).raise Reg.ituStatus 7 0
      if told then s' else s'.post 0x2071 []
  let s4 := ((s3.inc Ctr.ituFault).post 0x2070 []).fireDev 0
  match w.read with
  | some r => aer s4 (2 * s.linkOf f) (readAer r)
  | none => s4

/-- A memory request on a host link: Relaxed Ordering, ID-Based Ordering and No Snoop are 0 (R114). -/
def reqOf (id addr : Nat) (xlat : Bool) : Req :=
  { id := id, addr := addr, xlat := xlat, ro := false, ido := false, noSnoop := false }

/-- A PASS function's own request (R123, R229): where its ATS is enabled and its link's cache of 8,192 entries holds the page,
a translated one; a page that the cache does not hold is asked for and kept, and this request goes untranslated (log entry
29). -/
def passReq (s : State) (f addr : Nat) : State × Req :=
  if !(s.func f).ats then (s, reqOf f addr false)
  else
    let k := s.link (s.linkOf f)
    match k.atc.find? (fun e => e.1 == f && e.2.1 == addr / 4096) with
    | some e => (s, reqOf f (e.2.2 * 4096 + addr % 4096) true)
    | none =>
      (s.setLink (s.linkOf f)
        { k with atc := ((f, addr / 4096, Config.atsPage f (addr / 4096)) :: k.atc).take 8192 }, reqOf f addr false)

/-- One DMA access of a function: of a PASS instance it is the function's own (R123, R229); of a PROTECTED one it is translated,
counted and cached and goes out untranslated under the ID of PF0 of the link (R122), or faults (R222, R225, R242). There is no
request on a fault. -/
def access (s : State) (f : Nat) (k : Option Nat) (addr : Nat) (write : Bool) : State × Option Req :=
  if !(s.insOf f).prot then ((passReq s f addr).1, some (passReq s f addr).2)
  else
    match translate s f addr write with
    | .error w =>
      let s' := if w.reason = Itu.range ∨ w.reason = Itu.noRoot then s else s.inc Ctr.ituWalk
      (ituFault s' f k addr write w, none)
    | .ok x =>
      (if x.hit then s.inc Ctr.ituHit else tlbPut (s.inc Ctr.ituWalk) x.leaf,
       some (reqOf (2 * s.linkOf f) x.addr false))

/-- The table entries that an event found in host memory (log entry 17). -/
def seeTables (s : State) (m : TableMem) : State :=
  { s with ins := { s.ins with tables := m.foldl (fun t x => mPut t x.1 x.2) s.ins.tables } }

/-- A span of addresses cut at 4 KiB, the smallest page: address and length of each piece in order. -/
def pieces : Nat → Nat → Nat → List (Nat × Nat)
  | 0, _, _ => []
  | _, _, 0 => []
  | n + 1, a, len =>
    let k := min len (4096 - a % 4096)
    (a, k) :: pieces n (a + k) (len - k)

/-- The pieces of a span: no request crosses a page. -/
def spanOf (a len : Nat) : List (Nat × Nat) := pieces (len / 4096 + 2) a len

/-- Where `n` entries of a ring from an index on lie: address and length, in one span or two. -/
def ringParts (base size entries at_ n : Nat) : List (Nat × Nat) :=
  let i := at_ % entries
  if i + n ≤ entries then [(base + size * i, size * n)]
  else [(base + size * i, size * (entries - i)), (base, size * (i + n - entries))]

/-- The pieces of `n` entries of a ring from an index on. -/
def ringSpans (base size entries at_ n : Nat) : List (Nat × Nat) :=
  (ringParts base size entries at_ n).flatMap (fun x => spanOf x.1 x.2)

/-- The requests that write a piece: no longer than the function's Max Payload Size (R136). -/
def writeReqs (mps : Nat) (q : Req) : Nat → List Byte → List (Req × List Byte)
  | 0, _ => []
  | _, [] => []
  | n + 1, b => (q, b.take mps) :: writeReqs mps { q with addr := q.addr + mps } n (b.drop mps)

/-- Reads by a function of spans of its host memory, translated piece by piece; false where a piece faults. -/
def readSpans (s : State) (f : Nat) (k : Option Nat) : List (Nat × Nat) → State × Bool
  | [] => (s, true)
  | x :: t =>
    match access s f k x.1 false with
    | (s1, none) => (s1, false)
    | (s1, some _) => readSpans s1 f k t

/-- Writes by a function to pieces of its host memory, in order, as far as no piece faults (R222, R242). -/
def writeSpans (s : State) (f : Nat) (k : Option Nat) (data : List Byte) : List (Nat × Nat) → State × Bool
  | [] => (s, true)
  | x :: t =>
    match access s f k x.1 true with
    | (s1, none) => (s1, false)
    | (s1, some q) =>
      let reqs := writeReqs (s1.func f).mps q x.2 (data.take x.2)
      writeSpans (reqs.foldl (fun s r => s.emitLink (s.linkOf f) (.hostData r.1 r.2)) s1) f k (data.drop x.2) t

/-- A write of bytes to host memory at an address of a function (R160, R229). -/
def hostWrite (s : State) (f : Nat) (k : Option Nat) (addr : Nat) (data : List Byte) : State × Bool :=
  writeSpans s f k data (spanOf addr data.length)

end Sys2Proof.Machine
end

