-- ==== Sys2Proof/Machine/Replies.lean ====
section
/-!
DEFINITION. The reply rings: the one write of a reply, and a reply's issue (R140, R161, R162, R164, R180, R244, R778).
-/

namespace Sys2Proof.Machine

namespace State

/-- Write one reply into the ring (R161, R162, R778); where the translation of its address faults, the queue stops and the reply
is not written (R242). -/
def putReply (s0 : State) (f : Nat) (r : Reply) : State :=
  let q := (s0.func f).q
  let n := 2 ^ q.logReplies
  let slot := q.replyProd % n
  match access s0 f none (q.replyBase + 32 * slot) true with
  | (s, none) => s
  | (s, some x) =>
    let s1 := s.emitLink (s.linkOf f) (.reply f slot x { r with phase := q.phase })
    let s2 := s1.modQueue f (fun q =>
      { q with replyProd := (q.replyProd + 1) % 65536, phase := if slot + 1 = n then !q.phase else q.phase,
               armed := false })
    if q.armed then s2.fire f (replyVec f) else s2

/-- Issue a reply on a queue (`drop`: a reply that disabling the queue discards while it waits, R187): written at once, or held
behind replies that wait, or while the function issues nothing (R140, R180). The reply of a command whose queue a reset has
cleared goes nowhere (R145). CMD_ERR_CNT counts every status but DONE and QUEUED. -/
def issueReply (s : State) (f : Nat) (r : Reply) (drop : Bool := false) : State :=
  let s0 := if r.status ≤ 1 then s else s.inc Ctr.err
  if 4096 ≤ f then s0 else
  let q := (s0.func f).q
  let room := decide (replyUsed q < 2 ^ q.logReplies - 1)
  if s0.canDma f && q.held.isEmpty && room then s0.putReply f r
  else
    let s1 := s0.modQueue f (fun q => { q with held := q.held ++ [(r, drop)] })
    if room then s1 else s1.raise Reg.cmdStatus 1 0

end State

end Sys2Proof.Machine
end

