-- ==== Sys2Proof/Machine/Pools.lean ====
section
/-!
DEFINITION. The seven pools: totals, grants, reservations and the reservation of a sealing unit (R209 to R211, Table
5.3).
-/

namespace Sys2Proof.Machine

/-- Pool totals (Table 5.3). -/
def poolTotal (p : Nat) : Nat := [65536, 65536, 16777216, 1048576, 65536, 262144, 98304].getD p 0

/-- Largest grant of pool `p` to an instance ID (Table 5.3). -/
def poolMax (id p : Nat) : Nat := if p = 0 then (if id < 4 then 65536 else 2047) else poolTotal p

/-- granted(p) (R209). -/
def granted (s : State) (p : Nat) : Nat := s.ins.ins.foldl (fun a x => a + x.2.grants.getD p 0) 0

/-- reserved(p): what the seals of items not yet landed reserved (R209, R210). -/
def reserved (s : State) (p : Nat) : Nat :=
  (s.staging.items.filter (·.isSealed)).foldl (fun a i => a + i.resv.getD p 0) 0

/-- free(p) (R209). -/
def freeOf (s : State) (p : Nat) : Nat := poolTotal p - granted s p - reserved s p

/-- A grant field of a family 0x03 command (Table 5.9). -/
def grantArg (ps : Params) (p : Nat) : Nat := pf ps (11 + 4 * p) (8 + 4 * p)

/-- The grant of pool `p` that an item leaves its instance with, if it changes grants. -/
def itemGrant (s : State) (it : Item) (p : Nat) : Option Nat :=
  if it.op = 0x0301 then some (grantArg it.params p)
  else if it.op = 0x0303 then
    some (if grantArg it.params p = 0xFFFFFFFF then (s.insOf it.inst).grants.getD p 0 else grantArg it.params p)
  else none

/-- The grant of pool `p` that an item asks for, where it asks for one. -/
def askedGrant (it : Item) (p : Nat) : Option Nat :=
  if it.op = 0x0301 ∨ (it.op = 0x0303 ∧ grantArg it.params p ≠ 0xFFFFFFFF) then some (grantArg it.params p) else none

/-- The grant against which an item is measured as it seals for a landing heat: the least that its instance may then hold, of the
present grant, of those that items sealed before it leave, and of those that earlier items of its unit leave (R210; log entry
10). -/
def baseGrant (s : State) (land : Heat) (before : List Item) (it : Item) (p : Nat) : Nat :=
  ((s.staging.items.filter (fun x => x.isSealed && decide (x.landing.toNat ≤ land.toNat))) ++ before).foldl
    (fun a x => if x.inst = it.inst then (match askedGrant x p with | some g => min a g | none => a) else a)
    ((s.insOf it.inst).grants.getD p 0)

/-- Decreases of a unit in pool `p`, item by item, `before` the items that stand first (R211). -/
def unitDecrease (s : State) (land : Heat) (p : Nat) (before : List Item) : List Item → Nat
  | [] => 0
  | it :: t =>
    (match askedGrant it p with | some g => baseGrant s land before it p - g | none => 0) +
      unitDecrease s land p (before ++ [it]) t

/-- Reserve pool `p` for the items of a unit in ring order: the unit's own decreases cover its increases first, the
rest comes from free(p) (R210, R211; log entry 10). Answers the items, or the number of the first member that finds no
room. -/
def reservePool (s : State) (land : Heat) (p : Nat) (before : List Item) : List Item → Nat → Nat → Except Nat (List Item)
  | [], _, _ => .ok []
  | it :: t, cover, free =>
    let inc := match askedGrant it p with | some g => g - baseGrant s land before it p | none => 0
    let fromFree := inc - cover
    if free < fromFree then .error it.mem
    else do
      let t' ← reservePool s land p (before ++ [it]) t (cover - inc) (free - fromFree)
      return { it with resv := lSet it.resv p fromFree } :: t'

/-- Reserve every pool for a unit (R210): the items with their reservations, or the failing member's number and pool. -/
def reserveUnit (s : State) (land : Heat) (items : List Item) : List Nat → Except (Nat × Nat) (List Item)
  | [] => .ok items
  | p :: ps =>
    match reservePool s land p [] items (unitDecrease s land p [] items) (freeOf s p) with
    | .error t => .error (t, p)
    | .ok items' => reserveUnit s land items' ps

/-- Where a landing lowers an instance's grant, a pending item that raises it again takes over what it now needs of the amount
that returns (R210; log entry 10). -/
def topUp (s : State) (i : Nat) (old new : List Nat) : State :=
  { s with staging := { s.staging with items := s.staging.items.map (fun it =>
      if it.isSealed ∧ it.inst = i then
        { it with resv := it.resv.mapIdx (fun p r =>
            match askedGrant it p with
            | some g => r + min (old.getD p 0 - new.getD p 0) (g - new.getD p 0)
            | none => r) }
      else it) } }

end Sys2Proof.Machine
end

