-- ==== Sys2Proof/Machine/Clock.lean ====
section
/-!
DEFINITION. The passing of time: the core clock ratio in force, and how time advances inside a heat (R4, R51, R72, R130,
R605, R608, R611, R624; log entries 6 and 7).
-/

namespace Sys2Proof.Machine

/-- The lowest ratio code that the clock floor allows to the sources it binds (R608, R642). -/
def floorCap (s : State) : Nat :=
  if s.pwr.blind then 3 else match s.fld Reg.clkFloor with | 1 => 1 | 2 => 2 | _ => 3

/-- A HARD sag, real or injected, is present (R609, R641). -/
def hardNow (s : State) : Bool := s.pwr.belowHard != 0 || (mGet? s.pwr.inject 2).isSome
/-- A SOFT sag, real or injected, is present. -/
def softNow (s : State) : Bool := s.pwr.belowSoft != 0 || (mGet? s.pwr.inject 1).isSome
/-- An alert, real and honoured or injected, is present (R612, R645). -/
def alertNow (s : State) : Bool := (s.pwr.alert && s.fld Reg.alertEn == 1) || (mGet? s.pwr.inject 3).isSome

/-- The ratio code that an alert takes the clock to (Table 15.9). -/
def alertCode (s : State) : Nat := if s.fld Reg.alertStep = 0 then 1 else s.fld Reg.alertStep

/-- The ratio code of the sources that the floor does not bind: a HARD sag and the thermal ceiling (Table 15.1). -/
def unbound (s : State) : Nat := max (if hardNow s then 3 else 0) s.pwr.ceiling

/-- The core clock ratio code in force: the lowest ratio requested (R605). -/
def ratioCode (s : State) : Nat :=
  max (min (max s.pwr.sag (if alertNow s then alertCode s else 0)) (floorCap s)) (unbound s)

/-- Counter of the nanoseconds spent at a reduced ratio (R611). -/
def Ctr.atRatio (code : Nat) : Nat := 0x020120 + 8 * code
def Ctr.throttledNs : Nat := 0x021110

/-- Refill of a shaper at `n` ticks of 8 ns (R387). -/
def Shaper.refill (n : Nat) (x : Shaper) : Shaper :=
  let t := x.tok + 8 * n * x.rate
  { x with tok := if t < x.burst * 8192000 then t else x.burst * 8192000 }

/-- Refill of a policer at `n` ticks of 8 ns (R390, Table 9.4). -/
def Policer.refill (n : Nat) (p : Policer) : Policer :=
  let c := p.c + n * p.cir
  let c' := min c (1000 * p.cbs)
  match p.mode with
  | 1 => { p with c := c', e := min (p.e + (c - c')) (1000 * p.ebs) }
  | 2 => { p with c := c', e := min (p.e + n * p.pir) (1000 * p.ebs) }
  | _ => { p with c := c' }

/-- Every bucket is refilled at `n` ticks of 8 ns (R387, R390). -/
def refillAll (s : State) (n : Nat) : State :=
  if n = 0 then s
  else
    let sh (m : SMap Shaper) : SMap Shaper := m.map (fun x => (x.1, x.2.refill n))
    { s with tm := { s.tm with
      rootSh := sh s.tm.rootSh, limiters := sh s.tm.limiters,
      nodes := s.tm.nodes.map (fun (x : Nat × Node) => (x.1, { x.2 with sh := x.2.sh.refill n })),
      policers := s.tm.policers.map (fun (x : Nat × Policer) => (x.1, x.2.refill n)) } }

/-- Device time of the heat, in 1/256 ns, `k` reference cycles after its strike: one ns a cycle, the rate correction of the
heat in evenly spaced steps, and the offset correction spread over the network idle time (R51, R52, R532, R534; log
entry 40). -/
def Time.dev (t : Time) (k : Nat) : Nat :=
  let rate := (t.rate * (min k t.heatLen : Nat)).tdiv t.heatLen
  let corr := if t.corrLen = 0 then 0 else (t.corr * (min (k - t.corrAt) t.corrLen : Nat)).tdiv t.corrLen
  ((t.base + 256 * k : Nat) + rate + corr : Int).toNat

/-- The fewest further reference cycles after which device time of the heat is at least `target` 1/256 ns. -/
def Time.cyclesTo (t : Time) (target : Nat) : Nat :=
  (List.range 26).foldl (fun n i =>
    let b := 2 ^ (25 - i)
    if t.dev (t.hk + n + b - 1) < target then n + b else n) 0

-- The ledger of management cycles (R69 to R73, R774).

/-- Take `n` from one amount: what is left of it, and of `n`. -/
def serve (w n : Nat) : Nat × Nat := (w - n, n - w)

/-- The sum over the categories. -/
def Work.total (w : Work) : Nat := w.svc + w.cmds + w.aging + w.log + w.telem

/-- A batch of carried work after `n` cycles, in the order of Table 2.2 (log entry 63), and the cycles left over. -/
def Work.after (w : Work) (n : Nat) : Work × Nat :=
  let (a, n1) := serve w.svc n
  let (b, n2) := serve w.cmds n1
  let (c, n3) := serve w.aging n2
  let (d, n4) := serve w.log n3
  let (e, n5) := serve w.telem n4
  ({ svc := a, cmds := b, aging := c, log := d, telem := e }, n5)

/-- Carried work after `n` cycles, oldest first (R69), and the cycles left over. -/
def serveCarried : List Work → Nat → List Work × Nat
  | [], n => ([], n)
  | w :: t, n =>
    let (w', n1) := w.after n
    let (t', n2) := serveCarried t n1
    (if w'.total = 0 then t' else w' :: t', n2)

/-- What a category is given of the `n` cycles that are divided: what its share has earned by now, in hundredths, as far as it
has work and the cycles last (R69, R72). A category without work left gives up what it has earned (R70). Answers what it is
given and its credit. -/
def giveShare (work credit n pct room : Nat) : Nat × Nat :=
  let e := credit + n * pct
  let g := min work (min room (e / 100))
  (g, if g = work then 0 else e - 100 * g)

/-- `n` cycles served in the usable part of a heat (R69, R70): strike service, then carried work, then the categories in
proportion to their shares; what the others leave goes to Commands, and what Commands leaves to the others in the order of
Table 2.2. -/
def Budget.serve (b : Budget) (n : Nat) : Budget :=
  let (svc, n1) := Machine.serve b.todo.svc n
  let (carried, n2) := serveCarried b.carried n1
  let (ga, ca) := giveShare b.todo.aging b.credit.aging n2 b.pctAging n2
  let (gl, cl) := giveShare b.todo.log b.credit.log n2 b.pctLog (n2 - ga)
  let (gt, ct) := giveShare b.todo.telem b.credit.telem n2 b.pctTelem (n2 - ga - gl)
  let (cmds, n3) := Machine.serve b.todo.cmds (n2 - ga - gl - gt)
  let (aging, n4) := Machine.serve (b.todo.aging - ga) n3
  let (log, n5) := Machine.serve (b.todo.log - gl) n4
  let (telem, n6) := Machine.serve (b.todo.telem - gt) n5
  { b with
    todo := { svc := svc, cmds := cmds, aging := aging, log := log, telem := telem }, carried := carried,
    credit := { b.credit with aging := ca, log := cl, telem := ct }, used := b.used + (n - n6) }

/-- `n` cycles of the seal guard, which serve the work that was unfinished at the seal point (R774). -/
def Budget.serveGuard (b : Budget) (n : Nat) : Budget :=
  let (carried, rest) := serveCarried b.carried n
  { b with carried := carried, guardUsed := b.guardUsed + (n - rest) }

/-- The budget applies, or work is served from the instant of RUN on (R775). -/
def Budget.live (b : Budget) : Bool := b.full || b.runHeat

/-- Unfinished work by category: that of this heat and that carried into it (R73). -/
def Budget.open_ (b : Budget) : Work :=
  b.carried.foldl (fun a w =>
    { svc := a.svc + w.svc, cmds := a.cmds + w.cmds, aging := a.aging + w.aging, log := a.log + w.log, telem := a.telem + w.telem })
    b.todo

/-- Cause bits of STK_OVERRUN_CAUSE (R74). -/
def Work.cause (w : Work) : Nat :=
  b2n (w.svc != 0) + 2 * b2n (w.cmds != 0) + 4 * b2n (w.aging != 0) + 8 * b2n (w.log != 0) + 16 * b2n (w.telem != 0)

/-- The seal point is judged (R73, R74): work that is unfinished makes an overrun of a heat with a full budget, and is
carried. -/
def Budget.close (b : Budget) : Budget :=
  if !b.live then b
  else
    let cause := b.open_.cause
    { b with
      overrun := b.full && cause != 0, cause := if b.full then cause else 0, todo := Work.zero, credit := Work.zero,
      carried := if b.todo.total = 0 then b.carried else b.carried ++ [b.todo] }

/-- A command in work after `d` cycles of commands were served (R69; log entry 63). -/
def Job.work (d : Nat) (early : Bool) (j : Job) : Job :=
  if j.left = 0 then j else if j.left ≤ d then { j with left := 0, early := early } else { j with left := j.left - d }

/-- Device time `dt` reference cycles later. -/
def Time.pass (t : Time) (dt : Nat) : Time :=
  let d := t.dev (t.hk + dt)
  { t with hk := t.hk + dt, refNow := t.refNow + dt, ns := d / 256, frac := d % 256 }

namespace State

/-- Device time as a count that only adoption of cluster time breaks: device nanoseconds since reset (R773). -/
def devNow (s : State) : Nat := s.time.devBase + s.time.ns

/-- This is the edge of the last strike. -/
def onStrike (s : State) : Bool := s.time.refNow == s.ln.strikeAt

/-- Reference cycles until the strike. -/
def toStrike (s : State) : Nat := s.time.cyclesTo (256 * s.time.heatLen)

/-- The ledger moves, and the commands in work with it. -/
def spend (s : State) (b : Budget) (early : Bool) : State :=
  { s with budget := b, cmd := { s.cmd with jobs := s.cmd.jobs.map (Job.work (s.budget.open_.cmds - b.open_.cmds) early) } }

/-- The flush that has become due is work of the log category from now on, at 2 CU an entry (R667, R672). -/
def bookFlush (s : State) : State :=
  let n := s.flushEntries.length
  if s.log.flushDue && s.budget.full && !s.time.sealDone && decide (s.budget.logBooked < n) then
    { s with budget := { s.budget with
      logBooked := n, todo := { s.budget.todo with log := s.budget.todo.log + 200 * (n - s.budget.logBooked) } } }
  else s

/-- The seal point of the heat is judged, once (R61, R73). -/
def judge (s : State) : State :=
  if s.time.sealDone then s else { s with budget := s.budget.close, time := { s.time with sealDone := true } }

/-- The cycles that `dt` reference cycles deliver to the management cores (R72), as far as the heat's budget applies: up to one
cycle before the seal point, the cycle that ends at it, and the guard (R61, R89); and the seal point is judged where it is
reached. Cores that stall are delivered cycles and serve nothing with them. -/
def ledger (s0 : State) (dt : Nat) : State :=
  let s := bookFlush s0
  let rate := 4 - ratioCode s
  let toSeal := if s.time.sealDone then 0 else s.time.cyclesTo (256 * s.sealNs)
  let usable := min dt toSeal
  let busy := match s.budget.stall with | some ns => min dt (s.time.cyclesTo (256 * ns)) | none => dt
  let a := min (min dt (toSeal - 1)) busy
  let b := min usable busy - a
  let c := busy - min usable busy
  let s1 := if s.budget.live then
      let s' := (s.spend (s.budget.serve (rate * a)) true)
      let s'' := s'.spend (s'.budget.serve (rate * b)) false
      { s'' with budget := { s''.budget with delivered := s''.budget.delivered + rate * usable } }
    else s
  if dt < toSeal then s1
  else
    let s2 := s1.judge
    if s2.budget.live then s2.spend (s2.budget.serveGuard (rate * c)) false else s2

/-- The width of a pulse: STK_IO_PULSE, at most 8 ns less than the heat (Table 2.11), as the register stands when the pulse ends
(log entry 68). -/
def pulseNs (s : State) : Nat := min (s.fld Reg.ioPulse) (s.time.heatLen - 8)

/-- The pins in mode PULSE go low (R85). -/
def endPulse (s : State) : State := { s with io := { s.io with drive := s.io.drive &&& ~~~s.io.pulsing, pulsing := 0 } }

/-- A pulse whose end has come has ended (R85, R773). -/
def pulseDue (s : State) : State := if s.io.pulsing ≠ 0 ∧ s.pulseNs ≤ s.time.ns then s.endPulse else s

/-- Reference time passes inside a heat: nanoseconds of the heat and of the reference, management cycles and what they serve,
time at reduced ratios and throttled; and the ticks of 8 ns refill every bucket. -/
def advance (s : State) (dt : Nat) : State :=
  if dt = 0 then s else
  let code := ratioCode s
  let s0 := s.ledger dt
  let s1 := pulseDue { s0 with time := s0.time.pass dt }
  let s1' := refillAll s1 ((s.time.refNow + dt) / 8 - s.time.refNow / 8)
  let s2 := if code = 0 then s1' else s1'.add (Ctr.atRatio code) dt
  if s2.pwr.ceiling = 0 then s2 else s2.add Ctr.throttledNs dt

end State

end Sys2Proof.Machine
end

