-- ==== Sys2Proof/Machine/Complete.lean ====
section
/-!
DEFINITION. Completion queues: the one write of an entry, and the entries (R116, R140, R247, R248, R312, R778,
Table 5.18).
-/

namespace Sys2Proof.Machine

/-- Entries written and not yet consumed of a completion queue. -/
def cqUsed (q : Qp) : Nat := (q.cqProd + 65536 - q.cqCons) % 65536

/-- The completion queue can take no further entry (R248). -/
def cqFull (q : Qp) : Bool := decide (2 ^ q.logCq - 1 ≤ cqUsed q)

/-- Write an entry, given without PHASE: 64 bytes at the producer index; the vector fires where the queue is armed
(R248, R778). Where the translation of its address faults, the queue pair stops and the entry is not written (R242). -/
def cqWrite (s0 : State) (i k : Nat) (e : List Byte) : State :=
  let q := s0.qp i k
  let n := 2 ^ q.logCq
  let slot := q.cqProd % n
  let b := match e with
    | h :: t => BitVec.ofNat 8 (setBits h.toNat 0 0 (b2n q.cqPhase)) :: t
    | [] => []
  match access s0 i (some k) (q.cqAddr + 64 * slot) true with
  | (s, none) => s
  | (s, some x) =>
    let s1 := (s.emitLink (s.linkOf i) (.completion i k slot x b)).setQp i k
      { q with cqProd := (q.cqProd + 1) % 65536, cqPhase := if slot + 1 = n then !q.cqPhase else q.cqPhase, armed := false }
    if q.armed then s1.fire i q.vec else s1

/-- Issue an entry: written at once, or held behind entries that wait, while the function issues nothing or the queue is
full (R140, R248). -/
def cqIssue (s : State) (i k : Nat) (e : List Byte) : State :=
  let q := s.qp i k
  if s.canDma i && q.held.isEmpty && !cqFull q then cqWrite s i k e
  else s.setQp i k { q with held := q.held ++ [e] }

/-- Write what waits of a queue pair as far as it may be written. -/
def cqDrain (s : State) (i k : Nat) : Nat → State
  | 0 => s
  | n + 1 =>
    let q := s.qp i k
    match q.held with
    | [] => s
    | e :: t =>
      if s.canDma i && !cqFull q then cqDrain (cqWrite (s.setQp i k { q with held := t }) i k e) i k n else s

/-- A timestamp's 12 bytes (R312). -/
def Stamp.bytes (t : Stamp) : List Byte :=
  leBytes 6 t.heat.toNat ++ leBytes 3 t.ns ++ leBytes 1 t.frac ++ leBytes 1 (t.cls % 4) ++ [0]

/-- Device time now, as a timestamp. -/
def State.stamp (s : State) : Stamp := { heat := s.time.heat, ns := s.time.ns, frac := s.time.frac, cls := s.time.cls }

/-- The shared flags that the cipher and storage statuses set (R457, R492): AUTH_FAIL, DIGEST_ERR, PI_ERR. -/
def sharedFlags (cip sto : List Byte) : Nat :=
  b2n (bit (dn cip 3 3) 0) + 2 * b2n (bit (dn sto 0 0) 2 || bit (dn sto 0 0) 3) + 4 * b2n (bit (dn sto 0 0) 4)

/-- An entry of Table 5.18 without PHASE. -/
def cqEntry (kind k index flags len aux : Nat) (ts : Option Stamp) (src cls colour parse : Nat) (cip sto : List Byte) :
    List Byte :=
  leBytes 1 (2 * kind) ++ [0] ++ leBytes 2 k ++ leBytes 2 index ++
  leBytes 2 (flags + sharedFlags cip sto + 128 * b2n ts.isSome) ++ leBytes 4 (len % 2 ^ 18) ++ leBytes 4 aux ++
  (match ts with | some t => t.bytes | none => leBytes 12 0) ++ leBytes 2 src ++ leBytes 1 (cls + 8 * colour) ++
  leBytes 1 parse ++ padTo 8 cip ++ padTo 16 sto ++ leBytes 8 0

/-- The transmit completion of a frame: length sent (0 where nothing was), NOT_SENT (R245, R247). -/
def completeTx (s : State) (t : TxInfo) (len : Nat) (notSent : Bool) (ts : Option Stamp) (late : Bool)
    (cip sto : List Byte) : State :=
  cqIssue s t.inst t.qp
    (cqEntry 1 t.qp t.index (64 * b2n late + 256 * b2n notSent) len t.cookie (if t.ts then ts else none) 0 0 0 0 cip sto)

end Sys2Proof.Machine
end

