-- ==== Sys2Proof/Machine/Pause.lean ====
section
/-!
DEFINITION. The MAC of a port: its accessors, its speed, and the pause frames that the device sends (R298, R299, R315).
-/

namespace Sys2Proof.Machine

/-- MAC configuration after reset (R315). -/
def MacCfg.fresh : MacCfg :=
  { cut := false, maxFrame := 9216, fcMode := 0, honour := 0xFF, generate := 0, quanta := 0xFFFF, wdLimit := 100,
    recovery := 1000, preEn := false, verifyDis := false, addFrag := 0, express := 0, verifyTime := 10, holdAdv := 0,
    relAdv := 0 }

/-- No pause in either direction. -/
def PauseClass.fresh : PauseClass :=
  { pausedTo := none, heldFrom := none, recoverTo := none, xoff := false, xoffFrom := 0, xoffAccum := 0, repeatAt := 0,
    capped := false }

/-- A MAC after reset. -/
def MacPort.fresh : MacPort :=
  { cfg := MacCfg.fresh, pause := [], winFrom := 0, verify := 0, verifySent := 0, verifyAt := 0, preActive := false,
    hold := false, gate := none, gateIdx := 0, cycleFrom := 0, next := none, holdTo := 0, relTo := 0 }

/-- A lane after reset: powered down, ADAPT, nothing detected (R277, Table 6.8). -/
def Lane.fresh : Lane :=
  { sig := false, cdr := false, align := false, failed := false, reason := 0, powered := false, fixed := false,
    eqTx := 0, eqRx := 0, hist := [], ppm := 0, readapt := none, restart := false, lossAt := none, backAt := none, upAt := none,
    rate := 0 }

/-- A port after reset: DISABLED (R277). -/
def Port.fresh : Port :=
  { st := .disabled, cfg := none, base := 0, width := 0, rate := 0, speed := 0, fec := 0, reduced := false, stored := none,
    exiting := false, fromStore := false, exitAt := 0, trainAt := 0, healthyFrom := none, lossFrom := none, lossFec := 0,
    changeHeat := 0 }

/-- Counter of a port's MAC block (Table 7.7). -/
def macCtr (p off : Nat) : Nat := 0x300000 + 0x1000 * p + off

/-- A speed code of Table 6.1 in Gb/s. -/
def gbps (code : Nat) : Nat := [0, 10, 25, 50, 100, 200, 400, 800, 1600].getD code 0

namespace State

def mac (s : State) (p : Nat) : MacPort := mGetD s.macs p MacPort.fresh
def setMac (s : State) (p : Nat) (x : MacPort) : State := { s with macs := mPut s.macs p x }
def modMac (s : State) (p : Nat) (f : MacPort → MacPort) : State := s.setMac p (f (s.mac p))
def pc (s : State) (p c : Nat) : PauseClass := mGetD (s.mac p).pause c PauseClass.fresh
def setPc (s : State) (p c : Nat) (x : PauseClass) : State := s.modMac p (fun m => { m with pause := mPut m.pause c x })
def lane (s : State) (n : Nat) : Lane := mGetD s.ln.lanes n Lane.fresh
def port (s : State) (p : Nat) : Port := mGetD s.ln.ports p Port.fresh
/-- The port is UP or DEGRADED. -/
def portLive (s : State) (p : Nat) : Bool := (s.port p).st == .up || (s.port p).st == .degraded
/-- A status bit of a port's MAC is set: vector 6 (Table 7.6). -/
def macRaise (s : State) (p b : Nat) : State := s.raise Reg.macStatus b 6 p

end State

/-- The index under which pause of a class is kept: the class, or 0 in PAUSE mode (R296, R299, R300). -/
def pauseIdx (s : State) (p c : Nat) : Nat := if (s.mac p).cfg.fcMode = 1 then 0 else c

/-- Quanta in ns at the port's current speed (R296). -/
def quantaNs (s : State) (p q : Nat) : Nat := if gbps (s.port p).speed = 0 then 0 else q * 512 / gbps (s.port p).speed

/-- Classes of a port above XOFF, with their GENERATE bit 1 (R298, R381). -/
def pressing (s : State) (p : Nat) : List Nat := bitList (Nat.land (mGetD s.tm.above p 0) (s.mac p).cfg.generate) 8

/-- The device presses for pause of the class, or of the port in PAUSE mode. -/
def presses (s : State) (p c : Nat) : Bool :=
  if (s.mac p).cfg.fcMode = 1 then !(pressing s p).isEmpty else (pressing s p).contains c

/-- Send a pause frame for a class (R298). -/
def sendPause (s : State) (p c q : Nat) : State :=
  let pfc := (s.mac p).cfg.fcMode == 2
  (s.emit (.pause p pfc (if pfc then 2 ^ c else 255) q)).inc (macCtr p (0x240 + 8 * c))

/-- Send XOFF, first or repeated: the pause time of the class runs (R298, R299). -/
def xoffSend (s : State) (p c : Nat) : State :=
  let k := pauseIdx s p c
  let x := s.pc p k
  if (s.mac p).cfg.fcMode = 0 ∨ !s.portLive p ∨ x.capped then s
  else
    let q := (s.mac p).cfg.quanta
    (sendPause s p k q).setPc p k
      { x with xoff := true, xoffFrom := if x.xoff then x.xoffFrom else s.time.refNow,
               repeatAt := s.time.refNow + quantaNs s p q / 2 }

/-- Pause time of the class in the window so far (R299). -/
def pauseTime (s : State) (x : PauseClass) : Nat := x.xoffAccum + (if x.xoff then s.time.refNow - x.xoffFrom else 0)

/-- Send quanta 0: the pause time of the class stops (R298, R299). -/
def xonSend (s : State) (p c : Nat) : State :=
  let k := pauseIdx s p c
  let x := s.pc p k
  if !x.xoff then s
  else (sendPause s p k 0).setPc p k { x with xoff := false, xoffAccum := pauseTime s x }

/-- The report of a class changes (R298, R381): XOFF as it comes to press, quanta 0 as it ceases. -/
def reportClass (s : State) (p c : Nat) (above : Bool) : State :=
  let m := mGetD s.tm.above p 0
  if bit m c = above then s
  else
    let s1 := { s with tm := { s.tm with above := mPut s.tm.above p (setBits m c c (b2n above)) } }
    if !bit (s.mac p).cfg.generate c then s1
    else if above then (if (s1.pc p (pauseIdx s1 p c)).xoff then s1 else xoffSend s1 p c)
    else if presses s1 p c then s1 else xonSend s1 p c

end Sys2Proof.Machine
end

