-- ==== Sys2Proof/Machine/Tm.lean ====
section
/-!
DEFINITION. The packet buffer: frames held, occupancy, admission, release and XOFF reports; shapers and policers as
arithmetic (R376 to R381, R386 to R391, R407, R408).
-/

namespace Sys2Proof.Machine

/-- Source ID of a port and of a tunnel profile (R329); an instance's is its ID. -/
def srcPort (p : Nat) : Nat := 0x1000 + p
def srcTunnel (t : Nat) : Nat := 0x2000 + t

/-- The root of a destination (Table 9.2). -/
def rootOf (s : State) : Dest → Nat
  | .port p => p
  | .queue i _ _ => 16 + s.linkOf i

/-- Key of a class queue. -/
def queueKey (r o c : Nat) : Nat := (r * 16384 + o) * 8 + c
def keyRoot (k : Nat) : Nat := k / 8 / 16384
def keyOwner (k : Nat) : Nat := k / 8 % 16384
def keyClass (k : Nat) : Nat := k % 8

/-- Frames held anywhere in the packet buffer: queued, being sent, and in gap buffers (R377, R380, R581). -/
def heldFrames (s : State) : List Frame :=
  s.tm.queues.flatMap (fun q => q.2.frames) ++ s.tm.sending.flatMap (fun g => g.2.map (·.frame)) ++
  s.tri.slots.flatMap (fun t => t.2.gap)

/-- Sum of cells of the frames that satisfy a condition. -/
def cellsOf (l : List Frame) (p : Frame → Bool) : Nat := l.foldl (fun a f => if p f then a + f.cells else a) 0

/-- Region sizes in cells (Table 9.1). -/
def regionCells (g : Nat) : Nat := [393216, 16384, 98304, 16384].getD g 0

/-- Free cells of a region, retired cells apart (R377, R407). -/
def regionFree (s : State) (g : Nat) : Nat :=
  regionCells g - cellsOf (heldFrames s) (fun f => f.region == g) - s.tm.retired.getD g 0

/-- Region of a frame by its owner (Table 9.1); copies are charged to COPY whatever their owner. -/
def regionOf (owner : Nat) : Nat := if 4096 ≤ owner then 2 else if owner = 0 ∨ owner = 2 then 1 else 0

/-- Cells of a frame of a length (R376). -/
def cellsFor (len : Nat) : Nat := ceilDiv len 256

/-- Frames that admission has taken: those in gap buffers are not yet among them (R378, R581). -/
def admitted (s : State) : List Frame :=
  s.tm.queues.flatMap (fun q => q.2.frames) ++ s.tm.sending.flatMap (fun g => g.2.map (·.frame))

/-- Occupancies in cells (R378). -/
def occOwner (s : State) (o : Nat) : Nat := cellsOf (admitted s) (fun f => f.owner == o)
def occIng (s : State) (p c : Nat) : Nat := cellsOf (admitted s) (fun f => f.ing == some p && f.cls == c)
def occQueue (s : State) (r o c : Nat) : Nat :=
  cellsOf (admitted s) (fun f => rootOf s f.dest == r && f.owner == o && f.cls == c)

/-- Thresholds of a port and class, and QLIM of a root and class (R395). -/
def admitOf (s : State) (p c : Nat) : Admit :=
  mGetD s.tm.admits (8 * p + c) { xon := 128, xoff := 256, dropY := 768, drop := 1024 }
def qlimOf (s : State) (r c : Nat) : Nat := mGetD s.tm.qlim (8 * r + c) 4096

namespace Ctr
def dropQuota : Nat := 0x500040
def dropIngress : Nat := 0x500048
def dropQueue : Nat := 0x500050
def dropRegion : Nat := 0x500058
def policeDrop : Nat := 0x500060
def staleDrop : Nat := 0x500068
def bufEcc : Nat := 0x500070
def forgiven : Nat := 0x500078
def admits (r c : Nat) : Nat := 0x501000 + 0x100 * r + 8 * c
def admDrop (r c : Nat) : Nat := 0x501040 + 0x100 * r + 8 * c
def rootForgiven (r : Nat) : Nat := 0x503000 + 8 * r
def insForgiven (i dir : Nat) : Nat := 0x510000 + 0x10 * i + 8 * dir
def banked (p : Nat) : Nat := 0x201000 + 0x100 * p + 0x20
end Ctr

/-- The report of R381 for a port and class, after a change of its occupancy or thresholds. -/
def reviewIng (s : State) (p c : Nat) : State :=
  let occ := occIng s p c
  let a := admitOf s p c
  if 4 * a.xoff < occ then reportClass s p c true
  else if occ ≤ 4 * a.xon then reportClass s p c false
  else s

/-- The report that the end of a frame's stay may change. -/
def reviewFrame (s : State) (f : Frame) : State :=
  match f.ing with
  | some p => reviewIng s p f.cls
  | none => s

/-- Why admission refuses a frame (R378): the counter of the reason; the region first refused raises REGION_FULL
(R408). -/
def refusal (s : State) (f : Frame) : Option Nat :=
  let r := rootOf s f.dest
  let tenant := f.owner < 4096 && f.owner != 0 && f.owner != 2
  if tenant && decide (4 * (s.insOf f.owner).grants.getD 6 0 < occOwner s f.owner + f.cells) then
    some Ctr.dropQuota
  else if (match f.ing with
      | some p =>
        let a := admitOf s p f.cls
        decide (4 * (if f.colour = 0 then a.drop else a.dropY) < occIng s p f.cls + f.cells)
      | none => false) then some Ctr.dropIngress
  else if 4 * qlimOf s r f.cls < occQueue s r f.owner f.cls + f.cells then some Ctr.dropQueue
  else if regionFree s f.region < f.cells then some Ctr.dropRegion
  else none

/-- A frame that the device is done with: a transmit's completion is written if this copy carries it (R247). -/
def endFrame (s : State) (f : Frame) (sent : Nat) (ts : Option Stamp) : State :=
  match f.tx with
  | some t => completeTx s t sent false ts f.lateTs f.cip f.sto
  | none => s

/-- Count a drop at admission (R378). -/
def admDrop (s : State) (f : Frame) : State := endFrame (s.inc (Ctr.admDrop (rootOf s f.dest) f.cls)) f 0 none

/-- Put a frame at the end of its class queue. -/
def enqueue (s : State) (f : Frame) : State :=
  let k := queueKey (rootOf s f.dest) f.owner f.cls
  let q := mGetD s.tm.queues k { frames := [], since := 0 }
  let q' : ClassQ := { frames := q.frames ++ [f], since := if q.frames.isEmpty then s.time.refNow else q.since }
  { s with tm := { s.tm with queues := mPut s.tm.queues k q' } }

/-- Admit a frame to the packet buffer and queue it, or drop and count it (R378, R408, R626). -/
def admitFrame (s : State) (f : Frame) : State :=
  if 2 ≤ s.pwr.quench then admDrop s f
  else match refusal s f with
    | none =>
      let s1 := (enqueue s f).inc (Ctr.admits (rootOf s f.dest) f.cls)
      reviewFrame s1 f
    | some c =>
      let s1 := admDrop (s.inc c) f
      if c = Ctr.dropRegion then
        let told := bit (s1.word Reg.tmStatus.addr) 0
        let s2 := s1.raise Reg.tmStatus 0 0
        if told then s2 else s2.post 0x5002 (leBytes 1 f.region)
      else s1

/-- Remove frames that satisfy a condition from every class queue, with what is done for each. -/
def dropQueued (s : State) (p : Nat → Frame → Bool) (each : State → Frame → State) : State :=
  let gone := s.tm.queues.flatMap (fun q => q.2.frames.filter (p q.1))
  let kept := (s.tm.queues.map (fun q => (q.1, { q.2 with
    frames := q.2.frames.filter (fun f => !p q.1 f),
    since := if (q.2.frames.head?.map (p q.1)).getD false then s.time.refNow else q.2.since }))).filter
      (fun q => !q.2.frames.isEmpty)
  gone.foldl (fun s f => reviewFrame (endFrame (each s f) f 0 none) f) { s with tm := { s.tm with queues := kept } }

/-- Discard the frames held for a port, counted in LN_PORT_BANKED_DROP_CNT (R268, R276). -/
def dropPortFrames (s : State) (p : Nat) : State :=
  dropQueued s (fun k _ => keyRoot k == p) (fun s _ => s.inc (Ctr.banked p))

/-- Frames are held for an instance (Table 5.2). -/
def framesHeld (s : State) (i : Nat) : Bool := (heldFrames s).any (fun f => f.owner == i)

-- Shapers (R387, R388).

/-- A shaper after reset (R395). -/
def Shaper.fresh : Shaper :=
  { rate := 0, burst := 16384, overhead := 0, zero := false, tok := 16384 * 8192000, forgiven := 0, stok := 0,
    sforgiven := 0 }

/-- Conformance (R387). -/
def Shaper.ok (x : Shaper) : Bool := x.rate == 0 || decide (0 ≤ x.tok)

/-- The charge of a frame of a length. -/
def Shaper.charge (x : Shaper) (len : Nat) : Shaper := { x with tok := x.tok - (len + x.overhead) * 8000 }

/-- Bytes of debt. -/
def Shaper.debt (x : Shaper) : Nat := if x.tok < 0 then (-x.tok).toNat / 8000 else 0

/-- New settings land: debt is forgiven and the bucket reset (R388). -/
def Shaper.set (x : Shaper) (rate burst : Nat) (overhead : Int) (zero : Bool) : Shaper :=
  { x with rate := rate, burst := burst, overhead := overhead, zero := zero, forgiven := x.forgiven + x.debt,
           tok := if zero then 0 else burst * 8192000 }

/-- A pool node that nothing has set (R205, R221). -/
def Node.fresh : Node := { sh := Shaper.fresh, use := none }

def nodeKey (i n : Nat) : Nat := i * 65536 + n

namespace State

def rootSh (s : State) (r : Nat) : Shaper := mGetD s.tm.rootSh r Shaper.fresh
def limiter (s : State) (i dir : Nat) : Shaper := mGetD s.tm.limiters (2 * i + dir) Shaper.fresh
def node (s : State) (i n : Nat) : Node := mGetD s.tm.nodes (nodeKey i n) Node.fresh
def setNode (s : State) (i n : Nat) (x : Node) : State := { s with tm := { s.tm with nodes := mPut s.tm.nodes (nodeKey i n) x } }
/-- The node that serves a place, with its key. -/
def nodeFor (s : State) (u : NodeUse) : Option (Nat × Node) := s.tm.nodes.find? (fun n => n.2.use == some u)

end State

-- Policers (R389 to R391).

/-- A policer that nothing has set: DROP mode with no rate (R395). -/
def Policer.fresh : Policer :=
  { mode := 0, aware := false, cir := 0, pir := 0, cbs := 0, ebs := 0, acts := [0, 0, 0], yDscp := 0, rDscp := 0, c := 0,
    e := 0, counts := [0, 0, 0, 0, 0, 0, 0], scounts := [0, 0, 0, 0, 0, 0, 0] }

/-- Colour of a frame and the policer after it (Table 9.4); none is a drop of DROP mode. -/
def Policer.judge (p : Policer) (len colour : Nat) : Option Nat × Policer :=
  let n := 1000 * len
  let k := if p.aware then colour else 0
  match p.mode with
  | 1 =>
    if k = 0 ∧ n ≤ p.c then (some 0, { p with c := p.c - n })
    else if k ≤ 1 ∧ n ≤ p.e then (some 1, { p with e := p.e - n })
    else (some 2, p)
  | 2 =>
    if k = 2 ∨ p.e < n then (some 2, p)
    else if k = 1 ∨ p.c < n then (some 1, { p with e := p.e - n })
    else (some 0, { p with c := p.c - n, e := p.e - n })
  | _ => if n ≤ p.c then (some 0, { p with c := p.c - n }) else (none, p)

/-- Add to counts of a policer. -/
def Policer.tally (p : Policer) (i n : Nat) : Policer := { p with counts := lSet p.counts i (p.counts.getD i 0 + n) }

def policerKey (i n : Nat) : Nat := i * 262144 + n

/-- Police a frame: colour after it, the DSCP to set, or none where it is dropped (R390, R391). -/
def police (s : State) (key len colour : Nat) : State × Option (Nat × Option Nat) :=
  let p := mGetD s.tm.policers key Policer.fresh
  let put (s : State) (x : Policer) : State := { s with tm := { s.tm with policers := mPut s.tm.policers key x } }
  let (k, p1) := p.judge len colour
  match k with
  | none => ((put s (p1.tally 6 1)).inc Ctr.policeDrop, none)
  | some k =>
    let p2 := (p1.tally (2 * k) 1).tally (2 * k + 1) len
    if p.mode = 0 then (put s p2, some (k, none))
    else match p.acts.getD k 0 with
      | 1 => ((put s (p2.tally 6 1)).inc Ctr.policeDrop, none)
      | 2 =>
        if k = 0 then
          -- the spec gives a policer no DSCP for green (log entry 28)
          let (v, s1) := (put s p2).draw
          (s1, some (k, some (v % 64)))
        else (put s p2, some (k, some (if k = 1 then p.yDscp else p.rDscp)))
      | _ => (put s p2, some (k, none))

end Sys2Proof.Machine
end

