-- ==== Sys2Proof/Machine/CipherOps.lean ====
section
/-!
DEFINITION. What the cipher engine does to frames and records: contexts, MACsec, ESP and TLS (R411 to R454,
Tables 10.2, 10.8 and 10.12).
-/

namespace Sys2Proof.Machine

/-- The reset contents of a context (R205, R415, R445). -/
def Ctx.fresh : Ctx :=
  { st := .unset, kind := 0, alg := 0, flags := 0, slot := 0, key1 := [], key2 := [], salt := leBytes 12 0, spi := 0,
    nextSeq := 0, winTop := 0, bitmap := 0, win := 32, chain := { acc := [], ctr := [], part := [] }, hdr := [], left := 0,
    tcpSeq := 0, firstRec := 0, nextKey := none, oldKeys := none, gen := 0, binding := none, toldMargin := false,
    toldEnd := false, authFails := 0, replays := 0, resume := none, snap := [0, 0, 0, 0, 0] }

/-- A SecY after reset: disabled (R445). -/
def SecY.fresh : SecY :=
  { enable := false, protect := false, replay := false, includeSci := false, suite := 1, validate := 0, offset := 0,
    an := 0, window := 0, ownSci := 0, peerSci := 0 }

def ctxKey (i n : Nat) : Nat := i * 1048576 + n

namespace State

def ctx (s : State) (k : Nat) : Ctx := mGetD s.cip.ctxs k Ctx.fresh
def setCtx (s : State) (k : Nat) (x : Ctx) : State := { s with cip := { s.cip with ctxs := mPut s.cip.ctxs k x } }
def secy (s : State) (p : Nat) : SecY := mGetD s.cip.secys p SecY.fresh
/-- The context with a binding. -/
def bound (s : State) (b : Binding) : Option Nat := (s.cip.ctxs.find? (fun c => c.2.binding == some b)).map (·.1)

end State

namespace Ctr
def encBytes : Nat := 0x600100
def decBytes : Nat := 0x600108
def authFail : Nat := 0x600110
def replayDrop : Nat := 0x600118
def satDrop : Nat := 0x600120
def exhaustDrop : Nat := 0x600128
def badCtx : Nat := 0x600130
def ctxEcc : Nat := 0x600138
def badRecord : Nat := 0x600140
def bypass : Nat := 0x600148
def restoreRej : Nat := 0x600150
def secy (p off : Nat) : Nat := 0x601000 + 0x100 * p + off
end Ctr

/-- Cipher status of a completion (Table 10.12). `off` is none where BYPASS is 0. -/
def cipStatus (idx op flags : Nat) (off : Option Nat) : List Byte :=
  leBytes 3 (idx % 2 ^ 20 + op * 2 ^ 20) ++ leBytes 1 (flags + 8 * b2n off.isSome) ++
  leBytes 2 (off.getD 0xFFFF) ++ [0, 0]

/-- No cipher status: zeros (Table 5.18). -/
def noCip : List Byte := leBytes 8 0

/-- Key length in bytes of an algorithm (Table 10.1). -/
def keyLen (alg : Nat) : Nat := if alg = 1 ∨ alg = 3 ∨ alg = 6 then 16 else 32

/-- An algorithm code with 64-bit packet numbers (Table 10.1). -/
def isXpn (c : Ctx) : Bool := c.alg == 3 || c.alg == 4 || bit c.flags 2

/-- The last sequence number of a context (Table 10.9). -/
def seqEnd (c : Ctx) : Nat :=
  if c.kind ≤ 2 then (if isXpn c then 2 ^ 64 - 1 else 2 ^ 32 - 1)
  else if c.kind ≤ 4 then (if bit c.flags 0 then 2 ^ 64 - 1 else 2 ^ 32 - 1)
  else 2 ^ 64 - 1

/-- Byte-wise exclusive or. -/
def xorBytes (a b : List Byte) : List Byte := (a.zip b).map (fun x => x.1 ^^^ x.2)

/-- Chaining state as bytes and back. -/
def Chaining.bytes (c : Chaining) : List Byte := padTo 16 c.acc ++ padTo 16 c.ctr ++ c.part
def Chaining.ofBytes (l : List Byte) : Chaining := { acc := l.take 16, ctr := (l.drop 16).take 16, part := (l.drop 32).take 15 }

/-- Begin an AEAD. -/
def aeadStart (c : Ctx) (nonce aad : List Byte) : Chaining := Chaining.ofBytes (Config.aeadInit c.alg c.key1 nonce aad)

/-- Run an AEAD over data: as many bytes come out as went in. -/
def aeadRun (c : Ctx) (ch : Chaining) (enc : Bool) (data : List Byte) : List Byte × Chaining :=
  let r := Config.aeadStep c.alg c.key1 ch.bytes enc data
  (padTo data.length r.1, Chaining.ofBytes r.2)

/-- The tag. -/
def aeadEnd (c : Ctx) (nonce : List Byte) (ch : Chaining) (aad len : Nat) : List Byte :=
  padTo 16 (Config.aeadTag c.alg c.key1 nonce ch.bytes aad len)

/-- Seal at once: ciphertext and tag. -/
def aeadSeal (c : Ctx) (nonce aad data : List Byte) : List Byte × List Byte :=
  let (out, ch) := aeadRun c (aeadStart c nonce aad) true data
  (out, aeadEnd c nonce ch aad.length data.length)

/-- Open at once: plaintext, and whether the tag is good. -/
def aeadOpen (c : Ctx) (nonce aad data tag : List Byte) : List Byte × Bool :=
  let (out, ch) := aeadRun c (aeadStart c nonce aad) false data
  (out, aeadEnd c nonce ch aad.length data.length == tag)

/-- A transmit context as it stands after sequence numbers have been used: PN_MARGIN is told once per key (R446). -/
def tellMargin (s : State) (k : Nat) (c : Ctx) : State :=
  let left := seqEnd c + 1 - c.nextSeq
  if left ≤ 2 ^ s.fld Reg.pnMargin ∧ !c.toldMargin then
    (((s.setCtx k { c with toldMargin := true }).raise Reg.cipStatus 3 0).post 0x6002
      (leBytes 2 (k / 1048576) ++ leBytes 4 (k % 1048576)))
  else s.setCtx k c

/-- A sequence number of a transmit context has been used. -/
def seqUsed (s : State) (k : Nat) (c : Ctx) : State := tellMargin s k { c with nextSeq := c.nextSeq + 1 }

/-- The sequence end has been used, and no landed key waits for the next record (R446). -/
def exhausted (c : Ctx) : Bool := c.nextKey.isNone && decide (seqEnd c < c.nextSeq)

/-- A context is set or restored: one of a transmit kind with few sequence numbers left tells it (R446). -/
def placeCtx (s : State) (k : Nat) (c : Ctx) : State :=
  if c.kind == 1 || c.kind == 3 || c.kind == 5 then tellMargin s k c else s.setCtx k c

/-- A frame selects a context that is not READY: it counts, but for the frame that has found the context damaged (R415, R453). -/
def countBadCtx (s : State) (k : Nat) (ecc : List EccHit) : State := if ecc.contains (.ctx k) then s else s.inc Ctr.badCtx

/-- A frame selects an exhausted context: it is dropped, counted and told once (R446). -/
def exhaustDrop (s : State) (k : Nat) (c : Ctx) : State :=
  let s1 := s.inc Ctr.exhaustDrop
  if c.toldEnd then s1
  else (s1.setCtx k { c with toldEnd := true }).post 0x6003 (leBytes 2 (k / 1048576) ++ leBytes 4 (k % 1048576))

-- MACsec (R423 to R426, R455).

/-- The nonce of a MACsec frame (IEEE 802.1AE): SCI and PN, or salt XOR SSCI and PN with XPN. -/
def macNonce (c : Ctx) (sci pn : Nat) : List Byte :=
  if isXpn c then xorBytes (padTo 12 c.salt) (leBytes 4 c.spi ++ beBytes 8 pn) else beBytes 8 sci ++ beBytes 4 pn

/-- Protect a frame for a port (R424, R426): the frame as sent, or none where it must not go out. -/
def macsecTx (s : State) (p : Nat) (ecc : List EccHit) (b : List Byte) : State × Option (List Byte) :=
  let y := s.secy p
  if !y.enable || !y.protect || netAt b 12 2 == 0x888E then (s, some b)
  else match s.bound (.macTx p y.an) with
    | none => (s.inc Ctr.badCtx, none)
    | some k =>
      let c := s.ctx k
      if c.st != .ready then (countBadCtx s k ecc, none)
      else if exhausted c then (exhaustDrop s k c, none)
      else
        let user := b.drop 12
        let clear := user.take y.offset
        let plain := user.drop y.offset
        let sl := if user.length < 48 then user.length else 0
        let tag := beBytes 2 0x88E5 ++ leBytes 1 (32 * b2n y.includeSci + 12 + y.an) ++ leBytes 1 sl ++
          beBytes 4 (c.nextSeq % 2 ^ 32) ++ (if y.includeSci then beBytes 8 y.ownSci else [])
        let (ct, icv) := aeadSeal c (macNonce c y.ownSci c.nextSeq) (b.take 12 ++ tag ++ clear) plain
        let s1 := ((seqUsed s k c).inc (Ctr.secy p 0x18)).add Ctr.encBytes plain.length
        (s1, some (b.take 12 ++ tag ++ clear ++ ct ++ icv))

/-- The 64-bit packet number that 32 bits of it name, near the one expected (IEEE 802.1AE, XPN; RFC 4303, ESN). -/
def recoverSeq (expect low : Nat) : Nat :=
  let v := expect / 2 ^ 32 * 2 ^ 32 + low
  if v + 2 ^ 31 < expect then v + 2 ^ 32 else if expect + 2 ^ 31 < v ∧ 2 ^ 32 ≤ v then v - 2 ^ 32 else v

/-- A SecTAG that is not as IEEE 802.1AE defines it. -/
def badTag (b : List Byte) : Bool :=
  let t := byteAt b 14
  let n := if bit t 5 then 28 else 20
  bit t 7 || (bit t 5 && (bit t 6 || bit t 4)) || decide (byteAt b 15 ≥ 48) ||
  decide (b.length < n + 16)

/-- Verify a received frame of a port (R424, R425, R435, R455): the frame without SecTAG and ICV and its cipher status,
or none where it is dropped. -/
def macsecRx (s : State) (p : Nat) (ecc : List EccHit) (b : List Byte) : State × Option (List Byte × List Byte) :=
  let y := s.secy p
  if !y.enable || netAt b 12 2 == 0x888E then (s, some (b, noCip))
  else if netAt b 12 2 != 0x88E5 then
    (s.inc (Ctr.secy p 0x28), if y.validate = 2 then none else some (b, noCip))
  else if badTag b then (s.inc (Ctr.secy p 0x30), none)
  else
    let t := byteAt b 14
    let sc := bit t 5
    let enc := bit t 2
    let hl := if sc then 28 else 20
    let sci := if sc then netAt b 20 8 else y.peerSci
    let low := netAt b 16 4
    let sl := byteAt b 15 % 64
    let user := ((b.drop hl).take (if sl = 0 then b.length - hl - 16 else sl))
    let icv := ((b.drop (hl + user.length)).take 16)
    let whole (x : List Byte) : List Byte := b.take 12 ++ x
    match s.bound (.macRx p sci (t % 4)) with
    | none =>
      let s1 := s.inc (Ctr.secy p 0x38)
      (s1, if y.validate = 2 || enc then none else some (whole user, noCip))
    | some k =>
      let c := s.ctx k
      let idx := k % 1048576
      if c.st != .ready then (countBadCtx s k ecc, none)
      else
        let pn := if isXpn c then recoverSeq c.nextSeq low else low
        if y.replay && decide (pn + y.window < c.nextSeq) then (s.inc (Ctr.secy p 0x40), none)
        else if y.validate = 0 then (s, if enc then none else some (whole user, cipStatus idx 1 0 none))
        else
          let off := if enc then y.offset else user.length
          let (pt, ok) := aeadOpen c (macNonce c sci pn) (b.take hl ++ user.take off) (user.drop off) icv
          if ok then
            let s1 := (s.setCtx k { c with nextSeq := max c.nextSeq (pn + 1) }).inc (Ctr.secy p 0x20)
            (if enc then s1.add Ctr.decBytes pt.length else s1, some (whole (user.take off ++ pt), cipStatus idx 1 0 none))
          else
            let s1 := (s.setCtx k { c with authFails := c.authFails + 1 }).inc Ctr.authFail
            if y.validate = 2 || enc then (s1.inc (Ctr.secy p 0x48), none)
            else (s1.inc (Ctr.secy p 0x50), some (whole user, cipStatus idx 1 1 none))

-- ESP (R427, R428, R435).

/-- Where an IP packet ends in a frame. -/
def ipEnd (l : Layer) (b : List Byte) : Nat :=
  min b.length (if l.v4 then l.offL3 + netAt b (l.offL3 + 2) 2 else l.offL3 + 40 + netAt b (l.offL3 + 4) 2)

/-- Additional data of an ESP packet (RFC 4106). -/
def espAad (c : Ctx) (spi seq : Nat) : List Byte :=
  beBytes 4 spi ++ (if bit c.flags 0 then beBytes 8 seq else beBytes 4 seq)

/-- ESP_OUT of a frame (R427): sequence number, encryption and ICV. -/
def espOut (s : State) (k : Nat) (b : List Byte) : State × List Byte :=
  let c := s.ctx k
  let p := parse { vxlan := 0, geneve := 0, nvme := 0 } b
  let e := p.offTerm
  let last := ipEnd p.out b
  let b1 := putAt b (e + 4) (beBytes 4 (c.nextSeq % 2 ^ 32))
  let iv := (b1.drop (e + 8)).take 8
  let plain := (b1.take (last - 16)).drop (e + 16)
  let (ct, icv) := aeadSeal c (c.salt.take 4 ++ iv) (espAad c (netAt b e 4) c.nextSeq) plain
  ((seqUsed s k c).add Ctr.encBytes plain.length, putAt (putAt b1 (e + 16) ct) (e + 16 + plain.length) icv)

/-- A sequence number is below the replay window or already seen (R428). -/
def replayed (c : Ctx) (seq : Nat) : Bool :=
  decide (seq + c.win ≤ c.winTop) || (decide (seq ≤ c.winTop) && bit c.bitmap (c.winTop - seq)) || seq == 0

/-- The replay window after a good sequence number. -/
def Ctx.slide (c : Ctx) (seq : Nat) : Ctx :=
  if c.winTop < seq then
    { c with winTop := seq, bitmap := (c.bitmap * 2 ^ min (seq - c.winTop) 256 + 1) % 2 ^ c.win, nextSeq := seq + 1 }
  else { c with bitmap := setBits c.bitmap (c.winTop - seq) (c.winTop - seq) 1 }

/-- ESP_IN of a frame (R427, R428, R435): the frame decrypted in place with its status, or none where it is dropped. -/
def espIn (s : State) (k : Nat) (l : Layer) (off : Nat) (b : List Byte) : State × Option (List Byte × List Byte) :=
  let c := s.ctx k
  let idx := k % 1048576
  let low := netAt b (off + 4) 4
  let seq := if bit c.flags 0 then recoverSeq (c.winTop + 1) low else low
  let deliver := bit c.flags 1
  if replayed c seq then
    ((s.setCtx k { c with replays := c.replays + 1 }).inc Ctr.replayDrop,
     if deliver then some (b, cipStatus idx 2 2 none) else none)
  else
    let last := ipEnd l b
    let iv := (b.drop (off + 8)).take 8
    let ct := (b.take (last - 16)).drop (off + 16)
    let icv := (b.take last).drop (last - 16)
    let (pt, ok) := aeadOpen c (c.salt.take 4 ++ iv) (espAad c (netAt b off 4) seq) ct icv
    if !ok then
      ((s.setCtx k { c with authFails := c.authFails + 1 }).inc Ctr.authFail,
       if deliver then some (b, cipStatus idx 2 1 none) else none)
    else
      let s1 := (s.setCtx k (c.slide seq)).add Ctr.decBytes pt.length
      let pad := byteAt pt (pt.length - 2)
      (s1, some (putAt b (off + 16) pt, cipStatus idx 2 (if pad + 3 ≤ pt.length then 0 else 64) none))

-- TLS (R429 to R434, R437, R450).

/-- The nonce of a TLS 1.3 record: IV XOR the record sequence number. -/
def tlsNonce (c : Ctx) : List Byte := xorBytes (padTo 12 c.salt) (beBytes 12 c.nextSeq)

/-- Length of the record's body, from its header. -/
def recLen (c : Ctx) : Nat := netAt c.hdr 3 2

/-- What a run over a segment's payload has come to. -/
structure TlsRun where
  c : Ctx
  out : List Byte
  crypt : Nat
  recEnd : Bool
  authFail : Bool
  badRec : Bool
  /-- Records that have ended in this run. -/
  ended : Nat
deriving DecidableEq, Repr

/-- The key of a stream after a record has ended (R437, R450): the pending key of TLS_RX applies after record N. -/
def Ctx.nextRecord (c : Ctx) (rx : Bool) : Ctx :=
  let c1 := { c with hdr := [], left := 0, nextSeq := c.nextSeq + 1 }
  match c.nextKey with
  | some (iv, key) =>
    if rx && c.nextSeq == c.firstRec then
      { c1 with salt := iv, key1 := key, nextSeq := 0, nextKey := none, firstRec := 0, toldMargin := false, toldEnd := false }
    else c1
  | none => c1

/-- A new record begins on transmit: a landed key takes effect (Table 10.6). -/
def Ctx.beginTx (c : Ctx) : Ctx :=
  match c.nextKey with
  | some (iv, key) =>
    { c with salt := iv, key1 := key, nextSeq := 0, nextKey := none, toldMargin := false, toldEnd := false }
  | none => c

/-- Walk a stream of TLS records over a payload: header bytes pass, data is encrypted or decrypted, tags are written or
checked (R429, R431). -/
def tlsWalk (enc : Bool) : Nat → List Byte → TlsRun → TlsRun
  | 0, _, r => r
  | _, [], r => r
  | n + 1, data, r =>
    if r.c.hdr.length < 5 then
      let c0 := if enc && r.c.hdr.isEmpty then r.c.beginTx else r.c
      let h := data.take (5 - c0.hdr.length)
      let c1 := { c0 with hdr := c0.hdr ++ h }
      let r1 := { r with c := c1, out := r.out ++ h }
      if c1.hdr.length < 5 then r1
      else if !enc && (byteAt c1.hdr 0 != 23 || netAt c1.hdr 1 2 != 0x0303 || decide (16656 < recLen c1)) then
        { r1 with c := { c1 with st := .halted }, badRec := true }
      else
        let c2 := { c1 with left := recLen c1, chain := aeadStart c1 (tlsNonce c1) c1.hdr }
        tlsWalk enc n (data.drop h.length) { r1 with c := c2 }
    else if 16 < r.c.left then
      let d := data.take (r.c.left - 16)
      let (o, ch) := aeadRun r.c r.c.chain enc d
      let c1 := { r.c with chain := ch, left := r.c.left - d.length }
      tlsWalk enc n (data.drop d.length) { r with c := c1, out := r.out ++ o, crypt := r.crypt + d.length }
    else
      let done := r.c.hdr.length - 5
      let d := data.take r.c.left
      let tag := aeadEnd r.c (tlsNonce r.c) r.c.chain 5 (recLen r.c - 16)
      let c1 : Ctx := { r.c with left := r.c.left - d.length, hdr := r.c.hdr ++ d }
      let o := if enc then (tag.drop done).take d.length else d
      if c1.left != 0 then { r with c := c1, out := r.out ++ o }
      else if enc || c1.hdr.drop 5 == tag then
        tlsWalk enc n (data.drop d.length)
          { r with c := c1.nextRecord (!enc), out := r.out ++ o, recEnd := true, ended := r.ended + 1 }
      else { r with c := { c1 with st := .halted, authFails := c1.authFails + 1 }, out := r.out ++ o, recEnd := true,
                    authFail := true }

/-- Run the walk over a payload. -/
def tlsRun (enc : Bool) (c : Ctx) (data : List Byte) : TlsRun :=
  tlsWalk enc (3 * data.length + 3) data
    { c := c, out := [], crypt := 0, recEnd := false, authFail := false, badRec := false, ended := 0 }

/-- The signed distance of a TCP sequence number from another (modulo 2^32). -/
def seqAhead (a b : Nat) : Int := toInt 32 (a + 2 ^ 32 - b % 2 ^ 32)

/-- TLS_RX of a segment (R415, R431 to R434): the payload delivered and the cipher status. -/
def tlsRx (s : State) (k seq : Nat) (data : List Byte) : State × List Byte × List Byte :=
  let c0 := s.ctx k
  let idx := k % 1048576
  let byp (s : State) : State × List Byte × List Byte := (s.inc Ctr.bypass, data, cipStatus idx 3 0 (some 0))
  let c := match c0.st, c0.resume with
    | .resync, some (q, rec) =>
      if q = seq then { c0 with st := .ready, resume := none, tcpSeq := q, nextSeq := rec, hdr := [], left := 0 } else c0
    | _, _ => c0
  if c.st != .ready then byp s
  else if seqAhead seq c.tcpSeq < 0 then byp s
  else if 0 < seqAhead seq c.tcpSeq then
    byp ((s.setCtx k { c with st := .resync, resume := none }).post 0x6006 (leBytes 2 (k / 1048576) ++ leBytes 4 idx))
  else
    let r := tlsRun false c data
    let s1 := (s.setCtx k { r.c with tcpSeq := (seq + data.length) % 2 ^ 32 }).add Ctr.decBytes r.crypt
    let bad := r.authFail || r.badRec
    let off := r.out.length
    let s2 := if r.authFail then s1.inc Ctr.authFail else if r.badRec then s1.inc Ctr.badRecord else s1
    let s3 := if bad then s2.postB 0xB040 5 0 (k / 1048576) (idx + 2 ^ 20 * b2n r.badRec) false else s2
    let cut := bad && decide (off < data.length)
    (if cut then s3.inc Ctr.bypass else s3, r.out ++ data.drop off,
     cipStatus idx 3 (b2n r.authFail + 4 * b2n r.recEnd + 64 * b2n r.badRec) (if cut then some off else none))

end Sys2Proof.Machine
end

