-- ==== Sys2Proof/Machine/StorageOps.lean ====
section
/-!
DEFINITION. What storage offload does to segments: PDU framing, digests, protection information, AES-XTS and placement
(R463 to R479, R485 to R490, Tables 11.1, 11.6 and 11.7).
-/

namespace Sys2Proof.Machine

namespace Ctr
def pduRx : Nat := 0x700100
def placedBytes : Nat := 0x700108
def hdgstErr : Nat := 0x700110
def ddgstErr : Nat := 0x700118
def piErr : Nat := 0x700120
def noSlot : Nat := 0x700128
def stoResync : Nat := 0x700130
def malformed : Nat := 0x700138
def connEcc : Nat := 0x700140
def stoBypass : Nat := 0x700148
end Ctr

/-- A connection before anything has set it. -/
def Conn.fresh : Conn :=
  { st := .ready, ver := 4, srcIp := 0, dstIp := 0, sport := 0, dport := 0, hdgst := false, ddgst := false, cpda := 0,
    logSlots := 4, ctrl := 0, rxSeq := 0, rxPdu := [], txPdu := [], txOut := [], txRecs := [], rxPi := none, slots := [],
    resume := none, piErrs := 0, ddErrs := 0, lastPi := none, lastDd := none, snap := [0, 0, 0, 0, 0] }

/-- Storage status of a completion (Table 11.7). -/
def stoStatus (flags fes : Nat) (multi : Bool) (placed cid : Nat) (off : Option Nat) (lba which : Nat) : List Byte :=
  leBytes 1 (flags + 32 * b2n off.isSome) ++ leBytes 1 (fes + 16 * b2n multi) ++ leBytes 2 placed ++ leBytes 2 cid ++
  leBytes 2 (off.getD 0xFFFF) ++ leBytes 6 lba ++ leBytes 1 which ++ [0]

/-- No storage status. -/
def noSto : List Byte := leBytes 16 0

-- Framing (R468, NVMe/TCP).

/-- HLEN of a PDU type; 0 for an unknown one. -/
def pduHlen (t : Nat) : Nat :=
  match t with
  | 0 => 128 | 1 => 128 | 2 => 24 | 3 => 24 | 4 => 72 | 5 => 24 | 6 => 24 | 7 => 24 | 9 => 24 | _ => 0

/-- A PDU type that carries digests, and one that carries data (R468). -/
def hasDigest (t : Nat) : Bool := decide (4 ≤ t)
def hasData (t : Nat) : Bool := t == 4 || t == 6 || t == 7

/-- Where the parts of a PDU end: header, header digest, the data's start and end, data digest, the whole. -/
structure Shape where
  hl : Nat
  he : Nat
  pdo : Nat
  dend : Nat
  dde : Nat
  plen : Nat
deriving DecidableEq, Repr

/-- The shape of a PDU whose first bytes are known, at least 8 of them; its data length counts once its header is. -/
def pduShape (hd dd : Bool) (b : List Byte) : Shape :=
  let t := byteAt b 0
  let hl := max 8 (byteAt b 2)
  let plen := max hl (dn b 7 4)
  let he := min plen (hl + 4 * b2n (hd && hasDigest t))
  let pdo := min plen (max he (byteAt b 3))
  let tail := 4 * b2n dd
  let dl := if !hasData t then 0 else if t = 4 then (if byteAt b 3 = 0 then 0 else plen - pdo - tail) else dn b 19 16
  let dend := min plen (pdo + dl)
  { hl := hl, he := he, pdo := pdo, dend := dend, dde := if dl = 0 then dend else min plen (dend + tail), plen := plen }

/-- The next place at which a PDU's processing changes, from offset `o`: `lba` bytes of data and `bs` bytes of a block
(0 where no block is processed). -/
def pduBound (known : Bool) (sh : Shape) (lba bs o : Nat) : Nat :=
  if !known then 8
  else if o < sh.hl then sh.hl
  else if o < sh.he then sh.he
  else if o < sh.pdo then sh.pdo
  else if o < sh.dend then
    (if bs = 0 then sh.dend
     else
      let p := (o - sh.pdo) % bs
      min sh.dend (if p < lba then o + lba - p else o + bs - p))
  else if o < sh.dde then sh.dde
  else sh.plen

-- Blocks (R463, R475 to R477).

/-- Bytes of the PI field by format. -/
def piLen (f : Nat) : Nat := match f with | 1 => 8 | 2 => 16 | _ => 0
def Ns.block (n : Ns) : Nat := n.lba + piLen n.pi

/-- Guard of a block's data part (R477). -/
def guardOf (f : Nat) (d : List Byte) : Nat := if f = 1 then crcMsb 16 0x8BB7 0 d else Config.crc64 d % 2 ^ 64

/-- Width of the reference tag. -/
def refBits (f : Nat) : Nat := if f = 1 then 32 else 48

/-- Reference tag expected or generated for block `k` of a command (Table 11.1). -/
def refTag (n : Ns) (sl : Slot) (k : Nat) : Nat :=
  if n.piType = 1 then (sl.slba + k) % 2 ^ refBits n.pi
  else if n.piType = 2 then (sl.refTag + k) % 2 ^ refBits n.pi
  else 2 ^ refBits n.pi - 1

/-- The PI field of a block as bytes. -/
def piBytes (f guard app ref : Nat) : List Byte :=
  if f = 1 then beBytes 2 guard ++ beBytes 2 app ++ beBytes 4 ref else beBytes 8 guard ++ beBytes 2 app ++ beBytes 6 ref

/-- Check a block's PI (R477, Table 11.1): PI_WHICH, 0 where it is good or skipped. -/
def piCheck (n : Ns) (sl : Slot) (k : Nat) (data pi : List Byte) : Nat :=
  let w := if n.pi = 1 then 2 else 8
  let guard := netAt pi 0 w
  let app := netAt pi w 2
  let ref := netAt pi (w + 2) (refBits n.pi / 8)
  if app = 0xFFFF ∧ (n.piType ≠ 3 ∨ ref = 2 ^ refBits n.pi - 1) then 0
  else
    b2n (guard != guardOf n.pi data) + 2 * b2n (Nat.land app n.appMask != Nat.land n.appTag n.appMask) +
    4 * b2n (n.piType != 3 && ref != refTag n sl k)

/-- The two XTS keys of a slot's generation (R476); none where the context cannot serve. -/
def slotKeys (s : State) (i : Nat) (n : Ns) (sl : Slot) : Option (List Byte × List Byte) :=
  match n.xts with
  | none => none
  | some x =>
    let c := s.ctx (ctxKey i x)
    if c.st != .ready then none
    else if c.gen = sl.gen then some (c.key1, c.key2)
    else match c.oldKeys with
      | some (g, a, b) => if g = sl.gen then some (a, b) else some (c.key1, c.key2)
      | none => some (c.key1, c.key2)

/-- Crypt a part of a block's data. -/
def xtsPart (k : List Byte × List Byte) (lba : Nat) (enc : Bool) (before part : List Byte) : List Byte :=
  padTo part.length (Config.xts k.1 k.2 lba enc before part)

/-- A slot of a connection for a CID (R464). -/
def Conn.slot? (c : Conn) (cid : Nat) : Option Slot :=
  match mGet? c.slots (cid % 2 ^ c.logSlots) with
  | some sl => if sl.cid = cid then some sl else none
  | none => none

-- Receive (R472 to R474, R478, R485 to R489).

/-- Split bytes at a command offset over a record's buffers (Table 11.3): what is placed, and how many bytes were. -/
def placeAt : List (Nat × Nat) → Nat → List Byte → List (Nat × List Byte)
  | [], _, _ => []
  | (a, n) :: t, off, d =>
    if n ≤ off then placeAt t (off - n) d
    else
      let here := d.take (n - off)
      if here.isEmpty then [] else (a + off, here) :: placeAt t 0 (d.drop (n - off))

/-- What a run over a received segment has come to. -/
structure StoRun where
  c : Conn
  out : List Byte := []
  placed : List (Nat × List Byte) := []
  holes : List (Nat × Nat) := []
  nPlaced : Nat := 0
  pduEnd : Bool := false
  hdErr : Bool := false
  ddErr : Bool := false
  piErr : Bool := false
  term : Bool := false
  fes : Nat := 0
  errCid : Option Nat := none
  errBlk : Option (Nat × Nat) := none
  /-- PDUs ended with an error in this segment (R485). -/
  bad : Nat := 0
  pdus : Nat := 0
  piFails : Nat := 0
  ddFails : Nat := 0
  /-- Processing stopped: the rest is as received. -/
  stop : Bool := false
  badCtx : Bool := false
deriving DecidableEq, Repr

/-- Stop with a fatal error (R488). -/
def StoRun.halt (r : StoRun) (fes : Nat) : StoRun :=
  { r with c := { r.c with st := .halted }, fes := fes, stop := true, hdErr := r.hdErr || fes == 3 }

/-- The common header has arrived: the checks that it allows (Table 11.6). -/
def rxCommon (r : StoRun) : StoRun :=
  let b := r.c.rxPdu
  let t := byteAt b 0
  let f := byteAt b 1
  let hd := r.c.hdgst && hasDigest t
  let dd := r.c.ddgst && t == 7
  let pdo := byteAt b 3
  if pduHlen t = 0 ∨ byteAt b 2 ≠ pduHlen t ∨ dn b 7 4 < pduHlen t then r.halt 1
  else if t = 0 ∨ t = 2 ∨ t = 4 ∨ t = 6 then r.halt 2
  else if bit f 0 != hd || bit f 1 != dd then r.halt 1
  else if (if t = 7 then decide (pdo < 24 + 4 * b2n hd) || pdo % 4 != 0 || decide (dn b 7 4 < pdo) else pdo != 0) then
    r.halt 1
  else r

/-- The whole header has arrived with a good digest: the checks of a CID and of the range (Table 11.6). -/
def rxHeader (r : StoRun) : StoRun :=
  let b := r.c.rxPdu
  let t := byteAt b 0
  if t ≠ 7 ∧ t ≠ 9 then r
  else match r.c.slot? (dn b 9 8) with
    | none => r.halt 1
    | some sl =>
      if t = 9 then r
      else if sl.done then r.halt 2
      else match sl.ns with
        | some n => if sl.nlb * n.block < dn b 15 12 + dn b 19 16 then r.halt 4 else r
        | none => r

/-- A PDU has ended (R466, R474, R486, R489). -/
def rxEnd (r : StoRun) : StoRun :=
  let b := r.c.rxPdu
  let t := byteAt b 0
  let sh := pduShape r.c.hdgst r.c.ddgst b
  let cid := dn b 9 8
  let ddBad := t == 7 && r.c.ddgst && decide (sh.dend < sh.dde) &&
    dn b (sh.dde - 1) sh.dend != crc32c ((b.take sh.dend).drop sh.pdo)
  let piBad := r.c.rxPi.isSome
  let bad := ddBad || piBad
  let c1 := { r.c with rxPdu := [], rxPi := none, ddErrs := r.c.ddErrs + b2n ddBad }
  let c2 :=
    if t = 5 then
      (match c1.slot? (dn b 21 20) with
       | some _ => { c1 with slots := mDel c1.slots (dn b 21 20 % 2 ^ c1.logSlots) }
       | none => c1)
    else if t = 7 ∧ bit (byteAt b 1) 2 then
      (match c1.slot? cid with
       | some sl => { c1 with slots := mPut c1.slots (cid % 2 ^ c1.logSlots) { sl with done := true } }
       | none => c1)
    else c1
  let r1 := { r with
    c := c2, pduEnd := true, pdus := r.pdus + 1, ddErr := r.ddErr || ddBad, piErr := r.piErr || piBad,
    ddFails := r.ddFails + b2n ddBad, bad := r.bad + b2n bad,
    errCid := if bad && r.errCid.isNone then some cid else r.errCid,
    errBlk := if r.errBlk.isNone then r.c.rxPi else r.errBlk }
  if t = 3 then { r1 with c := { r1.c with st := .halted }, term := true, stop := true } else r1

/-- A block's PI field has ended in the PDU in progress: check it (R472, R478). -/
def rxBlock (r : StoRun) (n : Ns) (sl : Slot) (sh : Shape) (o : Nat) : StoRun :=
  if n.pi = 0 ∨ n.rxAct ≠ 1 then r
  else
    let from_ := o - n.block
    let k := dn r.c.rxPdu 15 12 / n.block + (from_ - sh.pdo) / n.block
    let w := piCheck n sl k ((r.c.rxPdu.drop from_).take n.lba) ((r.c.rxPdu.drop (from_ + n.lba)).take (piLen n.pi))
    if w = 0 then r
    else
      { r with piErr := true, piFails := r.piFails + 1,
               c := { r.c with piErrs := r.c.piErrs + 1, rxPi := if r.c.rxPi.isNone then some (sl.slba + k, w) else r.c.rxPi },
               errCid := if r.errCid.isNone then some sl.cid else r.errCid,
               errBlk := if r.errBlk.isNone then some (sl.slba + k, w) else r.errBlk }

/-- Data bytes of a C2HData PDU: decrypted, and placed or delivered (R472, R473). `o` is the offset before them. -/
def rxData (s : State) (i : Nat) (r : StoRun) (sh : Shape) (o : Nat) (d : List Byte) : StoRun :=
  let b := r.c.rxPdu
  match r.c.slot? (dn b 9 8) with
  | none => { r with out := r.out ++ d }
  | some sl =>
    match sl.ns with
    | none => { r with out := r.out ++ d }
    | some n =>
      let p := (o - sh.pdo) % n.block
      let k := dn b 15 12 / n.block + (o - sh.pdo) / n.block
      let keys := slotKeys s i n sl
      let plain := if n.lba ≤ p then d else match keys with
        | some ks => xtsPart ks (sl.slba + k) false ((b.drop (o - p)).take p) d
        | none => d
      let missing := n.xts.isSome && keys.isNone
      let r1 := match sl.place with
        | none => { r with out := r.out ++ plain }
        | some bufs =>
          let pl := placeAt bufs (dn b 15 12 + (o - sh.pdo)) plain
          let m := pl.foldl (fun a x => a + x.2.length) 0
          { r with out := r.out ++ plain, placed := r.placed ++ pl, nPlaced := r.nPlaced + m,
                   holes := if m = 0 then r.holes else r.holes ++ [(r.out.length, m)] }
      if missing then { r1 with badCtx := true, stop := true }
      else if p + d.length = n.block then rxBlock { r1 with c := r1.c } n sl sh (o + d.length) else r1

/-- Sizes of a block processed in the PDU in progress: data part and block, 0 where none is. -/
def rxBlockSize (c : Conn) : Nat × Nat :=
  if c.rxPdu.length < 24 ∨ byteAt c.rxPdu 0 ≠ 7 then (0, 0)
  else match c.slot? (dn c.rxPdu 9 8) with
    | some sl => (match sl.ns with | some n => (n.lba, n.block) | none => (0, 0))
    | none => (0, 0)

/-- The walk over a received payload (R472). -/
def stoRxWalk (s : State) (i : Nat) : Nat → List Byte → StoRun → StoRun
  | 0, _, r => r
  | _, [], r => r
  | fuel + 1, data, r =>
    if r.stop then r
    else
      let o := r.c.rxPdu.length
      let known := decide (8 ≤ o)
      let sh := pduShape r.c.hdgst r.c.ddgst r.c.rxPdu
      let (lba, bs) := rxBlockSize r.c
      let d := data.take (pduBound known sh lba bs o - o)
      let o' := o + d.length
      let inData := known && decide (sh.he ≤ o) && decide (sh.pdo ≤ o) && decide (o < sh.dend)
      let r1 := { r with c := { r.c with rxPdu := r.c.rxPdu ++ d } }
      let r2 := if inData then rxData s i r1 sh o d else { r1 with out := r.out ++ d }
      let sh' := pduShape r.c.hdgst r.c.ddgst r1.c.rxPdu
      let r3 := if o' = 8 then rxCommon r2 else r2
      let hdBad := known && decide (sh.hl < sh.he) && o' == sh.he && decide (o < sh.he) &&
        dn r1.c.rxPdu (sh.he - 1) sh.hl != crc32c (r1.c.rxPdu.take sh.hl)
      let r4 := if r3.stop then r3 else if hdBad then r3.halt 3
        else if known && decide (o < sh.he) && o' == sh.he then rxHeader r3 else r3
      let r5 := if !r4.stop && decide (8 ≤ o') && o' == sh'.plen && decide (sh'.he ≤ o') then rxEnd r4 else r4
      stoRxWalk s i fuel (data.drop d.length) r5

/-- What storage offload makes of a received segment: the payload delivered, its status, what is placed and which bytes
of the payload the receive buffer leaves undefined; none where the frame is dropped for its XTS context. -/
structure StoRx where
  out : List Byte
  status : List Byte
  placed : List (Nat × List Byte)
  holes : List (Nat × Nat)
deriving DecidableEq, Repr

/-- Once in any 1,024 heats (R489; R478 for the first after 1,024 heats without one). -/
def dueAgain (s : State) (last : Option Nat) : Bool :=
  match last with | none => true | some t => decide (t + 1024 ≤ s.time.strikes)

/-- The connection processes a segment in order (R472 to R474, R478, R488, R489). -/
def stoRxRun (s : State) (k : Nat) (c : Conn) (seq : Nat) (data : List Byte) : State × Option StoRx :=
  let r := stoRxWalk s (k / 65536) (data.length + 1) data { c := { c with rxSeq := (seq + data.length) % 2 ^ 32 } }
  if r.badCtx then (s.inc Ctr.badCtx, none)
  else
    let cut := r.stop && decide (r.out.length < data.length)
    let s1 := ((s.setConn k r.c).add Ctr.pduRx r.pdus).add Ctr.placedBytes r.nPlaced
    let s2 := if r.piFails = 0 then s1 else
      let s' := (s1.add Ctr.piErr r.piFails).raise Reg.stoStatus 0 0
      let s'' := s'.setConn k { r.c with lastPi := some s.time.strikes }
      if dueAgain s c.lastPi then s''.post 0x7003 (leBytes 2 (k / 65536) ++ leBytes 2 (k % 65536)) else s''
    let s3 := if r.ddFails = 0 then s2 else
      let s' := s2.add Ctr.ddgstErr r.ddFails
      if dueAgain s c.lastDd then
        (s'.setConn k { (s'.conn? k).getD r.c with lastDd := some s.time.strikes }).post 0x7002
          (leBytes 2 (k / 65536) ++ leBytes 2 (k % 65536))
      else s'
    let s4 :=
      if !r.stop then s3
      else
        let s' := s3.raise Reg.stoStatus 2 0
        if r.fes = 3 then (s'.inc Ctr.hdgstErr).post 0x7001 (leBytes 2 (k / 65536) ++ leBytes 2 (k % 65536))
        else if r.fes ≠ 0 then (s'.inc Ctr.malformed).postB 0xB050 4 0 (k / 65536) (r.fes + 256 * (k % 65536)) false
        else s'
    let (lba, which) := r.errBlk.getD (0, 0)
    let flags := b2n (r.nPlaced != 0) + 2 * b2n r.pduEnd + 4 * b2n r.hdErr + 8 * b2n r.ddErr + 16 * b2n r.piErr +
      64 * b2n r.term
    (if cut then s4.inc Ctr.stoBypass else s4,
     some { out := r.out ++ data.drop r.out.length,
            status := stoStatus flags r.fes (decide (1 < r.bad)) r.nPlaced (r.errCid.getD 0)
              (if cut then some r.out.length else none) lba which,
            placed := r.placed, holes := r.holes })

/-- Receive processing of a segment of a connection (R472, R479, R488, R490). `ecc`: the context read fails. -/
def stoRx (s : State) (k seq : Nat) (ecc : Bool) (data : List Byte) : State × Option StoRx :=
  match s.conn? k with
  | none => (s, some { out := data, status := noSto, placed := [], holes := [] })
  | some c0 =>
    let byp (s : State) : State × Option StoRx :=
      (s.inc Ctr.stoBypass,
       some { out := data, status := stoStatus 0 0 false 0 0 (some 0) 0 0, placed := [], holes := [] })
    if ecc then
      byp ((((s.setConn k { c0 with st := .fault }).inc Ctr.connEcc).raise Reg.stoStatus 3 0).post 0x7005
        (leBytes 2 (k / 65536) ++ leBytes 2 (k % 65536)))
    else
      let c := if c0.st == .resync && c0.resume == some seq then
        { c0 with st := .ready, resume := none, rxSeq := seq, rxPdu := [], rxPi := none } else c0
      if c.st != .ready then byp s
      else if seqAhead seq c.rxSeq < 0 then byp s
      else if 0 < seqAhead seq c.rxSeq then
        byp ((((s.setConn k { c with st := .resync, resume := none }).inc Ctr.stoResync).raise Reg.stoStatus 1 0).post
          0x7004 (leBytes 2 (k / 65536) ++ leBytes 2 (k % 65536)))
      else stoRxRun s k c seq data

-- Transmit (R465, R466, R469 to R471).

/-- What a run over a transmit segment has come to. -/
structure TxRun where
  c : Conn
  out : List Byte := []
  /-- CID of a CapsuleCmd whose slot is occupied (R466). -/
  noSlot : Option Nat := none
  /-- First block whose PI check failed: CID, LBA, PI_WHICH (R471). -/
  piErr : Option (Nat × Nat × Nat) := none
  badCtx : Bool := false
  /-- A RESEND leaves the slots unchanged (R469). -/
  resend : Bool := false
deriving DecidableEq, Repr

def TxRun.stop (r : TxRun) : Bool := r.noSlot.isSome || r.piErr.isSome || r.badCtx

/-- The namespace entry of a controller tag and NSID within an owner (R462). -/
def nsFind (s : State) (i ctrl nsid : Nat) : Option Ns :=
  (s.sto.nss.find? (fun n => n.1 / 65536 == i && n.2.ctrl == ctrl && n.2.nsid == nsid)).map (·.2)

/-- A CapsuleCmd's header has been read: its slot is filled (R465), or it is occupied (R466). -/
def txCapsule (s : State) (i : Nat) (r : TxRun) : TxRun :=
  let b := r.c.txPdu
  let op := byteAt b 8
  let cid := dn b 11 10
  if r.resend ∨ byteAt b 0 ≠ 4 then r
  else if (mGet? r.c.slots (cid % 2 ^ r.c.logSlots)).isSome then { r with noSlot := some cid }
  else if op ≠ 1 ∧ op ≠ 2 then r
  else
    let ns := nsFind s i r.c.ctrl (dn b 15 12)
    let gen := match ns with
      | some n => (match n.xts with | some x => (s.ctx (ctxKey i x)).gen | none => 0)
      | none => 0
    let place := if op = 2 then (r.c.txRecs.find? (fun p => p.1 == cid)).map (·.2) else none
    let sl : Slot :=
      { cid := cid, write := op == 1, nsid := dn b 15 12, slba := dn b 55 48, nlb := dn b 57 56 + 1, refTag := dn b 67 64,
        ns := ns, gen := gen, place := if ns.isSome then place else none, done := false }
    { r with c := { r.c with slots := mPut r.c.slots (cid % 2 ^ r.c.logSlots) sl } }

/-- The slot whose blocks a transmit PDU carries: H2CData by its CID, in-capsule data of a Write by the command's. -/
def txSlot (c : Conn) : Option (Slot × Ns × Nat) :=
  let b := c.txPdu
  let t := byteAt b 0
  let need := if t = 4 then 72 else 24
  if b.length < need ∨ !(t == 4 || t == 6) then none
  else match c.slot? (if t = 4 then dn b 11 10 else dn b 9 8) with
    | none => none
    | some sl =>
      match sl.ns with
      | some n =>
        if t = 4 ∧ !sl.write ∨ (n.pi = 0 ∧ n.xts = none) then none
        else some (sl, n, if t = 4 then 0 else dn b 15 12)
      | none => none

/-- Data bytes of a transmit PDU (R470). `o` is the offset before them; `c.txPdu` holds them already. -/
def txData (s : State) (i : Nat) (r : TxRun) (sh : Shape) (o : Nat) (d : List Byte) : TxRun :=
  match txSlot r.c with
  | none => { r with out := r.out ++ d, c := { r.c with txOut := r.c.txOut ++ d } }
  | some (sl, n, at_) =>
    let p := (o - sh.pdo) % n.block
    let k := at_ / n.block + (o - sh.pdo) / n.block
    let keys := slotKeys s i n sl
    let start := o - p
    let sent :=
      if p < n.lba then
        (match keys with
         | some ks => xtsPart ks (sl.slba + k) true ((r.c.txPdu.drop start).take p) d
         | none => d)
      else if n.txAct = 1 then
        ((piBytes n.pi (guardOf n.pi ((r.c.txOut.drop start).take n.lba)) n.appTag (refTag n sl k)).drop (p - n.lba)).take
          d.length
      else d
    let w := if n.pi ≠ 0 ∧ n.txAct = 2 ∧ p + d.length = n.block then
        piCheck n sl k ((r.c.txPdu.drop start).take n.lba) ((r.c.txPdu.drop (start + n.lba)).take (piLen n.pi))
      else 0
    { r with out := r.out ++ sent, c := { r.c with txOut := r.c.txOut ++ sent },
             piErr := if w ≠ 0 ∧ r.piErr.isNone then some (sl.cid, sl.slba + k, w) else r.piErr,
             badCtx := r.badCtx || (n.xts.isSome && keys.isNone) }

/-- Sizes of a block processed in the transmit PDU in progress. -/
def txBlockSize (c : Conn) : Nat × Nat :=
  match txSlot c with | some (_, n, _) => (n.lba, n.block) | none => (0, 0)

/-- The walk over a transmit payload (R465, R470). -/
def stoTxWalk (s : State) (i : Nat) (recs : List (Nat × List (Nat × Nat))) : Nat → List Byte → TxRun → TxRun
  | 0, _, r => r
  | _, [], r => r
  | fuel + 1, data, r =>
    if r.stop then r
    else
      let o := r.c.txPdu.length
      let c0 := if o = 0 then { r.c with txRecs := recs } else r.c
      let known := decide (8 ≤ o)
      let sh := pduShape c0.hdgst c0.ddgst c0.txPdu
      let (lba, bs) := txBlockSize c0
      let d := data.take (pduBound known sh lba bs o - o)
      let o' := o + d.length
      let r1 := { r with c := { c0 with txPdu := c0.txPdu ++ d } }
      let pass (x : List Byte) : TxRun := { r1 with out := r.out ++ x, c := { r1.c with txOut := c0.txOut ++ x } }
      let r2 :=
        if known && decide (sh.hl ≤ o) && decide (o < sh.he) then
          pass (((leBytes 4 (crc32c (c0.txOut.take sh.hl))).drop (o - sh.hl)).take d.length)
        else if known && decide (sh.pdo ≤ o) && decide (o < sh.dend) then txData s i r1 sh o d
        else if known && decide (sh.dend ≤ o) && decide (o < sh.dde) then
          pass (((leBytes 4 (crc32c ((c0.txOut.take sh.dend).drop sh.pdo))).drop (o - sh.dend)).take d.length)
        else pass d
      let r3 := if known && decide (o < sh.hl) && o' == sh.hl then txCapsule s i r2 else r2
      let sh' := pduShape c0.hdgst c0.ddgst r1.c.txPdu
      let r4 := if decide (8 ≤ o') && o' == sh'.plen && decide (sh'.hl ≤ o') then
          { r3 with c := { r3.c with txPdu := [], txOut := [], txRecs := [] } } else r3
      stoTxWalk s i recs fuel (data.drop d.length) r4

/-- Transmit processing of a segment (R460, R469 to R471): the payload as sent and its status, or the status with which it
is not sent. `prefix_` is empty but for a RESEND, which starts at a PDU's start and leaves the stream as it was. -/
def stoTx (s : State) (k : Nat) (resend : Bool) (recs : List (Nat × List (Nat × Nat))) (prefix_ data : List Byte) :
    State × Except (List Byte × Bool) (List Byte × List Byte) :=
  match s.conn? k with
  | none => (s, .ok (data, noSto))
  | some c =>
    let c0 := if resend then { c with txPdu := [], txOut := [], txRecs := [] } else c
    let all := prefix_ ++ data
    let r := stoTxWalk s (k / 65536) recs (all.length + 1) all { c := c0, resend := resend }
    match r.noSlot, r.piErr with
    | some cid, _ => (s.inc Ctr.noSlot, .error (stoStatus 128 0 false 0 cid none 0 0, false))
    | none, some (cid, lba, w) =>
      (((s.setConn k { c with piErrs := c.piErrs + 1 }).inc Ctr.piErr).raise Reg.stoStatus 0 0, .error (stoStatus 16 0 false 0 cid none lba w, false))
    | none, none =>
      if r.badCtx then (s.inc Ctr.badCtx, .error (stoStatus 0 0 false 0 0 none 0 0, true))
      else (if resend then s else s.setConn k r.c, .ok (r.out.drop prefix_.length, stoStatus 0 0 false 0 0 none 0 0))

/-- Old keys of an XTS context that some slot still records (R476). -/
def oldKeyKept (s : State) (i x : Nat) : Bool :=
  match (s.ctx (ctxKey i x)).oldKeys with
  | none => false
  | some (g, _, _) => s.sto.conns.any (fun c => c.1 / 65536 == i && c.2.slots.any (fun sl =>
      sl.2.gen == g && (match sl.2.ns with | some n => n.xts == some x | none => false)))

end Sys2Proof.Machine
end

