-- ==== Sys2Proof/Machine/RuleOps.lean ====
section
/-!
DEFINITION. The rule tables: actions as bytes, the winner among ordered entries, flow entries and their positions,
learning, quotas, and what a memory error removes (R338 to R347, R362, R363, R371, R372, Tables 8.4 to 8.7, 8.11, 8.13).
-/

namespace Sys2Proof.Machine

namespace Ctr
def prsFrames : Nat := 0x400000
def prsPartial (r : Nat) : Nat := 0x400000 + 8 * r
def prsCsum : Nat := 0x400030
def rulLearn : Nat := 0x400140
def rulMove : Nat := 0x400148
def rulLearnDeny : Nat := 0x400150
def rulLearnFail : Nat := 0x400158
def rulAged : Nat := 0x400160
def rulReprieve : Nat := 0x400168
def rulAgedLost : Nat := 0x400170
def rulEcc : Nat := 0x400178
def rulBadTarget : Nat := 0x400180
def rulUnknown : Nat := 0x400188
def rulSameSrc : Nat := 0x400190
def rulTtl : Nat := 0x400198
def rulReencap : Nat := 0x4001A0
def rulProcDrop : Nat := 0x4001A8
def mirSent (m : Nat) : Nat := 0x401000 + 0x10 * m
def mirDrop (m : Nat) : Nat := 0x401008 + 0x10 * m
end Ctr

/-- An action as its 16 bytes spell it (Table 8.6). -/
def Action.ofBytes (b : List Byte) : Action :=
  let b0 := byteAt b 0
  let b1 := byteAt b 1
  { act := bits b0 1 0, ttype := bits b0 4 2, count := bit b0 5, police := bit b0 6, rewrite := bit b0 7,
    decap := bit b1 0, static := bit b1 2, age := bit b1 3, notify := bit b1 4, proc := bits b1 6 5,
    target := dn b 3 2 % 4096, queue := dn b 5 4, aux := dn b 7 6, policer := dn b 10 8 % 2 ^ 18,
    rewriteId := dn b 13 12 % 4096, cls := byteAt b 14 % 8, setClass := bit (byteAt b 14) 3 }

/-- An action's 16 bytes. -/
def Action.bytes (a : Action) : List Byte :=
  leBytes 1 (a.act + 4 * a.ttype + 32 * b2n a.count + 64 * b2n a.police + 128 * b2n a.rewrite) ++
  leBytes 1 (b2n a.decap + 4 * b2n a.static + 8 * b2n a.age + 16 * b2n a.notify + 32 * a.proc) ++ leBytes 2 a.target ++
  leBytes 2 a.queue ++ leBytes 2 a.aux ++ leBytes 3 a.policer ++ [0] ++ leBytes 2 a.rewriteId ++
  leBytes 1 (a.cls + 8 * b2n a.setClass) ++ [0]

/-- An action's bytes keep Table 8.6: no reserved code, no reserved bit set. -/
def actionFmt (b : List Byte) : Bool :=
  decide (bits (byteAt b 0) 4 2 ≤ 4) && !bit (byteAt b 1) 1 && !bit (byteAt b 1) 7 &&
  decide (bits (byteAt b 1) 6 5 ≤ 2) && decide (dn b 3 2 < 4096) && decide (dn b 10 8 < 2 ^ 18) && byteAt b 11 == 0 &&
  decide (dn b 13 12 < 4096) && decide (byteAt b 14 < 16) && byteAt b 15 == 0

/-- What a source holds before configuration (R361, R395). -/
def SrcCfg.fresh : SrcCfg :=
  { bd := 1, learn := false, inner := false, flowKey := 0, rssBits := 0, trust := 0, defClass := 0, colourDscp := false }

/-- What a bridge domain holds before configuration (R361). -/
def BdCfg.fresh : BdCfg :=
  { unknown := 1, age := false, notify := false, limit := 0, excQueue := 0, excInst := 0, members := [] }

namespace State

def srcCfg (s : State) (i : Nat) : SrcCfg := mGetD s.rul.srcs i SrcCfg.fresh
def bdCfg (s : State) (i : Nat) : BdCfg := mGetD s.rul.bds i BdCfg.fresh
def ports (s : State) : ParsePorts := { vxlan := s.rul.vxlan, geneve := s.rul.geneve, nvme := s.rul.nvme }
def setRule (s : State) (k : Nat) (r : Rule) : State := { s with rul := { s.rul with rules := mPut s.rul.rules k r } }
def delRule (s : State) (k : Nat) : State := { s with rul := { s.rul with rules := mDel s.rul.rules k } }
def setFlow (s : State) (k : Nat) (f : Flow) : State := { s with rul := { s.rul with flows := mPut s.rul.flows k f } }
def delFlow (s : State) (k : Nat) : State := { s with rul := { s.rul with flows := mDel s.rul.flows k } }

end State

/-- An ordered entry matches a key (R338). -/
def Rule.matches (r : Rule) (key : Nat) : Bool := Nat.land key r.mask == Nat.land r.key r.mask

/-- The manager's entries come before any other (R338). -/
def mgrOwner (o : Nat) : Bool := o == 0 || o == 2

/-- The first entry comes before the second in the order of R338; keys are owner × 65,536 + local index. -/
def ruleBefore (a b : Nat × Rule) : Bool :=
  let oa := a.1 / 65536
  let ob := b.1 / 65536
  if a.2.tier ≠ b.2.tier then decide (a.2.tier < b.2.tier)
  else if a.2.prio ≠ b.2.prio then decide (b.2.prio < a.2.prio)
  else if mgrOwner oa != mgrOwner ob then mgrOwner oa
  else if oa ≠ ob then decide (oa < ob)
  else decide (a.1 % 65536 < b.1 % 65536)

/-- The winner among ordered entries (R338). -/
def ruleWinner (s : State) (key : Nat) : Option (Nat × Rule) :=
  (s.rul.rules.filter (fun r => r.2.matches key)).foldl (fun best r =>
    match best with
    | none => some r
    | some b => if ruleBefore r b then some r else some b) none

/-- The flow entry of a key, with its position. -/
def flowFind (s : State) (k : FlowKey) : Option (Nat × Flow) :=
  s.rul.flows.find? (fun f => f.2.ktype == k.1 && f.2.key == k.2)

/-- The positions of a key's two candidate buckets, in order (Table 8.9; log entry 26). -/
def flowPlaces (k : FlowKey) : List Nat :=
  [0, 1].flatMap (fun n => (List.range 8).map (fun w => Config.flowHash k.1 k.2 n % 2097152 * 8 + w))

/-- The first free position of a key (log entry 26). -/
def flowRoom (s : State) (k : FlowKey) : Option Nat :=
  (flowPlaces k).find? (fun p => (mGet? s.rul.flows p).isNone)

/-- Key type, owner and key that a flow entry image names (Table 8.13). -/
def imageType (b : List Byte) : Nat := byteAt b 0 % 16
def imageOwner (b : List Byte) : Nat := dn b 3 2 % 4096

/-- The key of an image: for a tenant owner SOURCE is forced to the owner (R340). -/
def imageKey (b : List Byte) : FlowKey :=
  let k := dn b 43 4
  (imageType b, if mgrOwner (imageOwner b) then k else setBits k 15 0 (imageOwner b))

/-- Flow entries counted against an owner: valid ones, and staged inserts of further keys since their seal (R362). -/
def flowUsed (s : State) (o : Nat) : Nat :=
  (s.rul.flows.filter (fun f => f.2.owner == o)).length +
  (s.staging.items.filter (fun it => it.op == 0x0710 && it.isSealed && imageOwner it.data == o &&
    ((flowFind s (imageKey it.data)).map (·.2.owner)) != some o)).length

/-- Ordered entries in use of an owner: highest valid local index plus one (R217). -/
def rulesUsed (s : State) (o : Nat) : Nat :=
  (s.rul.rules.filter (fun r => r.1 / 65536 == o)).foldl (fun a r => max a (r.1 % 65536 + 1)) 0

/-- Remove a flow entry for a memory error (R371). -/
def flowEcc (s : State) (pos : Nat) : State :=
  match mGet? s.rul.flows pos with
  | none => s
  | some f => (((s.delFlow pos).inc Ctr.rulEcc).raise Reg.rulStatus 0 0).post 0x4001 (leBytes 1 f.ktype ++ leBytes 3 (pos / 8))

/-- Remove an ordered entry for a memory error (R372). -/
def ruleEcc (s : State) (k : Nat) : State :=
  if (mGet? s.rul.rules k).isNone then s
  else (((s.delRule k).inc Ctr.rulEcc).raise Reg.rulStatus 1 0).post 0x4002 (leBytes 2 (k / 65536) ++ leBytes 2 (k % 65536))

/-- A context read fails (R453). -/
def ctxEcc (s : State) (k : Nat) : State :=
  if (s.ctx k).st == CtxState.unset then s
  else ((((s.setCtx k { s.ctx k with st := .fault }).inc Ctr.ctxEcc).raise Reg.cipStatus 1 0).post 0x6001
    (leBytes 2 (k / 1048576) ++ leBytes 4 (k % 1048576)))

/-- A key-store slot fails (R454): it is emptied and every context under it becomes FAULT. -/
def slotEcc (s : State) (n : Nat) : State :=
  if (mGet? s.cip.slots n).isNone then s
  else
    let s1 := { s with cip := { s.cip with
      slots := mDel s.cip.slots n
      ctxs := s.cip.ctxs.map (fun (c : Nat × Ctx) =>
        if c.2.slot == n && c.2.st != CtxState.unset then (c.1, { c.2 with st := .fault }) else c) } }
    (s1.raise Reg.cipStatus 2 0).post 0x6007 (leBytes 2 n)

/-- The memory errors of tables that a frame's lookups and contexts meet; a connection's is met where it is read. -/
def meetEcc (s : State) (l : List EccHit) : State :=
  l.foldl (fun s e =>
    match e with
    | .flow p => flowEcc s p
    | .rule k => ruleEcc s k
    | .ctx k => ctxEcc s k
    | .slot n => slotEcc s n
    | .conn _ => s) s

/-- The target that learning gives a source (R346): a port, or an instance's queues spread by hash. -/
def learnAction (src : Nat) (b : BdCfg) : Action :=
  let port := decide (0x1000 ≤ src)
  { act := 1, ttype := if port then 1 else 2, count := false, police := false, rewrite := false, decap := false,
    static := false, age := b.age, notify := b.notify, proc := 0, target := src % 4096, queue := if port then 0 else 0xFFFF,
    aux := 0, policer := 0, rewriteId := 0, cls := 0, setClass := false }

/-- An action forwards to the place that learning would name. -/
def sameTarget (a b : Action) : Bool := a.act == b.act && a.ttype == b.ttype && a.target == b.target

/-- Learned entries of a bridge domain. -/
def learnedIn (s : State) (bd : Nat) : Nat :=
  (s.rul.flows.filter (fun f => f.2.learned && f.2.ktype == 1 && f.2.key % 65536 == bd)).length

/-- A learn is not made (R347, R363). -/
def learnFail (s : State) : State := s.inc Ctr.rulLearnFail

/-- 4,096 learns are pending, 64 of which are done each microsecond (R363, Table 8.9). -/
def learnsFull (s : State) : Bool := decide (125 * 4095 < s.rul.learnTo - 8 * s.time.refNow)

/-- A further learn is pending; its entry is active from its frame on (log entry 59). -/
def bookLearn (s : State) : State := { s with rul := { s.rul with learnTo := max s.rul.learnTo (8 * s.time.refNow) + 125 } }

/-- Learn an address (R346, R347, R363). -/
def learn (s : State) (src bd mac : Nat) : State :=
  let b := s.bdCfg bd
  let a := learnAction src b
  let k := l2Key bd mac
  match flowFind s k with
  | some (pos, f) =>
    if sameTarget f.action a then s
    else if f.learned && !f.action.static then
      if learnsFull s then learnFail s else ((bookLearn s).setFlow pos { f with action := a }).inc Ctr.rulMove
    else s.inc Ctr.rulLearnDeny
  | none =>
    if b.limit ≤ learnedIn s bd then
      let told := bit (s.word Reg.rulStatus.addr) 2
      let s1 := (learnFail s).raise Reg.rulStatus 2 0
      if told then s1 else s1.post 0x4003 (leBytes 2 bd)
    else if (s.insOf 0).grants.getD 2 0 ≤ flowUsed s 0 || learnsFull s then learnFail s
    else match flowRoom s k with
      | none => learnFail s
      | some pos =>
        let f : Flow := { ktype := 1, key := k.2, owner := 0, action := a, learned := true, hit := false, idle := 0, frames := 0,
                          bytes := 0, sframes := 0, sbytes := 0 }
        ((bookLearn s).setFlow pos f).inc Ctr.rulLearn

/-- A lookup hits a flow entry: HIT is set (R359); with COUNT on its action counting is done apart. -/
def flowHit (s : State) (pos : Nat) : State :=
  match mGet? s.rul.flows pos with
  | some f => if f.action.age then s.setFlow pos { f with hit := true } else s
  | none => s

/-- An entry that a decision rests on: an ordered entry or a flow entry. -/
inductive EntryRef where
  | rule (k : Nat)
  | flow (pos : Nat)
deriving DecidableEq, Repr

/-- Its action and owner. -/
def entryOf (s : State) : EntryRef → Option (Action × Nat)
  | .rule k => (mGet? s.rul.rules k).map (fun r => (r.action, k / 65536))
  | .flow p => (mGet? s.rul.flows p).map (fun f => (f.action, f.owner))

/-- COUNT: frames and bytes of the entry's counter (R341, R344). -/
def countEntry (s : State) (e : EntryRef) (len : Nat) : State :=
  match e with
  | .rule k =>
    (match mGet? s.rul.rules k with
     | some r => if r.action.count then s.setRule k { r with frames := r.frames + 1, bytes := r.bytes + BitVec.ofNat 64 len } else s
     | none => s)
  | .flow p =>
    (match mGet? s.rul.flows p with
     | some f => if f.action.count then s.setFlow p { f with frames := f.frames + 1, bytes := f.bytes + BitVec.ofNat 64 len } else s
     | none => s)

/-- The decisive entry, if any (R339). -/
def decisive (w : Option (Nat × Rule)) (f : Option (Nat × Flow)) : Option EntryRef :=
  match w, f with
  | some (k, r), some (p, _) => some (if r.tier = 0 then .rule k else .flow p)
  | some (k, _), none => some (.rule k)
  | none, some (p, _) => some (.flow p)
  | none, none => none

/-- The action without an entry: FORWARD to the switch (R339). -/
def defaultAction : Action :=
  { act := 1, ttype := 4, count := false, police := false, rewrite := false, decap := false, static := false, age := false,
    notify := false, proc := 0, target := 0, queue := 0, aux := 0, policer := 0, rewriteId := 0, cls := 0, setClass := false }

end Sys2Proof.Machine
end

