-- ==== Sys2Proof/Machine/Uses.lean ====
section
/-!
DEFINITION. Who uses what: the questions that one family's checks ask of another family's objects (R217, R218, R205).
-/

namespace Sys2Proof.Machine

/-- A destroy of the instance has sealed and not yet landed, or the instance is RELEASING (R237). -/
def destroying (s : State) (i : Nat) : Bool :=
  (s.insOf i).st == .releasing || s.staging.items.any (fun it => it.op == 0x0302 && it.inst == i && it.isSealed)

/-- A create of the instance has sealed and not yet landed (R201). -/
def creating (s : State) (i : Nat) : Bool :=
  s.staging.items.any (fun it => it.op == 0x0301 && it.inst == i && it.isSealed)

/-- Object `k` of pool `p` of an instance is retiring: a sealed decrease will remove it (R218). -/
def retiring (s : State) (i p k : Nat) : Bool :=
  s.staging.items.any (fun it => it.op == 0x0303 && it.inst == i && it.isSealed &&
    decide (grantArg it.params p ≠ 0xFFFFFFFF) && decide (grantArg it.params p ≤ k) &&
    decide (k < (s.insOf i).grants.getD p 0))

/-- A policer of an owner is named by a rule (R217). -/
def policerNamed (s : State) (i k : Nat) : Bool :=
  s.rul.rules.any (fun r => r.1 / 65536 == i && r.2.action.police && r.2.action.policer == k) ||
  s.rul.flows.any (fun f => f.2.owner == i && f.2.action.police && f.2.action.policer == k)

/-- Some object of pool `p` numbered from `g` up to below `old` is in use (R217, R461). -/
def poolInUse (s : State) (i p g old : Nat) : Bool :=
  let hit (m : Nat) (k : Nat) : Bool := k / m == i && decide (g ≤ k % m) && decide (k % m < old)
  match p with
  | 0 => s.ins.qps.any (fun q => hit 65536 q.1 && (q.2.st == .running || q.2.st == .error)) ||
         s.sto.conns.any (fun c => hit 65536 c.1)
  | 1 => decide (g < rulesUsed s i)
  | 2 => decide (g < flowUsed s i)
  | 3 => s.cip.ctxs.any (fun c => hit 1048576 c.1 && c.2.binding.isSome)
  | 4 => s.tm.nodes.any (fun n => hit 65536 n.1 && n.2.use.isSome)
  | 5 => s.rul.rules.any (fun r => r.1 / 65536 == i && r.2.action.police && decide (g ≤ r.2.action.policer)) ||
         s.rul.flows.any (fun f => f.2.owner == i && f.2.action.police && decide (g ≤ f.2.action.policer))
  | _ => false

/-- Some object that a decrease removes is in use (R217): a queue pair that runs or is in error, a bound context, an
attached shaper node, a policer that a rule names, or more rules than the quota leaves. -/
def removedInUse (s : State) (i : Nat) (ps : Params) : Bool :=
  (List.range 7).any (fun p =>
    let g := grantArg ps p
    let old := (s.insOf i).grants.getD p 0
    g != 0xFFFFFFFF && decide (g < old) && poolInUse s i p g old)

/-- The first member of a unit whose INS_RESIZE would remove an object in use (R217: judged when the item seals). -/
def unitInUse (s : State) (items : List Item) : Option Nat :=
  (items.find? (fun it => it.op == 0x0303 && removedInUse s it.inst it.params)).map (·.mem)

/-- The flow entries that a smaller quota of an owner leaves: of its own, the first `n` in table order (R205; log entry 83). -/
def keepFlows (i : Nat) : Nat → SMap Flow → SMap Flow
  | _, [] => []
  | n, f :: t =>
    if f.2.owner != i then f :: keepFlows i n t
    else if n = 0 then keepFlows i 0 t else f :: keepFlows i (n - 1) t

/-- Remove the objects of a pool that a smaller grant no longer holds, in their reset contents (R205, R213). -/
def poolTrim (s : State) (i p new old : Nat) : State :=
  let keep (m : Nat) (k : Nat) : Bool := !(k / m == i && decide (new ≤ k % m))
  if old ≤ new then s
  else match p with
    | 0 => { s with ins := { s.ins with qps := s.ins.qps.filter (fun q => keep 65536 q.1) }
                    sto := { s.sto with conns := s.sto.conns.filter (fun c => keep 65536 c.1) } }
    | 1 => { s with rul := { s.rul with rules := s.rul.rules.filter (fun r => keep 65536 r.1) } }
    | 2 => { s with rul := { s.rul with flows := keepFlows i new s.rul.flows } }
    | 3 => { s with cip := { s.cip with ctxs := s.cip.ctxs.filter (fun c => keep 1048576 c.1) } }
    | 4 => { s with tm := { s.tm with nodes := s.tm.nodes.filter (fun n => keep 65536 n.1) } }
    | 5 => { s with tm := { s.tm with policers := s.tm.policers.filter (fun c => keep 262144 c.1) } }
    | _ => s

/-- Frames held for an instance are discarded and counted (R204). -/
def dropInsFrames (s : State) (i : Nat) : State :=
  dropQueued s (fun _ f => match f.dest with | .queue j _ _ => j == i | .port _ => false) (fun s _ => s.inc (Ctr.insDrop i))

end Sys2Proof.Machine
end

