-- ==== Sys2Proof/Machine/Opcodes.lean ====
section
/-!
DEFINITION. The command packet and the opcodes: the header of Table 4.1 as the device reads it, the status and cause codes, and
what the opcode tables say of every defined opcode (spec/04_commands.md, R154 to R159, R166 to R169; Tables 4.1 to 4.8).
-/

namespace Sys2Proof.Machine

-- Status codes (Table 4.4).
namespace St
def done : Nat := 0x00
def queued : Nat := 0x01
def busy : Nat := 0x02
def badOpcode : Nat := 0x03
def badParam : Nat := 0x04
def denied : Nat := 0x05
def noRoom : Nat := 0x06
def notFound : Nat := 0x07
def exists_ : Nat := 0x08
def late : Nat := 0x09
def aborted : Nat := 0x0A
def degraded : Nat := 0x0B
def fault : Nat := 0x0C
def locked : Nat := 0x0D
end St

-- General cause codes (Table 4.6).
namespace Cause
def none : Nat := 0x00
def cost : Nat := 0x01
def length : Nat := 0x02
def resvBits : Nat := 0x03
def inst : Nat := 0x04
def flags : Nat := 0x05
def chainOp : Nat := 0x06
def chainLen : Nat := 0x07
def queueClass : Nat := 0x08
def lifeboat : Nat := 0x09
def mailbox : Nat := 0x0A
def pending : Nat := 0x0B
/-- COMMIT_FORM (Table 13.10). -/
def commitForm : Nat := 0x46
end Cause

/-- The opcodes whose objects lie in package DRAM: queue pairs, flow entries, cipher contexts and connections (R35, R49). -/
def dramCodes : List Nat :=
  [0x0310, 0x0311, 0x0312, 0x0313, 0x0710, 0x0711, 0x0713, 0x0714, 0x0903, 0x0904, 0x0905, 0x0906, 0x0907, 0x0908, 0x0909, 0x090A,
   0x090B, 0x0A01, 0x0A02, 0x0A03, 0x0A04]

/-- What the opcode tables say of an opcode before its own checks: code, base cost (Tables 4.7 and 4.8), whether a tenant queue
may issue it, whether it stages items (so that AT_STRIKE and CHAIN are permitted), whether INSTANCE must name a created instance,
whether the boot ROM serves it (R185), whether it writes its answer's data to host memory, and its reserved parameter bytes: all
from one on, others that are listed, and bits of others as a mask. -/
structure Op where
  code : Nat
  base : Nat
  tenant : Bool := false
  stages : Bool := false
  needIns : Bool := false
  rom : Bool := false
  dma : Bool := false
  resvFrom : Nat := 40
  resvBytes : List Nat := []
  resvBits : List (Nat × Nat) := []

end Sys2Proof.Machine

namespace Sys2Proof.Cmd

open Sys2Proof.Machine

def flag (c : Cmd) (i : Nat) : Bool := bit c.flags.toNat i
def atStrike (c : Cmd) : Bool := c.flag 0
def ifLateRun (c : Cmd) : Bool := c.flag 1
def cluster (c : Cmd) : Bool := c.flag 2
def noReply (c : Cmd) : Bool := c.flag 3
def chain (c : Cmd) : Bool := c.flag 4
def dataPtr (c : Cmd) : Bool := c.flag 5
/-- The instance ID of the header. -/
def id (c : Cmd) : Nat := c.inst.toNat % 4096
/-- The entries of the pointer list: 16 bytes each of the LENGTH bytes (R159). Their reserved bytes are ignored (log entry
74). -/
def entries (c : Cmd) : List PtrEntry := c.ptrs.take (c.length.toNat / 16)
/-- The data length of the cost rule (R169), of 32-bit entry lengths. -/
def dataLen (c : Cmd) : Nat := if c.dataPtr then c.entries.foldl (fun a e => a + e.len % 2 ^ 32) 0 else c.length.toNat
/-- Slots that the command occupies (R154). -/
def slots (c : Cmd) : Nat := if 4096 < c.length.toNat then 1 else 1 + ceilDiv c.length.toNat 64

end Sys2Proof.Cmd

namespace Sys2Proof.Machine

/-- The command carries NOW: it is of immediate class (R354, R444). -/
def isNow (c : Cmd) : Bool := bit (pf c.params 0 0) 0

/-- A header of 64 bytes, as a number with byte 0 lowest (R156, Table 4.1): its opcode, and the command from a source with its
data, pointer list and table entries. -/
def decodeHeader (src : Src) (h : Nat) (data : List Byte) (ptrs : List PtrEntry) (mem : TableMem) : Nat × Cmd :=
  (bits h 15 0,
   { src := src, flags := BitVec.ofNat 16 (bits h 31 16), tag := BitVec.ofNat 32 (bits h 63 32),
     inst := BitVec.ofNat 16 (bits h 79 64), length := BitVec.ofNat 16 (bits h 95 80),
     target := BitVec.ofNat 48 (bits h 143 96), resv := BitVec.ofNat 48 (bits h 191 144),
     params := BitVec.ofNat 320 (bits h 511 192), data := data, ptrs := ptrs, mem := mem, spare := 0 })

/-- The first reserved parameter byte of an opcode that is not 0 in its reserved bits (R166, step 3). -/
def resvParam (op : Op) (p : Params) : Option Nat :=
  (List.range 40).find? (fun i =>
    if decide (op.resvFrom ≤ i) || op.resvBytes.contains i then pf p i i != 0
    else op.resvBits.any (fun x => x.1 == i && Nat.land (pf p i i) x.2 != 0))

-- The defined opcodes (Tables 4.7, 4.8 and those of the defining chapters).
namespace Op

def nop : Op := { code := 0x0101, base := 1, tenant := true, rom := true, resvFrom := 0 }
def getDeviceInfo : Op := { code := 0x0102, base := 5, tenant := true, rom := true, resvFrom := 0 }
def getSerial : Op := { code := 0x0103, base := 5, rom := true, resvFrom := 0 }
def getQueueInfo : Op := { code := 0x0104, base := 5, tenant := true, resvFrom := 0 }
def setHeatLength : Op := { code := 0x0201, base := 20, stages := true, resvFrom := 3 }
def getTime : Op := { code := 0x0202, base := 2, tenant := true, resvFrom := 0 }
def queryStaged : Op := { code := 0x0203, base := 5, tenant := true, resvFrom := 6 }
def cancelStaged : Op := { code := 0x0204, base := 20, resvFrom := 10 }
def barrier : Op := { code := 0x0205, base := 2, tenant := true, stages := true, resvFrom := 0 }
def commitOpen : Op := { code := 0x0220, base := 50, stages := true, resvFrom := 16, resvBytes := [1, 2, 3, 4, 5, 6, 7] }
def commitCancel : Op := { code := 0x0221, base := 50, resvFrom := 7 }
def commitQuery : Op := { code := 0x0222, base := 50, resvFrom := 7 }
def insCreate : Op := { code := 0x0301, base := 50, stages := true, resvFrom := 36, resvBits := [(0, 248)] }
def insDestroy : Op := { code := 0x0302, base := 50, stages := true, needIns := true, resvFrom := 0 }
def insResize : Op :=
  { code := 0x0303, base := 50, stages := true, needIns := true,
    resvFrom := 36, resvBytes := [0, 1, 2, 3, 4, 5, 6, 7] }
def insSetLimits : Op :=
  { code := 0x0304, base := 50, stages := true, needIns := true,
    resvFrom := 25, resvBytes := [19], resvBits := [(24, 224)] }
def insQuery : Op := { code := 0x0305, base := 50, tenant := true, needIns := true, resvFrom := 1 }
def poolQuery : Op := { code := 0x0306, base := 50, resvFrom := 1 }
def qpConfig : Op := { code := 0x0310, base := 50, tenant := true, needIns := true, resvFrom := 32, resvBytes := [5] }
def qpStart : Op := { code := 0x0311, base := 50, tenant := true, needIns := true, resvFrom := 2 }
def qpStop : Op := { code := 0x0312, base := 50, tenant := true, needIns := true, resvFrom := 2 }
def qpState : Op := { code := 0x0313, base := 50, tenant := true, needIns := true, resvFrom := 2 }
def ituSetRoot : Op := { code := 0x0401, base := 20, needIns := true, resvFrom := 8 }
def ituInvalidate : Op := { code := 0x0402, base := 20, resvFrom := 20, resvBytes := [1, 2, 3, 4, 5, 6, 7] }
def ituProbe : Op := { code := 0x0403, base := 20, needIns := true, resvFrom := 9 }
def ituFaultRead : Op := { code := 0x0404, base := 20, resvFrom := 0 }
def portConfig : Op := { code := 0x0501, base := 50, stages := true, resvFrom := 8, resvBits := [(1, 240)] }
def portBank : Op := { code := 0x0502, base := 50, stages := true, resvFrom := 2 }
def portStatus : Op := { code := 0x0503, base := 50, resvFrom := 1 }
def lnSetEq : Op := { code := 0x0504, base := 50, resvFrom := 10, resvBytes := [5, 7, 8, 9], resvBits := [(6, 192)] }
def lnGetEq : Op := { code := 0x0505, base := 50, resvFrom := 1 }
def portRestore : Op := { code := 0x0506, base := 50, stages := true, resvFrom := 1 }
def lnDiag : Op := { code := 0x0507, base := 50, resvFrom := 5 }
def lnDiagResult : Op := { code := 0x0508, base := 50, resvFrom := 1 }
def macSetRx : Op := { code := 0x0601, base := 30, stages := true, resvFrom := 4 }
def macSetFc : Op := { code := 0x0602, base := 30, stages := true, resvFrom := 10 }
def macSetPreempt : Op :=
  { code := 0x0603, base := 30, stages := true,
    resvFrom := 10, resvBytes := [5], resvBits := [(1, 252)] }
def gateSet : Op := { code := 0x0604, base := 30, stages := true, resvFrom := 16, resvBits := [(1, 254)] }
def gateDisable : Op := { code := 0x0605, base := 30, stages := true, resvFrom := 1 }
def gateStatus : Op := { code := 0x0606, base := 30, resvFrom := 1 }
def fcStatus : Op := { code := 0x0607, base := 30, resvFrom := 1 }
def fcWdRelease : Op := { code := 0x0608, base := 30, resvFrom := 2 }
def ruleWrite (c : Cmd) : Op :=
  { code := 0x0701, base := 10, tenant := true, stages := !isNow c, needIns := true,
    resvFrom := 6, resvBytes := [1], resvBits := [(0, 254)] }
def ruleDelete (c : Cmd) : Op :=
  { code := 0x0702, base := 10, tenant := true, stages := !isNow c, needIns := true,
    resvFrom := 6, resvBytes := [1], resvBits := [(0, 254)] }
def ruleRead : Op :=
  { code := 0x0703, base := 10, tenant := true, needIns := true,
    dma := true, resvFrom := 16, resvBytes := [0, 1, 4, 5, 6, 7] }
def ruleCount : Op := { code := 0x0704, base := 10, tenant := true, needIns := true, resvFrom := 5, resvBytes := [0, 1] }
def flowInsert (c : Cmd) : Op :=
  { code := 0x0710, base := 10, tenant := true, stages := !isNow c, needIns := true,
    resvFrom := 1, resvBits := [(0, 252)] }
def flowDelete (c : Cmd) : Op :=
  { code := 0x0711, base := 10, tenant := true, stages := !isNow c, needIns := true,
    resvFrom := 1, resvBits := [(0, 254)] }
def flowLookup : Op :=
  { code := 0x0713, base := 10, tenant := true, needIns := true,
    dma := true, resvFrom := 16, resvBytes := [0, 1, 2, 3, 4, 5, 6, 7] }
def flowFlush : Op := { code := 0x0714, base := 10, resvFrom := 7, resvBytes := [1], resvBits := [(0, 248)] }
def flowAgedRead : Op := { code := 0x0715, base := 10, dma := true, resvFrom := 16, resvBytes := [0, 1, 2, 3, 4, 5, 6, 7] }
def captureRead : Op := { code := 0x0716, base := 10, dma := true, resvFrom := 16, resvBytes := [0, 1, 2, 3, 4, 5, 6, 7] }
def srcConfig : Op := { code := 0x0720, base := 10, stages := true, resvFrom := 9, resvBytes := [0, 1], resvBits := [(6, 252)] }
def bdConfig : Op := { code := 0x0721, base := 10, stages := true, resvFrom := 14, resvBytes := [0, 1], resvBits := [(5, 252)] }
def rewriteSet : Op := { code := 0x0722, base := 10, stages := true, resvFrom := 4, resvBytes := [0, 1] }
def tunnelSet : Op := { code := 0x0723, base := 10, stages := true, resvFrom := 4, resvBytes := [0, 1] }
def mirrorSet : Op := { code := 0x0724, base := 10, stages := true, resvFrom := 14, resvBytes := [0, 1] }
def parserPorts : Op := { code := 0x0725, base := 10, stages := true, resvFrom := 8, resvBytes := [0, 1] }
def tmShaperSet : Op :=
  { code := 0x0801, base := 20, stages := true, needIns := true,
    resvFrom := 20, resvBytes := [7], resvBits := [(1, 254)] }
def tmGroupSet : Op := { code := 0x0802, base := 20, stages := true, needIns := true, resvFrom := 10, resvBits := [(7, 254)] }
def tmOwnerSet : Op := { code := 0x0803, base := 20, stages := true, resvFrom := 8 }
def tmClassSched : Op := { code := 0x0804, base := 20, stages := true, resvFrom := 11 }
def tmAdmitSet : Op := { code := 0x0805, base := 20, stages := true, resvFrom := 18 }
def tmQlimSet : Op := { code := 0x0806, base := 20, stages := true, resvFrom := 8, resvBytes := [3] }
def tmSrcClass : Op := { code := 0x0807, base := 20, stages := true, resvFrom := 5, resvBits := [(4, 254)] }
def tmPolicerSet : Op := { code := 0x0810, base := 20, stages := true, needIns := true, resvFrom := 27, resvBits := [(5, 254)] }
def tmPolicerRead : Op :=
  { code := 0x0811, base := 20, tenant := true, needIns := true,
    dma := true, resvFrom := 16, resvBytes := [5, 6, 7] }
def tmShaperRead : Op := { code := 0x0812, base := 20, tenant := true, needIns := true, resvFrom := 11 }
def kekLoad : Op := { code := 0x0901, base := 30, resvFrom := 12, resvBytes := [0, 1, 2, 3, 9] }
def kekErase : Op := { code := 0x0902, base := 30, resvFrom := 6, resvBytes := [0, 1, 2, 3] }
def ctxSet (c : Cmd) : Op :=
  { code := 0x0903, base := 30, tenant := true, stages := !isNow c, needIns := true,
    resvFrom := 11, resvBits := [(0, 254), (6, 248)] }
def ctxKey (c : Cmd) (s : State) : Op :=
  { code := 0x0904, base := 30, tenant := true, stages := (mGetD s.cip.ctxs (c.id * 1048576 + pf c.params 3 1) Ctx.fresh).kind != 6, needIns := true,
    resvFrom := 17, resvBytes := [0] }
def ctxBind (c : Cmd) : Op :=
  { code := 0x0905, base := 30, tenant := true, stages := !isNow c, needIns := true,
    resvFrom := 4, resvBits := [(0, 252)] }
def ctxQuery : Op := { code := 0x0906, base := 30, tenant := true, needIns := true, resvFrom := 5, resvBytes := [0] }
def ctxSave : Op := { code := 0x0907, base := 30, tenant := true, needIns := true, dma := true, resvFrom := 16, resvBytes := [0, 5] }
def ctxRestore : Op :=
  { code := 0x0908, base := 30, tenant := true, needIns := true,
    resvFrom := 5, resvBytes := [0], resvBits := [(4, 254)] }
def ctxClear : Op := { code := 0x0909, base := 30, tenant := true, needIns := true, resvFrom := 4, resvBytes := [0] }
def tlsResync : Op := { code := 0x090A, base := 30, tenant := true, needIns := true, resvFrom := 16, resvBytes := [0] }
def replaySet : Op := { code := 0x090B, base := 30, resvFrom := 14, resvBytes := [0, 1] }
def secySet : Op := { code := 0x090C, base := 30, stages := true, resvFrom := 27, resvBytes := [0], resvBits := [(2, 240)] }
def stoConnSet (c : Cmd) : Op :=
  { code := 0x0A01, base := 30, tenant := true, stages := !isNow c, needIns := true,
    resvFrom := 14, resvBytes := [1, 7], resvBits := [(0, 254), (4, 252)] }
def stoConnClear (c : Cmd) : Op :=
  { code := 0x0A02, base := 30, tenant := true, stages := !isNow c, needIns := true,
    resvFrom := 4, resvBytes := [1], resvBits := [(0, 254)] }
def stoConnQuery : Op := { code := 0x0A03, base := 30, tenant := true, needIns := true, resvFrom := 5, resvBytes := [0, 1] }
def stoResync : Op := { code := 0x0A04, base := 30, tenant := true, needIns := true, resvFrom := 8, resvBytes := [0, 1] }
def stoNsSet (c : Cmd) : Op :=
  { code := 0x0A10, base := 30, stages := !isNow c, needIns := true,
    resvFrom := 23, resvBytes := [1], resvBits := [(0, 252), (19, 254)] }
def stoNsQuota : Op := { code := 0x0A11, base := 30, stages := true, needIns := true, resvFrom := 4 }
def stoNsQuery : Op := { code := 0x0A12, base := 30, tenant := true, needIns := true, resvFrom := 4, resvBytes := [0, 1] }
def schedLoad : Op := { code := 0x0B01, base := 20, stages := true, resvFrom := 0 }
def timJoin : Op := { code := 0x0B02, base := 20, resvFrom := 1, resvBits := [(0, 254)] }
def timLeave : Op := { code := 0x0B03, base := 20, resvFrom := 0 }
def timQuery : Op := { code := 0x0B04, base := 20, resvFrom := 0 }
def timSteer : Op := { code := 0x0B05, base := 20, stages := true, resvFrom := 4 }
def timPtpMap : Op := { code := 0x0B06, base := 20, stages := true, resvFrom := 16 }
def triSet : Op := { code := 0x0C01, base := 30, stages := true, resvFrom := 22, resvBits := [(5, 252), (17, 240)] }
def triQuery : Op := { code := 0x0C02, base := 30, resvFrom := 1 }
def triHandover : Op := { code := 0x0C03, base := 30, stages := true, resvFrom := 2 }
def triRearm : Op := { code := 0x0C04, base := 30, resvFrom := 1 }
def triIsoClear : Op := { code := 0x0C05, base := 30, resvFrom := 1 }
def triForce : Op := { code := 0x0C06, base := 30, resvFrom := 1 }
def pwrSet : Op :=
  { code := 0x0D01, base := 10, stages := true,
    resvFrom := 17, resvBits := [(0, 224), (1, 252), (4, 254), (8, 254), (16, 248)] }
def thmSet : Op := { code := 0x0D02, base := 10, stages := true, resvFrom := 7, resvBits := [(0, 248)] }
def pwrQuery : Op := { code := 0x0D03, base := 10, resvFrom := 0 }
def thmQuery : Op := { code := 0x0D04, base := 10, resvFrom := 0 }
def pwrInject : Op := { code := 0x0D05, base := 10, resvFrom := 5 }
def thmClearLatch : Op := { code := 0x0D06, base := 10, resvFrom := 0 }
def nvmInfo : Op := { code := 0x0E01, base := 100, rom := true, resvFrom := 0 }
def nvmCfgWrite : Op := { code := 0x0E02, base := 100, resvFrom := 2 }
def nvmCfgRead : Op := { code := 0x0E03, base := 100, dma := true, resvFrom := 16, resvBytes := [2, 3, 4, 5, 6, 7] }
def nvmProvWrite : Op := { code := 0x0E04, base := 100, resvFrom := 0 }
def fwBegin : Op := { code := 0x0E10, base := 100, rom := true, resvFrom := 0 }
def fwWrite : Op := { code := 0x0E11, base := 100, rom := true, resvFrom := 4 }
def fwEnd : Op := { code := 0x0E12, base := 100, rom := true, resvFrom := 0 }
def fwActivate : Op := { code := 0x0E13, base := 100, rom := true, resvFrom := 0 }
def fwConfirm : Op := { code := 0x0E14, base := 100, resvFrom := 0 }
def fwAbort : Op := { code := 0x0E15, base := 100, rom := true, resvFrom := 0 }
def svnCommit : Op := { code := 0x0E16, base := 100, resvFrom := 1, resvBits := [(0, 254)] }
def logRead : Op := { code := 0x0E20, base := 100, dma := true, resvFrom := 16, resvBytes := [6, 7] }
def logFlush : Op := { code := 0x0E21, base := 100, resvFrom := 0 }
def logClearFail : Op := { code := 0x0E22, base := 100, resvFrom := 0 }
def logMark : Op := { code := 0x0E23, base := 100, resvFrom := 12 }
def idCertRead : Op := { code := 0x0E30, base := 100, dma := true, resvFrom := 16, resvBytes := [0, 1, 2, 3, 4, 5, 6, 7] }
def idAttest : Op := { code := 0x0E31, base := 100, dma := true, resvFrom := 16, resvBytes := [0, 1, 2, 3, 4, 5, 6, 7] }
def echo : Op := { code := 0x0F01, base := 2, tenant := true, rom := true }
def burn (c : Cmd) : Op := { code := 0x0F02, base := pf c.params 3 0, resvFrom := 4 }
end Op

/-- What the opcode tables say of an opcode, for a command that carries it; none where it is not defined (R167). -/
def opOf (code : Nat) (c : Cmd) (s : State) : Option Op :=
  match code with
  | 0x0101 => some Op.nop
  | 0x0102 => some Op.getDeviceInfo
  | 0x0103 => some Op.getSerial
  | 0x0104 => some Op.getQueueInfo
  | 0x0201 => some Op.setHeatLength
  | 0x0202 => some Op.getTime
  | 0x0203 => some Op.queryStaged
  | 0x0204 => some Op.cancelStaged
  | 0x0205 => some Op.barrier
  | 0x0220 => some Op.commitOpen
  | 0x0221 => some Op.commitCancel
  | 0x0222 => some Op.commitQuery
  | 0x0301 => some Op.insCreate
  | 0x0302 => some Op.insDestroy
  | 0x0303 => some Op.insResize
  | 0x0304 => some Op.insSetLimits
  | 0x0305 => some Op.insQuery
  | 0x0306 => some Op.poolQuery
  | 0x0310 => some Op.qpConfig
  | 0x0311 => some Op.qpStart
  | 0x0312 => some Op.qpStop
  | 0x0313 => some Op.qpState
  | 0x0401 => some Op.ituSetRoot
  | 0x0402 => some Op.ituInvalidate
  | 0x0403 => some Op.ituProbe
  | 0x0404 => some Op.ituFaultRead
  | 0x0501 => some Op.portConfig
  | 0x0502 => some Op.portBank
  | 0x0503 => some Op.portStatus
  | 0x0504 => some Op.lnSetEq
  | 0x0505 => some Op.lnGetEq
  | 0x0506 => some Op.portRestore
  | 0x0507 => some Op.lnDiag
  | 0x0508 => some Op.lnDiagResult
  | 0x0601 => some Op.macSetRx
  | 0x0602 => some Op.macSetFc
  | 0x0603 => some Op.macSetPreempt
  | 0x0604 => some Op.gateSet
  | 0x0605 => some Op.gateDisable
  | 0x0606 => some Op.gateStatus
  | 0x0607 => some Op.fcStatus
  | 0x0608 => some Op.fcWdRelease
  | 0x0701 => some (Op.ruleWrite c)
  | 0x0702 => some (Op.ruleDelete c)
  | 0x0703 => some Op.ruleRead
  | 0x0704 => some Op.ruleCount
  | 0x0710 => some (Op.flowInsert c)
  | 0x0711 => some (Op.flowDelete c)
  | 0x0713 => some Op.flowLookup
  | 0x0714 => some Op.flowFlush
  | 0x0715 => some Op.flowAgedRead
  | 0x0716 => some Op.captureRead
  | 0x0720 => some Op.srcConfig
  | 0x0721 => some Op.bdConfig
  | 0x0722 => some Op.rewriteSet
  | 0x0723 => some Op.tunnelSet
  | 0x0724 => some Op.mirrorSet
  | 0x0725 => some Op.parserPorts
  | 0x0801 => some Op.tmShaperSet
  | 0x0802 => some Op.tmGroupSet
  | 0x0803 => some Op.tmOwnerSet
  | 0x0804 => some Op.tmClassSched
  | 0x0805 => some Op.tmAdmitSet
  | 0x0806 => some Op.tmQlimSet
  | 0x0807 => some Op.tmSrcClass
  | 0x0810 => some Op.tmPolicerSet
  | 0x0811 => some Op.tmPolicerRead
  | 0x0812 => some Op.tmShaperRead
  | 0x0901 => some Op.kekLoad
  | 0x0902 => some Op.kekErase
  | 0x0903 => some (Op.ctxSet c)
  | 0x0904 => some (Op.ctxKey c s)
  | 0x0905 => some (Op.ctxBind c)
  | 0x0906 => some Op.ctxQuery
  | 0x0907 => some Op.ctxSave
  | 0x0908 => some Op.ctxRestore
  | 0x0909 => some Op.ctxClear
  | 0x090A => some Op.tlsResync
  | 0x090B => some Op.replaySet
  | 0x090C => some Op.secySet
  | 0x0A01 => some (Op.stoConnSet c)
  | 0x0A02 => some (Op.stoConnClear c)
  | 0x0A03 => some Op.stoConnQuery
  | 0x0A04 => some Op.stoResync
  | 0x0A10 => some (Op.stoNsSet c)
  | 0x0A11 => some Op.stoNsQuota
  | 0x0A12 => some Op.stoNsQuery
  | 0x0B01 => some Op.schedLoad
  | 0x0B02 => some Op.timJoin
  | 0x0B03 => some Op.timLeave
  | 0x0B04 => some Op.timQuery
  | 0x0B05 => some Op.timSteer
  | 0x0B06 => some Op.timPtpMap
  | 0x0C01 => some Op.triSet
  | 0x0C02 => some Op.triQuery
  | 0x0C03 => some Op.triHandover
  | 0x0C04 => some Op.triRearm
  | 0x0C05 => some Op.triIsoClear
  | 0x0C06 => some Op.triForce
  | 0x0D01 => some Op.pwrSet
  | 0x0D02 => some Op.thmSet
  | 0x0D03 => some Op.pwrQuery
  | 0x0D04 => some Op.thmQuery
  | 0x0D05 => some Op.pwrInject
  | 0x0D06 => some Op.thmClearLatch
  | 0x0E01 => some Op.nvmInfo
  | 0x0E02 => some Op.nvmCfgWrite
  | 0x0E03 => some Op.nvmCfgRead
  | 0x0E04 => some Op.nvmProvWrite
  | 0x0E10 => some Op.fwBegin
  | 0x0E11 => some Op.fwWrite
  | 0x0E12 => some Op.fwEnd
  | 0x0E13 => some Op.fwActivate
  | 0x0E14 => some Op.fwConfirm
  | 0x0E15 => some Op.fwAbort
  | 0x0E16 => some Op.svnCommit
  | 0x0E20 => some Op.logRead
  | 0x0E21 => some Op.logFlush
  | 0x0E22 => some Op.logClearFail
  | 0x0E23 => some Op.logMark
  | 0x0E30 => some Op.idCertRead
  | 0x0E31 => some Op.idAttest
  | 0x0F01 => some Op.echo
  | 0x0F02 => some (Op.burn c)
  | _ => none

end Sys2Proof.Machine
end

