-- ==== Sys2Proof/Machine/Interp.lean ====
section
/-!
DEFINITION. The command interpreter: which command may be taken, the checks of R166 in their order, charging, the
staging and sealing of items, chains, and replies (spec/04_commands.md, spec/02_strike.md). Every opcode's meaning is
one call of `runCmd` with the opcode's description and its own body.
-/

namespace Sys2Proof.Machine

/-- A failing answer of a command: status, cause, FIELD, and the result where the defining chapter gives one (R358). -/
structure Fail where
  status : Nat
  cause : Nat := 0
  field : Nat := 0
  result : Nat := 0
deriving DecidableEq, Repr

/-- What an opcode's own part comes to. -/
inductive Body where
  /-- DONE with a result; the state is the effect. -/
  | done (st : State) (result : Nat)
  /-- Another status that the defining chapter gives together with an effect (DEGRADED, FAULT; R358). -/
  | other (st : State) (f : Fail)
  /-- Items to stage, one per entry of data, with the result of QUEUED. -/
  | stage (st : State) (entries : List (List Byte)) (flow : Bool) (result : Nat)
  /-- The long operation has begun; the reply comes with the event that ends it. -/
  | wait (st : State)
  | fail (f : Fail)

/-- BAD_PARAM with a cause and a FIELD. -/
def Body.bad (cause : Nat) (field : Nat := 0xFF) : Body := .fail { status := St.badParam, cause := cause, field := field }
/-- DENIED with a cause. -/
def Body.deny (cause : Nat) : Body := .fail { status := St.denied, cause := cause }
/-- LOCKED with a cause. -/
def Body.lock (cause : Nat) : Body := .fail { status := St.locked, cause := cause }
/-- NOT_FOUND. -/
def Body.missing (cause : Nat := 0) : Body := .fail { status := St.notFound, cause := cause }
/-- NO_ROOM with a cause. -/
def Body.full (cause : Nat) : Body := .fail { status := St.noRoom, cause := cause }

/-- The listed cost (R169). -/
def listedCost (op : Op) (c : Cmd) : Nat := op.base + ceilDiv c.dataLen 64

/-- The queue of a command is a manager queue, or the mailbox, which has a manager's rights (R155, R181). -/
def isManager : Src → Bool
  | .queue f => State.isPf0 f
  | .mbox => true

/-- The instance a tenant command acts on: the queue's own (R158, R168). -/
def ownOf : Src → Nat
  | .queue f => f
  | .mbox => 0

/-- Checks of step 3 on FLAGS, the offending field with the lowest offset first: an opcode that no chain admits, reserved bits,
the mailbox, combinations, and what a chain admits (R157, R176, R178, R182). `first` is false for a later member of a chain,
whose AT_STRIKE, IF_LATE_RUN and CLUSTER are ignored (R175). -/
def checkFlags (op : Op) (c : Cmd) (first : Bool) (members : Nat) : Option Fail :=
  if (c.chain && c.src != .mbox || !first) && !op.stages then
    some { status := St.badParam, cause := Cause.chainOp, field := 0 }
  else if c.flags.toNat / 64 != 0 then some { status := St.badParam, cause := Cause.resvBits, field := 2 }
  else if c.src == .mbox && (c.chain || c.dataPtr) then
    some { status := St.badParam, cause := Cause.mailbox, field := 2 }
  else if first && (c.ifLateRun || c.cluster) && !c.atStrike then
    some { status := St.badParam, cause := Cause.flags, field := 2 }
  else if first && c.atStrike && !op.stages then
    some { status := St.badParam, cause := Cause.flags, field := 2 }
  else if (if op.code = 0x0220 then !first || !c.cluster else first && c.cluster) then
    some { status := St.badParam, cause := Cause.commitForm, field := 2 }
  else if c.chain && members == 255 then
    some { status := St.badParam, cause := Cause.chainLen, field := 2 }
  else none

/-- Checks of step 3 on INSTANCE (R158, R19; log entry 11). -/
def checkInst (op : Op) (c : Cmd) (s : State) : Option Fail :=
  if c.inst.toNat / 4096 != 0 then some { status := St.badParam, cause := Cause.resvBits, field := 8 }
  else if !isManager c.src && c.id != ownOf c.src then some { status := St.denied, cause := Cause.inst }
  else if op.needIns && (s.insOf c.id).st == .free then
    some { status := St.badParam, cause := Cause.inst, field := 8 }
  else none

/-- Checks of step 3 on LENGTH and the pointer list (R154, R159, R198). -/
def checkLength (c : Cmd) : Option Fail :=
  if 4096 < c.length.toNat then some { status := St.badParam, cause := Cause.length, field := 10 }
  else if c.dataPtr && (c.length.toNat % 16 != 0 || c.length.toNat == 0) then
    some { status := St.badParam, cause := Cause.length, field := 10 }
  else if c.dataPtr && c.entries.any (fun e => e.len % 2 ^ 32 == 0) then
    some { status := St.badParam, cause := Cause.length, field := 0xFF }
  else none

/-- Checks of step 3 on the reserved bytes of the header, then of the parameters (R166; log entry 12). -/
def checkResv (op : Op) (c : Cmd) : Option Fail :=
  if c.resv != 0 then some { status := St.badParam, cause := Cause.resvBits, field := 18 }
  else
    match resvParam op c.params with
    | some i => some { status := St.badParam, cause := Cause.resvBits, field := 24 + i }
    | none => none

/-- Steps 1 to 4 of R166, in order, for a defined opcode; within step 3 the offending field with the lowest offset first. -/
def checkHeader (op : Op) (c : Cmd) (s : State) (first : Bool) (members : Nat) : Option Fail :=
  if s.cmd.fw != .run && !op.rom then some { status := St.badOpcode, cause := Cause.lifeboat }
  else if !op.tenant && !isManager c.src then some { status := St.denied, cause := Cause.queueClass }
  else
    match checkFlags op c first members with
    | some f => some f
    | none =>
      match checkInst op c s with
      | some f => some f
      | none =>
        match checkLength c with
        | some f => some f
        | none =>
          match checkResv op c with
          | some f => some f
          | none =>
            if s.fld Reg.costMax < listedCost op c then some { status := St.badParam, cause := Cause.cost, field := 0 }
            else none

/-- How step 5 answers (R65, R78 to R82): the target heat and whether the command runs late, or the failure. -/
def checkLate (c : Cmd) (s : State) : Except Fail (Heat × Bool) :=
  if !c.atStrike then .ok (s.time.heat + 1, false)
  else if c.cluster && decide (c.target.toNat < s.time.heat.toNat + 3) then .error { status := St.late }
  else if c.target.toNat ≤ s.time.heat.toNat then
    if c.ifLateRun then .ok (s.time.heat + 1, true) else .error { status := St.late }
  else if s.time.heat.toNat + 1048576 < c.target.toNat then
    .error { status := St.badParam, cause := Cause.none, field := 12 }
  else .ok (c.target, false)

/-- DETAIL of a reply (Table 4.5). -/
def mkDetail (low : Nat) (f : Fail) : BitVec 24 := BitVec.ofNat 24 (low + f.field % 256 * 256 + f.cause % 256 * 65536)

/-- Items pending: of the flow table, or all others (R88). -/
def pendingItems (s : State) (flow : Bool) : Nat := (s.staging.items.filter (fun i => i.flow == flow)).length

/-- Distinct landing heats pending (R88, Table 2.4); that of a BARRIER counts until its strike (log entry 69). -/
def landingHeats (s : State) : List Heat :=
  ((s.staging.items.filter (·.isSealed)).map (·.landing) ++ s.staging.barriers.map (·.2)).eraseDups

/-- Write a command's items to the staging store, unsealed, in a unit (R64, R88). -/
def stageItems (s : State) (op : Op) (c : Cmd) (unit mem : Nat) (target : Heat)
    (entries : List (List Byte))
    (flow : Bool) : Option State :=
  if (if flow then 1048576 else 262144) < pendingItems s flow + entries.length then none
  else
    let new := (entries.zip (List.range entries.length)).map (fun e =>
      { op := op.code, inst := c.id, params := c.params, data := e.1, sub := e.2, owner := c.src, tag := c.tag,
        unit := unit, mem := mem, target := target, landing := 0, isSealed := false, resv := [0, 0, 0, 0, 0, 0, 0],
        flow := flow, commit := none : Item })
    some { s with staging := { s.staging with items := s.staging.items ++ new } }

/-- Seal a unit, before the seal point of the heat or not (R62, R64, R88, R210, R217): its landing heat, or the failing member's
number (none: the last member) with its answer. -/
def sealUnit (s : State) (past : Bool) (unit : Nat) (target : Heat) : Except (Option Nat × Fail) (State × Heat) :=
  let land := s.landingAt past target
  let cluster := s.tim.units.any (fun u => u.unit == unit)
  let heats := landingHeats s
  match unitInUse s (s.staging.items.filter (fun i => i.unit == unit)) with
  | some t => .error (some t, { status := St.denied, cause := 0x10 })
  | none =>
  if !heats.contains land && decide (64 ≤ heats.length) then
    .error (none, { status := St.noRoom, cause := Cause.pending })
  else
    match reserveUnit s land (s.staging.items.filter (fun i => i.unit == unit)) [0, 1, 2, 3, 4, 5, 6] with
    | .error (t, p) => .error (some t, { status := St.noRoom, cause := 0x20 + p })
    | .ok sealedItems =>
      let items := (s.staging.items.filter (fun i => i.unit != unit)) ++
        sealedItems.map (fun i => { i with isSealed := true, landing := land, commit := if cluster then some unit else none })
      let bars := if sealedItems.isEmpty then s.staging.barriers ++ [(unit, land)] else s.staging.barriers
      let units := s.tim.units.map (fun u => if u.unit = unit then { u with isSealed := true, phase := 1 } else u)
      .ok ({ s with staging := { s.staging with items := items, barriers := bars }, tim := { s.tim with units := units } }, land)

/-- The device stages one item of its own, sealed at once (R267, R625): no command owns it and no reply follows. -/
def stageOwn (s : State) (op : Nat) (params : Params) (target : Heat) : State :=
  let it : Item :=
    { op := op, inst := 0, params := params, data := [], sub := 0, owner := .queue 4096, tag := 0,
      unit := s.staging.nextUnit, mem := 0, target := target, landing := s.landing target, isSealed := true,
      resv := [0, 0, 0, 0, 0, 0, 0], flow := false, commit := none }
  { s with staging := { s.staging with items := s.staging.items ++ [it], nextUnit := s.staging.nextUnit + 1 } }

/-- The mailbox's command ends (R181): its reply stands in CMD_MBOX_REPLY if it has one, BUSY falls (`busy`: but for a second reply
that comes while another command is in progress), DONE rises, and with Odjan running vector 2 of the owner's PF0 fires. -/
def mboxDone (s : State) (r : Option Reply) (busy : Bool := false) : State :=
  let m := s.cmd.mbox
  let s1 := (s.mark 0x040204 4)
  let s2 := { s1 with cmd := { s1.cmd with mbox := { m with
    reply := (match r with | some x => some x | none => m.reply), busy := busy, done := true } } }
  if s2.cmd.fw == .run && m.owner != 0 then s2.fire (2 * (m.owner - 1)) 2 else s2

/-- The reply of a command that is no chain member's (R161, R165); a mailbox command without a reply still ends (R181). -/
def answer (s : State) (c : Cmd) (status low : Nat) (f : Fail) (heat : Heat) (result : Nat) : State :=
  let r : Reply := { tag := c.tag, status := status, detail := mkDetail low f, heat := heat, phase := false,
                     result := BitVec.ofNat 128 result }
  let quiet := c.noReply && decide (status ≤ 1)
  match c.src with
  | .queue fn => if quiet then s else s.issueReply fn r
  | .mbox => mboxDone (if status ≤ 1 then s else s.inc Ctr.err) (if quiet then none else some r)

/-- The failing answer of a command; LATE carries the heat in which it was taken and counts (R79, R81). -/
def failAnswer (s : State) (c : Cmd) (f : Fail) : State :=
  answer s c f.status 0 f s.time.heat f.result

/-- LATE of step 5: STK_LATE_CNT advances and STK_STATUS.LATE is set (R79). -/
def countLate (s : State) (f : Fail) : State :=
  if f.status = St.late then (s.inc Ctr.late).raise Reg.stkStatus 3 1 else s

/-- Replies to the members of a chain that fails: ABORTED with CHAIN_ABORT to every member but the failing one (R178); HEAT is
the present heat, since they took effect in none (log entry 73). -/
def abortMembers (s : State) (fn : Nat) (ms : List Member) (failing : Nat × Fail) : State :=
  (ms.zip (List.range ms.length)).foldl (fun s mi =>
    let m := mi.1
    let mine := failing.1 == mi.2
    s.issueReply fn
      { tag := m.tag, status := if mine then failing.2.status else St.aborted,
        detail := if mine then mkDetail 0 failing.2 else BitVec.ofNat 24 8,
        heat := s.time.heat, phase := false, result := 0 } true) s

/-- A command as a member of its chain, with the result of its QUEUED reply. -/
def memberOf (op : Op) (c : Cmd) (result : Nat) : Member := { op := op.code, tag := c.tag, result := result, quiet := c.noReply }

/-- A chain fails, as a member fails or as it seals (R178): its items go, its members are answered. Its members not yet taken are
taken as separate commands, their CHAIN ignored, up to the chain's last (log entry 73). -/
def failChain (s : State) (fn : Nat) (ch : Chain) (all : List Member) (failing : Nat × Fail) (more : Bool) : State :=
  abortMembers ((dropUnit s ch.unit).modQueue fn (fun q => { q with chain := none, loose := more })) fn all failing

/-- Detail bits of a QUEUED reply (R66, R80, R177). -/
def lowBits (land target : Heat) (late : Bool) : Nat := b2n (decide (target.toNat < land.toNat)) + 2 * b2n late

/-- A chain whose last member has been staged seals, and each member gets QUEUED with its own result, or fails (R165, R177,
R178). -/
def sealChain (s : State) (past : Bool) (fn : Nat) (ch : Chain) : State :=
  match sealUnit s past ch.unit ch.target with
  | .error (t, f) => failChain s fn ch ch.members (t.getD (ch.members.length - 1), f) false
  | .ok (s', land) =>
    (ch.members.filter (fun m => !m.quiet)).foldl (fun s m => s.issueReply fn
      { tag := m.tag, status := St.queued, detail := BitVec.ofNat 24 (lowBits land ch.target ch.lateRun),
        heat := land, phase := false, result := BitVec.ofNat 128 m.result } true)
      (s'.modQueue fn (fun q => { q with chain := none }))

/-- The mailbox's command as its registers hold it (R181, Table 4.1); the opcode is the first two bytes. -/
def mboxCmd (s : State) : Nat × Cmd :=
  let h := (List.range 16).foldr (fun k a => s.fld Reg.mboxHdr k + a * 2 ^ 32) 0
  let len := bits h 95 80
  let d := (List.range (ceilDiv (min len 4096) 4)).flatMap (fun k => leBytes 4 (s.fld Reg.mboxData k))
  decodeHeader .mbox h (d.take len) [] []

-- The end of a command, and commands in work.

/-- A command ends: with its answer, with the seal of its own unit, or with that of its chain; `past` says whether that comes at
or after the seal point (R62, R64, R66, R194). -/
def endCmd (s : State) (c : Cmd) (past : Bool) : JobEnd → State
  | .reply status field cause heat result => answer s c status 0 { status := status, cause := cause, field := field } heat result
  | .seal unit target late result =>
    match sealUnit s past unit target with
    | .error (_, f) => failAnswer (dropUnit s unit) c f
    | .ok (s', land) => answer s' c St.queued (lowBits land target late) { status := 0 } land result
  | .chain =>
    match c.src with
    | .queue fn => (match (s.func fn).q.chain with | some ch => sealChain s past fn ch | none => s)
    | .mbox => s

/-- CU that come back to the command share of the heat in which a command finishes; CU_CNT of its queue is net of them (R170, Table
4.14). -/
def refund (s : State) (src : Src) (n : Nat) : State :=
  let s1 := match src with
    | .queue f => if n = 0 ∨ 4096 ≤ f then s else s.add (Ctr.qCu f) (2 ^ 64 - n)
    | .mbox => s
  if s.budget.live then { s1 with budget := { s.budget with cmdLeft := s.budget.cmdLeft + n } } else s1

/-- Management cycles that Commands have yet to be served before all commands taken so far are finished. -/
def cmdWork (s : State) : Nat := s.budget.open_.cmds

/-- Whatever comes, all commands taken so far will be finished before the seal point: even at the lowest ratio, with the other
categories taking their whole shares (R69, R72; log entry 63). Such a command ends in the step that takes it. -/
def assured (s : State) : Bool :=
  !s.budget.live ||
  (s.budget.stall.isNone && !s.pastSeal &&
   (let b := s.budget
    let n := s.time.cyclesTo (256 * s.sealNs) - 1
    let first := b.todo.svc + b.carried.foldl (fun a w => a + w.total) 0
    decide (100 * (b.todo.cmds + 4) ≤ (n - first) * (100 - b.pctAging - b.pctLog - b.pctTelem))))

/-- A command that has done its part comes to its end: at once where it is assured, else as a command in work once its cycles have
been served (R73 to R75, R194). -/
def settle (quick : Bool) (s : State) (c : Cmd) (own spare : Nat) (fin : JobEnd) : State :=
  if quick then refund (endCmd s c s.pastSeal fin) c.src spare
  else
    { s with cmd := { s.cmd with jobs := s.cmd.jobs ++
      [{ cmd := c, spare := spare, left := cmdWork s, own := own, early := false, fin := fin }] } }

/-- The number under which a QP_STOP waits for the completion entries of its queue pair (R216). -/
def qpEngine (key : Nat) : Nat := 0x4000000 + key

/-- A QP_STOP waits (R216). -/
def qpWait (s : State) (key : Nat) (c : Cmd) : State :=
  { s with cmd := { s.cmd with busyOps := s.cmd.busyOps ++ [(qpEngine key, c)] } }

/-- A QP_STOP that waits may end: no completion entry of its queue pair waits (R216). -/
def qpDrained (s : State) (b : Nat × Cmd) : Bool :=
  decide (qpEngine 0 ≤ b.1) && (mGetD s.ins.qps (b.1 - qpEngine 0) Qp.fresh).held.isEmpty

/-- Each QP_STOP whose queue pair has drained answers DONE (R216). -/
def finishStops (s : State) : State :=
  (s.cmd.busyOps.filter (qpDrained s)).foldl
    (fun s b => answer s b.2 St.done 0 { status := St.done } s.time.heat 0)
    { s with cmd := { s.cmd with busyOps := s.cmd.busyOps.filter (fun b => !qpDrained s b) } }

/-- The commands whose cycles have been served come to their end, in the order in which they were taken, and those that waited for
a queue pair. -/
def finishJobs (s : State) : State :=
  finishStops ((s.cmd.jobs.filter (fun j => j.left == 0)).foldl
    (fun s j => refund (endCmd s j.cmd (!j.early) j.fin) j.cmd.src j.spare)
    { s with cmd := { s.cmd with jobs := s.cmd.jobs.filter (fun j => j.left != 0) } })

/-- A command of a source is in work, a long operation of its is under way, or a restart has left it undecided (R163, R196). -/
def inWork (s : State) (src : Src) : Bool :=
  s.cmd.jobs.any (fun j => j.cmd.src == src) || s.cmd.busyOps.any (fun b => b.2.src == src) ||
  s.cmd.undecided.any (fun u => u.src == src)

/-- Odjan runs and makes progress (R195, R775). -/
def progress (s : State) : Bool :=
  s.cmd.fw == .run && (match s.budget.stall with | some n => decide (s.time.ns < n) | none => true)

/-- The command share that remains: none in the seal guard, whose cycles take no new command (R71, R774). -/
def shareLeft (s : State) : Nat := if s.pastSeal then 0 else s.budget.cmdLeft

/-- The command share and the instance's cap hold the cost (R71, the third and fourth conditions of R172). -/
def costFits (s : State) (f cost : Nat) : Bool :=
  decide (cost ≤ shareLeft s) &&
  ((s.insOf f).cap == 0 || decide (cost + (s.insOf f).heatCu ≤ (s.insOf f).cap))

/-- A mailbox command is pending: submitted and not yet taken (R172, R182). -/
def mboxPending (s : State) : Bool := s.cmd.mbox.busy && !inWork s .mbox

/-- A queue may have a head of `slots` slots taken as far as its own state goes: firmware runs and no mailbox command is pending, the
queue runs and its ENABLE does not wait, the instance is ATTACHED, the function may issue requests, nothing of the queue is
unfinished, no reply waits, and the command is covered (R155, R163, R172, R180, R182, R187, R195). -/
def queueReady (s : State) (f slots : Nat) : Bool :=
  let q := (s.func f).q
  progress s && !mboxPending s && s.pwr.quench == 0 && s.present f && s.canDma f && q.enable && !q.again && q.st == .run &&
  (s.insOf f).st == .attached && q.held.isEmpty && !inWork s (.queue f) && decide (slots ≤ State.backlog q)

/-- The reply ring has room for the head's replies; a later member of an open chain needs none (R164, R180). -/
def roomFor (q : Queue) (cluster : Bool) : Bool := q.chain.isSome || decide ((if cluster then 2 else 1) ≤ State.replyRoom q)

-- The choice among the queues (R172; log entry 79).

/-- A queue that is eligible, as the choice sees it. -/
structure Cand where
  f : Nat
  level : Nat
  cost : Nat
  gain : Nat
  deficit : Nat

/-- A queue with a known head, where it is eligible (R172). -/
def candOf (s : State) (f : Nat) (h : Head) : Option Cand :=
  let q := (s.func f).q
  let x := s.insOf f
  if queueReady s f h.slots && roomFor q h.cluster && costFits s f h.cost && h.cost != 0 then
    some { f := f, level := x.level, cost := h.cost, gain := x.weight * s.cmd.quantum, deficit := q.deficit }
  else none

/-- The eligible queues of the lowest level that has one, in ring order after that level's pointer: those whose head the device has
read, and queue `f` with head `h`. -/
def eligibles (s : State) (f : Nat) (h : Head) : List Cand :=
  let all := (mPut (s.funcs.filterMap (fun x => x.2.q.head.map (fun y => (x.1, y)))) f h).filterMap (fun x => candOf s x.1 x.2)
  let level := all.foldl (fun a c => min a c.level) 4
  let l := all.filter (fun c => c.level == level)
  let ptr := s.cmd.ptrs.getD level 0
  l.filter (fun c => decide (ptr < c.f)) ++ l.filter (fun c => decide (c.f ≤ ptr))

/-- Visits that a queue needs until its deficit covers its head: the visit in progress needs none more. -/
def visitsOf (s : State) (c : Cand) : Nat :=
  if s.cmd.ptrs.getD c.level 0 = c.f ∧ s.cmd.visits.getD c.level false ∧ c.cost ≤ c.deficit then 0
  else max 1 (ceilDiv (c.cost - c.deficit) c.gain)

/-- The queue whose head is taken next: the one that needs the fewest visits, the first of them in ring order. -/
def winner (s : State) : List Cand → Option (Cand × Nat × List Cand)
  | [] => none
  | c :: t =>
    match winner s t with
    | none => some (c, visitsOf s c, [])
    | some (w, n, before) => if visitsOf s c ≤ n then some (c, visitsOf s c, []) else some (w, n, c :: before)

/-- The interpreter would take the head `h` of queue `f` next: the choice falls on it. -/
def chosen (s : State) (f : Nat) (h : Head) : Bool :=
  match winner s (eligibles s f h) with | some (w, _, _) => w.f == f | none => false

/-- Round-robin and deficit accounting of a take (R172): the queues visited on the way gain weight × quantum for each visit; the
pointer of the level moves to the queue, whose visit goes on. -/
def chargeDeficit (s : State) (f : Nat) (h : Head) : State :=
  let l := eligibles s f h
  match winner s l with
  | none => s
  | some (w, n, before) =>
    let s1 := l.foldl (fun s c =>
      let k := if c.f = w.f ∨ before.any (fun b => b.f == c.f) then n else n - 1
      s.modQueue c.f (fun q => { q with deficit := q.deficit + k * c.gain })) s
    let s2 := s1.modQueue f (fun q => { q with deficit := q.deficit - h.cost })
    { s2 with cmd := { s2.cmd with ptrs := lSet s2.cmd.ptrs w.level f, visits := lSet s2.cmd.visits w.level true } }

/-- Take the head of a queue: the consumer moves, the command counts as taken; a queue left without a command has its
deficit cleared (R172). -/
def takeHead (s : State) (f : Nat) (c : Cmd) : State :=
  let s1 := s.modQueue f (fun q => { q with
    consumer := (q.consumer + c.slots) % 65536, stalled := false, head := none, loose := q.loose && c.chain })
  let s2 := (s1.inc Ctr.taken).inc (Ctr.qTaken f)
  if State.backlog (s2.func f).q = 0 then s2.modQueue f (fun q => { q with deficit := 0 }) else s2

/-- Charge the listed cost to the heat, the instance and the queue (R170, R172); the cycles that it takes join the ledger. -/
def charge (s : State) (src : Src) (cost own : Nat) : State :=
  let b := s.budget
  let s1 := { s with budget := { b with
    cmdLeft := b.cmdLeft - cost,
    todo := if b.live then { b.todo with cmds := b.todo.cmds + own } else b.todo } }
  match src with
  | .mbox => s1
  | .queue f =>
    ((s1.modIns f (fun i => { i with heatCu := i.heatCu + cost })).modQueue f
      (fun q => { q with heatCu := q.heatCu + cost })).add (Ctr.qCu f) cost

/-- CU that a command leaves of its listed cost (R170); BURN burns all of it. -/
def spareOf (op : Op) (c : Cmd) : Nat := if op.code = 0x0F02 then 0 else min c.spare (listedCost op c)

/-- Management cycles that a command takes. -/
def ownWork (op : Op) (c : Cmd) : Nat := 100 * (listedCost op c - spareOf op c)

/-- Pieces of the host memory in which a command's slots and data lie (R154, R159, R160). -/
def cmdSpans (s : State) (f : Nat) (c : Cmd) (data : Bool) : List (Nat × Nat) :=
  let q := (s.func f).q
  ringSpans q.base 64 (2 ^ q.logSlots) q.consumer c.slots ++
  (if data && c.dataPtr then c.entries.flatMap (fun e => spanOf e.addr (e.len % 2 ^ 32)) else [])

/-- The fetch of a command's slots, pointer list and data through its function (R160): false where a translation faults, which
stops the queue (R197). -/
def fetchCmd (s : State) (f : Nat) (c : Cmd) (data : Bool) : State × Bool :=
  let s1 := seeTables s c.mem
  readSpans s1 f none (cmdSpans s1 f c data)

/-- The objects of an opcode cannot be reached: they lie in package DRAM, which is unavailable as a whole (R49). -/
def outOfReach (s : State) (code : Nat) : Bool := s.rul.dramDown && dramCodes.contains code

/-- A command's own checks and effect; one whose objects lie in package DRAM answers FAULT while that is unavailable (R49; log
entry 88). -/
def reach (op : Op) (body : Cmd → State → Body) (c : Cmd) (s : State) : Body :=
  if outOfReach s op.code then .fail { status := St.fault } else body c s

/-- Steps 5 and 6 of R166 for a command that stands alone, then its end. `s0` is the state after the take: a failing
command changes nothing of it. -/
def runAlone (op : Op) (c : Cmd) (body : Cmd → State → Body) (s0 : State) : State :=
  let spare := spareOf op c
  match checkLate c s0 with
  | .error f => refund (failAnswer (countLate s0 f) c f) c.src spare
  | .ok (target, late) =>
    match body c s0 with
    | .done st r => settle (assured s0) st c (ownWork op c) spare (.reply St.done 0 0 st.time.heat r)
    | .other st f => settle (assured s0) st c (ownWork op c) spare (.reply f.status f.field f.cause st.time.heat f.result)
    | .wait st => refund st c.src spare
    | .fail f => refund (failAnswer s0 c f) c.src spare
    | .stage st entries flow r =>
      let unit := st.staging.nextUnit
      let st' := { st with staging := { st.staging with nextUnit := unit + 1 } }
      match stageItems st' op c unit 0 target entries flow with
      | none => refund (failAnswer s0 c { status := St.noRoom, cause := Cause.pending }) c.src spare
      | some st'' => settle (assured s0) st'' c (ownWork op c) spare (.seal unit target late r)

/-- The first member of a chain: it opens the chain, or fails alone (R175 to R178). -/
def openChain (op : Op) (c : Cmd) (fn : Nat) (body : Cmd → State → Body) (s0 : State) : State :=
  let lost (s : State) : State := s.modQueue fn (fun q => { q with loose := true })
  match checkLate c s0 with
  | .error f => failAnswer (countLate (lost s0) f) c f
  | .ok (target, late) =>
    match body c s0 with
    | .fail f => failAnswer (lost s0) c f
    | .stage st entries flow r =>
      let unit := st.staging.nextUnit
      let st' := { st with staging := { st.staging with nextUnit := unit + 1 } }
      match stageItems st' op c unit 0 target entries flow with
      | none => failAnswer (lost s0) c { status := St.noRoom, cause := Cause.pending }
      | some st'' =>
        let ch : Chain := { members := [memberOf op c r], flags := c.flags, target := target,
                            lateRun := late, unit := unit, age := 0, cluster := c.cluster }
        st''.modQueue fn (fun q => { q with chain := some ch })
    | .done st r => answer st c St.done 0 { status := 0 } st.time.heat r
    | .other st f => answer st c f.status 0 f st.time.heat f.result
    | .wait st => st

/-- A later member of an open chain (R177, R178); the last one's end is the seal of the chain. -/
def joinChain (op : Op) (c : Cmd) (fn : Nat) (ch : Chain) (body : Cmd → State → Body) (s0 : State) : State :=
  let n := ch.members.length
  let all (r : Nat) : List Member := ch.members ++ [memberOf op c r]
  match body c s0 with
  | .fail f => refund (failChain s0 fn ch (all 0) (n, f) c.chain) c.src (spareOf op c)
  | .stage st entries flow r =>
    match stageItems st op c ch.unit n ch.target entries flow with
    | none => refund (failChain s0 fn ch (all 0) (n, { status := St.noRoom, cause := Cause.pending }) c.chain) c.src (spareOf op c)
    | some st' =>
      let s1 := st'.modQueue fn (fun q => { q with chain := some { ch with members := all r, age := 0 } })
      if c.chain then refund s1 c.src (spareOf op c) else settle (assured s0) s1 c (ownWork op c) (spareOf op c) .chain
  | .done st r => answer st c St.done 0 { status := 0 } st.time.heat r
  | .other st f => answer st c f.status 0 f st.time.heat f.result
  | .wait st => st

/-- A command of a queue as it is taken: a member of a failed chain is a separate command (R178). -/
def asTaken (q : Queue) (c : Cmd) : Cmd := if q.loose then { c with flags := c.flags &&& 0xFFEF } else c

/-- Members of the chain that is open on a queue. -/
def openCount (q : Queue) : Nat := match q.chain with | some ch => ch.members.length | none => 0

/-- What the header of a command tells the choice (R71, R172): one that fails steps 1 to 4 costs nothing. -/
def headOf (op : Op) (c : Cmd) (q : Queue) (s : State) : Head :=
  { cost := if (checkHeader op c s q.chain.isNone (openCount q)).isSome then 0 else listedCost op c,
    slots := c.slots, cluster := c.cluster }

/-- A head of a queue that fails one of steps 1 to 4 is taken at no cost, and answered (R71, R166, R178). -/
def refuseHead (s : State) (f : Nat) (c : Cmd) (fl : Fail) : State :=
  let q := (s.func f).q
  let s0 := takeHead s f c
  match q.chain with
  | some ch =>
    failChain s0 f ch (ch.members ++ [{ op := 0, tag := c.tag, result := 0, quiet := c.noReply }]) (ch.members.length, fl) c.chain
  | none => failAnswer (if c.chain then s0.modQueue f (fun q => { q with loose := true }) else s0) c fl

/-- A wait for reply room is told once (R164). -/
def stallReply (s : State) (f : Nat) : State :=
  if (s.func f).q.stalled then s else (s.modQueue f (fun q => { q with stalled := true })).raise Reg.cmdStatus 1 0

/-- A command of a queue (R155, R160, R164, R166, R172, R197). Where it is not eligible, or the choice falls on another, it waits:
nothing changes but CMD_STATUS.REPLY_STALL for a wait for room. -/
def runQueue (op : Op) (c0 : Cmd) (f : Nat) (body : Cmd → State → Body) (s : State) : State :=
  let q := (s.func f).q
  let c := asTaken q c0
  let h := headOf op c q s
  if !queueReady s f h.slots then s
  else if !roomFor q h.cluster then stallReply s f
  else
    match checkHeader op c s q.chain.isNone (openCount q) with
    | some fl =>
      (match fetchCmd s f c false with
       | (s1, true) => refuseHead s1 f { c with flags := c0.flags } fl
       | (s1, false) => s1)
    | none =>
      if !costFits s f h.cost || !chosen s f h then s
      else
        match fetchCmd s f c true with
        | (s1, false) => s1
        | (s1, true) =>
          let s0 := charge (takeHead (chargeDeficit s1 f h) f { c with flags := c0.flags }) (.queue f) h.cost (ownWork op c)
          match q.chain with
          | some ch => joinChain op c f ch body s0
          | none => if c.chain then refund (openChain op c f body s0) c.src (spareOf op c) else runAlone op c body s0

/-- The pending mailbox command is one that is served now: by Odjan, or by the boot ROM (R181, R185, R195). -/
def mboxServed (s : State) : Bool := mboxPending s && s.cmd.fw != .restart && s.pwr.quench == 0 && (s.cmd.fw != .run || progress s)

/-- A mailbox command of an undefined opcode is taken and answered at no cost (R71, R166, R167, R185). -/
def mboxUndefined (s : State) : State :=
  let (code, c) := mboxCmd s
  if !mboxServed s || (opOf code c s).isSome then s
  else failAnswer (s.inc Ctr.taken) c
    (if s.boot.romBankBad then { status := St.fault }
     else { status := St.badOpcode, cause := if s.cmd.fw == .run then Cause.none else Cause.lifeboat })

/-- The function through which a command's results at a host address are written: its queue's, or PF0 of the link that
owns the mailbox (R160, R181). -/
def cmdFunc (s : State) (c : Cmd) : Nat :=
  match c.src with | .queue f => f | .mbox => 2 * (s.cmd.mbox.owner - 1)

/-- The pending mailbox command (R181, R182, R185): taken before any queue, charged to the command share under Odjan, and
run outside any budget under the boot ROM; one that writes to host memory waits while its PF0 issues nothing (R132, R140; log entry
31); FAULT where the boot ROM's SRAM bank has failed (R714). -/
def runMbox (op : Op) (spare : Nat) (body : Cmd → State → Body) (s : State) : State :=
  let (code, c0) := mboxCmd s
  let c := { c0 with spare := spare }
  if !mboxServed s || code != op.code then s
  else if s.boot.romBankBad then failAnswer (s.inc Ctr.taken) c { status := St.fault }
  else
    match checkHeader op c s true 0 with
    | some fl => failAnswer (s.inc Ctr.taken) c fl
    | none =>
      let cost := listedCost op c
      if s.cmd.fw == .run && decide (shareLeft s < cost) || op.dma && !s.canDma (cmdFunc s c) then s
      else
        let s0 := (if s.cmd.fw == .run then charge s .mbox cost (ownWork op c) else s).inc Ctr.taken
        runAlone op c body s0

/-- The header slot of the head of a queue has been read, with the pointer list where it has one (R156, R169, R172): the choice
knows it from now on; an undefined opcode is taken and answered (R167); a queue without a covered command loses its deficit. -/
def headerRead (s : State) (f : Nat) (slot : List Byte) (ptrs : List PtrEntry) : State :=
  let q := (s.func f).q
  let (code, c0) := decodeHeader (.queue f) (leNat slot) [] ptrs []
  let c := asTaken q c0
  match opOf code c s with
  | some op =>
    let h := headOf op c q s
    s.modQueue f (fun q => { q with head := some h, deficit := if State.backlog q < h.slots then 0 else q.deficit })
  | none =>
    if !queueReady s f c.slots then s
    else if !roomFor q c.cluster then stallReply s f
    else refuseHead s f { c with flags := c0.flags } { status := St.badOpcode }

/-- One command of the table: those in work that are finished come to their end; then it is taken, checked and run (log entries 8
and 63). -/
def runCmd (op : Op) (c : Cmd) (body : Cmd → State → Body) (s : State) : Host.Outcome State Fault Refusal :=
  match c.src with
  | .queue f => .next (runQueue op c f (reach op body) (finishJobs s))
  | .mbox => .next (runMbox op c.spare (reach op body) (finishJobs s))

-- Results in host memory.

/-- A command writes its result to host memory and is done; where the write faults, the queue has stopped and no reply
follows (R197, R242; log entry 31). -/
def doneAt (s : State) (c : Cmd) (addr : Nat) (data : List Byte) (result : Nat) : Body :=
  match hostWrite s (cmdFunc s c) none addr data with
  | (s1, true) => .done s1 result
  | (s1, false) => .wait s1

end Sys2Proof.Machine
end

