-- ==== Sys2Proof/Machine/Cipher.lean ====
section
/-!
DEFINITION. Opcode family 0x09 and the landing of its items (spec/10_cipher.md).
-/

namespace Sys2Proof.Machine

-- Causes of family 0x09 (Table 10.11).
namespace CipCause
def slot : Nat := 0x10
def unwrap : Nat := 0x11
def noClear : Nat := 0x12
def bound : Nat := 0x13
def image : Nat := 0x14
def inst : Nat := 0x15
def replay : Nat := 0x16
def kind : Nat := 0x17
def state : Nat := 0x18
def inUse : Nat := 0x19
end CipCause

/-- AES-256-GCM under a key: ciphertext and tag (Tables 10.3 and 10.7). -/
def gcmSeal (key iv aad data : List Byte) : List Byte × List Byte :=
  aeadSeal { Ctx.fresh with alg := 2, key1 := key } iv aad data

/-- AES-256-GCM opened: the plaintext where the tag is good. -/
def gcmOpen (key iv aad data tag : List Byte) : Option (List Byte) :=
  match aeadOpen { Ctx.fresh with alg := 2, key1 := key } iv aad data tag with
  | (b, true) => some b
  | (_, false) => none

/-- Unwrap 60 bytes of Table 10.3 under a slot. -/
def unwrapKey (s : State) (n : Nat) (aad b : List Byte) : Option (List Byte) :=
  match mGet? s.cip.slots n with
  | none => none
  | some k => gcmOpen k.key (b.take 12) aad ((b.drop 12).take 32) ((b.drop 44).take 16)

/-- A loaded slot that an owner's contexts, keys and images may use (R420). -/
def slotOk (s : State) (owner n : Nat) : Bool :=
  match mGet? s.cip.slots n with
  | none => false
  | some k => n == 0 || mgrOwner k.owner || k.owner == owner

/-- KEK_LOAD (R419 to R421). -/
def bodyKekLoad (c : Cmd) (s : State) : Body :=
  let p := c.params
  let n := pf p 5 4
  let o := pf p 7 6
  let w := pf p 8 8
    if n = 0 ∨ 4095 < n then .bad 0 28
    else if 4095 < o ∨ (s.insOf o).st == .free then .bad 0 30
    else if 1 < w then .bad 0 32
    else
      if c.data.length ≠ (if w = 0 then 32 else 60) then .bad Cause.length 10
      else if (mGet? s.cip.slots n).isSome then .fail { status := St.exists_ }
      else if w = 1 && !slotOk s o (pf p 11 10) then .deny CipCause.slot
      else
        let put (key : List Byte) (under : Option Nat) : Body :=
          .done { s with cip := { s.cip with slots := mPut s.cip.slots n { owner := o, key := key, under := under } } } 0
        if w = 0 then put c.data none
        else match unwrapKey s (pf p 11 10) (leBytes 2 n ++ leBytes 2 o) c.data with
          | none => .bad CipCause.unwrap
          | some key => put key (some (pf p 11 10))

/-- KEK_LOAD (opcode 0x0901). -/
def execKekLoad (c : Cmd) (s : State) : Host.Outcome State Fault Refusal :=
  runCmd Op.kekLoad c bodyKekLoad s

/-- A slot is used by a context, by an item that will use it, or by another slot's wrapping (R452). -/
def slotUsed (s : State) (n : Nat) : Bool :=
  s.cip.ctxs.any (fun x => x.2.slot == n && x.2.st != CtxState.unset) ||
  s.cip.slots.any (fun x => x.2.under == some n) ||
  s.staging.items.any (fun it => it.op == 0x0903 && pf it.params 9 8 == n)

/-- KEK_ERASE (R419, R452). -/
def bodyKekErase (c : Cmd) (s : State) : Body :=
  let p := c.params
  let n := pf p 5 4
    if n = 0 then .deny CipCause.slot
    else if (mGet? s.cip.slots n).isNone then .missing
    else if slotUsed s n then .deny CipCause.inUse
    else .done { s with cip := { s.cip with slots := mDel s.cip.slots n } } 0

/-- KEK_ERASE (opcode 0x0902). -/
def execKekErase (c : Cmd) (s : State) : Host.Outcome State Fault Refusal :=
  runCmd Op.kekErase c bodyKekErase s

/-- Local index of the context that a command names, and its key. -/
def ctxIdx (c : Cmd) : Nat := pf c.params 3 1
def ctxOf (c : Cmd) : Nat := ctxKey c.id (ctxIdx c)

/-- The context lies within the owner's grant and is not retiring (R218; log entry 37). -/
def withCtx (s : State) (c : Cmd) (k : Body) : Body :=
  if (s.insOf c.id).grants.getD 3 0 ≤ ctxIdx c then .bad 0 25
  else if retiring s c.id 3 (ctxIdx c) then .lock 0x13
  else k

/-- An algorithm belongs to a kind (Table 10.2). -/
def algOk (kind alg : Nat) : Bool :=
  match kind with
  | 1 | 2 => decide (1 ≤ alg) && decide (alg ≤ 4)
  | 3 | 4 => alg == 1 || alg == 2
  | 5 | 6 => alg == 1 || alg == 2 || alg == 5
  | 7 => alg == 6 || alg == 7
  | _ => false

/-- Data keys as a command carries them (R422): clear, or wrapped under the context's slot. -/
def takeKeys (s : State) (owner idx slot : Nat) (wrapped two : Bool) (b : List Byte) : Option (List Byte × List Byte) :=
  if wrapped then
    let aad := leBytes 2 owner ++ leBytes 4 idx
    match unwrapKey s slot aad (b.take 60) with
    | none => none
    | some k1 =>
      if !two then some (k1, [])
      else (unwrapKey s slot aad ((b.drop 60).take 60)).map (fun k2 => (k1, k2))
  else some (b.take 32, if two then (b.drop 32).take 32 else [])

/-- Length of the two key fields of a command. -/
def keysLen (wrapped : Nat) : Nat := if wrapped = 0 then 64 else 120

/-- CTX_SET (R420, R422, R443, R444). -/
def bodyCtxSet (c : Cmd) (s : State) : Body :=
  let p := c.params
  let kind := pf p 4 4
  withCtx s c (
    if kind = 0 ∨ 7 < kind then .bad CipCause.kind 28
    else if !algOk kind (pf p 5 5) then .bad CipCause.kind 29
    else if kind = 4 ∧ pf p 7 7 < 31 then .bad 0 31
    else if 1 < pf p 10 10 then .bad 0 34
    else (
      if !slotOk s c.id (pf p 9 8) then .deny CipCause.slot
      else if c.data.length ≠ 24 + keysLen (pf p 10 10) then .bad Cause.length 10
      else if (takeKeys s c.id (ctxIdx c) (pf p 9 8) (pf p 10 10 == 1) (kind == 7) (c.data.drop 24)).isNone then
        .bad CipCause.unwrap
      else if isNow c then
        (if (s.ctx (ctxOf c)).binding.isSome then .lock CipCause.bound else .done (put c.id p c.data s) 0)
      else .stage s [c.data] false 0))
where
  /-- The context takes its settings; the expected TCP sequence number of TLS_RX is a free value (log entry 35). -/
  put (owner : Nat) (p : Params) (data : List Byte) (s : State) : State :=
    let k := ctxKey owner (pf p 3 1)
    match takeKeys s owner (pf p 3 1) (pf p 9 8) (pf p 10 10 == 1) (pf p 4 4 == 7) (data.drop 24) with
    | none => s
    | some (k1, k2) =>
      let (v, s1) := if pf p 4 4 = 6 then s.draw else (0, s)
      let n := dn data 23 16
      let l := keyLen (pf p 5 5)
      placeCtx s1 k { Ctx.fresh with
        st := .ready, kind := pf p 4 4, alg := pf p 5 5, flags := pf p 6 6, slot := pf p 9 8, key1 := k1.take l,
        key2 := k2.take l, salt := data.take 12, spi := dn data 15 12, nextSeq := n, winTop := n - 1,
        win := pf p 7 7 + 1, tcpSeq := v % 2 ^ 32, binding := (s.ctx k).binding }

/-- CTX_SET (opcode 0x0903). -/
def execCtxSet (c : Cmd) (s : State) : Host.Outcome State Fault Refusal :=
  runCmd (Op.ctxSet c) c bodyCtxSet s

/-- A staged CTX_SET lands. -/
def landCtxSet (it : Item) (s : State) : State :=
  if (s.insOf it.inst).grants.getD 3 0 ≤ pf it.params 3 1 then s else bodyCtxSet.put it.inst it.params it.data s

/-- CTX_KEY (R436 to R438, R476). -/
def bodyCtxKey (c : Cmd) (s : State) : Body :=
  let p := c.params
  withCtx s c (
    let x := s.ctx (ctxOf c)
    if 1 < pf p 16 16 then .bad 0 40
    else (
      if x.st == CtxState.unset || !(x.kind == 3 || x.kind == 5 || x.kind == 6 || x.kind == 7) then .deny CipCause.state
      else if c.data.length ≠ 12 + keysLen (pf p 16 16) then .bad Cause.length 10
      else match takeKeys s c.id (ctxIdx c) x.slot (pf p 16 16 == 1) (x.kind == 7) (c.data.drop 12) with
        | none => .bad CipCause.unwrap
        | some (k1, _) =>
          if x.kind = 6 then
            if pf p 11 4 < x.nextSeq then .fail { status := St.late }
            else .done (s.setCtx (ctxOf c) { x with nextKey := some (c.data.take 12, k1.take (keyLen x.alg)), firstRec := pf p 11 4 }) 0
          else if x.kind = 7 && oldKeyKept s c.id (ctxIdx c) then .fail { status := St.busy }
          else .stage s [c.data] false 0))

/-- CTX_KEY (opcode 0x0904): of immediate class for TLS_RX, else of strike class (R436, R437). -/
def execCtxKey (c : Cmd) (s : State) : Host.Outcome State Fault Refusal :=
  runCmd (Op.ctxKey c s) c bodyCtxKey s

/-- A key change lands (Table 10.6, R438, R447, R476): event KEY_ROTATED. -/
def landCtxKey (it : Item) (s : State) : State :=
  let p := it.params
  let k := ctxKey it.inst (pf p 3 1)
  let x := s.ctx k
  match takeKeys s it.inst (pf p 3 1) x.slot (pf p 16 16 == 1) (x.kind == 7) (it.data.drop 12) with
  | none => s
  | some (k1, k2) =>
    let iv := it.data.take 12
    let l := keyLen x.alg
    let y : Ctx := match x.kind with
      | 3 => { x with key1 := k1.take l, salt := iv, spi := pf p 15 12, nextSeq := 1, toldMargin := false, toldEnd := false }
      | 5 => { x with nextKey := some (iv, k1.take l) }
      | 7 => { x with key1 := k1.take l, key2 := k2.take l, salt := iv, gen := x.gen + 1, oldKeys := some (x.gen, x.key1, x.key2) }
      | _ => x
    if x.st == CtxState.unset then s else (s.setCtx k y).post 0x6004

/-- The binding that a command's data spells for a context of a kind (Table 10.10). -/
def bindingOf (kind : Nat) (d : List Byte) : Option Binding :=
  match kind with
  | 1 => if d.length = 2 ∧ byteAt d 0 < 16 ∧ byteAt d 1 < 4 then some (.macTx (byteAt d 0) (byteAt d 1)) else none
  | 2 => if d.length = 10 ∧ byteAt d 0 < 16 ∧ byteAt d 9 < 4 then some (.macRx (byteAt d 0) (dn d 8 1) (byteAt d 9)) else none
  | 4 => if d.length = 20 then some (.espIn (dn d 3 0) (netAt d 4 16)) else none
  | 6 =>
    if d.length = 37 ∧ (byteAt d 0 = 4 ∨ byteAt d 0 = 6) then
      some (.tlsRx (byteAt d 0) (netAt d 1 16) (netAt d 17 16) (netAt d 33 2) (netAt d 35 2))
    else none
  | _ => none

/-- A connection has the key of a TLS_RX binding (R459). -/
def connHas (s : State) (b : Binding) : Bool :=
  s.sto.conns.any (fun c => b == .tlsRx c.2.ver c.2.srcIp c.2.dstIp c.2.sport c.2.dport)

/-- A binding has the key of another one or of a connection (R418, R459). -/
def keyTaken (s : State) (b : Binding) : Bool := (s.bound b).isSome || connHas s b

/-- Receive SCs of a port (Table 10.9). -/
def scsOf (s : State) (port : Nat) : List Nat :=
  (s.cip.ctxs.filterMap (fun c => match c.2.binding with | some (.macRx p sci _) => if p = port then some sci else none | _ => none)).eraseDups

/-- A new receive SC finds no place (Table 10.9). -/
def scFull (s : State) : Binding → Bool
  | .macRx p sci _ => !(scsOf s p).contains sci && decide (64 ≤ (scsOf s p).length)
  | _ => false

/-- CTX_BIND (R414, R418, R444). -/
def bodyCtxBind (c : Cmd) (s : State) : Body :=
  let p := c.params
  let x := s.ctx (ctxOf c)
  let remove := bit (pf p 0 0) 1
  withCtx s c ((
    if !isManager c.src && x.kind != 4 && x.kind != 6 then .deny Cause.queueClass
    else if !(x.kind == 1 || x.kind == 2 || x.kind == 4 || x.kind == 6) then .bad CipCause.kind
    else
      let go (b : Option Binding) : Body :=
        if isNow c then .done (s.setCtx (ctxOf c) { x with binding := b }) 0 else .stage s [c.data] false 0
      if remove then (if x.binding.isNone then .missing else go none)
      else match bindingOf x.kind c.data with
        | none => .bad CipCause.kind
        | some b =>
          if x.binding.isSome || keyTaken s b then .fail { status := St.exists_ }
          else if scFull s b then .full 0
          else go (some b)))

/-- CTX_BIND (opcode 0x0905). -/
def execCtxBind (c : Cmd) (s : State) : Host.Outcome State Fault Refusal :=
  runCmd (Op.ctxBind c) c bodyCtxBind s

/-- A staged binding lands; a key taken meanwhile stays with its holder. -/
def landCtxBind (it : Item) (s : State) : State :=
  let k := ctxKey it.inst (pf it.params 3 1)
  let x := s.ctx k
  if x.st == CtxState.unset then s
  else if bit (pf it.params 0 0) 1 then s.setCtx k { x with binding := none }
  else match bindingOf x.kind it.data with
    | some b => if keyTaken s b then s else s.setCtx k { x with binding := some b }
    | none => s

/-- State code of a context (R415). -/
def CtxState.code : CtxState → Nat
  | .unset => 0
  | .ready => 1
  | .halted => 2
  | .fault => 3
  | .resync => 4

/-- What CTX_QUERY returns: state, kind, next sequence, authentication failures, replay drops. -/
def Ctx.view (x : Ctx) : List Nat := [x.st.code, x.kind, x.nextSeq % 2 ^ 48, x.authFails % 2 ^ 32, x.replays % 2 ^ 32]

/-- CTX_QUERY (Table 10.10). -/
def bodyCtxQuery (c : Cmd) (s : State) : Body :=
  let p := c.params
  if (s.insOf c.id).grants.getD 3 0 ≤ ctxIdx c then .bad 0 25
  else if 1 < pf p 4 4 then .bad 0 28
  else
    let x := s.ctx (ctxOf c)
    let v := if pf p 4 4 = 0 then x.view else x.snap
    .done s (v.getD 0 0 + v.getD 1 0 * 2 ^ 8 + v.getD 2 0 * 2 ^ 16 + v.getD 3 0 * 2 ^ 64 + v.getD 4 0 * 2 ^ 96)

/-- CTX_QUERY (opcode 0x0906). -/
def execCtxQuery (c : Cmd) (s : State) : Host.Outcome State Fault Refusal :=
  runCmd Op.ctxQuery c bodyCtxQuery s

/-- The 256 bytes of a context image (Table 10.8). -/
def Ctx.image (x : Ctx) : List Byte :=
  leBytes 1 x.kind ++ leBytes 1 x.alg ++ leBytes 1 x.st.code ++ leBytes 1 x.flags ++ padTo 32 x.key1 ++ padTo 32 x.key2 ++
  padTo 12 x.salt ++ leBytes 4 x.spi ++ leBytes 8 x.nextSeq ++ leBytes 8 x.winTop ++ leBytes 32 x.bitmap ++
  leBytes 1 (x.win - 1) ++ [0, 0, 0] ++ padTo 16 x.chain.acc ++ padTo 16 x.chain.ctr ++ padTo 16 x.chain.part ++
  leBytes 1 x.chain.part.length ++ [0, 0, 0] ++ leBytes 2 x.left ++ leBytes 4 x.tcpSeq ++ leBytes 8 x.firstRec ++ leBytes 54 0

/-- EXPORT_CNT and FLOOR of an instance ID (R441). -/
def countsOf (s : State) (i : Nat) : Nat × Nat := mGetD s.cip.counts i (0, 0)

/-- CTX_SAVE (R439 to R441, R448). The IV comes from the device's random generator: a free value (log entry 1). -/
def bodyCtxSave (c : Cmd) (s : State) : Body :=
  let p := c.params
  withCtx s c (
    let x := s.ctx (ctxOf c)
    let clear := pf p 4 4 == 1
    if 1 < pf p 4 4 then .bad 0 28
    else (
      if clear && !(s.insOf c.id).clearExp then .deny CipCause.noClear
      else if !clear && !slotOk s c.id (pf p 7 6) then .deny CipCause.slot
      else if x.st == CtxState.unset || x.st == CtxState.fault then .deny CipCause.state
      else
        let n := ((countsOf s c.id).1 + 1) % 2 ^ 48
        let (v, s1) := if clear then (0, s) else s.draw
        let iv := leBytes 12 v
        let head := [0x50, 0x4B, 0x43, 0x49, 1] ++ leBytes 1 (b2n (!clear)) ++ leBytes 2 (if clear then 0 else pf p 7 6) ++
          leBytes 2 c.id ++ leBytes 4 (ctxIdx c) ++ leBytes 6 n ++ iv
        let key := ((mGet? s.cip.slots (pf p 7 6)).map (·.key)).getD []
        let (body, tag) := if clear then (x.image, leBytes 16 0) else gcmSeal key iv head x.image
        let s2 := { s1 with cip := { s1.cip with counts := mPut s1.cip.counts c.id (n, (countsOf s c.id).2) } }
        doneAt s2 c (pf p 15 8) (head ++ body ++ tag ++ leBytes 16 0) n))

/-- CTX_SAVE (opcode 0x0907). -/
def execCtxSave (c : Cmd) (s : State) : Host.Outcome State Fault Refusal :=
  runCmd Op.ctxSave c bodyCtxSave s

/-- A restore is rejected (R442). -/
def rejectImage (s : State) (cause : Nat) : Body :=
  .other (((s.inc Ctr.restoreRej).raise Reg.cipStatus 4 0).post 0x6005) { status := St.badParam, cause := cause, field := 0xFF }

/-- The context that an image's body spells, under a slot (Table 10.8). What the image cannot hold of a record in progress
is free (log entry 36). -/
def ctxOfImage (b : List Byte) (slot free : Nat) : Option Ctx :=
  let kind := byteAt b 0
  let st := byteAt b 2
  if !algOk kind (byteAt b 1) || !(st == 1 || (kind == 6 && (st == 2 || st == 4))) then none
  else
    let l := keyLen (byteAt b 1)
    let left := dn b 189 188
    some { Ctx.fresh with
      st := if st = 1 then .ready else if st = 2 then .halted else .resync
      kind := kind, alg := byteAt b 1, flags := byteAt b 3 % 8, slot := slot, key1 := (b.drop 4).take l
      key2 := if kind = 7 then (b.drop 36).take l else [], salt := (b.drop 68).take 12, spi := dn b 83 80
      nextSeq := dn b 91 84, winTop := dn b 99 92, bitmap := dn b 131 100, win := byteAt b 132 + 1
      chain := { acc := (b.drop 136).take 16, ctr := (b.drop 152).take 16, part := (b.drop 168).take (byteAt b 184 % 16) }
      hdr := if left = 0 then [] else [23, 3, 3] ++ leBytes (2 + (16 - left)) free
      left := left, tcpSeq := dn b 193 190, firstRec := dn b 201 194 }

/-- CTX_RESTORE (R440 to R443). -/
def bodyCtxRestore (c : Cmd) (s : State) : Body :=
  let p := c.params
  let d := c.data
  withCtx s c ((
    if d.length ≠ 320 then .bad Cause.length 10
    else if (s.ctx (ctxOf c)).binding.isSome then .lock CipCause.bound
    else if dn d 3 0 ≠ 0x49434B50 ∨ byteAt d 4 ≠ 1 ∨ 1 < byteAt d 5 ∨ 4096 ≤ dn d 9 8 ∨ !allZero (d.drop 304) ∨
        (byteAt d 5 = 0 ∧ (dn d 7 6 ≠ 0 ∨ dn d 31 20 ≠ 0 ∨ dn d 303 288 ≠ 0)) then
      rejectImage s CipCause.image
    else if byteAt d 5 = 0 && !(s.insOf c.id).clearExp then .deny CipCause.noClear
    else if byteAt d 5 = 1 && !slotOk s c.id (dn d 7 6) then rejectImage s CipCause.slot
    else
      let key := ((mGet? s.cip.slots (dn d 7 6)).map (·.key)).getD []
      let body := (d.drop 32).take 256
      match (if byteAt d 5 = 0 then some body else gcmOpen key ((d.drop 20).take 12) (d.take 32) body ((d.drop 288).take 16)) with
      | none => rejectImage s CipCause.unwrap
      | some b =>
        let o := dn d 9 8
        let n := dn d 19 14
        let (e, fl) := countsOf s o
        let (v, s1) := s.draw
        if o ≠ c.id && !(isManager c.src && pf p 4 4 == 1) then rejectImage s CipCause.inst
        else if n < fl then rejectImage s CipCause.replay
        else match ctxOfImage b (dn d 7 6) v with
          | none => rejectImage s CipCause.kind
          | some x =>
            let s2 := { s1 with cip := { s1.cip with counts := mPut s1.cip.counts o (max e n, (n + 1) % 2 ^ 48) } }
            .done (placeCtx s2 (ctxOf c) x) n))

/-- CTX_RESTORE (opcode 0x0908). -/
def execCtxRestore (c : Cmd) (s : State) : Host.Outcome State Fault Refusal :=
  runCmd Op.ctxRestore c bodyCtxRestore s

/-- CTX_CLEAR (R205, R443). -/
def bodyCtxClear (c : Cmd) (s : State) : Body :=
  withCtx s c ((
    if (s.ctx (ctxOf c)).binding.isSome then .lock CipCause.bound
    else .done { s with cip := { s.cip with ctxs := mDel s.cip.ctxs (ctxOf c) } } 0))

/-- CTX_CLEAR (opcode 0x0909). -/
def execCtxClear (c : Cmd) (s : State) : Host.Outcome State Fault Refusal :=
  runCmd Op.ctxClear c bodyCtxClear s

/-- TLS_RESYNC (R434, R449). -/
def bodyTlsResync (c : Cmd) (s : State) : Body :=
  let p := c.params
  withCtx s c ((
    let x := s.ctx (ctxOf c)
    if x.st != .resync then .deny CipCause.state
    else .done (s.setCtx (ctxOf c) { x with resume := some (pf p 7 4, pf p 15 8) }) 0))

/-- TLS_RESYNC (opcode 0x090A). -/
def execTlsResync (c : Cmd) (s : State) : Host.Outcome State Fault Refusal :=
  runCmd Op.tlsResync c bodyTlsResync s

/-- REPLAY_SET (R441). -/
def bodyReplaySet (c : Cmd) (s : State) : Body :=
  .done { s with cip := { s.cip with counts := mPut s.cip.counts c.id (pf c.params 7 2, pf c.params 13 8) } } 0

/-- REPLAY_SET (opcode 0x090B). -/
def execReplaySet (c : Cmd) (s : State) : Host.Outcome State Fault Refusal :=
  runCmd Op.replaySet c bodyReplaySet s

/-- SECY_SET (R423, R444). -/
def bodySecySet (c : Cmd) (s : State) : Body :=
  let p := c.params
  if 15 < pf p 1 1 then .bad 0 25
  else if pf p 3 3 = 0 ∨ 4 < pf p 3 3 then .bad 0 27
  else if 2 < pf p 4 4 then .bad 0 28
  else if pf p 5 5 ≠ 0 ∧ pf p 5 5 ≠ 30 ∧ pf p 5 5 ≠ 50 then .bad 0 29
  else if 3 < pf p 6 6 then .bad 0 30
  else .stage s [c.data] false 0

/-- SECY_SET (opcode 0x090C). -/
def execSecySet (c : Cmd) (s : State) : Host.Outcome State Fault Refusal :=
  runCmd Op.secySet c bodySecySet s

/-- SECY_SET lands (R426). -/
def landSecySet (it : Item) (s : State) : State :=
  let p := it.params
  let f := pf p 2 2
  let y : SecY :=
    { enable := bit f 0, protect := bit f 1, replay := bit f 2, includeSci := bit f 3, suite := pf p 3 3, validate := pf p 4 4,
      offset := pf p 5 5, an := pf p 6 6, window := pf p 10 7, ownSci := pf p 18 11, peerSci := pf p 26 19 }
  { s with cip := { s.cip with secys := mPut s.cip.secys (pf p 1 1) y } }

end Sys2Proof.Machine
end

