-- ==== Sys2Proof/Machine/Pipeline.lean ====
section
/-!
DEFINITION. The packet pipeline: from a frame and its source to the copies offered to admission (R28 to R30, R42, R199,
R269, R329 to R353, R374 to R376, R413, R417, R460, R568, R581).
-/

namespace Sys2Proof.Machine

/-- A frame in a pipeline: its content as received with the edits made so far, and what its copies carry. `hold` is the triad slot
whose gap buffer takes it; `mir` the mirror session whose copy it is; `copy` a copy of MIRROR or COPY_TO_PROC; `exc` its
EXC_REASON; `main` the frame itself on its way to one target; `kept` the owner that a frame on its second pass keeps (R380). -/
structure Pkt where
  id : Nat
  bytes : List Byte
  len : Nat
  edits : List Edit
  src : Nat
  ing : Option Nat
  tail : Bool
  stamp : Option Stamp
  tx : Option TxInfo
  cip : List Byte
  sto : List Byte
  cls : Nat
  colour : Nat
  hash : Nat
  record : List Byte
  inner : Bool
  copy : Bool
  main : Bool
  exc : Nat
  mir : Option Nat
  hold : Option Nat
  ecc : List EccHit
  sat : Bool
  policed : Nat
  kept : Option Nat
deriving DecidableEq, Repr

/-- The content after the edits so far. -/
def Pkt.now (p : Pkt) : List Byte := p.edits.foldl (fun b e => e.apply b) p.bytes

/-- Counters of a triad slot (Table 14.8). -/
def triCtr (t off : Nat) : Nat := 0x101100 + 0x80 * t + off

/-- The frame that a packet is in the packet buffer, for a destination (R376, R377, R379). -/
def Pkt.frame (s : State) (p : Pkt) (d : Dest) : Frame :=
  let owner := p.kept.getD (match d with | .queue i _ _ => i | .port _ => p.src)
  let cut := p.edits.foldl (fun n e => match e with | .cut k => min n k | _ => n) p.len
  let port := p.ing.getD 0
  { id := p.id, bytes := p.bytes, len := p.len, edits := p.edits, src := p.src, owner := owner,
    region := if p.copy then 3 else if p.hold.isSome then 2 else regionOf owner,
    cells := cellsFor (if p.tail then cut else (s.mac port).cfg.maxFrame), ing := p.ing, cls := p.cls, colour := p.colour,
    dest := d, tail := p.tail, slag := false, hash := p.hash, record := p.record, stamp := p.stamp, lateTs := false,
    cip := p.cip, sto := p.sto, placed := [], holes := [], tx := p.tx, crypt := false, inner := p.inner }

/-- A transmit frame that goes nowhere is completed all the same (R247). -/
def endPkt (s : State) (p : Pkt) : State :=
  match p.tx with
  | some t => completeTx s t 0 false none false p.cip p.sto
  | none => s

/-- A queue pair that can take no frame (R132, R144, R216, R248). -/
def notReady (s : State) (i k : Nat) : Bool :=
  (s.qp i k).st != .running || (s.func i).d3 || (s.func i).inFlr || cqFull (s.qp i k)

/-- A receive completion without data: no descriptor is consumed (R415, R453), so its INDEX names none and is left open (log
entry 85). -/
def completeBare (s0 : State) (f : Frame) (cip : List Byte) : State :=
  match f.dest with
  | .queue i k _ =>
    let (v, s) := s0.draw
    cqIssue s i k (cqEntry 2 k (v % 2 ^ (s.qp i k).logRx) (16 * b2n (bit (dn f.record 2 2) 0)) f.len f.hash f.stamp f.src f.cls
      f.colour (dn f.record 2 2) cip noSto)
  | .port _ => s0

/-- A frame that selects a context that is not READY: dropped, counted but for a context damaged just now, and completed
with BAD_CTX (R415, R453). -/
def badCtxRx (s : State) (f : Frame) (k op : Nat) (ecc : List EccHit) : State :=
  completeBare (countBadCtx s k ecc) f (cipStatus (k % 1048576) op 16 none)

/-- The connection that a segment belongs to (R459, R460). -/
def connMatch (c : Conn) (l : Layer) : Bool :=
  c.ver == (if l.v4 then 4 else 6) && c.srcIp == l.sip && c.dstIp == l.dip && c.sport == l.sport && c.dport == l.dport

/-- The receive bindings of the owner of the queue that a frame is delivered to (R417, R427, R431, R460, R472): the frame
as delivered, or none where it is dropped. -/
def bindRx (s : State) (f : Frame) (ecc : List EccHit) (sat : Bool) : State × Option Frame :=
  match f.dest with
  | .port _ => (s, some f)
  | .queue i n _ =>
    let p := parse s.ports f.bytes
    let l := p.layer f.inner
    let satDrop (s : State) : State × Option Frame :=
      (((s.inc Ctr.satDrop).inc (Ctr.admDrop (rootOf s f.dest) f.cls)).raise Reg.cipStatus 5 0, none)
    let esp := if p.has 10 then s.bound (.espIn (netAt f.bytes p.offTerm 4) l.dip) else none
    match esp with
    | some k =>
      if k / 1048576 ≠ i then (s, some f)
      else if (s.ctx k).st != .ready then (badCtxRx s f k 2 ecc, none)
      else if sat then satDrop s
      else
        (match espIn s k l p.offTerm f.bytes with
         | (s1, some (b, c)) => (s1, some { f with bytes := b, cip := c })
         | (s1, none) => (s1, none))
    | none =>
      let tcp := (l.v4 || l.v6) && l.proto == 6 && l.offL4 != 0xFF && !l.frag
      if !tcp then (s, some f)
      else
        let at_ := l.offL4 + byteAt f.bytes (l.offL4 + 12) / 16 * 4
        let last := ipEnd l f.bytes
        let seq := netAt f.bytes (l.offL4 + 4) 4
        let data := (f.bytes.take last).drop at_
        let ver := if l.v4 then 4 else 6
        match s.bound (.tlsRx ver l.sip l.dip l.sport l.dport) with
          | some k =>
            if k / 1048576 ≠ i || data.isEmpty then (s, some f)
            else if (s.ctx k).st == CtxState.unset || (s.ctx k).st == CtxState.fault then (badCtxRx s f k 3 ecc, none)
            else if sat then satDrop s
            else
              let (s1, out, st) := tlsRx s k seq data
              (s1, some { f with bytes := putAt f.bytes at_ out, cip := st })
          | none =>
            match s.conn? (State.qpKey i n) with
            | none => (s, some f)
            | some c =>
              if !connMatch c l then (s, some f)
              else if sat then satDrop s
              else match stoRx s (State.qpKey i n) seq (ecc.contains (.conn (State.qpKey i n))) data with
                | (s1, none) => (completeBare s1 f (cipStatus 0 0 16 none), none)
                | (s1, some r) =>
                  (s1, some { f with bytes := putAt f.bytes at_ r.out, sto := r.status, placed := r.placed,
                                     holes := r.holes.map (fun h => (at_ + h.1, h.2)) })

/-- A triad slot with an SSP whose gate an egress frame of the service instance meets closed (R568). -/
def egressGate (s : State) (p : Pkt) (port : Nat) : Option Nat :=
  (s.tri.slots.find? (fun t => t.2.cfg.ssp && t.2.cfg.port == port && t.2.cfg.svc == p.src &&
    netAt p.now 6 6 == t.2.cfg.mac && t.2.st != .owner)).map (·.1)

/-- The triad slot with an SSP that an ingress frame belongs to (R568): port, destination MAC and VLAN; a TCI of 0 is
none. -/
def ingressSlot (s : State) (port : Nat) (b : List Byte) : Option (Nat × Triad) :=
  s.tri.slots.find? (fun t => t.2.cfg.ssp && t.2.cfg.port == port && netAt b 0 6 == t.2.cfg.mac &&
    (t.2.cfg.tci == 0 || (tagged b && netAt b 14 2 % 4096 == t.2.cfg.tci % 4096)))

/-- The gap buffer of a triad slot, 64 KiB charged to the WIRE region, has room for a frame (R581). -/
def gapRoom (s : State) (t : Nat) (f : Frame) : Bool :=
  match mGet? s.tri.slots t with
  | none => false
  | some x => decide (cellsOf x.gap (fun _ => true) + f.cells ≤ 256) && decide (f.cells ≤ regionFree s 2)

/-- A frame enters the gap buffer of a triad slot (R581). -/
def holdFrame (s : State) (t : Nat) (f : Frame) : State :=
  match mGet? s.tri.slots t with
  | none => s
  | some x =>
    ({ s with tri := { s.tri with slots := mPut s.tri.slots t { x with gap := x.gap ++ [f] } } }).inc (triCtr t 0x48)

/-- Hand a frame to admission, or to the gap buffer of the slot that holds it: whether it was taken (R378, R581). -/
def place (s : State) (hold : Option Nat) (f : Frame) : State × Bool :=
  match hold with
  | some t => (holdFrame s t f, true)
  | none => (admitFrame s f, (refusal s f).isNone && decide (s.pwr.quench < 2))

/-- Offer a frame to admission at its destination, or drop it for the destination's sake (R199, R216, R248, R269, R324,
R343): whether it was admitted. -/
def offer (s : State) (p : Pkt) (d : Dest) : State × Bool :=
  let f := p.frame s d
  let gone (s : State) : State × Bool := (endPkt s p, false)
  match d with
  | .port n =>
    match egressGate s p n with
    | some t => gone (s.inc (triCtr t 0x40))
    | none =>
      if (s.port n).cfg.isNone then gone (s.inc Ctr.rulBadTarget)
      else if (s.port n).st == .banked then
        gone (if p.tail then s.inc (Ctr.banked n)
              else { s with tm := { s.tm with tailWait := s.tm.tailWait ++ [(p.id, .banked n)] } })
      else place s none f
  | .queue i k _ =>
    let st := (s.insOf i).st
    if st == .free then gone (s.inc Ctr.rulBadTarget)
    else if st != .attached then gone (s.inc (Ctr.insDrop i))
    else if (s.insOf i).grants.getD 0 0 ≤ k then gone (s.inc Ctr.rulBadTarget)
    else if notReady s i k then gone (s.inc (Ctr.notReady i))
    else if p.hold.any (fun t => !gapRoom s t f) then gone (s.inc (triCtr (p.hold.getD 0) 0x50))
    else if p.main && p.tail then
      (match bindRx s f p.ecc p.sat with
       | (s1, none) => gone s1
       | (s1, some g) => place s1 p.hold g)
    else place s p.hold { f with crypt := p.main && !p.tail }

/-- Where a decision sends a frame. -/
inductive Target where
  | nowhere
  | port (p : Nat)
  | queue (i k exc : Nat)
  | tunnel (t : Nat)
deriving DecidableEq, Repr

/-- The queue of a QUEUE target: 0xFFFF spreads by hash over the target instance's RSS_BITS (R351). -/
def spread (s : State) (i q hash : Nat) : Nat := if q = 0xFFFF then hash % 2 ^ (s.srcCfg i).rssBits else q

/-- A target by type (Tables 8.6, MIRROR_SET, BD_CONFIG). -/
def targetOf (s : State) (ttype id q hash : Nat) : Target :=
  match ttype with
  | 1 => .port id
  | 2 => .queue id (spread s id q hash) 0
  | 3 => .tunnel id
  | _ => .nowhere

/-- The source ID of a target, where it is a frame's own source (R345). -/
def isSource (src : Nat) : Target → Bool
  | .port p => src == srcPort p
  | .queue i _ _ => src == i
  | _ => false

/-- What a pass of a pipeline goes by: the source of the pass, its default BD, its key layer, and whether it is the first
(R352). -/
structure PassIn where
  src : Nat
  bd : Nat
  inner : Bool
  first : Bool
deriving DecidableEq, Repr

/-- Class of a frame (R374) and input colour (R375). -/
def classOf (s : State) (src : Nat) (act : Action) (l : Layer) : Nat :=
  let c := s.srcCfg src
  if act.setClass then act.cls
  else if c.trust = 1 ∧ 0 < l.tags then l.tci1 / 8192
  else if c.trust = 2 ∧ (l.v4 ∨ l.v6) then l.tos / 32
  else c.defClass

def colourOf (s : State) (src : Nat) (l : Layer) : Nat :=
  if (s.srcCfg src).colourDscp && (l.v4 || l.v6) then
    (match bits l.tos 4 3 with | 2 => 1 | 3 => 2 | _ => 0)
  else 0

/-- Apply a policer to a frame, at most two on one frame (R344, R389 to R391): the packet, or none where it is dropped. -/
def policePkt (s : State) (owner : Nat) (act : Action) (p : Pkt) : State × Option Pkt :=
  if !act.police ∨ 2 ≤ p.policed then (s, some p)
  else match police s (policerKey owner act.policer) p.len p.colour with
    | (s1, none) => (s1, none)
    | (s1, some (k, d)) =>
      (s1, some { p with policed := p.policed + 1, colour := k,
                         edits := p.edits ++ (match d with | some x => [.remark x] | none => []) })

/-- A copy for the Hearth (R350): into the capture ring, dropped when the ring is full. -/
def capture (s : State) (record bytes : List Byte) : State :=
  if 64 ≤ s.rul.capture.length then s.inc Ctr.rulProcDrop
  else { s with rul := { s.rul with capture := s.rul.capture ++ [(record, bytes.take 2048)] } }

/-- COPY_TO_PROC (R342, R350): one copy with the parse record, EXC_REASON 1, or 4 for the Hearth. -/
def copyToProc (s : State) (act : Action) (p : Pkt) (q : Parse) : State :=
  if act.proc = 0 then
    let rec4 := q.record p.hash 4
    if p.tail then capture s rec4 p.now
    else { s with tm := { s.tm with tailWait := s.tm.tailWait ++ [(p.id, .hearth rec4)] } }
  else
    let i := if act.proc = 2 then 2 else 0
    let c := { p with copy := true, main := false, exc := 1, record := q.record p.hash 1, tx := none, hold := none,
                      cip := noCip, sto := noSto }
    let (s1, ok) := offer s c (.queue i act.aux 1)
    if ok then s1 else s1.inc Ctr.rulProcDrop

/-- A session is due to copy this frame: one in N (R349). -/
def mirrorDue (s : State) (n : Nat) : State × Option Mirror :=
  match mGet? s.rul.mirrors n with
  | none => (s, none)
  | some m =>
    let due := m.seen = 0
    let m' := { m with seen := if m.ratio ≤ m.seen + 1 then 0 else m.seen + 1 }
    ({ s with rul := { s.rul with mirrors := mPut s.rul.mirrors n m' } }, if due then some m else none)

/-- A mirror copy's fate is counted (R349). -/
def mirrorCount (s : State) (n : Nat) (ok : Bool) : State := s.inc (if ok then Ctr.mirSent n else Ctr.mirDrop n)

/-- Learning at the switch stage (R346). -/
def learnAt (s : State) (i : PassIn) (p : Pkt) (bd mac : Nat) (decapped : Bool) : State :=
  let ok := i.first && (s.srcCfg i.src).learn && decide (i.src < 0x2000) && decide (0 < (s.bdCfg bd).limit) &&
    mac != 0 && !bit mac 40 && !decapped
  if !ok then s
  else if p.tail then learn s i.src bd mac
  else { s with tm := { s.tm with tailWait := s.tm.tailWait ++ [(p.id, .learn i.src bd mac)] } }

/-- What a pass has decided for the frame itself: the packet as edited and policed, and its targets. -/
structure Routed where
  s : State
  p : Pkt
  targets : List Target
  /-- Sessions that copy the frame, by the actions of its entries. -/
  mirrors : List Nat
deriving DecidableEq, Repr

/-- Drop the frame itself. -/
def Routed.drop (r : Routed) : Routed := { r with targets := [] }

/-- Apply a rewrite profile (R353); a TTL that would reach 0 drops the frame. -/
def applyRewrite (s : State) (id : Nat) (p : Pkt) : State × Option Pkt :=
  let prof := mGetD s.rul.rewrites id (padTo 32 [])
  if ttlEnds prof p.now then (s.inc Ctr.rulTtl, none) else (s, some { p with edits := p.edits ++ [.rewrite prof] })

/-- Extra copies of an action. -/
def extraCopies (s : State) (act : Action) (orig : Pkt) (q : Parse) : State × List Nat :=
  if act.act = 2 then (copyToProc s act orig q, [])
  else if act.act = 3 then (s, [act.aux % 64])
  else (s, [])

/-- An L2 entry that the switch stage hits (R344, R345). -/
def switchHit (s : State) (i : PassIn) (act0 : Action) (p orig : Pkt) (q : Parse) (pos : Nat) (f : Flow) : Routed :=
  let a := f.action
  let s1 := countEntry (flowHit s pos) (.flow pos) p.len
  let tgt := targetOf s1 a.ttype a.target a.queue p.hash
  if isSource i.src tgt then { s := s1.inc Ctr.rulSameSrc, p := p, targets := [], mirrors := [] }
  else if a.act = 0 then { s := s1, p := p, targets := [], mirrors := [] }
  else
    let (s2, ms) := extraCopies s1 a orig q
    match policePkt s2 f.owner a p with
    | (s3, none) => { s := s3, p := p, targets := [], mirrors := ms }
    | (s3, some p3) =>
      if a.rewrite && !act0.rewrite then
        (match applyRewrite s3 a.rewriteId p3 with
         | (s4, none) => { s := s4, p := p3, targets := [], mirrors := ms }
         | (s4, some p4) => { s := s4, p := p4, targets := [tgt], mirrors := ms })
      else { s := s3, p := p3, targets := [tgt], mirrors := ms }

/-- The members of a flood group but the frame's own source (R345). -/
def floodTargets (s : State) (i : PassIn) (bd hash : Nat) : List Target :=
  ((s.bdCfg bd).members.map (fun m => targetOf s m.ttype m.id m.queue hash)).filter (fun t => !isSource i.src t)

/-- The switch stage (R345 to R347). -/
def switchStage (s : State) (i : PassIn) (act : Action) (p orig : Pkt) (q : Parse) (decapped : Bool) : Routed :=
  let bd := if act.target = 0 then i.bd else act.target
  let l := q.layer (i.inner || decapped)
  let s1 := learnAt s i p bd l.smac decapped
  let at_ (ts : List Target) : Routed := { s := s1, p := p, targets := ts, mirrors := [] }
  if bit l.dmac 40 then at_ (floodTargets s1 i bd p.hash)
  else match flowFind s1 (l2Key bd l.dmac) with
    | some (pos, f) => switchHit s1 i act p orig q pos f
    | none =>
      match (s1.bdCfg bd).unknown with
      | 0 => at_ (floodTargets s1 i bd p.hash)
      | 2 => { s := s1, p := { p with exc := 2, record := q.record p.hash 2 },
               targets := [.queue (s1.bdCfg bd).excInst (s1.bdCfg bd).excQueue 2], mirrors := [] }
      | _ => { s := s1.inc Ctr.rulUnknown, p := p, targets := [], mirrors := [] }

/-- The decision of a pass (R333, R338, R339, R342, R344, R348, R374, R375): lookup, counting, class and colour, policing,
targets. No ordered entry is looked up for a copy that a tunnel target passes once more (R342, R352). -/
def decide_ (s : State) (i : PassIn) (p0 : Pkt) : Routed :=
  let b := p0.now
  let q := parse s.ports b
  let s1 := s.inc Ctr.prsFrames
  let s2 := if q.reason = 0 then s1 else s1.inc (Ctr.prsPartial q.reason)
  let s3 := if q.csumBad then s2.inc Ctr.prsCsum else s2
  let l := q.layer i.inner
  let w := if i.first || !p0.copy then ruleWinner s3 (leNat (orderedKey q i.src i.bd i.inner)) else none
  let wDecap := match w with | some (_, r) => r.action.decap && q.has 9 | none => false
  let f := if i.first then
      (flowKey q i.src (s3.srcCfg i.src).flowKey (i.inner || wDecap)).bind (flowFind s3)
    else none
  let s4 := match f with | some (pos, _) => flowHit s3 pos | none => s3
  let d := decisive w f
  let (act, owner) := ((d.bind (entryOf s4)).getD (defaultAction, 0))
  let s5 := match d with | some e => countEntry s4 e p0.len | none => s4
  let hash := if i.first then flowHash l else p0.hash
  let orig := { p0 with
    hash := hash, record := if i.first then q.record hash 0 else p0.record,
    cls := if i.first then classOf s5 i.src act l else p0.cls,
    colour := if i.first then colourOf s5 i.src l else p0.colour, inner := i.inner }
  if act.act = 0 then { s := s5, p := orig, targets := [], mirrors := [] }
  else
    let (s6, ms) := extraCopies s5 act orig q
    let decapped := act.decap && q.has 9
    let p1 := if decapped then { orig with edits := orig.edits ++ [.strip (decapLen q b)] } else orig
    let out (r : Routed) : Routed := { r with mirrors := ms ++ r.mirrors }
    match (if act.rewrite then applyRewrite s6 act.rewriteId p1 else (s6, some p1)) with
    | (s7, none) => { s := s7, p := p1, targets := [], mirrors := ms }
    | (s7, some p2) =>
      match policePkt s7 owner act p2 with
      | (s8, none) => { s := s8, p := p2, targets := [], mirrors := ms }
      | (s8, some p3) =>
        let p4 := if i.first then p3 else { p3 with colour := p0.colour }
        match act.ttype with
        | 4 => out (switchStage s8 i act p4 orig q decapped)
        | t => { s := s8, p := p4, targets := [targetOf s8 t act.target act.queue hash], mirrors := ms }

/-- UDP destination port of a tunnel profile (Table 8.12). -/
def tunnelPort (s : State) (prof : List Byte) : Nat :=
  let d := netAt prof 56 2
  if d ≠ 0 then d else if byteAt prof 0 % 4 = 2 then s.rul.geneve else s.rul.vxlan

/-- Send a packet to its targets. The first carries the transmit completion; a tunnel target encapsulates the packet and
passes it once more, where a tunnel target drops it (R352). `n` passes are left. Answers whether a copy was admitted. -/
def sendTo : Nat → State → PassIn → Pkt → Target → State × Bool
  | _, s, _, p, .nowhere => (endPkt s p, false)
  | _, s, _, p, .port k => offer s p (.port k)
  | _, s, _, p, .queue i k e => offer s { p with exc := e } (.queue i k e)
  | 0, s, _, p, .tunnel _ => (endPkt (s.inc Ctr.rulReencap) p, false)
  | _ + 1, s, _, p, .tunnel t =>
    match mGet? s.rul.tunnels t with
    | none => (endPkt (s.inc Ctr.rulBadTarget) p, false)
    | some prof =>
      let p1 := { p with edits := p.edits ++ [.encap prof p.hash (tunnelPort s prof)], main := false, kept := some p.src }
      let i : PassIn := { src := srcTunnel t, bd := dn prof 23 22 % 4096, inner := false, first := false }
      let r := decide_ s i p1
      let s1 := r.mirrors.foldl (fun s m =>
        match mirrorDue s m with
        | (s', none) => s'
        | (s', some x) =>
          let c := { p1 with copy := true, tx := none, hold := none,
                             edits := if x.trunc = 0 then p1.edits else p1.edits ++ [.cut x.trunc] }
          let (s2, ok) := sendTo 0 s' i c (targetOf s' x.ttype x.target x.queue p1.hash)
          mirrorCount s2 m ok) r.s
      match r.targets with
      | [] => (endPkt s1 r.p, false)
      | t0 :: ts =>
        let (s2, ok) := sendTo 0 s1 i r.p t0
        ts.foldl (fun a t => let (s', k) := sendTo 0 a.1 i { r.p with tx := none } t; (s', a.2 || k)) (s2, ok)

/-- Mirror copies of a frame on its first pass (R349). -/
def sendMirrors (s : State) (i : PassIn) (orig : Pkt) (ms : List Nat) : State :=
  ms.foldl (fun s m =>
    match mirrorDue s m with
    | (s', none) => s'
    | (s', some x) =>
      let c := { orig with copy := true, main := false, tx := none, hold := none, cip := noCip, sto := noSto,
                           edits := if x.trunc = 0 then orig.edits else orig.edits ++ [.cut x.trunc] }
      let (s2, ok) := sendTo 1 s' i c (targetOf s' x.ttype x.target x.queue c.hash)
      mirrorCount s2 m ok) s

/-- Pass a frame through a pipeline (R28, R339, R342, R568). -/
def pipeline (s0 : State) (p0 : Pkt) : State :=
  let s := meetEcc s0 p0.ecc
  let c := s.srcCfg p0.src
  let i : PassIn := { src := p0.src, bd := c.bd, inner := c.inner, first := true }
  let r := decide_ s i p0
  let orig := { p0 with cls := r.p.cls, colour := colourOf s p0.src ((parse s.ports p0.now).layer c.inner), hash := r.p.hash,
                        record := r.p.record, inner := c.inner }
  let s1 := sendMirrors r.s i orig r.mirrors
  let gate := match p0.ing with | some port => ingressSlot s1 port p0.bytes | none => none
  match gate with
  | some (t, x) =>
    if x.st == TriState.owner then go s1 i r none
    else if x.inGap then go s1 i r (some t)
    else endPkt (s1.inc (triCtr t 0x40)) p0
  | none => go s1 i r none
where
  /-- Send the frame itself: alone to one target, or a copy to each. -/
  go (s : State) (i : PassIn) (r : Routed) (hold : Option Nat) : State :=
    match r.targets with
    | [] => endPkt s r.p
    | [t] => (sendTo 1 s i { r.p with main := true, hold := hold } t).1
    | t :: ts =>
      ts.foldl (fun s t => (sendTo 1 s i { r.p with tx := none, hold := hold } t).1)
        (sendTo 1 s i { r.p with hold := hold } t).1

/-- The pipelines have no room for a frame: it is dropped at ingress admission, per class (R42, R392). The class is the
source's default; the root is the receiving port or the instance's link. -/
def overrunDrop (s : State) (src : Nat) : State :=
  let r := if 0x1000 ≤ src then src % 16 else 16 + s.linkOf src
  s.inc (Ctr.admDrop r (s.srcCfg src).defClass)

end Sys2Proof.Machine
end

