-- ==== Sys2Proof/Machine/MacOps.lean ====
section
/-!
DEFINITION. The MAC of a port as its link comes and goes, its gate lists, and the frames whose tail is awaited (R291 to
R294, R301 to R310, R323).
-/

namespace Sys2Proof.Machine

/-- Change every frame held in queues and gap buffers. -/
def mapHeld (s : State) (g : Frame → Frame) : State :=
  let qs := s.tm.queues.map (fun q => (q.1, { q.2 with frames := q.2.frames.map g }))
  let ts := s.tri.slots.map (fun (t : Nat × Triad) => (t.1, { t.2 with gap := t.2.gap.map g }))
  { s with tm := { s.tm with queues := qs }, tri := { s.tri with slots := ts } }

/-- Remove held frames, in queues and gap buffers, without any notice (R293). -/
def removeHeld (s : State) (p : Frame → Bool) : State :=
  let ts := s.tri.slots.map (fun (t : Nat × Triad) => (t.1, { t.2 with gap := t.2.gap.filter (fun f => !p f) }))
  dropQueued { s with tri := { s.tri with slots := ts } } (fun _ f => p f) (fun s _ => s)

/-- What waited for a tail is done (R324, R346, R350). -/
def doTail (s : State) (full : List Byte) : TailAct → State
  | .learn src bd mac => learn s src bd mac
  | .banked p => s.inc (Ctr.banked p)
  | .hearth r => capture s r full

/-- Forget a CUT frame of a port. -/
def endCut (s : State) (p id : Nat) : State :=
  { s with tm := { s.tm with cuts := mDel s.tm.cuts p, tailWait := s.tm.tailWait.filter (fun w => w.1 != id) } }

/-- The reports of a port's classes, after frames of it have gone (R381). -/
def reviewPort (s : State) (p : Nat) : State := (List.range 8).foldl (fun s c => reviewIng s p c) s

/-- A CUT frame turns out slag: every copy goes, and one counter advances (R292 to R294). -/
def slagCut (s : State) (p id ctr : Nat) : State :=
  reviewPort ((endCut (removeHeld s (fun f => f.id == id)) p id).inc (macCtr p ctr)) p

/-- The configuration that a CUT frame began under is in force for what `f` does (R30, R47); afterwards what strikes had replaced
of it stands as it did. -/
def underOld (s : State) (c : CutFrame) (f : State → State) : State :=
  let o := c.old
  let s1 := f { s with
    rul := { s.rul with bds := mOver s.rul.bds o.bds, vxlan := c.ports.getD 0 0, geneve := c.ports.getD 1 0, nvme := c.ports.getD 2 0 },
    cip := { s.cip with ctxs := mOver s.cip.ctxs o.ctxs },
    sto := { s.sto with conns := mOver s.sto.conns o.conns, nss := mOver s.sto.nss o.nss } }
  { s1 with
    rul := { s1.rul with bds := mBack s1.rul.bds s.rul.bds o.bds, vxlan := s.rul.vxlan, geneve := s.rul.geneve, nvme := s.rul.nvme },
    cip := { s1.cip with ctxs := mBack s1.cip.ctxs s.cip.ctxs o.ctxs },
    sto := { s1.sto with conns := mBack s1.sto.conns s.sto.conns o.conns, nss := mBack s1.sto.nss s.sto.nss o.nss } }

/-- A CUT frame's tail is good: its copies are whole, its surplus cells are released (R379), and what waited is done. -/
def goodCut (s : State) (p id : Nat) (full : List Byte) (ecc : List EccHit) (sat : Bool) : State :=
  let whole (f : Frame) : Frame :=
    let n := f.edits.foldl (fun n e => match e with | .cut k => min n k | _ => n) f.len
    if f.id == id then { f with bytes := full, tail := true, cells := cellsFor n } else f
  let waits := s.tm.tailWait.filter (fun w => w.1 == id)
  let s1 := endCut (mapHeld (meetEcc s ecc) whole) p id
  let s2 := match (heldFrames s1).find? (fun f => f.id == id && f.crypt) with
    | none => s1
    | some f =>
      match bindRx s1 f ecc sat with
      | (s', some g) => mapHeld s' (fun x => if x.id == id && x.crypt then { g with crypt := false } else x)
      | (s', none) => removeHeld s' (fun x => x.id == id && x.crypt)
  waits.foldl (fun s w => doTail s full w.2) (reviewPort s2 p)

/-- Nanoseconds that bytes take on a port at its current speed, rounded up (R309). -/
def wireNs (s : State) (p n : Nat) : Nat := if gbps (s.port p).speed = 0 then 0 else ceilDiv (n * 8) (gbps (s.port p).speed)

-- Preemption (R301, R304). Bytes of a fragment are counted by the reference time since it began; a final fragment has at least 64
-- bytes (log entry 93).

/-- The shortest non-final fragment of a port (R301). -/
def minFrag (s : State) (p : Nat) : Nat := 64 * (1 + (s.mac p).cfg.addFrag)

/-- Bytes of the present fragment that are on the wire. -/
def Grant.out (s : State) (p : Nat) (g : Grant) : Nat :=
  min (g.frame.sentLen - g.sent) ((s.time.refNow - g.since) * gbps (s.port p).speed / 8)

/-- What is left of the frame after `n` bytes of its present fragment makes a final fragment. -/
def Grant.splits (g : Grant) (n : Nat) : Bool := decide (g.sent + n + 64 ≤ g.frame.sentLen)

/-- The preemptable frame may be interrupted now: it stands interrupted and its fragment has ended, or its present fragment may end
here (R301). -/
def Grant.yields (s : State) (p : Nat) (g : Grant) : Bool :=
  if g.cutShort then decide (g.freeAt ≤ s.time.refNow)
  else decide (minFrag s p ≤ g.out s p) && g.splits (g.out s p)

/-- The present fragment ends after `n` bytes. -/
def Grant.stop (s : State) (p n : Nat) (g : Grant) : Grant :=
  if g.cutShort then g else { g with cutShort := true, sent := g.sent + n, freeAt := g.since + wireNs s p n }

/-- An interrupted frame goes on with its next fragment. -/
def Grant.resume (s : State) (g : Grant) : Grant :=
  if g.cutShort then { g with cutShort := false, frags := g.frags + 1, since := s.time.refNow } else g

/-- The frame at the head of what is sent on a port goes on, unless HOLD keeps it (R304). -/
def resumeTop (s : State) (p : Nat) : State :=
  match mGetD s.tm.sending p [] with
  | [] => s
  | g :: t => if (s.mac p).hold then s else { s with tm := { s.tm with sending := mPut s.tm.sending p (g.resume s :: t) } }

/-- Send the first verify mPacket of an attempt, or make preemption active without (R302); an interrupted frame completes
(R316). -/
def startVerify (s : State) (p : Nat) : State :=
  let m := s.mac p
  if !m.cfg.preEn then resumeTop (s.setMac p { m with verify := 0, preActive := false, hold := false }) p
  else if m.cfg.verifyDis then s.setMac p { m with verify := 0, preActive := true }
  else resumeTop ((s.setMac p { m with verify := 2, verifySent := 1, preActive := false, hold := false,
                                       verifyAt := s.time.refNow + m.cfg.verifyTime * 1000000 }).emit (.mpacket p false)) p

/-- Ask again for pause of the classes that press (R298). -/
def pressAgain (s : State) (p : Nat) : State :=
  (List.range 8).foldl (fun s c =>
    if presses s p c && bit (s.mac p).cfg.generate c && !(s.pc p (pauseIdx s p c)).xoff then xoffSend s p c else s) s

/-- The port has come UP or DEGRADED (R299, R302). -/
def macUp (s : State) (p : Nat) : State :=
  let s1 := s.modMac p (fun m => { m with
    winFrom := s.time.refNow,
    pause := m.pause.map (fun (x : Nat × PauseClass) => (x.1, { x.2 with xoff := false, xoffAccum := 0, capped := false })) })
  pressAgain (startVerify s1 p) p

/-- The port has left UP and DEGRADED (R323): received pause, the watchdog and HOLD are cleared, a CUT frame is slag. -/
def macDown (s : State) (p : Nat) : State :=
  let s1 := resumeTop (s.modMac p (fun m => { m with
    hold := false, preActive := false, verify := if m.cfg.preEn && !m.cfg.verifyDis then 1 else 0,
    pause := m.pause.map (fun (x : Nat × PauseClass) =>
      (x.1, { x.2 with pausedTo := none, heldFrom := none, xoff := false, xoffAccum := 0, capped := false })) })) p
  match mGet? s1.tm.cuts p with
  | some c => slagCut s1 p c.id 0x150
  | none => s1

-- Gate lists (R305 to R310).

/-- The entries of a list with their index and their start within the cycle. -/
def entriesFrom : Nat → Nat → List GateEntry → List (Nat × Nat × GateEntry)
  | _, _, [] => []
  | i, t, e :: r => (i, t, e) :: entriesFrom (i + 1) (t + e.interval) r

/-- Start of an entry within the cycle. -/
def entryStart (g : GateList) (i : Nat) : Nat := (g.entries.take i).foldl (fun a e => a + e.interval) 0

/-- The cycle of a list: a strike-locked one's is the active heat length (R306). -/
def cycleOf (s : State) (g : GateList) : Nat := if g.locked then s.time.heatLen else g.cycle

/-- The earliest instant from `x` on at which an entry of a kind begins, and that entry, in cycles that run back to back from `c`
on; an entry that the cycle's end cuts off never begins (R305, R306). -/
def nextStart (s : State) (g : GateList) (c x : Nat) (p : GateEntry → Bool) : Option (Nat × Nat) :=
  let n := cycleOf s g
  (entriesFrom 0 0 g.entries).foldl (fun (b : Option (Nat × Nat)) (y : Nat × Nat × GateEntry) =>
    if n ≤ y.2.1 || !p y.2.2 then b
    else
      let t := c + y.2.1 + ceilDiv (x - (c + y.2.1)) n * n
      match b with
      | none => some (t, y.1)
      | some (u, _) => if t < u then some (t, y.1) else b) none

/-- A list that restarts at an instant still to come, after a jump of device time (R321; log entry 94). -/
def waiting (s : State) (g : GateList) : Bool := decide (s.devNow < g.startRef)

/-- An instant at which a cycle of the operational list begins. -/
def cycleBase (s : State) (m : MacPort) (g : GateList) : Nat := if waiting s g then g.startRef else m.cycleFrom

/-- The next boundary after the current entry: its instant of device time and the entry that begins (R305). -/
def nextBoundary (s : State) (m : MacPort) (g : GateList) : Nat × Nat :=
  (nextStart s g (cycleBase s m g) (if waiting s g then g.startRef else m.cycleFrom + entryStart g m.gateIdx + 1) (fun _ => true)).getD
    (m.cycleFrom + cycleOf s g, 0)

/-- Gate states now (R305). -/
def gatesNow (m : MacPort) : Nat :=
  match m.gate with
  | none => 0xFF
  | some g => match g.entries[m.gateIdx]? with | some e => e.gates | none => 0xFF

/-- The earlier of two instants with what happens at them; the first where they are one. -/
def earlier (a b : Option (Nat × Nat)) : Option (Nat × Nat) :=
  match a, b with
  | some x, some y => if y.1 < x.1 then b else a
  | none, _ => b
  | _, none => a

/-- The first entry with an operation, from `x` on, that begins under the operational list or the one that awaits its start; none
while preemption is inactive (R303, R304). -/
def opAhead (s : State) (p op x : Nat) : Option Nat :=
  let m := s.mac p
  let is (e : GateEntry) : Bool := e.op == op
  let now := m.gate.bind (fun g => nextStart s g (cycleBase s m g) (max x (nextBoundary s m g).1) is)
  let then_ := m.next.bind (fun g => nextStart s g g.startRef (max x g.startRef) is)
  if !m.preActive then none
  else (earlier (now.filter (fun y => m.next.all (fun g => decide (y.1 < g.startRef)))) then_).map (·.1)

/-- The instant at which HOLD is next due, and the start of its entry (R304). -/
def holdAhead (s : State) (p : Nat) : Option (Nat × Nat) :=
  (opAhead s p 1 (s.mac p).holdTo).map (fun t => (t - (s.mac p).cfg.holdAdv, t))

/-- The instant at which the release of HOLD is next due, and the start of its entry (R304). -/
def releaseAhead (s : State) (p : Nat) : Option (Nat × Nat) :=
  (opAhead s p 2 (s.mac p).relTo).map (fun t => (t - (s.mac p).cfg.relAdv, t))

/-- While HOLD is asserted a preemptable frame in progress is preempted at its next permitted boundary; one whose remainder is too
short to split completes (R304). -/
def holdCuts (s : State) (p : Nat) : State :=
  let gs := (mGetD s.tm.sending p []).map (fun (g : Grant) =>
    let n := max (g.out s p) (minFrag s p)
    if g.preemptable && g.splits n then g.stop s p n else g)
  if gs.isEmpty then s else { s with tm := { s.tm with sending := mPut s.tm.sending p gs } }

/-- HOLD is asserted, ahead of an entry or at its start `t` (R304, R322). -/
def holdOn (s : State) (p t : Nat) : State :=
  holdCuts (s.modMac p (fun m => { m with hold := true, holdTo := max m.holdTo (t + 1) })) p

/-- HOLD is released, ahead of an entry or at its start `t` (R304). -/
def holdOff (s : State) (p t : Nat) : State :=
  resumeTop (s.modMac p (fun m => { m with hold := false, relTo := max m.relTo (t + 1) })) p

/-- Instant of device time at which the gate of a class next closes; none where it stays open (R309). -/
def gateCloses (s : State) (m : MacPort) (g : GateList) (c : Nat) : Option Nat :=
  (nextStart s g (cycleBase s m g) (nextBoundary s m g).1 (fun e => !bit e.gates c)).map (·.1)

/-- Frames being sent whose gate closes now, having been `before`, are counted (R309, R319). -/
def overrunGate (s : State) (p before : Nat) : State :=
  let now := gatesNow (s.mac p)
  ((mGetD s.tm.sending p []).filter (fun g => !g.cutShort && bit before g.frame.cls && !bit now g.frame.cls)).foldl
    (fun s _ => s.inc (macCtr p 0x168)) s

/-- An entry begins in the cycle that began at `from_`: HOLD as its operation says while preemption is active, where that has not been
done ahead (R303, R304). -/
def beginEntry (s : State) (p i from_ before : Nat) : State :=
  let s1 := overrunGate (s.modMac p (fun m => { m with gateIdx := i, cycleFrom := from_ })) p before
  let m := s1.mac p
  match m.gate with
  | none => s1
  | some g =>
    let t := from_ + entryStart g i
    match (g.entries[i]?).map (·.op) with
    | some 1 => if m.preActive && decide (m.holdTo ≤ t) then holdOn s1 p t else s1
    | some 2 => if m.preActive && decide (m.relTo ≤ t) then holdOff s1 p t else s1
    | _ => s1

/-- A list becomes operational now, at its start (R307, R308). -/
def gateStart (s : State) (p : Nat) (g : GateList) : State :=
  let before := gatesNow (s.mac p)
  let s1 := s.modMac p (fun m => { m with gate := some g, next := none })
  let s2 := beginEntry s1 p 0 s.devNow before
  (s2.macRaise p 3).post 0x3010 (leBytes 6 g.startHeat.toNat ++ leBytes 3 g.startNs)

/-- The start of a list placed at this strike (R307): its heat, offset and instant of device time. -/
def placeGate (s : State) (g : GateList) : GateList :=
  let l := s.time.heatLen
  let now := s.time.heat.toNat * l
  let tb := g.baseHeat.toNat * l + g.baseNs
  let start := if g.locked ∨ g.cycle = 0 then now
    else if now ≤ tb then tb else tb + ceilDiv (now - tb) g.cycle * g.cycle
  { g with startHeat := BitVec.ofNat 48 (start / l), startNs := start % l, startRef := s.devNow + (start - now) }

/-- Every strike begins a cycle of a strike-locked list (R306). -/
def gatesAtStrike (s : State) : State :=
  (List.range 16).foldl (fun s p =>
    match (s.mac p).gate with
    | some g => if g.locked then beginEntry s p 0 s.devNow (gatesNow (s.mac p)) else s
    | none => s) s

/-- Device time has jumped to a strike (R321): a list that awaits its start is placed afresh; a strike-locked one restarts here; a
free one at its first boundary from here on, until which the states of its last entry hold (log entry 94). -/
def gatesAtJump (s : State) : State :=
  (List.range 16).foldl (fun s p =>
    let m := s.mac p
    let s1 := if m.next.isNone then s else s.setMac p { m with next := m.next.map (placeGate s) }
    match m.gate with
    | none => s1
    | some g =>
      let before := gatesNow m
      if g.locked then beginEntry s1 p 0 s1.devNow before
      else
        let g' := placeGate s1 g
        let s2 := s1.modMac p (fun m => { m with gate := some g' })
        if g'.startRef ≤ s2.devNow then beginEntry s2 p 0 s2.devNow before
        else overrunGate (s2.modMac p (fun m => { m with gateIdx := g.entries.length - 1 })) p before) s

-- Timers of a MAC, as reference instants, and what happens at them (R296 to R302).

/-- What happens at the instant of a timer: the action, where the timer still stands at an instant that has come. -/
def ifDue (due : State → Option Nat) (act : State → State) (s : State) : State :=
  match due s with
  | some t => if t ≤ s.time.refNow then act s else s
  | none => s

/-- Received pause of a class ends (R296, R317). -/
def expiryDue (p c : Nat) (s : State) : Option Nat := (s.pc p c).pausedTo
def expiryAct (p c : Nat) (s : State) : State := s.setPc p c { s.pc p c with pausedTo := none, heldFrom := none }

/-- An XOFF is repeated (R298). -/
def repeatDue (p c : Nat) (s : State) : Option Nat :=
  let x := s.pc p (pauseIdx s p c)
  if x.xoff && presses s p c then some x.repeatAt else none
def repeatAct (p c : Nat) (s : State) : State := xoffSend s p c

/-- The pause time of a class reaches 500 us in its window (R299, R318). -/
def capDue (p c : Nat) (s : State) : Option Nat :=
  let x := s.pc p (pauseIdx s p c)
  if x.xoff && !x.capped then some (s.time.refNow + (500000 - pauseTime s x)) else none
def capAct (p c : Nat) (s : State) : State :=
  let k := pauseIdx s p c
  let s1 := xonSend s p c
  ((s1.setPc p k { s1.pc p k with capped := true }).inc (macCtr p (0x2C0 + 8 * k))).macRaise p 1

/-- The next window of 1 ms begins (R299). -/
def windowDue (p : Nat) (s : State) : Option Nat := if s.portLive p then some ((s.mac p).winFrom + 1000000) else none
def windowAct (p : Nat) (s : State) : State :=
  let s1 := s.modMac p (fun m => { m with
    winFrom := m.winFrom + 1000000,
    pause := m.pause.map (fun (x : Nat × PauseClass) =>
      (x.1, { x.2 with xoffAccum := 0, xoffFrom := s.time.refNow, capped := false })) })
  pressAgain s1 p

/-- Received pause has held a class for WD_LIMIT; not where it ends then (R300, R317). -/
def stormDue (p c : Nat) (s : State) : Option Nat :=
  let x := s.pc p c
  match x.heldFrom, x.pausedTo with
  | some a, some b => if b ≤ a + (s.mac p).cfg.wdLimit * 1000000 then none else some (a + (s.mac p).cfg.wdLimit * 1000000)
  | _, _ => none
def stormAct (p c : Nat) (s : State) : State :=
  let m := (s.mac p).cfg
  let s1 := dropQueued s (fun k _ => keyRoot k == p && (m.fcMode == 1 || keyClass k == c))
    (fun s _ => s.inc (macCtr p (0x280 + 8 * c)))
  let s2 := s1.setPc p c { s1.pc p c with pausedTo := none, heldFrom := none,
                                          recoverTo := some (s.time.refNow + m.recovery * 1000000) }
  ((s2.inc (macCtr p (0x300 + 8 * c))).macRaise p 0).postB 0xB032 2 p c m.wdLimit false

/-- RECOVERY of a class ends (R300). -/
def recoverDue (p c : Nat) (s : State) : Option Nat := (s.pc p c).recoverTo
def recoverAct (p c : Nat) (s : State) : State := s.setPc p c { s.pc p c with recoverTo := none }

/-- VERIFY_TIME has passed since a verify mPacket (R302, R326). -/
def verifyDue (p : Nat) (s : State) : Option Nat :=
  if (s.mac p).verify == 2 && s.portLive p then some (s.mac p).verifyAt else none
def verifyAct (p : Nat) (s : State) : State :=
  let m := s.mac p
  if m.verifySent < 3 then
    (s.modMac p (fun m => { m with verifySent := m.verifySent + 1,
                                   verifyAt := m.verifyAt + m.cfg.verifyTime * 1000000 })).emit (.mpacket p false)
  else (((s.modMac p (fun m => { m with verify := 4 })).inc (macCtr p 0x198)).macRaise p 2).postB 0xB031 2 p 0xFFFF
    m.verifySent false

end Sys2Proof.Machine
end

