-- ==== Sys2Proof/Machine/LaneOps.lean ====
section
/-!
DEFINITION. The shared operations of lanes and ports: port states, lane power and its current, bring-up, failure and degraded width
(spec/06_lanes_ports.md).
-/

namespace Sys2Proof.Machine

-- Causes of family 0x05 (Table 6.7).
namespace LnCause
def laneConflict : Nat := 0x10
def align : Nat := 0x11
def rateMix : Nat := 0x12
def state : Nat := 0x13
def speed : Nat := 0x14
end LnCause

/-- The speed code of Table 6.1 at a lane rate code and a log2 width; 0 where the table has none. -/
def speedOf (rate w : Nat) : Nat :=
  match rate, w with
  | 1, 0 => 1
  | 2, 0 => 2 | 2, 2 => 4
  | 3, 0 => 3 | 3, 1 => 4 | 3, 2 => 5 | 3, 3 => 6
  | 4, 0 => 4 | 4, 1 => 5 | 4, 2 => 6 | 4, 3 => 7
  | 5, 0 => 5 | 5, 1 => 6 | 5, 2 => 7 | 5, 3 => 8
  | _, _ => 0

/-- Anchor lane of a port (Table 6.2). -/
def anchorOf (p : Nat) : Nat := if p < 8 then 2 * p else 2 * (p - 8) + 1

/-- The highest lane rate no greater than a maximum that carries a speed within a width, with the width it then takes
(R255). -/
def resolveRate (speed maxRate width : Nat) : Option (Nat × Nat) :=
  [5, 4, 3, 2, 1].findSome? (fun r =>
    if r ≤ maxRate then
      match [0, 1, 2, 3].find? (fun w => decide (w ≤ width) && speedOf r w == speed && speed != 0) with
      | some w => some (r, w)
      | none => none
    else none)

/-- Flags of a port's configuration (Table 6.6). -/
def PortCfg.an (c : PortCfg) : Bool := bit c.flags 0
def PortCfg.noDegrade (c : PortCfg) : Bool := bit c.flags 1
def PortCfg.autoRestore (c : PortCfg) : Bool := bit c.flags 2

namespace State

def setLane (s : State) (n : Nat) (x : Lane) : State := { s with ln := { s.ln with lanes := mPut s.ln.lanes n x } }
def setPort (s : State) (p : Nat) (x : Port) : State := { s with ln := { s.ln with ports := mPut s.ln.ports p x } }

/-- A port changes state (R253): PORT_EVT is set, the heat of the change kept; its MAC follows where the link comes or
goes (R299, R302, R323). -/
def movePort (s : State) (p : Nat) (f : Port → Port) : State :=
  let x := f (s.port p)
  let s1 := (s.setPort p { x with changeHeat := s.time.heat }).raise Reg.lnStatus 1 6
  if s.portLive p && !s1.portLive p then macDown s1 p
  else if !s.portLive p && s1.portLive p then macUp s1 p
  else s1

end State

/-- Lanes of a group. -/
def groupLanes (base w : Nat) : List Nat := (List.range (2 ^ w)).map (base + ·)

/-- Lanes configured to a port. -/
def cfgLanes (s : State) (p : Nat) : List Nat :=
  match (s.port p).cfg with
  | some c => groupLanes (anchorOf p) c.width
  | none => []

/-- Counters of a port's LN_ block and of a lane's (Tables 6.8, 6.9, 18.13). -/
def lnPortCtr (p off : Nat) : Nat := 0x201000 + 0x100 * p + off
def lnLaneCtr (n off : Nat) : Nat := 0x200000 + 0x100 * n + off

/-- LN_PORT_STATE (Table 6.9). -/
def portWord (s : State) (p : Nat) : Nat :=
  let x := s.port p
  let live := x.st == .up || x.st == .degraded
  let code := match x.st with
    | .disabled => 0 | .banked => 1 | .down => 2 | .training => 3 | .up => 4 | .degraded => 5
  if live then maskOf (groupLanes x.base x.width) * 65536 + x.rate * 4096 + x.width * 256 + x.speed * 16 + code else code

/-- LN_PORT_FAILED (Table 6.9). -/
def portFailed (s : State) (p : Nat) : Nat := maskOf ((cfgLanes s p).filter (fun n => (s.lane n).failed))

/-- The port that a lane is configured to. -/
def portOfLane (s : State) (n : Nat) : Option Nat := (List.range 16).find? (fun p => (cfgLanes s p).contains n)

/-- A diagnostic holds its lanes: a mode runs, and a sweep has not ended (R273). -/
def Diag.runs (d : Diag) : Bool := d.mode != 0 && !d.ended

/-- A lane is in DIAG (R273). -/
def inDiag (s : State) (n : Nat) : Bool := s.ln.diags.any (fun d => d.runs && (groupLanes d.anchor d.width).contains n)

-- Lane current (R271, R272).

/-- Current of an active lane by rate code on VDD_CORE, VDD_SD and VDD_SDH, in mA (Table 6.4). -/
def railMa (rate : Nat) : Nat × Nat × Nat :=
  match rate with
  | 1 => (150, 120, 30)
  | 2 => (250, 180, 40)
  | 3 => (450, 280, 60)
  | 4 => (700, 360, 80)
  | 5 => (1200, 450, 100)
  | _ => (5, 5, 5)

/-- Current of one lane on each rail, powered or not (Table 6.4). -/
def laneRails (s : State) (n : Nat) (on : Bool) : Nat × Nat × Nat := if on then railMa (s.lane n).rate else (5, 5, 5)

/-- VDD_CORE current of one lane. -/
def laneMa (s : State) (n : Nat) (on : Bool) : Nat := (laneRails s n on).1

/-- Σ lane currents on VDD_CORE in the lanes' present state. -/
def lanesMa (s : State) : Nat := (List.range 16).foldl (fun a n => a + laneMa s n (s.lane n).powered) 0

/-- Σ lane currents when the power steps that wait have been taken (R618). -/
def lanesTargetMa (s : State) : Nat :=
  (List.range 16).foldl (fun a n =>
    let on := (s.lane n).powered
    let on' := match s.ln.power.find? (fun x => x.1 == n) with | some x => x.2 || on | none => on
    a + laneMa s n on') 0

/-- The VDD_CORE current of the lanes now: a step is held to the slew limit, in A/µs (R271). -/
def coreNow (s : State) : Nat :=
  let d := s.fld Reg.slew * (s.time.refNow - s.ln.coreAt)
  let goal := lanesMa s
  if s.ln.coreFrom ≤ goal then min goal (s.ln.coreFrom + d) else max goal (s.ln.coreFrom - d)

/-- The lanes' current begins to change, from what it is in `was`. -/
def stepCore (was s : State) : State :=
  if lanesMa was = lanesMa s then s else { s with ln := { s.ln with coreFrom := coreNow was, coreAt := s.time.refNow } }

/-- Lanes run at a rate. -/
def rateLanes (s : State) (ns : List Nat) (rate : Nat) : State :=
  stepCore s (ns.foldl (fun s n => s.setLane n { s.lane n with rate := rate }) s)

/-- A lane is powered up or down (R271): its PLL begins to lock, or it detects nothing. -/
def powerLane (s : State) (n : Nat) (on : Bool) : State :=
  let x := s.lane n
  stepCore s (s.setLane n (if on then { x with powered := true, upAt := some s.time.refNow }
    else { x with powered := false, sig := false, cdr := false, align := false, lossAt := none, backAt := none, upAt := none }))

/-- Ask for lanes to power up or down, in ascending order, behind what waits (R271). -/
def askPower (s : State) (ns : List Nat) (on : Bool) : State :=
  let rest := s.ln.power.filter (fun x => !ns.contains x.1)
  let more := (ns.filter (fun n => (s.lane n).powered != on)).map (fun n => (n, on))
  { s with ln := { s.ln with power := rest ++ more } }

/-- A port's lanes outside a group power down, failed ones apart, which stay and listen (R265). -/
def trimLanes (s : State) (p base w : Nat) : State :=
  askPower s ((cfgLanes s p).filter (fun n => !(groupLanes base w).contains n && !(s.lane n).failed)) false

-- Bring-up (R252, R255 to R257).

/-- The lanes that a group of a port needs powered: the group's, and failed ones, which listen for the return of their signal
(R265). -/
def wantLanes (s : State) (p base w : Nat) : List Nat :=
  (cfgLanes s p).filter (fun n => (groupLanes base w).contains n || (s.lane n).failed)

/-- Begin bring-up of a port on a group (R252, R255 to R257). -/
def bringUp (s : State) (p base w rate : Nat) (reduced : Bool) : State :=
  let s1 := s.movePort p (fun x =>
    { x with st := .training, base := base, width := w, rate := rate, speed := 0, fec := 0, reduced := reduced, fromStore := false,
             trainAt := s.time.refNow, lossFrom := none })
  askPower (rateLanes s1 (groupLanes base w) rate) (wantLanes s1 p base w) true

/-- A port goes DOWN (R253, R262, R265, R266). -/
def portDown (s : State) (p : Nat) (loss : Option PState) : State :=
  ((s.movePort p (fun x => { x with st := .down, speed := 0, fec := 0, lossFec := x.fec, fromStore := false, lossFrom := loss })).inc
    (lnPortCtr p 0x10)).post 0x3002 []

/-- A port stays DOWN, or goes DOWN. -/
def stayDown (s : State) (p : Nat) : State :=
  if (s.port p).st == .down then s.setPort p { s.port p with lossFrom := none } else portDown s p none

/-- Aligned groups of a width within a port's configured lanes, all healthy. -/
def healthyGroups (s : State) (p w : Nat) : List Nat :=
  let lanes := cfgLanes s p
  lanes.filter (fun b => b % 2 ^ w == 0 && (groupLanes b w).all (fun n => lanes.contains n && !(s.lane n).failed))

/-- The group that R265 chooses at a lane rate: the widest, then the one with the anchor lane, else the lowest. -/
def chooseGroup (s : State) (p rate minW : Nat) : Option (Nat × Nat) :=
  [3, 2, 1, 0].findSome? (fun w =>
    if w < minW ∨ speedOf rate w = 0 then none
    else
      let gs := healthyGroups s p w
      match gs.find? (fun b => (groupLanes b w).contains (anchorOf p)), gs with
      | some b, _ => some (b, w)
      | none, b :: _ => some (b, w)
      | none, [] => none)

/-- The group on which a port begins bring-up, and whether R265 chose it: the whole configured group where every lane of it is
healthy; else, unless NO_DEGRADE is set, the one of R265 at a rate (R265, R266). -/
def nextGroup (s : State) (p rate : Nat) (c : PortCfg) : Option (Nat × Nat × Bool) :=
  if (cfgLanes s p).all (fun n => !(s.lane n).failed) then some (anchorOf p, c.width, false)
  else if c.noDegrade then none
  else (chooseGroup s p rate c.minWidth).map (fun g => (g.1, g.2, true))

/-- A port begins bring-up on the lanes that are healthy, or goes DOWN (R265, R266, R285). -/
def attempt (s : State) (p rate : Nat) (c : PortCfg) : State :=
  if s.time.refHold then stayDown s p
  else match nextGroup s p rate c with
    | none => stayDown s p
    | some (b, w, reduced) => bringUp (if reduced then trimLanes s p b w else s) p b w (if reduced then rate else c.rate) reduced

/-- The lane rate that a port runs at, or last ran at (R265). -/
def currentRate (s : State) (p : Nat) (c : PortCfg) : Nat := if (s.port p).rate = 0 then c.rate else (s.port p).rate

/-- The health of a port's lanes, since when all of them are healthy (R267). -/
def reviewHealth (s : State) (p : Nat) : State :=
  let well := (s.port p).cfg.isSome && (cfgLanes s p).all (fun n => !(s.lane n).failed)
  let from_ := if well then some ((s.port p).healthyFrom.getD s.time.refNow) else none
  if from_ = (s.port p).healthyFrom then s else s.setPort p { s.port p with healthyFrom := from_ }

/-- Lanes of a port have failed: it degrades, or goes DOWN (R265, R266, R278, R279). -/
def degradePort (s : State) (p : Nat) : State :=
  match (s.port p).cfg with
  | none => s
  | some c =>
    if s.portLive p || (s.port p).st == .training || (s.port p).lossFrom.isSome then attempt s p (currentRate s p c) c else s

/-- Lanes are declared failed in one reference cycle (R263, R279): each is marked, counted and recorded; each port takes
one decision. -/
def failLanes (s : State) (ns : List (Nat × Nat)) : State :=
  let new := ns.filter (fun x => decide (x.1 < 16) && !(s.lane x.1).failed)
  let s1 := new.foldl (fun s x =>
    (((s.setLane x.1 { s.lane x.1 with failed := true, reason := x.2, readapt := none }).inc
      (lnLaneCtr x.1 0x20)).post 0x3004 []).raise Reg.lnStatus 2 6) s
  ((new.filterMap (fun x => portOfLane s x.1)).eraseDups).foldl (fun s p => degradePort (reviewHealth s p) p) s1

/-- Why a lane that has lost something is failed (R262): the most basic of what it has lost. -/
def Lane.lossReason (x : Lane) : Nat := if !x.sig then 1 else if !x.cdr then 2 else 3

/-- A loss has lasted 1 ms (R262). -/
def lossDue (s : State) (n : Nat) : Bool :=
  match (s.lane n).lossAt with | some t => !(s.lane n).failed && decide (t + 1000000 ≤ s.time.refNow) | none => false

/-- Bring a DOWN port up again when the lanes it needs are healthy (R266). -/
def retryPort (s : State) (p : Nat) : State :=
  match (s.port p).cfg with
  | none => s
  | some c => if (s.port p).st == .down && (s.port p).lossFrom.isNone then attempt s p (currentRate s p c) c else s

/-- Failures for error rate, training or a PLL end when a PORT_CONFIG or a PORT_RESTORE of the port lands (R264; log entry 90). -/
def clearFailures (s : State) (p : Nat) : State :=
  (cfgLanes s p).foldl (fun s k =>
    if 4 ≤ (s.lane k).reason then s.setLane k { s.lane k with failed := false, reason := 0, hist := [], readapt := none } else s) s

end Sys2Proof.Machine
end

