-- ==== Sys2Proof/Machine/PowerOps.lean ====
section
/-!
DEFINITION. The shared operations of the power and temperature blocks: the load estimate, the governor, LOAD_HINT bands,
steps of the core clock ratio, temperatures and the thermal ceiling (spec/15_power_thermal.md).
-/

namespace Sys2Proof.Machine

def Ctr.pwrSoft : Nat := 0x020100
def Ctr.pwrHard : Nat := 0x020108
def Ctr.pwrAlert : Nat := 0x020110
def Ctr.pwrFloorOvr : Nat := 0x020118
def Ctr.pwrHeld : Nat := 0x020120
def Ctr.pwrInject : Nat := 0x020140
def Ctr.thmWarn : Nat := 0x021100
def Ctr.thmThrottle : Nat := 0x021108
def Ctr.thmQuench : Nat := 0x021118
def Ctr.thmTrip : Nat := 0x021120
def Ctr.thmSensorFail : Nat := 0x021128

/-- I_static at the present hottest reading (current governor). -/
def staticMa (s : State) : Nat := Config.iStatic s.pwr.temp

/-- I_est, in mA. -/
def iEst (s : State) : Nat := staticMa s + coreNow s + s.pwr.dyn

/-- The most dynamic current that the present ratio lets issue: DYN_FULL × ratio. -/
def ratioMa (s : State) : Nat := Config.dynFull * (4 - ratioCode s) / 4

/-- The E below which the governor lets no fall go, as a current (R615). -/
def floorMa (s : State) : Nat := s.fld Reg.idleFloor * ratioMa s / 100

/-- The dynamic current that demand asks for at the present ratio. -/
def goalMa (s : State) : Nat := min s.pwr.demand (ratioMa s)

/-- The target current (R618). -/
def targetMa (s : State) : Nat := staticMa s + lanesTargetMa s + goalMa s

/-- The band of a current (R617). -/
def bandOf (s : State) (ma : Nat) : Nat := min 7 (ma / (1000 * s.fld Reg.hintStep))

/-- The upper edge of a band in mA; band 7 has none. -/
def edgeOf (s : State) (band : Nat) : Nat := (band + 1) * 1000 * s.fld Reg.hintStep

/-- What LOAD_HINT[2:0] drives (R618, R619). -/
def hintPins (s : State) : Nat :=
  if s.pwr.quench = 6 ∨ s.pwr.tripHold then 0 else if s.pwr.hintHeld then 7 else s.pwr.pins

/-- A higher band is announced: the pins take the band of the target, and the rise waits for LEAD below the old edge
(R618; log entry 41). -/
def announce (s : State) (ma : Nat) : State :=
  let edge := match s.pwr.wait with | some w => min w.2 (edgeOf s s.pwr.pins) | none => edgeOf s s.pwr.pins
  { s with pwr := { s.pwr with
    pins := bandOf s ma, target := bandOf s ma, wait := some (s.time.refNow + s.fld Reg.hintLead, edge) } }

/-- A change of ratio lowers the effective rate with it (R616), and never raises it (R614). -/
def withRatio (s : State) : State := { s with pwr := { s.pwr with dyn := min s.pwr.dyn (ratioMa s) } }

/-- One tick of the governor (R613 to R615, R618): the rise to the demanded E is announced as soon as its target lies in a
higher band, and stays below the old edge while it waits; a fall stops at the floor. From step 4 of a quench on E ramps down
(Table 15.5). -/
def governor (s0 : State) (demand : Nat) : State :=
  let s := withRatio { s0 with pwr := { s0.pwr with demand := if 4 ≤ s0.pwr.quench then 0 else demand } }
  let goal := goalMa s
  let step := 8 * s.fld Reg.slew
  let dyn := s.pwr.dyn
  let s1 := { s with pwr := { s.pwr with target := bandOf s (targetMa s) } }
  if goal ≤ dyn then
    let low := max goal (floorMa s)
    let down := if s.fld Reg.rampDown = 1 then max low (dyn - step) else low
    { s1 with pwr := { s1.pwr with dyn := min dyn down } }
  else
    let s2 := if s1.pwr.pins < bandOf s1 (targetMa s1) then announce s1 (targetMa s1) else s1
    let want := min goal (dyn + step)
    let up := match s2.pwr.wait with
      | some w => min want (max dyn (w.2 - 1 - (staticMa s + max (coreNow s) (lanesMa s))))
      | none => want
    ({ s2 with pwr := { s2.pwr with dyn := up } }.add Ctr.pwrHeld 8).raise Reg.pwrStatus 4 5

/-- The band latched at a strike (R618, R635): a higher one is announced, a lower one shown. -/
def bandAtStrike (s : State) : State :=
  let m := max (iEst s) (targetMa s)
  let s1 := { s with pwr := { s.pwr with target := bandOf s (targetMa s) } }
  if s.pwr.pins < bandOf s m then announce s1 m else { s1 with pwr := { s1.pwr with pins := bandOf s m } }

/-- The HINT word (Table 15.3). -/
def hintWordOf (s : State) : Nat :=
  hintPins s * 2 ^ 21 + ratioCode s * 2 ^ 19 + b2n (s.pwr.ceiling != 0) * 2 ^ 18 + b2n (s.pwr.quench != 0) * 2 ^ 17 +
  min (iEst s / 10) 0xFFFF

-- Sags, alerts and recovery (R605 to R612).

/-- Byte 6 of an event of an imitated source: INJECTED (R641). -/
def injFlag (inj : Bool) : Nat := if inj then 2 else 0

/-- No sag or alert of a kind in the last 1,024 heats (R611, R612). -/
def longQuiet (s : State) (last : Option Nat) : Bool :=
  match last with | some n => decide (n + 1024 ≤ s.time.strikes) | none => true

/-- A step-up of this very cycle is not made after all (R633). -/
def unstep (s : State) : State :=
  if s.pwr.steppedAt = some s.time.refNow then
    { s with pwr := { s.pwr with sag := min 3 (s.pwr.sag + 1), steppedAt := none } }
  else s

/-- The ratio steps down once for SOFT, not below the floor (R607, R608); the next 20 ns begin. -/
def softStep (s0 : State) : State :=
  let s := unstep s0
  withRatio { s with pwr := { s.pwr with
    sag := max s.pwr.sag (min (min (ratioCode s + 1) 3) (floorCap s)), stepAt := none, softAt := s.time.refNow } }

/-- These detectors are below SOFT now, and those below HARD (R606): a sag counts until now, and each detector from when it went
below (R610, R642). -/
def setSoft (s : State) (mask : Nat) : State :=
  let m := mask ||| s.pwr.belowHard
  { s with pwr := { s.pwr with
    belowSoft := m, sagAt := if m = 0 ∧ s.pwr.belowSoft = 0 then s.pwr.sagAt else s.time.refNow,
    belowFrom := (bitList m 16).map (fun d => (d, mGetD s.pwr.belowFrom d s.time.refNow)) } }

/-- One step up, if the SOFT sags and alerts hold the ratio lower than the other sources do (R610): the next is due an interval
later, and none where the ratio has reached what another source still requests. -/
def stepUp (s : State) : State :=
  let code := min s.pwr.sag (floorCap s) - 1
  let sag := if code ≤ unbound s then 0 else code
  { s with pwr := { s.pwr with
    sag := sag, steppedAt := if s.pwr.sag = 0 then none else some s.time.refNow,
    stepAt := if sag = 0 then none else some (s.time.refNow + s.fld Reg.stepUp) } }

/-- A SOFT sag begins (R611). -/
def softBegin (s : State) (inj : Bool) : State :=
  if s.pwr.softSag then s
  else
    let s1 := ({ s with pwr := { s.pwr with softSag := true, lastSoft := some s.time.strikes } }.inc Ctr.pwrSoft).raise
      Reg.pwrStatus 0 5
    if longQuiet s s.pwr.lastSoft then s1.postF 0x9001 [] (injFlag inj) else s1

/-- A HARD sag begins: counted, and counted as overriding a floor (R609, R611). -/
def hardBegin (s : State) (inj : Bool) : State :=
  if s.pwr.hardSag then s
  else
    let s1 := ({ s with pwr := { s.pwr with hardSag := true, lastHard := some s.time.strikes } }.inc Ctr.pwrHard).raise
      Reg.pwrStatus 1 5
    let s2 := if longQuiet s s.pwr.lastHard then s1.postF 0x9002 [] (injFlag inj) else s1
    if floorCap s < 3 then ((s2.inc Ctr.pwrFloorOvr).raise Reg.pwrStatus 3 5).postF 0x9003 [] (injFlag inj) else s2

/-- An alert begins (R612). -/
def alertBegin (s : State) (inj : Bool) : State :=
  let s0 := unstep s
  let s1 := ({ s0 with pwr := { s0.pwr with
    lastAlert := some s.time.strikes, stepAt := none,
    sag := max s0.pwr.sag (min (alertCode s) (floorCap s)) } }.inc Ctr.pwrAlert).raise Reg.pwrStatus 2 5
  withRatio (if longQuiet s s.pwr.lastAlert then s1.postF 0x9004 [] (injFlag inj) else s1)

-- Temperature (R622 to R626, R644).

/-- Validity of each sensor of a set of filtered readings, as the state has excluded them. -/
def sensorBad (s : State) (k : Nat) : Bool := bit s.pwr.badSensors k

/-- Sensors that are valid. -/
def goodSensors (s : State) : List Nat := (List.range 12).filter (fun k => !sensorBad s k)

/-- A reading in its place among readings in rising order. -/
def insertUp (x : Int) : List Int → List Int
  | [] => [x]
  | y :: t => if x ≤ y then x :: y :: t else y :: insertUp x t

/-- Twice the median of readings in rising order; of an even number of them the mean of the middle two (log entry 97). -/
def medianTwice (l : List Int) : Int :=
  let n := l.length
  (l[(n - 1) / 2]?.getD 0) + (l[n / 2]?.getD 0)

/-- A sensor that these readings make invalid: below −40 °C, above 150 °C, or more than 20 °C from the median of the other sensors
that are not excluded (R644; log entry 97). -/
def readsBad (s : State) (l : List Int) (k : Nat) : Bool :=
  match l[k]? with
  | none => false
  | some t =>
    let others := ((goodSensors s).filter (fun j => j != k)).filterMap (fun j => l[j]?)
    let m := medianTwice (others.foldl (fun a x => insertUp x a) [])
    decide (t < -640) || decide (2400 < t) || (!others.isEmpty && (decide (640 < 2 * t - m) || decide (640 < m - 2 * t)))

/-- WARN and THROTTLE in 1/16 °C. -/
def warnAt (s : State) : Int := 16 * s.fld Reg.thmWarn
def throttleAt (s : State) : Int := 16 * s.fld Reg.thmThrottle

/-- Temperatures as R624 and R623 judge them: with fewer than 6 valid sensors, THROTTLE and WARN (R644). -/
def throttleTemp (s : State) : Int := if (goodSensors s).length < 6 then throttleAt s else s.pwr.temp
def warnTemp (s : State) : Int := if (goodSensors s).length < 6 then warnAt s else s.pwr.temp

/-- Where the temperature stands for R624: a change of it breaks the interval that was running. -/
def setRegion (s : State) : State :=
  let r := if throttleAt s ≤ throttleTemp s then 2 else if throttleTemp s < throttleAt s - 80 then 0 else 1
  if r = s.pwr.region then s else { s with pwr := { s.pwr with region := r, thmAt := s.time.refNow } }

/-- The filtered readings are now these: the hottest valid sensor gives the device temperature (R622). -/
def setTemps (s : State) (l : List Int) : State :=
  let best := ((goodSensors s).filter (fun k => !readsBad s l k)).foldl (fun (a : Option (Nat × Int)) k =>
    match l[k]?, a with
    | some t, some b => if b.2 < t then some (k, t) else a
    | some t, none => some (k, t)
    | none, _ => a) none
  let s1 := { s with env := { s.env with sensors := l } }
  setRegion (match best with
    | some (k, t) => { s1 with pwr := { s1.pwr with temp := t, hottest := k } }
    | none => s1)

/-- Parameters of PORT_BANK for a port: 1 ENTER, 0 EXIT (Table 6.6). -/
def bankParams (p action : Nat) : Params := BitVec.ofNat 320 (p + 256 * action)

/-- The ceiling has reached 1/4 (R625). -/
def derateEnter (s : State) : State :=
  let ps := (bitList (s.fld Reg.deratePorts) 16).filter (fun p => (s.port p).st == .up || (s.port p).st == .degraded)
  let s1 := ps.foldl (fun s p => stageOwn s 0x0502 (bankParams p 1) (s.time.heat + 1)) s
  ({ s1 with pwr := { s1.pwr with derated := ps } }.raise Reg.thmStatus 4 5).post 0x9013 []

/-- The ceiling has risen to 1/2 (R625). -/
def derateExit (s : State) : State :=
  let s1 := s.pwr.derated.foldl (fun s p => stageOwn s 0x0502 (bankParams p 0) (s.time.heat + 1)) s
  { s1 with pwr := { s1.pwr with derated := [] } }

/-- The lowest ceiling code that nothing holds below (R626, R642). -/
def ceilingMin (s : State) : Nat := if s.pwr.quench != 0 then 3 else if s.pwr.blind then 2 else 0

/-- The ceiling becomes a code (R624, R625). -/
def setCeiling (s : State) (code : Nat) : State :=
  let old := s.pwr.ceiling
  let s1 := withRatio { s with pwr := { s.pwr with ceiling := code, thmAt := s.time.refNow } }
  if code = 3 ∧ old < 3 then derateEnter s1 else if code = 2 ∧ old = 3 then derateExit s1 else s1

end Sys2Proof.Machine
end

