-- ==== Sys2Proof/Machine/TriadOps.lean ====
section
/-!
DEFINITION. The shared operations of triads: words, causes of unfitness, eligibility, the gap, announcements, what the end
of a heat decides and what a strike makes of a member (spec/14_triads.md).
-/

namespace Sys2Proof.Machine

/-- State codes of Table 14.1. -/
def TriState.code : TriState → Nat
  | .init => 0
  | .standby => 1
  | .owner => 2
  | .yield => 3
  | .claim => 4
  | .out => 5

-- Fields of a triad word (Table 14.1).
def wTriad (w : Nat) : Nat := bits w 23 16
def wState (w : Nat) : Nat := bits w 15 13
def wFit (w : Nat) : Bool := bit w 12
def wSeen (w r : Nat) : Bool := bit w (9 + r)
def wOwner (w : Nat) : Nat := bits w 8 7
def wEpoch (w : Nat) : Nat := bits w 6 0

/-- EPOCH a is newer than EPOCH b (R569). -/
def newer (a b : Nat) : Bool := decide (1 ≤ (a + 128 - b) % 128) && decide ((a + 128 - b) % 128 ≤ 63)

namespace State

def triad (s : State) (t : Nat) : Option Triad := mGet? s.tri.slots t
def setTriad (s : State) (t : Nat) (x : Triad) : State := { s with tri := { s.tri with slots := mPut s.tri.slots t x } }
/-- Raise a bit of TRI_STATUS (R603). -/
def triRaise (s : State) (b : Nat) : State := s.raise Reg.triStatus b 4

end State

/-- Rank of a node in a triad; 3 where it is none. -/
def rankIn (x : Triad) (node : Nat) : Nat := ((List.range 3).find? (fun r => x.cfg.nodes.getD r 64 == node)).getD 3

/-- Own rank. -/
def ownRank (s : State) (x : Triad) : Nat := rankIn x s.vrs.node

/-- Node of a rank; 0xFF where there is none. -/
def nodeOf (x : Triad) (r : Nat) : Nat := if r < 3 then x.cfg.nodes.getD r 0xFF else 0xFF

/-- Cause LANE of an SSP (Table 14.3). -/
def laneCause (s : State) (x : Triad) : Bool :=
  x.cfg.ssp && ((s.port x.cfg.port).st != .up || portFailed s x.cfg.port != 0)

/-- Causes present for a triad, bit n for bit n of Table 14.3, those not applied left out (R577). -/
def causesOf (s : State) (x : Triad) : Nat :=
  b2n (s.tri.mem && s.fld Reg.unfitMem == 1) + 2 * b2n x.virasCause + 4 * b2n (laneCause s x && s.fld Reg.unfitLane == 1) +
  8 * b2n (s.pwr.quench != 0) +
  16 * b2n (s.cmd.fw == .restart && s.fld Reg.unfitWatchdog == 1) +
  32 * b2n s.tri.isolated

/-- The member is fit. -/
def fit (s : State) (x : Triad) : Bool := causesOf s x == 0

/-- The word of a member (Table 14.1), as latched at a strike. -/
def triWord (s : State) (x : Triad) (fits : Bool) : Nat :=
  let own := ownRank s x
  x.cfg.triad * 2 ^ 16 + x.st.code * 2 ^ 13 + b2n fits * 2 ^ 12 + setBits x.seen own own 1 * 2 ^ 9 +
  x.named * 2 ^ 7 + x.epoch

/-- A rank is rankFit for this member (R574). -/
def rankFit (s : State) (x : Triad) (r : Nat) : Bool :=
  if r = ownRank s x then x.st == .standby && fit s x
  else match mGet? x.heard r with
    | some w => (wState w == 1 || wState w == 4) && wFit w
    | none => false

/-- The successor of a rank (R574): 3 where no owner is known. -/
def successor (s : State) (x : Triad) (o : Nat) : Option Nat :=
  let order := if o < 3 then [(o + 1) % 3, (o + 2) % 3] else [0, 1, 2]
  order.find? (rankFit s x)

/-- Words of other members accepted in this heat, with their ranks. -/
def otherWords (s : State) (x : Triad) : List (Nat × Nat) := x.heard.filter (fun h => h.1 != ownRank s x)

/-- The newest OWNER word of another member in this heat: rank and EPOCH. -/
def newestOwner (s : State) (x : Triad) : Option (Nat × Nat) :=
  (otherWords s x).foldl (fun (a : Option (Nat × Nat)) h =>
    if wState h.2 != 2 then a
    else match a with
      | none => some (h.1, wEpoch h.2)
      | some b => if newer (wEpoch h.2) b.2 then some (h.1, wEpoch h.2) else a) none

/-- An OWNER word makes its sender the known owner where none is known or its term is newer (R571, R576, R578); the owner
heat is the heat of the word (log entry 44). -/
def adoptOwner (s : State) (x : Triad) : Triad × Bool :=
  match newestOwner s x with
  | none => (x, false)
  | some (r, e) =>
    if x.owner = 3 ∨ newer e x.epoch then ({ x with owner := r, named := r, epoch := e, ownerHeat := s.time.heat }, true)
    else (x, false)

/-- The gap ends without opening: the buffer is discarded and counted (R581, R582). -/
def discardGap (s : State) (t : Nat) : State :=
  match s.triad t with
  | none => s
  | some x =>
    let s1 := s.setTriad t { x with inGap := false, gap := [] }
    if x.gap.isEmpty then s1
    else ((x.gap.foldl (fun s f => endFrame s f 0 none) (s1.add (triCtr t 0x50) x.gap.length)).triRaise 4).post 0x8018 []

/-- A standby is in the gap (R581). -/
def enterGap (x : Triad) : Triad := if x.cfg.ssp then { x with inGap := true } else x

/-- The word is mismatched (R601). The case of a rank order that differs in the frame's MEMBER data cannot arise: MEMBER
data carry no rank order (log entry 42). -/
def mismatched (x : Triad) (node w : Nat) : Bool := decide (3 ≤ rankIn x node) || decide (5 < wState w)

/-- A triad word of an accepted frame of a node (R569, R581, R601). -/
def triAccept (s : State) (node w : Nat) : State :=
  match s.tri.slots.find? (fun t => t.2.cfg.triad == wTriad w) with
  | none => s
  | some (t, x) =>
    if mismatched x node w then
      ((s.inc 0x101020).triRaise 7).postB 0xB070 3 (255 + 256 * wTriad w) node (wTriad w) true
    else
      let r := rankIn x node
      let s1 := s.setTriad t { x with heard := mPut x.heard r w }
      if wState w = 2 ∧ r ≠ ownRank s x ∧ x.inGap then discardGap s1 t else s1

/-- What the end of the last slot decides for one member (R570, R572 to R576, R578, R581). -/
def triHeatEnd (s : State) (t : Nat) : State :=
  match s.triad t with
  | none => s
  | some x =>
    if x.st == .init then s.setTriad t (adoptOwner s x).1
    else
    let own := ownRank s x
    let others := otherWords s x
    let confirmed := s.tim.st == 4 && others.any (fun h => wSeen h.2 own)
    let unconf := if confirmed then 0 else x.unconf + 1
    let conf := if confirmed then x.conf + 1 else 0
    let x1 : Triad := { x with
      unconf := unconf, conf := conf,
      virasCause := if 4 ≤ unconf then true else if 2 ≤ conf then false else x.virasCause,
      decided := none, claimOk := false, stepDown := none, relieved := false }
    match x.st with
    | .standby =>
      let (x2, took) := adoptOwner s x1
      let ownerWord := if x2.owner < 3 then mGet? x2.heard x2.owner else none
      let missed := ownerWord.isNone
      let x3 : Triad := { x2 with missed := if missed then x2.missed + 1 else 0 }
      let s0 := if missed then s.inc (triCtr t 0x38) else s
      let yieldHeard := match ownerWord with | some w => wState w == 3 | none => false
      let third := 3 - x3.owner - own
      let seenByOther := match mGet? x3.heard third with
        | some w => decide (x3.owner < 3) && wSeen w x3.owner
        | none => false
      let silent := decide (2 ≤ x3.missed) && !seenByOther
      let x4 := if yieldHeard || missed then enterGap x3 else x3
      if took || !(yieldHeard || silent) then s0.setTriad t x4
      else if others.isEmpty then (s0.setTriad t x4).post 0x8019 []
      else
        let named := match ownerWord with | some w => wOwner w | none => 3
        let succ := if yieldHeard && decide (named < 3) && rankFit s x4 named then some named else successor s x4 x4.owner
        let s1 := s0.setTriad t { x4 with decided := succ }
        if yieldHeard || succ.isNone || decide (x4.owner = 3) then s1 else s1.post 0x8013 []
    | .claim =>
      let named := others.any (fun h => wOwner h.2 == own)
      let conflict := others.any (fun h => wState h.2 == 4 || (wOwner h.2 != own && wOwner h.2 != 3))
      let ownerWord := others.any (fun h => wState h.2 == 2 && (wEpoch h.2 == x.epoch || newer (wEpoch h.2) x.epoch))
      let missed := x.owner = 3 ∨ (mGet? x.heard x.owner).isNone
      s.setTriad t (adoptOwner s { x1 with
        claimOk := named && !conflict && !ownerWord, missed := if missed then x.missed + 1 else 0 }).1
    | .owner =>
      let dual := others.any (fun h => wState h.2 == 2 &&
        (newer (wEpoch h.2) x.epoch || (wEpoch h.2 == x.epoch && decide (h.1 < own))))
      let vote := others.find? (fun h => wState h.2 != 2 && wOwner h.2 != own && wOwner h.2 != 3)
      let epoch := others.foldl (fun e h => if newer (wEpoch h.2) e then wEpoch h.2 else e) x.epoch
      if dual then
        (match newestOwner s x with
         | some (r, e) =>
           let e' := if newer e epoch then e else epoch
           s.setTriad t { x1 with stepDown := some true, owner := r, named := r, epoch := e', ownerHeat := s.time.heat }
         | none => s.setTriad t { x1 with stepDown := some true })
      else match vote with
        | some h => s.setTriad t { x1 with stepDown := some false, owner := wOwner h.2, named := wOwner h.2, epoch := epoch }
        | none => s.setTriad t x1
    | .yield =>
      let (x2, took) := adoptOwner s x1
      s.setTriad t { x2 with relieved := took }
    | _ => s.setTriad t (adoptOwner s x1).1

/-- Gratuitous ARP of an SSP (R583; IETF RFC 5227): Ethernet header, VLAN tag where one is set, ARP. -/
def arpFrame (c : TriCfg) : List Byte :=
  let mac := beBytes 6 c.mac
  let ip := beBytes 4 c.ipv4
  let tag := if c.tci = 0 then [] else beBytes 2 0x8100 ++ beBytes 2 c.tci
  padTo 60 (List.replicate 6 0xFF ++ mac ++ tag ++ beBytes 2 0x0806 ++
    beBytes 2 1 ++ beBytes 2 0x0800 ++ beBytes 1 6 ++ beBytes 1 4 ++ beBytes 2 1 ++ mac ++ ip ++ List.replicate 6 0 ++ ip)

/-- Sum of the 16-bit words of bytes, network order. -/
def sum16 : List Byte → Nat
  | a :: b :: t => a.toNat * 256 + b.toNat + sum16 t
  | [a] => a.toNat * 256
  | [] => 0

/-- Unsolicited Neighbor Advertisement of an SSP with the override flag, to all nodes (R583; IETF RFC 4861). -/
def naFrame (c : TriCfg) : List Byte :=
  let mac := beBytes 6 c.mac
  let tag := if c.tci = 0 then [] else beBytes 2 0x8100 ++ beBytes 2 c.tci
  let dst : List Byte := beBytes 2 0xFF02 ++ List.replicate 13 0 ++ beBytes 1 1
  let body (ck : Nat) : List Byte :=
    beBytes 2 0x8800 ++ beBytes 2 ck ++ beBytes 4 0x20000000 ++ c.ipv6 ++ beBytes 2 0x0201 ++ mac
  let sum := sum16 (c.ipv6 ++ dst ++ beBytes 4 32 ++ beBytes 4 58 ++ body 0)
  let fold := (sum % 65536 + sum / 65536) % 65536 + (sum % 65536 + sum / 65536) / 65536
  beBytes 2 0x3333 ++ beBytes 4 1 ++ mac ++ tag ++ beBytes 2 0x86DD ++
    beBytes 4 0x60000000 ++ beBytes 2 32 ++ beBytes 1 58 ++ beBytes 1 255 ++ c.ipv6 ++ dst ++ body (65535 - fold % 65536)

/-- A frame of the device's own, for a port (R583; log entry 43): of the SSP's service instance, class 0. -/
def ownPkt (s : State) (src : Nat) (b : List Byte) : Pkt :=
  { id := s.tm.nextId, bytes := b, len := b.length + 4, edits := [], src := src, ing := none, tail := true, stamp := none,
    tx := none, cip := [], sto := [], cls := 0, colour := 0, hash := 0, record := [], inner := false, copy := false,
    main := false, exc := 0, mir := none, hold := none, ecc := [], sat := false, policed := 0, kept := none }

/-- Queue one announcement of each configured address (R583). -/
def announceOnce (s : State) (c : TriCfg) : State :=
  let send (s : State) (b : List Byte) : State :=
    (offer { s with tm := { s.tm with nextId := s.tm.nextId + 1 } } (ownPkt s c.svc b) (.port c.port)).1
  let s1 := if c.ipv4 = 0 then s else send s (arpFrame c)
  if c.ipv6.isEmpty then s1 else send s1 (naFrame c)

/-- Deliver the frames of a gap buffer to the service instance, in arrival order (R583). The bindings of each were applied as it
came, under the configuration of its first byte (R30). -/
def deliverGap (s : State) (t : Nat) : State :=
  match s.triad t with
  | none => s
  | some x =>
    x.gap.foldl (fun s f => admitFrame s { f with region := regionOf f.owner })
      (s.setTriad t { x with inGap := false, gap := [] })

/-- The member opens at the strike (R575, R583, R594). -/
def openRole (s : State) (t : Nat) (x : Triad) (forced : Bool) (heat : Heat) : State :=
  let own := ownRank s x
  let y : Triad := { x with
    st := .owner, epoch := (x.epoch + 1) % 128, owner := own, named := own, ownerHeat := heat, decided := none,
    announceLeft := x.cfg.announce - 1, announceAt := s.time.refNow + 1000000 }
  let s1 := (((s.setTriad t y).inc (triCtr t 0x20)).triRaise 0).postF 0x8010 [] (if forced then 4 else 0)
  let s2 := if x.cfg.ssp ∧ 0 < x.cfg.announce then announceOnce s1 x.cfg else s1
  deliverGap s2 t

/-- The latching of one member at the strike that begins a heat (R571, R575 to R579, R582, R591, R593 to R598, R602):
`x.causes` are those present before the edge, and isolation sampled on it acts at once. -/
def triStrike (s : State) (heat : Heat) (t : Nat) : State :=
  match s.triad t with
  | none => s
  | some x =>
    let causes := x.causes % 32 + 32 * b2n s.tri.isolated
    let well := causes == 0
    let sync := s.tim.st == 4
    let own := ownRank s x
    let put (y : Triad) : State := s.setTriad t y
    let s1 : State :=
      if !sync then
        (let s' := put { x with st := .init, owner := 3, named := 3, unconf := 0, conf := 0, missed := 0 }
         if x.inGap then discardGap s' t else s')
      else match x.st with
        | .init =>
          if well && !x.fresh then put { x with st := .standby, missed := 0 } else s
        | .owner =>
          (match x.stepDown, x.handover with
           | some dual, _ =>
             let s' := (((put { x with st := if well then .standby else .out }).inc (triCtr t 0x30)).triRaise 2).post 0x8012 []
             if dual then ((s'.inc (triCtr t 0x58)).triRaise 3).post 0x8014 [] else s'
           | none, h =>
             if h.isNone && well then s
             else
               let succ := match h with
                 | some r => if r < 3 ∧ rankFit s x r then some r else successor s x own
                 | none => successor s x own
               (((put { x with st := .yield, named := succ.getD 3 }).inc (triCtr t 0x28)).triRaise 1).post 0x8011
                 [BitVec.ofNat 8 (if h.isSome then 0 else causes)])
        | .yield => if x.relieved then put { x with st := if well then .standby else .out } else s
        | .claim =>
          if !well then discardGap (put { x with st := .out }) t
          else if x.claimOk then openRole s t x false heat
          else put { x with st := .standby, named := x.owner }
        | .standby =>
          if !well then discardGap (put { x with st := .out }) t
          else (match x.decided with
            | some r => if r = own then put { x with st := .claim, named := own } else put { x with named := r }
            | none => s)
        | .out => if well then put { x with st := .standby, missed := 0 } else s
    let s2 := match s1.triad t with
      | some y => if x.forced && well && sync then openRole s1 t y true heat else s1
      | none => s1
    match s2.triad t with
    | none => s2
    | some y =>
      let z : Triad := { y with
        causes := causes, seen := maskOf (own :: x.heard.map (·.1)), heard := [], decided := none, claimOk := false,
        stepDown := none, relieved := false, handover := none, forced := false, fresh := false }
      s2.setTriad t { z with word := triWord s z (z.causes == 0) }

/-- The registers of a slot that a strike latches (Table 14.8). -/
def triSnap (s : State) (t : Nat) : State :=
  match s.triad t with
  | none => ((s.setWord (triCtr t 0x08) 0).setWord (triCtr t 0x0C) 0)
  | some x =>
    let known := decide (x.owner < 3)
    let own := if known then 64 + nodeOf x x.owner else 0
    let h := if known then x.ownerHeat.toNat else 0
    (((s.setWord (triCtr t 0x08) x.word).setWord (triCtr t 0x0C)
      (x.causes * 256 + b2n x.inGap * 128 + own)).setWord (triCtr t 0x10) (h % 2 ^ 32)).setWord (triCtr t 0x14) (h / 2 ^ 32)

/-- Every triad latches at a strike; the words of members not in INIT are sent (R569, R602). -/
def triadsStrike (s : State) (heat : Heat) : State :=
  let s1 := (List.range 8).foldl (fun s t => triSnap (triStrike s heat t) t) s
  { s1 with vrs := { s1.vrs with
    triTx := (s1.tri.slots.filter (fun t => t.2.st != .init)).map (fun t => t.2.word) } }

/-- The causes present as a strike edge comes (R595). -/
def triadsEdge (s : State) : State :=
  { s with tri := { s.tri with slots := s.tri.slots.map (fun (x : Nat × Triad) => (x.1, { x.2 with causes := causesOf s x.2 })) } }

/-- The isolate state is sampled (R587, R589). -/
def isolateStrike (s : State) : State :=
  let en := s.fld Reg.isoEn = 1
  let now := if !en then false
    else if s.tri.latched then true
    else if s.tri.isoA && s.tri.isoB then true
    else if !s.tri.isoA && !s.tri.isoB then false
    else s.tri.isolated
  let s1 := { s with tri := { s.tri with isolated := now, isoEn := en } }
  if now = s.tri.isolated then s1 else (s1.triRaise 5).post (if now then 0x8015 else 0x8016) []

end Sys2Proof.Machine
end

