-- ==== Sys2Proof/Machine/VirasOps.lean ====
section
/-!
DEFINITION. The shared operations of the Viras controller: schedule images and their checks, slot timing, frames, good
copies, the vote, path delays and the ladder (spec/12_viras_bus.md). Times inside a heat are in 1/256 ns.
-/

namespace Sys2Proof.Machine

-- Schedule images (R516, R517).

/-- A slot entry (Table 12.7). -/
def imgSlot (b : List Byte) : ImgSlot :=
  { start := dn b 2 0, owner := bits (dn b 3 3) 5 0, sync := bit (dn b 3 3) 6, len := dn b 6 4, pmax := bits (dn b 7 7) 4 0 }

/-- A node entry (Table 12.7). -/
def imgNode (b : List Byte) : ImgNode :=
  { id := bits (dn b 0 0) 5 0, sync := bit (dn b 0 0) 6, hub := bits (dn b 1 1) 2 0,
    parents := [2, 4, 6].map (fun k => (bit (dn b k k) 6, bits (dn b k k) 5 0, bits (dn b (k + 1) (k + 1)) 2 0)) }

/-- Reserved bits of an image are 0 (Table 12.7). -/
def imgResv (d : List Byte) (ns nn : Nat) : Bool :=
  allZero ((d.drop 5).take 3) && dn d 15 15 == 0 && bits (dn d 19 19) 7 6 == 0 && dn d 21 21 == 0 &&
  allZero ((d.drop 32).take 32) &&
  (chunks 8 ns (d.drop 64)).all (fun b => !bit (dn b 3 3) 7 && bits (dn b 7 7) 7 5 == 0) &&
  (chunks 8 nn (d.drop (64 + 8 * ns))).all (fun b =>
    !bit (dn b 0 0) 7 && bits (dn b 1 1) 7 3 == 0 &&
    [2, 4, 6].all (fun k => !bit (dn b k k) 7 && bits (dn b (k + 1) (k + 1)) 7 3 == 0))

/-- The image that bytes spell. -/
def parseImg (d : List Byte) : Img :=
  let ns := dn d 16 16
  let nn := dn d 17 17
  { id := crc32c d, rev := dn d 31 28, heatLen := dn d 14 12,
    modes := [bits (dn d 19 19) 1 0, bits (dn d 19 19) 3 2, bits (dn d 19 19) 5 4], starRate := dn d 20 20,
    ap := dn d 23 22, gw := dn d 25 24, rxWin := dn d 27 26,
    slots := (chunks 8 ns (d.drop 64)).map imgSlot, nodes := (chunks 8 nn (d.drop (64 + 8 * ns))).map imgNode }

/-- Duration of one code group in 1/256 ns, rounded down: rate codes 1 to 3 of STAR, 0 BUS (R494, R495; log entry 45). -/
def groupTime (rate : Nat) : Nat := [102400, 20480, 2048, 819].getD rate 819

/-- Duration of `n` code groups in 1/256 ns, rounded down. -/
def groupsTime (rate n : Nat) : Nat := if rate = 3 then n * 8192 / 10 else n * groupTime rate

/-- T_f of a frame with `plen` payload words (R498). -/
def frameTime (rate plen : Nat) : Nat := groupsTime rate (3 * plen + 13)

/-- LAT of a rate, in 1/256 ns (R509). -/
def latOf (rate : Nat) : Nat := 256 * [0, 480, 96, 64].getD rate 64

namespace Img

def mode (m : Img) (c : Nat) : Nat := m.modes.getD c 0
/-- Rate code of a channel: 0 BUS, STAR_RATE for STAR. -/
def rate (m : Img) (c : Nat) : Nat := if m.mode c = 2 then m.starRate else 0
/-- The channels that are not OFF. -/
def live (m : Img) : List Nat := [0, 1, 2].filter (fun c => m.mode c != 0)
/-- Sync node IDs in ascending order. -/
def syncs (m : Img) : List Nat := (List.range 64).filter (fun n => m.nodes.any (fun x => x.id == n && x.sync))
def node? (m : Img) (n : Nat) : Option ImgNode := m.nodes.find? (fun x => x.id == n)
/-- Parent of a node on a channel. -/
def parent? (m : Img) (n c : Nat) : Option (Nat × Nat) :=
  match m.node? n with
  | some x => match x.parents.getD c (false, 0, 0) with | (true, h, b) => some (h, b) | _ => none
  | none => none
def isHub (m : Img) (n c : Nat) : Bool := match m.node? n with | some x => bit x.hub c | none => false
/-- Sync node IDs of which a device is not one itself count toward need (R530). -/
def otherSyncs (m : Img) (own : Nat) : Nat := (m.syncs.filter (· != own)).length
/-- End of the last slot, and the network idle time D (R502). -/
def lastEnd (m : Img) : Nat := m.slots.foldl (fun a x => max a (x.start + x.len)) 0
def idle (m : Img) : Nat := m.heatLen - m.lastEnd
/-- Slots of a node, by number. -/
def ownSlots (m : Img) (n : Nat) : List (Nat × ImgSlot) :=
  ((List.range m.slots.length).zip m.slots).filter (fun x => x.2.owner == n)
/-- The role of a node on a channel, as HELLO carries it: 0 node, 1 leaf hub, 2 top hub (Table 12.4). -/
def roleOf (m : Img) (n c : Nat) : Nat := if !m.isHub n c then 0 else if (m.parent? n c).isSome then 1 else 2

end Img

/-- Network idle time that a heat of `len` must leave: 2 %, rounded up (R502). -/
def idleMin (len : Nat) : Nat := ceilDiv (2 * len) 100

/-- Slots ascend, do not overlap and leave the idle time (R502, cause SLOT_TIME). -/
def slotsOk : List ImgSlot → Nat → Bool
  | [], _ => true
  | x :: t, at_ => decide (at_ ≤ x.start) && slotsOk t (x.start + x.len)

/-- The bound of a channel in check GUARD: 200 ns for BUS, 20 ns for STAR. -/
def chanBound (m : Img) (c : Nat) : Nat := if m.mode c = 1 then 200 else 20

/-- Check TOPOLOGY of one channel (Table 12.8). -/
def topoOk (m : Img) (c : Nat) : Bool :=
  if m.mode c = 1 then m.nodes.all (fun x => (m.parent? x.id c).isNone)
  else if m.mode c = 2 then
    let tops := m.nodes.filter (fun x => (m.parent? x.id c).isNone)
    decide (tops.length = 1) && tops.all (fun x => m.isHub x.id c) &&
    m.nodes.all (fun x => match m.parent? x.id c with
      | none => true
      | some (h, _) => m.isHub h c && (!m.isHub x.id c || (m.parent? h c).isNone) &&
        ((m.parent? h c).isNone || match m.parent? h c with | some (g, _) => (m.parent? g c).isNone | none => true)) &&
    ((m.nodes.filterMap (fun x => m.parent? x.id c)).eraseDups.length == (m.nodes.filterMap (fun x => m.parent? x.id c)).length)
  else true

/-- The checks of Table 12.8, in order: the cause of the first that fails. -/
def imgCheck (s : State) (d : List Byte) : Option Nat :=
  let ns := dn d 16 16
  let nn := dn d 17 17
  let m := parseImg d
  let own := m.node? s.vrs.node
  if d.take 4 ≠ [0x56, 0x53, 0x43, 0x48] ∨ dn d 4 4 ≠ 1 ∨ ns = 0 ∨ 128 < ns ∨ nn = 0 ∨ 64 < nn ∨ dn d 18 18 = 0 ∨
      16 < dn d 18 18 ∨ dn d 11 8 ≠ 68 + 8 * (ns + nn) ∨ d.length ≠ 68 + 8 * (ns + nn) ∨ !imgResv d ns nn ∨
      m.modes.contains 3 ∨ m.starRate = 0 ∨ 3 < m.starRate then some 0x30
  else if dn d (67 + 8 * (ns + nn)) (64 + 8 * (ns + nn)) ≠ crc32c (d.take (64 + 8 * (ns + nn))) then some 0x31
  else if m.heatLen < 20000 ∨ 16000000 < m.heatLen then some 0x32
  else if !slotsOk m.slots 0 ∨ m.heatLen < m.lastEnd + idleMin m.heatLen then some 0x33
  else if m.slots.any (fun x => m.live.any (fun c => decide (256 * x.len < 2 * 256 * m.ap + frameTime (m.rate c) x.pmax))) then
    some 0x34
  else if m.live.any (fun c => decide (m.gw < chanBound m c) || decide (m.ap < m.gw + chanBound m c) ||
      decide (m.rxWin < chanBound m c) || decide (m.ap < m.rxWin)) then some 0x35
  else if m.slots.any (fun x => (m.node? x.owner).isNone) ||
      m.nodes.any (fun x =>
        let l := (m.ownSlots x.id).length
        let y := ((m.ownSlots x.id).filter (fun t => t.2.sync)).length
        l == 0 || decide (4 < l) || y != b2n x.sync) ||
      m.syncs.length != dn d 18 18 then some 0x36
  else if m.nodes.any (fun x =>
      let room := (m.ownSlots x.id).foldl (fun a t => a + (t.2.pmax - 1)) 0
      decide (room < (if x.sync then 22 else 20))) then some 0x37
  else if [0, 1, 2].any (fun c => !topoOk m c) then some 0x38
  else match own with
    | none => some 0x39
    | some x => if x.hub ≠ 0 ∧ !s.vrs.hub then some 0x39 else none

-- Links and paths.

/-- Key of the uplink of a channel, and of a branch. -/
def upKey (c : Nat) : Nat := 24 + c
def brKey (c b : Nat) : Nat := 8 * c + b

/-- A link that is down. -/
def VLink.fresh : VLink :=
  { st := 0, step := .idle, rate := 1, since := 0, helloAt := none, lostAt := none, pongs := 0, repeats := 0, total := 0, delay := 0, idValid := false,
    node := 0, cutNow := false, cutRun := 0, shut := false, pongAt := none }

/-- A channel that has just been enabled. -/
def VChan.fresh : VChan := { good := false, miss := 0, run := 0, down := false, txUp := false }

namespace State

def vlink (s : State) (k : Nat) : VLink := mGetD s.vrs.links k VLink.fresh
def setVlink (s : State) (k : Nat) (x : VLink) : State := { s with vrs := { s.vrs with links := mPut s.vrs.links k x } }
def vchan (s : State) (c : Nat) : VChan := mGetD s.vrs.chans c VChan.fresh
def setVchan (s : State) (c : Nat) (x : VChan) : State := { s with vrs := { s.vrs with chans := mPut s.vrs.chans c x } }
/-- Raise a bit of VRS_STATUS (R527) or of TIM_STATUS (R566). -/
def vrsRaise (s : State) (b : Nat) : State := s.raise Reg.vrsStatus b 3
def timRaise (s : State) (b : Nat) : State := s.raise Reg.timStatus b 3
/-- Mode of a channel in the active image. -/
def vmode (s : State) (c : Nat) : Nat := match s.vrs.img with | some m => m.mode c | none => 0
/-- This device is a hub on a channel, and its top hub. -/
def hubOn (s : State) (c : Nat) : Bool := match s.vrs.img with | some m => m.mode c == 2 && m.isHub s.vrs.node c | none => false
def topOn (s : State) (c : Nat) : Bool :=
  s.hubOn c && match s.vrs.img with | some m => (m.parent? s.vrs.node c).isNone | none => false

end State

/-- Counters of a channel and of a branch (Table 12.11). -/
def vrsCtr (c off : Nat) : Nat := 0x100100 + 0x80 * c + off
def brCtr (c b off : Nat) : Nat := 0x100400 + 0x100 * c + 0x20 * b + off

/-- Own path delay P on a channel, in 1/256 ns (R509): READY gave it, 0 for the top hub and on BUS. -/
def pathOf (s : State) (c : Nat) : Nat := if s.vmode c = 2 ∧ !s.topOn c then (s.vlink (upKey c)).delay else 0

/-- The channel can carry frames of this device: BUS, the top hub's own port, or a link UP (R504, R510). -/
def linkUp (s : State) (c : Nat) : Bool :=
  match s.vmode c with
  | 1 => true
  | 2 => s.topOn c || (s.vlink (upKey c)).st == 2
  | _ => false

/-- The channel is UP at the device (R523, R536). -/
def chanUp (s : State) (c : Nat) : Bool := linkUp s c && !(s.vchan c).down

/-- Action point A_i in 1/256 ns (R503). -/
def actionPoint (m : Img) (x : ImgSlot) : Nat := 256 * (x.start + m.ap)

/-- The instant at which the SOF of a slot is expected on a channel (R509, R512). -/
def expectedAt (s : State) (m : Img) (x : ImgSlot) (c : Nat) : Nat :=
  actionPoint m x + groupsTime (m.rate c) 2 +
  (if m.mode c = 2 then latOf m.starRate + pathOf s c else 0)

/-- The slot in progress at an instant of the heat. -/
def slotAt (m : Img) (at_ : Nat) : Option (Nat × ImgSlot) :=
  ((List.range m.slots.length).zip m.slots).find? (fun x =>
    decide (256 * x.2.start ≤ at_) && decide (at_ < 256 * (x.2.start + x.2.len)))

/-- The guardian's window of an own slot on a channel: start and end (R505). -/
def ownWindow (s : State) (m : Img) (x : ImgSlot) (c : Nat) : Nat × Nat :=
  let t0 := actionPoint m x - (if m.mode c = 2 then pathOf s c else 0)
  (t0 - 256 * m.gw, t0 + frameTime (m.rate c) x.pmax + 256 * m.gw)

/-- A node sits behind a branch of this hub in the image (R511). -/
def behind (s : State) (m : Img) (c b n : Nat) : Bool :=
  match m.parent? n c with
  | none => false
  | some (h, b') =>
    (h == s.vrs.node && b' == b) ||
    (match m.parent? h c with | some (g, b2) => g == s.vrs.node && b2 == b | none => false)

/-- Until when a hub relays what a branch sends from an instant on (R511): the close of the window of a slot whose owner sits behind
it; none where no such window is open at that instant. -/
def relayUntil (s : State) (m : Img) (c b at_ : Nat) : Option Nat :=
  (m.slots.filterMap (fun x =>
    let t0 := actionPoint m x - (if s.topOn c then 0 else latOf m.starRate + pathOf s c)
    let close := t0 + frameTime m.starRate x.pmax + 256 * m.gw
    if behind s m c b x.owner && decide (t0 - 256 * m.gw ≤ at_) && decide (at_ ≤ close) then some close else none)).max?

/-- The words of a frame that pass before a window closes, `span` after its first bit: three code groups of preamble and SOF and three
for each word (R498). -/
def wordsIn (rate span : Nat) (ws : List Nat) : List Nat :=
  ws.take ((List.range (ws.length + 1)).countP (fun n => 0 < n && decide (groupsTime rate (3 + 3 * n) ≤ span)))

/-- A link carries a copy that begins at an instant (R520): it is UP, or it went DOWN in the slot that is in progress. -/
def linkCarries (s : State) (m : Img) (k at_ : Nat) : Bool :=
  (s.vlink k).st == 2 || match (s.vlink k).lostAt, slotAt m at_ with
    | some t, some (_, x) => decide (256 * x.start ≤ t)
    | _, _ => false

/-- A channel brings this device a copy that begins at an instant (R504, R510, R520). -/
def chanCarries (s : State) (m : Img) (c at_ : Nat) : Bool :=
  m.mode c == 1 || (m.mode c == 2 && (s.topOn c || linkCarries s m (upKey c) at_))

-- Frames (R499 to R501).

/-- CRC-24 of 24-bit words (R499). -/
def crc24 (ws : List Nat) : Nat := crcMsb 24 0x864CFB 0xB704CE (ws.flatMap (fun w => beBytes 3 w))

/-- The sections that the device has to send, with their words, by number in the order of Table 12.3: 0 TIME, 1 MEMBER,
2 HINT, 3 MBOX, 4 COMMIT, 5 TRIAD. -/
def sectionsOf (s : State) : List (Nat × List Nat) :=
  let m := s.vrs.member
  [(0, [s.time.heat.toNat / 2 ^ 24, s.time.heatLen]),
   (1, [m % 2 ^ 24, m / 2 ^ 24 % 2 ^ 24, m / 2 ^ 48 % 2 ^ 16]),
   (4, s.vrs.commitTx), (5, s.vrs.triTx), (2, s.vrs.hintTx.toList), (3, s.vrs.mboxTx)].filter (fun x => !x.2.isEmpty)

/-- Payload words of a frame that carries sections: the descriptor and they. -/
def payloadLen (l : List (Nat × List Nat)) : Nat := if l.isEmpty then 0 else 1 + l.foldl (fun a x => a + x.2.length) 0

/-- Give one section to the first frame in slot order that has room for it; TIME only to the sync slot (R501). Frames are
slot number, slot, sections so far. -/
def giveSection (x : Nat × List Nat) :
    List (Nat × ImgSlot × List (Nat × List Nat)) → List (Nat × ImgSlot × List (Nat × List Nat))
  | [] => []
  | (i, sl, l) :: t =>
    if (x.1 != 0 || sl.sync) && decide (payloadLen (l ++ [x]) ≤ sl.pmax) then (i, sl, l ++ [x]) :: t
    else (i, sl, l) :: giveSection x t

/-- The sections of each own slot's frame (R501, R529). -/
def assignSections (s : State) (m : Img) : List (Nat × ImgSlot × List (Nat × List Nat)) :=
  (sectionsOf s).foldl (fun fs x => giveSection x fs) ((m.ownSlots s.vrs.node).map (fun t => (t.1, t.2, [])))

/-- Descriptor of sections (Table 12.3). -/
def descriptor (l : List (Nat × List Nat)) : Nat :=
  l.foldl (fun a x => a + (match x.1 with
    | 0 => 2 ^ 23
    | 1 => 2 ^ 22
    | 2 => 2 ^ 21
    | 3 => x.2.length * 2 ^ 18
    | 4 => x.2.length * 2 ^ 15
    | _ => x.2.length * 2 ^ 11)) 0

/-- Header and payload words of the device's frame in a slot (Tables 12.2 and 12.3). -/
def frameWords (s : State) (m : Img) (i : Nat) : List Nat :=
  match (assignSections s m).find? (fun x => x.1 == i) with
  | none => []
  | some (_, sl, l) =>
    let order := [0, 1, 2, 3, 4, 5].flatMap (fun k => l.filter (fun x => x.1 == k))
    [s.vrs.node * 2 ^ 18 + i * 2 ^ 11 + payloadLen l * 2 ^ 6 + b2n sl.sync * 2 ^ 5 + b2n (s.tim.st == 2) * 2 ^ 4,
     s.time.heat.toNat % 2 ^ 24] ++
    (if l.isEmpty then [] else descriptor l :: order.flatMap (·.2))

-- Reading frames.

def fNode (ws : List Nat) : Nat := bits (ws.getD 0 0) 23 18
def fSlot (ws : List Nat) : Nat := bits (ws.getD 0 0) 17 11
def fPlen (ws : List Nat) : Nat := bits (ws.getD 0 0) 10 6
def fSync (ws : List Nat) : Bool := bit (ws.getD 0 0) 5
def fStartup (ws : List Nat) : Bool := bit (ws.getD 0 0) 4
def fHeat (ws : List Nat) : Nat := ws.getD 1 0
def fDesc (ws : List Nat) : Nat := if fPlen ws = 0 then 0 else ws.getD 2 0

/-- Words of each section that a descriptor names, in transmission order (Table 12.3). -/
def descLens (d : Nat) : List Nat :=
  [2 * bits d 23 23, 3 * bits d 22 22, bits d 21 21, bits d 20 18, bits d 17 15, bits d 14 11]

/-- Section `k` of a frame. -/
def fSection (ws : List Nat) (k : Nat) : List Nat :=
  let l := descLens (fDesc ws)
  ((ws.drop 3).drop ((l.take k).foldl (· + ·) 0)).take (l.getD k 0)

/-- PLEN is 0 or one more than the words the descriptor names, within their limits; reserved bits are 0 (R512). -/
def shapeOk (ws : List Nat) (pmax : Nat) : Bool :=
  let l := descLens (fDesc ws)
  decide (fPlen ws ≤ pmax) && bits (ws.getD 0 0) 3 0 == 0 && bits (fDesc ws) 10 0 == 0 &&
  (fPlen ws == 0 || (fPlen ws == 1 + l.foldl (· + ·) 0 && decide (l.getD 3 0 ≤ 4) && decide (l.getD 4 0 ≤ 4) &&
    decide (l.getD 5 0 ≤ 8)))

-- The ladder (R507 to R510).

/-- A ladder message leaves an end of a link: output kind is MSG, argument its second word. -/
def sendLadder (s : State) (k msg w1 : Nat) : State :=
  if 24 ≤ k then s.emit (.ladder (k - 24) 255 msg w1) else s.emit (.ladder (k / 8) (k % 8) msg w1)

/-- SCHED_ID [23:0] of the active image. -/
def schedLow (s : State) : Nat := match s.vrs.img with | some m => m.id % 2 ^ 24 | none => 0

/-- A link starts at step 1 (Table 12.5). -/
def ladderStart (s : State) (k : Nat) : State :=
  let x := s.vlink k
  s.setVlink k { VLink.fresh with st := 1, step := .lock, since := s.time.refNow, cutNow := x.cutNow, cutRun := x.cutRun }

/-- The link goes idle for 1 s after a REJECT (R507). -/
def ladderHold (s : State) (k : Nat) : State :=
  (s.setVlink k { s.vlink k with st := 1, step := .hold, since := s.time.refNow }).post 0x8004 []

/-- A ladder message that is ignored (R526): key of the link, MSG or 0 when the CRC failed. -/
def ladderBad (s : State) (k msg : Nat) : State :=
  let c := if 24 ≤ k then k - 24 else k / 8
  let unit := if 24 ≤ k then 255 + 256 * (c + 1) else k
  let party := if (s.vlink k).idValid then (s.vlink k).node else 0xFFFF
  (s.inc (vrsCtr c 0x40)).postB 0xB062 3 unit party msg true

/-- Upstream goes on after HELLO_ACK: RATE_REQ while below STAR_RATE, then PING (Table 12.5). -/
def ladderNext (s : State) (k : Nat) : State :=
  match s.vrs.img with
  | none => s
  | some m =>
    let x := s.vlink k
    if x.rate < m.starRate then
      sendLadder (s.setVlink k { x with step := .rate, since := s.time.refNow }) k 3 0
    else
      sendLadder (s.setVlink k { x with step := .ping, since := s.time.refNow, pongs := 0, repeats := 0, total := 0 }) k 5 0

/-- Why upstream refuses a HELLO (Table 12.4, REJECT): sender node, role and SCHED_ID against the active image. -/
def helloReject (s : State) (m : Img) (c b node role sched : Nat) : Option Nat :=
  let own := s.vrs.node
  let placed := m.nodes.find? (fun x => m.parent? x.id c == some (own, b))
  if sched ≠ m.id % 2 ^ 24 then some 1
  else if placed.map (·.id) ≠ some node then some 2
  else if role ≠ 0 ∧ !s.topOn c then some 3
  else if role ≠ m.roleOf node c then some 4
  else none

/-- A channel whose mode changes restarts at the strike (R518): a BUS channel is enabled at once, star links run the
ladder; what is OFF stops. -/
def restartChan (s : State) (m : Img) (c : Nat) : State :=
  let links := s.vrs.links.filter (fun x => !(x.1 == upKey c || (decide (8 * c ≤ x.1) && decide (x.1 < 8 * c + 8))))
  let s1 := { s with vrs := { s.vrs with links := links, chans := mPut s.vrs.chans c VChan.fresh } }
  if m.mode c ≠ 2 then s1
  else
    let s2 := if (m.parent? s.vrs.node c).isSome then ladderStart s1 (upKey c) else s1
    let bs := if m.isHub s.vrs.node c then
      (List.range 8).filter (fun b => m.nodes.any (fun x => m.parent? x.id c == some (s.vrs.node, b))) else []
    bs.foldl (fun s b => ladderStart s (brKey c b)) s2

/-- A hub re-checks a branch against a new image (R522). -/
def recheckBranch (s : State) (m : Img) (c b : Nat) : State :=
  let x := s.vlink (brKey c b)
  let placed := m.nodes.find? (fun y => m.parent? y.id c == some (s.vrs.node, b))
  match placed with
  | none => if x.st = 0 then s else ladderHold (sendLadder s (brKey c b) 8 2) (brKey c b)
  | some y =>
    if x.st = 0 ∧ !x.shut then ladderStart s (brKey c b)
    else if x.idValid ∧ x.node ≠ y.id then ladderHold (sendLadder s (brKey c b) 8 2) (brKey c b)
    else s

/-- The image becomes active at a strike: the whole of the bus runs by it (R517, R518, R522, R524). Where STAR_RATE changes, the
links of a STAR channel run the ladder again, as R495 asks (log entry 45). -/
def landImage (s : State) (m : Img) : State :=
  let old := s.vrs.img
  let s1 := { s with vrs := { s.vrs with img := some m, guardCrc := false, copies := [] } }
  let s2 := [0, 1, 2].foldl (fun s c =>
    let was := match old with | some o => o.mode c | none => 0
    let rate := match old with | some o => o.starRate | none => m.starRate
    if was ≠ m.mode c ∨ (m.mode c = 2 ∧ rate ≠ m.starRate) then restartChan s m c
    else if m.mode c = 2 ∧ m.isHub s.vrs.node c then (List.range 8).foldl (fun s b => recheckBranch s m c b) s
    else s) s1
  (((s2.setWord 0x100010 m.id).setWord 0x100014 m.rev).vrsRaise 0).post 0x8005 []

end Sys2Proof.Machine
end

