-- ==== Sys2Proof/Machine/TimeOps.lean ====
section
/-!
DEFINITION. The shared operations of cluster time and commit: fault-tolerant averaging, corrections, time states, the
heat length, PTP mapping, and the phases of cluster units (spec/13_cluster_time.md).
-/

namespace Sys2Proof.Machine

def Ctr.timClamp : Nat := 0x010180
def Ctr.timSyncLoss : Nat := 0x010188
def Ctr.timAdopt : Nat := 0x010190
def Ctr.timColdstart : Nat := 0x010198
def Ctr.commitOk : Nat := 0x0101A0
def Ctr.commitAbort : Nat := 0x0101A8
def Ctr.commitSplit : Nat := 0x0101B0

-- Cause codes (Table 13.10).
namespace TimCause
def selfNotArmed : Nat := 0x40
def notArmed : Nat := 0x41
def nogo : Nat := 0x42
def syncLost : Nat := 0x43
def cancelled : Nat := 0x44
def split : Nat := 0x45
def form : Nat := 0x46
def targetBusy : Nat := 0x47
def noImage : Nat := 0x50
def needCluster : Nat := 0x51
def notJoined : Nat := 0x52
end TimCause

-- Fault-tolerant averaging (R531).

/-- Insert a (value, node) pair into an ascending list. -/
def insertDev (x : Int × Nat) : List (Int × Nat) → List (Int × Nat)
  | [] => [x]
  | y :: t => if x.1 ≤ y.1 then x :: y :: t else y :: insertDev x t

/-- Values in ascending order. -/
def sortDevs (l : List (Int × Nat)) : List (Int × Nat) := l.foldr insertDev []

/-- k of R531. -/
def ftaTrim (n : Nat) : Nat := if n ≤ 2 then 0 else if n ≤ 6 then 1 else 2

/-- The values that survive the trimming of R531. -/
def ftaKept (l : List (Int × Nat)) : List (Int × Nat) :=
  let k := ftaTrim l.length
  ((sortDevs l).drop k).take (l.length - 2 * k)

/-- fta of R531, truncated toward zero. -/
def fta (l : List (Int × Nat)) : Int :=
  let u := ftaKept l
  if u.isEmpty then 0 else (u.foldl (fun (a : Int) (x : Int × Nat) => a + x.1) 0).tdiv u.length

/-- Round to the nearest integer, halves away from zero. -/
def roundDiv (a : Int) (b : Nat) : Int :=
  if 0 ≤ a then (2 * a + b).tdiv (2 * b) else -((2 * -a + b).tdiv (2 * b))

-- Time states.

/-- This device is a sync node of the active image. -/
def isSync (s : State) : Bool := match s.vrs.img with | some m => m.syncs.contains s.vrs.node | none => false

/-- need of R530. -/
def needOf (s : State) : Nat := match s.vrs.img with | some m => min s.tim.minSync (m.otherSyncs s.vrs.node) | none => 0

/-- The heat is valid (R530, R564): never while every channel in use is DOWN, also where need is 0 (log entry 96). -/
def heatValid (s : State) : Bool :=
  decide (needOf s ≤ (s.tim.devs.filter (fun d => d.1 != s.vrs.node)).length) &&
  [0, 1, 2].any (fun c => s.vmode c != 0 && !(s.vchan c).down)

/-- Precision class of the present state (R95, R536, Table 13.1). -/
def timeClass (s : State) : Nat :=
  if s.time.refHold then 3
  else match s.tim.st with
    | 3 => if s.tim.from_ = 5 then 2 else 3
    | 4 => if [0, 1, 2].any (fun c => s.vmode c == 2 && chanUp s c) then 0 else 1
    | 5 => 2
    | _ => 3

/-- Device time carries the class of the present state. -/
def reclass (s : State) : State := { s with time := { s.time with cls := timeClass s } }

/-- Limit of R + S in 1/256 ns per heat: 200 ppm of the heat length (R535). -/
def rateLimit (s : State) : Int := (256 * s.time.heatLen * 200 / 1000000 : Nat)

/-- S of a steering rate at a heat length (R545). -/
def steerOf (ppb : Int) (len : Nat) : Int := roundDiv (ppb * (len * 256 : Nat)) 1000000000

/-- A correction beyond its limit (R533, R535). -/
def clampEvent (s : State) : State :=
  let s1 := ({ s with tim := { s.tim with lastClamp := some s.time.strikes } }.inc Ctr.timClamp).timRaise 3
  if longQuiet s s.tim.lastClamp then s1.post 0x1015 [] else s1

/-- The rate in force from a strike: R + S within its limit (R534, R535, R561). -/
def rateNow (s : State) : Int := clampInt (-(rateLimit s)) (rateLimit s) (s.tim.r + steerOf s.tim.ppb s.time.heatLen)

-- The heat length (R86, R544, R545, R554).

/-- PTP time of the start of a heat under the mapping in force: seconds and nanoseconds (R544). -/
def ptpAt (s : State) (heat : Heat) : Nat × Nat :=
  let total : Int := (s.tim.ptpSec * 1000000000 + s.tim.ptpNs : Nat) +
    ((heat.toNat : Int) - (s.tim.ptpHeat.toNat : Int)) * (s.time.heatLen : Nat)
  let t := if total < 0 then 0 else total.toNat
  (t / 1000000000, t % 1000000000)

/-- A heat length lands at the strike that begins a heat (R86, R544, R554). -/
def setHeatLen (s : State) (heat : Heat) (len : Nat) : State :=
  if len = s.time.heatLen then s
  else
    let (sec, ns) := ptpAt s heat
    { s with
      time := { s.time with heatLen := len },
      tim := { s.tim with ptpHeat := heat, ptpSec := sec, ptpNs := ns, r := roundDiv (s.tim.r * (len : Nat)) s.time.heatLen } }

-- Cluster units.

/-- A command or chain's own state is inside a cluster unit: a later member of a chain that COMMIT_OPEN began (R548). -/
def inUnit (c : Cmd) (s : State) : Bool :=
  match c.src with
  | .queue f => match (s.func f).q.chain with | some ch => ch.cluster | none => false
  | .mbox => false

/-- R553, R590: in a running cluster these commands are accepted only within a cluster unit. -/
def needsCluster (c : Cmd) (s : State) : Bool := s.tim.st != 0 && !inUnit c s

/-- The unit with a commit ID and target heat. -/
def findUnit (s : State) (cid : Nat) (target : Heat) : Option CUnit :=
  s.tim.units.find? (fun u => u.cid == cid && u.target == target)

/-- Change one unit. -/
def modUnit (s : State) (n : Nat) (f : CUnit → CUnit) : State :=
  { s with tim := { s.tim with units := s.tim.units.map (fun u => if u.unit = n then f u else u) } }

/-- Remove a unit with its items. -/
def removeUnit (s : State) (n : Nat) : State :=
  { s with
    staging := { s.staging with
      items := s.staging.items.filter (fun i => i.unit != n), barriers := s.staging.barriers.filter (fun b => b.1 != n) },
    tim := { s.tim with units := s.tim.units.filter (fun u => u.unit != n) } }

/-- The second reply of COMMIT_OPEN (R165, R552, Table 13.8): status, detail bits, cause, RESULT outcome. -/
def secondReply (s : State) (u : CUnit) (status low cause outcome : Nat) : State :=
  let r : Reply :=
    { tag := u.tag, status := status, detail := mkDetail low { status := status, cause := cause },
      heat := u.target, phase := false,
      result := BitVec.ofNat 128 (u.failing % 256 + outcome * 256 + u.armed * 65536) }
  let s1 := unpromise (removeUnit s u.unit) u.owner
  if u.quiet && decide (status ≤ 1) then s1
  else match u.owner with
    | .queue f => s1.issueReply f r true
    | .mbox => mboxDone (if status ≤ 1 then s1 else s1.inc Ctr.err) (some r) s1.cmd.mbox.busy

/-- The lowest node of a mask; 0xFF for none. -/
def lowestOf (m : Nat) : Nat := (bitList m 64).headD 0xFF

/-- A unit that has not sealed is discarded: the members of its open chain are answered, COMMIT_OPEN with ABORTED and the cause; a
command in work is answered so when it has done its part (R178, R551). -/
def dropOpenUnit (s : State) (u : CUnit) (cause : Nat) : State :=
  let stop (j : Job) : Job := match j.fin with
    | .seal n _ _ _ => if n = u.unit then { j with fin := .reply St.aborted 0 cause u.target 0 } else j
    | _ => j
  let gone (s : State) : State :=
    unpromise (removeUnit { s with cmd := { s.cmd with jobs := s.cmd.jobs.map stop } } u.unit) u.owner
  match u.owner with
  | .mbox => gone s
  | .queue f =>
    match (s.func f).q.chain with
    | none => gone s
    | some ch =>
      if ch.unit ≠ u.unit then gone s
      else abortMembers ((dropUnit s ch.unit).modQueue f (fun q => { q with chain := none })) f ch.members
        (0, { status := St.aborted, cause := cause })

/-- A unit that never lands is answered ABORTED with a cause and counts as aborted (R552, R557, R559). -/
def abortUnit (s : State) (u : CUnit) (cause : Nat) (low : Nat := 0) : State :=
  let s1 := if u.isSealed then secondReply s { u with failing := 0xFF } St.aborted low cause 2 else dropOpenUnit s u cause
  let s2 := { s1 with tim := { s1.tim with last := u.cid * 2 ^ 16 + 2 * 2 ^ 14 + 63 * 2 ^ 8 + cause } }
  ((s2.inc Ctr.commitAbort).timRaise 6).post 0x1020 [BitVec.ofNat 8 u.cid, 0xFF]

/-- The own report word of a unit (Table 13.4). -/
def reportWord (u : CUnit) (kind : Nat) : Nat := kind * 2 ^ 21 + u.cid * 2 ^ 13 + u.target.toNat % 2 ^ 13

/-- The KIND that a unit reports in the heat of its phase; none before it arms. -/
def unitKind (u : CUnit) : Option Nat :=
  match u.phase with
  | 2 => some 1
  | 3 => some 2
  | 4 => some 3
  | 5 => some 4
  | 6 => some 5
  | _ => none

/-- An accepted commit report of a node (R550): it counts for the phase in progress. -/
def commitAccept (s : State) (node w : Nat) : State :=
  let kind := bits w 23 21
  let set (m : Nat) : Nat := setBits m node node 1
  let units := s.tim.units.map (fun u =>
    if bits w 20 13 = u.cid ∧ bits w 12 0 = u.target.toNat % 2 ^ 13 ∧ bit u.mask node ∧ node ≠ s.vrs.node then
      (if kind = 1 ∧ u.target = s.time.heat + 2 then { u with armed := set u.armed }
       else if kind = 2 ∧ u.target = s.time.heat + 1 then { u with go := set u.go }
       else if kind = 4 ∧ u.target = s.time.heat then { u with committed := set u.committed }
       else if kind = 5 ∧ u.target = s.time.heat then { u with aborted := set u.aborted }
       else u)
    else u)
  { s with tim := { s.tim with units := units } }

/-- Decision of a unit at the end of the last slot (Table 13.5; R551, R552, R558). -/
def unitHeatEnd (s : State) (u : CUnit) : State :=
  let own := s.vrs.node
  let sync := s.tim.st == 4
  if u.target = s.time.heat + 2 then
    let self := u.phase == 2
    let armed := if self then setBits u.armed own own 1 else u.armed
    let all := armed == u.mask
    modUnit s u.unit (fun u => { u with
      armed := armed, phase := if self && all then 3 else 4,
      cause := if u.lost then TimCause.syncLost else if !self then TimCause.selfNotArmed
               else if !all then TimCause.notArmed else 0 })
  else if u.target = s.time.heat + 1 then
    let go := if u.phase = 3 then setBits u.go own own 1 else u.go
    let commit := u.phase == 3 && sync && !u.lost && go == u.mask
    let missArmed := u.mask - maskOf ((bitList u.armed 64).filter (bit u.mask))
    let missGo := u.mask - maskOf ((bitList go 64).filter (bit u.mask))
    modUnit s u.unit (fun u => { u with
      go := go, phase := if commit then 5 else 6,
      cause := if commit then 0 else if u.cause != 0 then u.cause
               else if u.lost || !sync then TimCause.syncLost else TimCause.nogo,
      failing := if commit then 0xFF else if missArmed != 0 then lowestOf missArmed else lowestOf missGo })
  else if u.target = s.time.heat then
    let done := u.phase == 5
    let split := if done then u.aborted != 0 else u.committed != 0
    let cause := if split then TimCause.split else u.cause
    let s1 := if !u.isSealed then dropOpenUnit s u cause else secondReply s u (if done then (if split then St.degraded else St.done) else St.aborted) 0
      (if done && !split then 0 else cause) (if done then 1 else 2)
    let s2 := { s1 with tim := { s1.tim with
      last := u.cid * 2 ^ 16 + (if done then 1 else 2) * 2 ^ 14 + u.failing % 64 * 2 ^ 8 +
        (if done && !split then 0 else cause) } }
    let s3 := if done then (s2.inc Ctr.commitOk).timRaise 5 else (s2.inc Ctr.commitAbort).timRaise 6
    let data : List Byte := [BitVec.ofNat 8 u.cid, BitVec.ofNat 8 u.failing]
    if split then ((s3.inc Ctr.commitSplit).timRaise 7).post 0x1021 data
    else if done then s3 else s3.post 0x1020 data
  else s

/-- A unit at the strike that begins a heat, before activation (R550): it arms two heats before its target. -/
def unitStrike (s : State) (heat : Heat) (u : CUnit) : CUnit :=
  if u.target = heat + 2 ∧ u.isSealed ∧ s.tim.st = 4 ∧ u.phase ≤ 1 then { u with phase := 2 } else u

/-- SYNC is left after arming (R558). -/
def unitsLost (s : State) : State :=
  { s with tim := { s.tim with units := s.tim.units.map (fun u => if u.phase = 0 ∨ 5 ≤ u.phase then u else { u with lost := true }) } }

-- State changes.

/-- Enter a time state; its heats begin to be counted. -/
def enterTime (s : State) (st : Nat) : State :=
  let s1 := if s.tim.st = 4 ∧ st ≠ 4 then unitsLost s else s
  reclass { s1 with tim := { s1.tim with st := st, heats := 0, good := 0, bad := 0 } }

/-- HOLDOVER (R543, R563). -/
def enterHoldover (s : State) (fromSync : Bool) : State :=
  let s1 := enterTime s 5
  let s2 := { s1 with tim := { s1.tim with txOn := false, holdFrom := s1.time.refNow } }
  if fromSync then ((s2.timRaise 1).inc Ctr.timSyncLoss).post 0x1012 [] else s2

/-- SYNC is gained (R541, R542). -/
def gainSync (s : State) : State :=
  let s1 := enterTime s 4
  (({ s1 with tim := { s1.tim with txOn := true } }).timRaise 0).post 0x1011 []

/-- Time states at a strike, from the validity of the heat that ends (R541 to R543, R563). -/
def timeStrike (s : State) : State :=
  let v := if s.tim.closed then s.tim.valid else heatValid s
  let t := { s.tim with heats := s.tim.heats + 1 }
  let s0 := { s with tim := t }
  match s.tim.st with
  | 2 =>
    let good := if v then t.good + 1 else 0
    let s1 := { s0 with tim := { t with good := good, txOn := true } }
    if (needOf s = 0 ∧ 4 ≤ t.heats) ∨ (0 < needOf s ∧ 2 ≤ good) then gainSync s1 else s1
  | 3 =>
    if !v then
      (let s1 := enterTime s0 s.tim.from_
       { s1 with tim := { s1.tim with txOn := s.tim.from_ == 2 } })
    else if 2 ≤ t.heats then gainSync s0
    else { s0 with tim := { t with txOn := true } }
  | 4 => { s0 with tim := { t with bad := if v then 0 else t.bad + 1, txOn := true } }
  | 5 =>
    if v && !s.time.refHold then
      let s1 := { s0 with tim := { t with from_ := 5 } }
      let s2 := enterTime s1 3
      { s2 with tim := { s2.tim with from_ := 5, txOn := false } }
    else s0
  | _ => { s0 with tim := { t with txOn := false } }

end Sys2Proof.Machine
end

