-- ==== Sys2Proof/Machine/Bus.lean ====
section
/-!
DEFINITION. What the schedule image makes the device do in a heat, and when: the starts of its own frames, the closing of its
windows, the votes at the ends of slots, and the end of the last slot (R503 to R506, R513 to R515, R521, R524, R532 to R535, R773).
-/

namespace Sys2Proof.Machine

-- Own frames.

/-- Every driver is off: what is being driven is cut (R506, R524). -/
def driversOff (s : State) : State :=
  let s1 := (s.vrs.driving.filter (fun d => decide (s.time.refNow < d.2.2))).foldl (fun s d => s.emit (.cutFrame d.1 d.2.1)) s
  { s1 with vrs := { s1.vrs with driving := [] } }

/-- The controller's request for its driver falls outside the window: the device transmits nothing on any channel until the next
strike, and what it drives is cut (R524). -/
def guardBlock (s : State) (c : Nat) : State :=
  let s1 := driversOff s
  (({ s1 with vrs := { s1.vrs with blocked := true } }.inc (vrsCtr c 0x38)).vrsRaise 4).post 0x8006 []

/-- Cluster time, the guardian and the quench let the device transmit (R504, R524, R528, R563, R626). -/
def mayTransmit (s : State) : Bool :=
  s.tim.txOn && !s.time.refHold && !s.vrs.blocked && !s.vrs.guardCrc && decide (s.pwr.quench < 3) && !s.boot.stopped

/-- The frame of a slot goes out on one channel, `lag` ns after its start, inside the guardian's window (R503 to R505, R524). -/
def transmitOn (s : State) (m : Img) (i : Nat) (x : ImgSlot) (lag : Nat) (ws : List Nat) (c : Nat) : State :=
  if !(s.vchan c).txUp || !mayTransmit s then s
  else if frameTime (m.rate c) x.pmax + 256 * m.gw < 256 * lag then guardBlock s c
  else
    let end_ := s.time.refNow + ceilDiv (frameTime (m.rate c) (fPlen ws)) 256
    ({ s with vrs := { s.vrs with driving := s.vrs.driving ++ [(c, i, end_)] } }.inc (vrsCtr c 0x30)).emit
      (.viras c i (ws ++ [crc24 ws]))

/-- The device starts its frame of a slot on a channel; every channel carries the same words. -/
def slotSend (s : State) (m : Img) (i c : Nat) : State :=
  match m.slots[i]? with
  | none => s
  | some x =>
    if !mayTransmit s then s
    else
      let ws := match mGet? s.vrs.sent i with | some ws => ws | none => frameWords s m i
      transmitOn { s with vrs := { s.vrs with sent := mPut s.vrs.sent i ws } } m i x (mGetD s.vrs.lags i 0) ws c

/-- The window of an own slot closes on a channel: a frame still driven is cut (R505, R506, R521). -/
def slotClose (s : State) (i c : Nat) : State :=
  let cut := s.vrs.driving.any (fun d => d.1 == c && d.2.1 == i && decide (s.time.refNow < d.2.2))
  let s1 := { s with vrs := { s.vrs with driving := s.vrs.driving.filter (fun d => !(d.1 == c && d.2.1 == i)) } }
  if cut then s1.emit (.cutFrame c i) else s1

-- The vote.

/-- The vote over good copies (Table 12.6): the accepted words, and the channel in the minority. -/
def voteOf (l : List VCopy) : Option (List Nat) × Option Nat :=
  match l with
  | [a] => (some a.words, none)
  | [a, b] => if a.words = b.words then (some a.words, none) else (none, none)
  | [a, b, c] =>
    if a.words = b.words then (some a.words, if c.words = a.words then none else some c.chan)
    else if a.words = c.words then (some a.words, some b.chan)
    else if b.words = c.words then (some b.words, some a.chan)
    else (none, none)
  | _ => (none, none)

/-- The deviation of an accepted sync frame (R514): median of three, mean of two truncated toward zero, or the one. -/
def deviationOf (l : List Int) : Option Int :=
  match l with
  | [a] => some a
  | [a, b] => some ((a + b).tdiv 2)
  | [a, b, c] => some (max (min a b) (min (max a b) c))
  | _ => none

/-- The sections of an accepted frame go to their consumers (R500, R513, R547, R550, R569, R620). -/
def consume (s : State) (ws : List Nat) (single : Bool) : State :=
  let n := fNode ws
  let d := fDesc ws
  let s1 := { s with vrs := { s.vrs with seen := setBits s.vrs.seen n n 1 } }
  let s2 := if bits d 20 18 = 0 then s1
    else { s1 with tim := { s1.tim with mbox := mPut s1.tim.mbox n (single, fSection ws 3) } }
  let s3 := if bit d 21 then { s2 with pwr := { s2.pwr with hintIn := mPut s2.pwr.hintIn n ((fSection ws 2).getD 0 0) } } else s2
  let s4 := (fSection ws 4).foldl (fun s w => commitAccept s n w) s3
  (fSection ws 5).foldl (fun s w => triAccept s n w) s4

/-- The vote at the end of a slot (R513 to R515, R529). -/
def slotVote (s : State) (m : Img) (i : Nat) : State :=
  match m.slots[i]? with
  | none => s
  | some x =>
    let l := s.vrs.copies.filter (fun k => fSlot k.words == i)
    let s0 := { s with vrs := { s.vrs with copies := [] } }
    let (acc, minority) := voteOf l
    let single := decide (l.length = 1)
    let s1 := match acc with
      | some ws =>
        let s' := if single then (s0.inc 0x100308).vrsRaise 2 else s0.inc 0x100300
        let s'' := match minority with | some c => s'.inc (vrsCtr c 0x28) | none => s'
        let s3 := consume s'' ws single
        let dev := deviationOf ((l.filter (fun k => k.words == ws)).map (·.dev))
        (match dev with
         | some d => if x.sync ∧ x.owner ≠ s.vrs.node then
             { s3 with tim := { s3.tim with devs := mPut s3.tim.devs x.owner d } } else s3
         | none => s3)
      | none => if l.isEmpty then s0 else (s0.inc 0x100310).vrsRaise 3
    match mGet? s.vrs.sent i with
    | some ws => if acc = some ws then s1 else s1.vrsRaise 6
    | none => s1

-- The end of the last slot.

/-- Deviations that enter R531: those of other sync nodes, and 0 for a sync node itself (R529, R532). -/
def ftaInput (s : State) : List (Int × Nat) :=
  (s.tim.devs.map (fun (d : Nat × Int) => (d.2, d.1))) ++ (if isSync s then [((0 : Int), s.vrs.node)] else [])

/-- Offset correction of the heat, in every state but OFF and LISTEN (R532, R533). -/
def offsetStep (s : State) (m : Img) : State :=
  let valid := heatValid s
  let l := ftaInput s
  let lim : Int := min 256000 (256 * (s.time.heatLen - m.lastEnd) / 2 : Nat)
  let apply := valid && decide (2 ≤ s.tim.st)
  let raw := if apply then fta l else 0
  let c := clampInt (-lim) lim (-raw)
  let left := 256 * s.time.heatLen - (256 * s.time.ns + s.time.frac)
  let s1 := { s with
    tim := { s.tim with
      closed := true, valid := valid, raw := raw, c := c,
      usedMask := if apply then maskOf ((ftaKept l).map (·.2)) else 0 },
    time := { s.time with
      corr := c, corrAt := s.time.hk, corrLen := if c = 0 then 0 else max 1 (((left : Int) - c).toNat / 256) } }
  if decide (lim < raw ∨ raw < -lim) then clampEvent s1 else s1

/-- Rate correction after an odd heat (R534, R535, R560); HOLDOVER keeps R, and OFF and LISTEN have none (R543; log entry 96). -/
def rateStep (s : State) (m : Img) : State :=
  if s.time.heat.toNat % 2 = 0 ∨ !s.tim.valid ∨ !s.tim.prevValid ∨ s.tim.prevId ≠ m.id ∨ s.tim.prevLen ≠ s.time.heatLen ∨
      s.tim.st < 2 ∨ s.tim.st = 5 then s
  else
    let rs := s.tim.devs.filterMap (fun (d : Nat × Int) =>
      if d.1 = s.vrs.node then none
      else (mGet? s.tim.prevDevs d.1).map (fun p => (d.2 - p - s.tim.prevC, d.1)))
    if rs.length < needOf s then s
    else
      let r := s.tim.r - fta (rs ++ (if isSync s then [((0 : Int), s.vrs.node)] else []))
      let st := steerOf s.tim.ppb s.time.heatLen
      let lim := rateLimit s
      let r' := clampInt (-lim) lim (r + st) - st
      let s1 := { s with tim := { s.tim with r := r' } }
      if r' = r then s1 else clampEvent s1

/-- In a quench, Viras transmission has stopped; the lanes power down (Table 15.5, steps 3 and 4). -/
def quenchLanes (s : State) : State :=
  if s.pwr.quench = 2 then
    askPower { s with pwr := { s.pwr with quench := 4, quenchAt := s.time.refNow, demand := 0 } } (List.range 16) false
  else s

/-- The end of the last slot (R532 to R535, R550 to R552, R572 to R575, R626). -/
def lastSlotEnd (s : State) (m : Img) : State :=
  if s.tim.closed then s
  else quenchLanes ((List.range 8).foldl triHeatEnd ((rateStep (offsetStep s m) m).tim.units.foldl unitHeatEnd (rateStep (offsetStep s m) m)))

-- The plan of a heat.

/-- What the image makes the device do: start its frame of a slot on a channel, close a window, vote, end the last slot. -/
inductive BusAct where
  | send (i c : Nat)
  | close (i c : Nat)
  | vote (i : Nat)
  | last
deriving DecidableEq, Repr

/-- An action starts the device's frame of slot `i`. -/
def isSend (i : Nat) : BusAct → Bool
  | .send j _ => j == i
  | _ => false

/-- Enter an action in a plan, before the first of a later instant. -/
def planPut (x : Nat × BusAct) : List (Nat × BusAct) → List (Nat × BusAct)
  | [] => [x]
  | y :: t => if x.1 ≤ y.1 then x :: y :: t else y :: planPut x t

/-- The start of the device's frame of a slot on a channel (R503): the action point, on a STAR channel less the path delay, and as
much later as the controller is late. -/
def sendAt (s : State) (m : Img) (i : Nat) (x : ImgSlot) (c : Nat) : Nat :=
  actionPoint m x - (if m.mode c = 2 then pathOf s c else 0) + 256 * mGetD s.vrs.lags i 0

/-- The actions of a slot, in 1/256 ns of the heat. -/
def slotPlan (s : State) (m : Img) (i : Nat) (x : ImgSlot) : List (Nat × BusAct) :=
  (if x.owner = s.vrs.node then
    m.live.map (fun c => (sendAt s m i x c, .send i c)) ++ m.live.map (fun c => ((ownWindow s m x c).2, .close i c)) else []) ++
  [(256 * (x.start + x.len), .vote i)]

/-- The actions of a heat in the order of their instants. -/
def busPlan (s : State) : List (Nat × BusAct) :=
  match s.vrs.img with
  | none => []
  | some m =>
    let slots := ((List.range m.slots.length).zip m.slots).flatMap (fun (x : Nat × ImgSlot) => slotPlan s m x.1 x.2)
    (slots ++ [(256 * m.lastEnd, BusAct.last)]).foldr planPut []

/-- The next action of the heat, with its instant. -/
def nextBus (s : State) : Option (Nat × BusAct) := (busPlan s)[s.vrs.pos]?

/-- The device does the next action of the heat, once (R773). -/
def doBus (s : State) : State :=
  match s.vrs.img, nextBus s with
  | some m, some (_, a) =>
    let s1 := { s with vrs := { s.vrs with pos := s.vrs.pos + 1 } }
    (match a with
     | .send i c => slotSend s1 m i c
     | .close i c => slotClose s1 i c
     | .vote i => slotVote s1 m i
     | .last => lastSlotEnd s1 m)
  | _, _ => s

/-- The actions of a heat up to number `k` of the plan, in order; `n` bounds how many. -/
def busUpTo (k : Nat) : Nat → State → State
  | 0, s => s
  | n + 1, s => if s.vrs.pos ≤ k then busUpTo k n (doBus s) else s

/-- Place of the last action of a kind in the plan, with its instant. -/
def planLast (p : BusAct → Bool) (l : List (Nat × BusAct)) : Option (Nat × Nat) :=
  ((l.zip (List.range l.length)).reverse.find? (fun x => p x.1.2)).map (fun x => (x.2, x.1.1))

/-- An action of a kind is still to be done in the heat, and none of it has been done. -/
def planOpen (s : State) (p : BusAct → Bool) : Bool :=
  ((busPlan s).drop s.vrs.pos).any (fun x => p x.2) && !((busPlan s).take s.vrs.pos).any (fun x => p x.2)

end Sys2Proof.Machine
end

