-- ==== Sys2Proof/Machine/Sched.lean ====
section
/-!
DEFINITION. The scheduler's decision at an egress root (R383 to R386, R398, R399; Table 9.2).
-/

namespace Sys2Proof.Machine

/-- Key of an owner under a root. -/
def ownKey (r o : Nat) : Nat := r * 16384 + o
/-- Group of an owner under a root (R395). -/
def groupOf (s : State) (r o : Nat) : Nat := mGetD s.tm.ownerGroup (ownKey r o) 0
/-- The built-in group. -/
def Group.fresh : Group := { weight := 1, prio := 0, nodeInst := 0, node := 0 }
/-- A group of a root. -/
def groupAt (s : State) (r g : Nat) : Group := mGetD s.tm.groups (r * 1024 + g) Group.fresh
/-- Weight of an owner (R384). -/
def weightOf (s : State) (r o : Nat) : Nat :=
  if o < 4096 then max 1 (s.insOf o).weight else mGetD s.tm.ownerWeight (ownKey r o) 1

/-- Direction of an instance's limiter under a root: host-to-wire at ports, wire-to-host at host links (R386). -/
def dirOf (r : Nat) : Nat := if r < 16 then 0 else 1

/-- Received pause holds a class of a port (R296, R300). -/
def paused (s : State) (p c : Nat) : Bool :=
  let x := s.pc p (pauseIdx s p c)
  x.recoverTo.isNone && (match x.pausedTo with | some t => decide (s.time.refNow < t) | none => false)

/-- The class is express on the port (R301). -/
def express (s : State) (p c : Nat) : Bool := bit (s.mac p).cfg.express c

/-- The gate of a class is open for a frame of a length, preamble and gap included (R309). -/
def gateOpen (s : State) (p c len : Nat) : Bool :=
  let m := s.mac p
  match m.gate with
  | none => true
  | some g =>
    bit (gatesNow m) c && (match gateCloses s m g c with
      | none => true
      | some t => decide (s.devNow + wireNs s p (len + 20) ≤ t))

/-- A frame of a class may start on a root now, as far as what is being sent there goes (R301, R304, R385). -/
def mayStart (s : State) (r c : Nat) : Bool :=
  let now := mGetD s.tm.sending r []
  if 16 ≤ r then true
  else
    let fast := !(s.mac r).preActive || express s r c
    s.portLive r && (fast || !(s.mac r).hold) &&
    (match now with
     | [] => true
     | [g] => g.preemptable && (s.mac r).preActive && express s r c && g.yields s r
     | _ => false)

/-- The function of a frame for a host may take a write (R140): Bus Master Enable is set. -/
def hostOpen (s : State) : Dest → Bool
  | .queue i _ _ => (s.func i).bme
  | .port _ => true

/-- Conformance of the shaper of a place, where a pool node serves it. -/
def nodeOk (s : State) (u : NodeUse) : Bool := match s.nodeFor u with | some n => n.2.sh.ok | none => true

/-- A class queue is eligible (R383): the length of the frame at its head. -/
def eligible (s : State) (r o c : Nat) : Option Nat :=
  match (mGetD s.tm.queues (queueKey r o c) { frames := [], since := 0 }).frames with
  | [] => none
  | f :: _ =>
    let g := groupOf s r o
    if f.tail && mayStart s r c && hostOpen s f.dest && (decide (16 ≤ r) || (gateOpen s r c f.sentLen && !paused s r c)) &&
       (s.rootSh r).ok && (g == 0 || nodeOk s (.group r g)) && nodeOk s (.cls r o c) &&
       (decide (4096 ≤ o) || (s.limiter o (dirOf r)).ok) then
      some f.sentLen
    else none

/-- A child of a scheduling node: number, weight, length of the frame it would send. -/
structure Kid where
  id : Nat
  weight : Nat
  len : Nat

/-- Enter a child among others in ascending order. -/
def sortKid (k : Kid) : List Kid → List Kid
  | [] => [k]
  | x :: t => if k.id < x.id then k :: x :: t else x :: sortKid k t

/-- A node without rounds behind it. -/
def Dwrr.fresh : Dwrr := { deficit := [], last := 0 }

/-- Rounds until a child's frame fits its deficit, at least the one that visits it. -/
def Kid.rounds (d : Dwrr) (q : Nat) (k : Kid) : Nat := max 1 (ceilDiv (k.len - mGetD d.deficit k.id 0) (max 1 (k.weight * q)))

/-- Children in visiting order: ascending, from the one after the last granted. -/
def cyclic (d : Dwrr) (ks : List Kid) : List Kid :=
  ks.filter (fun k => decide (d.last < k.id)) ++ ks.filter (fun k => decide (k.id ≤ d.last))

/-- Deficit round robin (R384): the child granted and the node afterwards. The child last granted goes on while its frame
fits; else the first child whose frame fits in the fewest rounds. -/
def dwrr (d : Dwrr) (q : Nat) (ks : List Kid) : Option (Kid × Dwrr) :=
  match ks.find? (fun k => k.id == d.last && decide (k.len ≤ mGetD d.deficit k.id 0)) with
  | some k => some (k, { d with deficit := mPut d.deficit k.id (mGetD d.deficit k.id 0 - k.len) })
  | none =>
    let order := cyclic d ks
    let best := order.foldl (fun b k =>
      match b with
      | none => some k
      | some x => if k.rounds d q < x.rounds d q then some k else b) none
    match best with
    | none => none
    | some b =>
      let n := b.rounds d q
      let gain := order.foldl (fun (a : SMap Nat × Bool) k =>
        let m := if a.2 then n - 1 else n
        (mPut a.1 k.id (mGetD d.deficit k.id 0 + m * k.weight * q), a.2 || k.id == b.id)) (d.deficit, false)
      some (b, { deficit := mPut gain.1 b.id (mGetD gain.1 b.id 0 - b.len), last := b.id })

/-- The deficit of children that hold no frame is lost (R384). -/
def Dwrr.keep (d : Dwrr) (holds : Nat → Bool) : Dwrr := { d with deficit := d.deficit.filter (fun x => holds x.1) }

/-- The class of an owner that goes next, and the owner's node afterwards. -/
def pickClass (s : State) (r o : Nat) : Option (Kid × Option Dwrr) :=
  let ws := mGetD s.tm.weights r [1, 1, 1, 1, 1, 1, 1, 1]
  let ks := (List.range 8).filterMap (fun c => (eligible s r o c).map (fun n => { id := c, weight := ws.getD c 1, len := n : Kid }))
  let strict := mGetD s.tm.strict r 0
  match (ks.filter (fun k => bit strict k.id)).getLast? with
  | some k => some (k, none)
  | none =>
    let d := (mGetD s.tm.rrOwner (ownKey r o) Dwrr.fresh).keep (fun c => (mGet? s.tm.queues (queueKey r o c)).isSome)
    (dwrr d s.tm.quantum ks).map (fun x => (x.1, some x.2))

/-- What a decision at a root comes to: group, owner and class, and the nodes afterwards. -/
structure Pick where
  group : Nat
  owner : Nat
  cls : Nat
  len : Nat
  dOwner : Option Dwrr
  dGroup : Dwrr
  dRoot : Option Dwrr

/-- Owners that hold frames under a root, ascending. -/
def ownersAt (s : State) (r : Nat) : List Nat :=
  ((s.tm.queues.filter (fun q => keyRoot q.1 == r)).map (fun q => keyOwner q.1)).eraseDups

/-- The owner of a group that goes next. -/
def pickOwner (s : State) (r g : Nat) (owners : List Nat) : Option Pick :=
  let mine := owners.filter (fun o => groupOf s r o == g)
  let cand := mine.filterMap (fun o => (pickClass s r o).map (fun x => (o, x)))
  let ks := cand.map (fun c => { id := c.1, weight := weightOf s r c.1, len := c.2.1.len : Kid })
  let d := (mGetD s.tm.rrGroup (r * 1024 + g) Dwrr.fresh).keep (fun o => mine.contains o)
  match dwrr d s.tm.quantum ks with
  | none => none
  | some (k, d') =>
    (cand.find? (fun c => c.1 == k.id)).map (fun c =>
      { group := g, owner := c.1, cls := c.2.1.id, len := c.2.1.len, dOwner := c.2.2, dGroup := d', dRoot := none })

/-- The decision of a root (R383, R384): strict groups by ascending PRIO, then the groups of PRIO 0 by deficit. -/
def pickRoot (s : State) (r : Nat) : Option Pick :=
  let owners := ownersAt s r
  let groups := (owners.map (groupOf s r)).eraseDups
  let cand := groups.filterMap (fun g => pickOwner s r g owners)
  let strict := cand.filter (fun c => (groupAt s r c.group).prio != 0)
  match strict.foldl (fun b c =>
      match b with
      | none => some c
      | some x =>
        let a := (groupAt s r c.group).prio * 1024 + c.group
        if a < (groupAt s r x.group).prio * 1024 + x.group then some c else b) none with
  | some c => some c
  | none =>
    let ks := cand.map (fun c => { id := c.group, weight := (groupAt s r c.group).weight, len := c.len : Kid })
    let d := (mGetD s.tm.rrRoot r Dwrr.fresh).keep (fun g => groups.contains g)
    match dwrr d s.tm.quantum (ks.foldr sortKid []) with
    | none => none
    | some (k, d') => (cand.find? (fun c => c.group == k.id)).map (fun c => { c with dRoot := some d' })

/-- The nodes after a decision. -/
def commitPick (s : State) (r : Nat) (p : Pick) : State :=
  let t := s.tm
  let own := match p.dOwner with | some d => mPut t.rrOwner (ownKey r p.owner) d | none => t.rrOwner
  let root := match p.dRoot with | some d => mPut t.rrRoot r d | none => t.rrRoot
  { s with tm := { t with rrOwner := own, rrGroup := mPut t.rrGroup (r * 1024 + p.group) p.dGroup, rrRoot := root } }

/-- A node's shaper is charged. -/
def chargeNode (s : State) (u : NodeUse) (len : Nat) : State :=
  match s.nodeFor u with
  | none => s
  | some n => { s with tm := { s.tm with nodes := mPut s.tm.nodes n.1 { n.2 with sh := n.2.sh.charge len } } }

/-- Every shaper on a frame's path is charged, once (R386, R387). -/
def chargePath (s : State) (r : Nat) (p : Pick) : State :=
  let s1 := chargeNode s (.cls r p.owner p.cls) p.len
  let s2 := if p.group = 0 then s1 else chargeNode s1 (.group r p.group) p.len
  let s3 := { s2 with tm := { s2.tm with rootSh := mPut s2.tm.rootSh r ((s2.rootSh r).charge p.len) } }
  if 4096 ≤ p.owner then s3
  else
    let k := 2 * p.owner + dirOf r
    { s3 with tm := { s3.tm with limiters := mPut s3.tm.limiters k ((s3.limiter p.owner (dirOf r)).charge p.len) } }

/-- The head of a class queue leaves it: the next frame waits from now. -/
def popHead (s : State) (r o c : Nat) : State :=
  let k := queueKey r o c
  match (mGetD s.tm.queues k { frames := [], since := 0 }).frames with
  | [] => s
  | [_] => { s with tm := { s.tm with queues := mDel s.tm.queues k } }
  | _ :: t => { s with tm := { s.tm with queues := mPut s.tm.queues k { frames := t, since := s.time.refNow } } }

/-- The head of a class queue has waited there for TM_STALE_MAX and is discarded (R406). -/
def staleDue (r o c : Nat) (s : State) : Option Nat :=
  if s.rul.dramDown then none else (mGet? s.tm.queues (queueKey r o c)).map (fun q => q.since + s.tm.stale * 1000000)
def staleAct (r o c : Nat) (s : State) : State :=
  match (mGetD s.tm.queues (queueKey r o c) { frames := [], since := 0 }).frames with
  | [] => s
  | f :: _ =>
    let s1 := (popHead s r o c).inc Ctr.staleDrop
    let told := bit (s1.word Reg.tmStatus.addr) 2
    let s2 := s1.raise Reg.tmStatus 2 0
    reviewFrame (endFrame (if told then s2 else s2.post 0x5003) f 0 none) f

end Sys2Proof.Machine
end

