-- ==== Sys2Proof/Machine/Due.lean ====
section
/-!
DEFINITION. Actions that rules schedule at instants (R773): what the schedule image, the gate lists and the timers of the MACs make
the device do as time passes, and the events of the table that carry an instant (log entry 7).
-/

namespace Sys2Proof.Machine

/-- An action at an instant: the next of the bus; of a port's gate lists, a list that becomes operational, HOLD asserted or released
ahead of an entry, an entry that begins (R304, R305, R307); of a port's MAC, received pause of a class that ends, its recovery, the
watchdog, an own XOFF repeated or capped, the duty window, the verify timer (R296 to R302); of a class queue, a head that has grown
stale (R406). -/
inductive DueAct where
  | bus
  | start (p : Nat)
  | hold (p : Nat)
  | release (p : Nat)
  | boundary (p : Nat)
  | expiry (p c : Nat)
  | recover (p c : Nat)
  | storm (p c : Nat)
  | cap (p c : Nat)
  | again (p c : Nat)
  | window (p : Nat)
  | verify (p : Nat)
  | stale (r o c : Nat)
deriving DecidableEq, Repr

/-- The actions of a port's gate lists, each with its instant in device nanoseconds. -/
def gateDues (s : State) (p : Nat) : List (Nat × DueAct) :=
  let m := s.mac p
  (m.next.map (fun g => (g.startRef, DueAct.start p))).toList ++
  ((holdAhead s p).map (fun x => (x.1, DueAct.hold p))).toList ++
  ((releaseAhead s p).map (fun x => (x.1, DueAct.release p))).toList ++
  (m.gate.map (fun g => ((nextBoundary s m g).1, DueAct.boundary p))).toList

/-- The timers of a port's MAC, each with its reference instant. -/
def macDues (s : State) (p : Nat) : List (Nat × DueAct) :=
  let of_ (d : Option Nat) (a : DueAct) : List (Nat × DueAct) := (d.map (fun t => (t, a))).toList
  (s.mac p).pause.flatMap (fun x =>
    of_ (expiryDue p x.1 s) (.expiry p x.1) ++ of_ (recoverDue p x.1 s) (.recover p x.1) ++ of_ (stormDue p x.1 s) (.storm p x.1) ++
    of_ (capDue p x.1 s) (.cap p x.1) ++ of_ (repeatDue p x.1 s) (.again p x.1)) ++
  of_ (windowDue p s) (.window p) ++ of_ (verifyDue p s) (.verify p)

/-- The heads of the class queues that grow stale, each with its reference instant. -/
def staleDues (s : State) : List (Nat × DueAct) :=
  s.tm.queues.flatMap (fun q =>
    let r := keyRoot q.1
    let o := keyOwner q.1
    let c := keyClass q.1
    ((staleDue r o c s).map (fun t => (t, DueAct.stale r o c))).toList)

/-- The earlier of two actions; the first where both come at once. -/
def sooner (a : Option (Nat × DueAct)) (b : Nat × DueAct) : Option (Nat × DueAct) :=
  match a with
  | none => some b
  | some x => if b.1 < x.1 then some b else some x

/-- The earliest of actions. -/
def soonest (l : List (Nat × DueAct)) : Option (Nat × DueAct) := l.foldl sooner none

/-- Reference cycles until an instant of device time, in 1/256 ns; none are left where it has passed. -/
def State.cyclesUntil (s : State) (t : Nat) : Nat := s.time.cyclesTo (t - 256 * s.time.devBase)

/-- The next action of the device, with the reference cycles until it: an instant of device time stands for the first reference edge
at which device time equals or passes it (R773). -/
def nextDue (s : State) : Option (Nat × DueAct) :=
  let bus := ((nextBus s).map (fun x => (256 * s.time.devBase + x.1, DueAct.bus))).toList
  let dev := soonest (bus ++ (List.range 16).flatMap (fun p => (gateDues s p).map (fun x => (256 * x.1, x.2))))
  soonest ((dev.map (fun x => (s.cyclesUntil x.1, x.2))).toList ++
    ((List.range 16).flatMap (macDues s) ++ staleDues s).map (fun x => (x.1 - s.time.refNow, x.2)))

/-- The next entry of a port's list begins (R305, R309). -/
def boundary (s : State) (p : Nat) : State :=
  match (s.mac p).gate with
  | none => s
  | some g =>
    let (t, i) := nextBoundary s (s.mac p) g
    beginEntry s p i (t - entryStart g i) (gatesNow (s.mac p))

/-- A list becomes operational (R307, R308, R319). -/
def gateBegins (s : State) (p : Nat) : State :=
  match (s.mac p).next with
  | none => s
  | some g => gateStart s p g

/-- HOLD is asserted for the next entry that asks for it (R304). -/
def holdNext (s : State) (p : Nat) : State := match holdAhead s p with | some x => holdOn s p x.2 | none => s

/-- HOLD is released for the next entry that asks for it (R304). -/
def releaseNext (s : State) (p : Nat) : State := match releaseAhead s p with | some x => holdOff s p x.2 | none => s

/-- The device does what is due. -/
def doDue (s : State) : DueAct → State
  | .bus => doBus s
  | .start p => gateBegins s p
  | .hold p => holdNext s p
  | .release p => releaseNext s p
  | .boundary p => boundary s p
  | .expiry p c => expiryAct p c s
  | .recover p c => recoverAct p c s
  | .storm p c => stormAct p c s
  | .cap p c => capAct p c s
  | .again p c => repeatAct p c s
  | .window p => windowAct p s
  | .verify p => verifyAct p s
  | .stale r o c => staleAct r o c s

namespace State

/-- The device does what comes due before the reference instant `lim` and before the strike, each action on the first reference edge
at which device time equals or passes its instant (R773); at most `n` actions. -/
def runDue : Nat → Nat → State → State
  | 0, _, s => s
  | n + 1, lim, s =>
    match nextDue s with
    | none => s
    | some (dt, a) =>
      if lim ≤ s.time.refNow + dt ∨ s.toStrike ≤ dt then s else runDue n lim (doDue (s.advance dt) a)

/-- Time comes to `lim`, but for the last step: what comes due before it has been done. -/
def upTo (s : State) (lim : Nat) : State := s.runDue (256 * (lim - s.time.refNow) + 65536) lim

/-- What is due on this edge is done. -/
def dueNow (s : State) : State := s.upTo (s.time.refNow + 1)

/-- What comes due before an instant of the heat, in 1/256 ns, has been done: once more where the end of the last slot has bent device
time on the way (R532). -/
def near (s : State) (t : Nat) : State :=
  let s1 := s.upTo (s.time.refNow + s.time.cyclesTo t)
  s1.upTo (s1.time.refNow + s1.time.cyclesTo t)

/-- Time comes to the strike: what the heat has scheduled before it has been done, on the strike's own edge at the latest (R773). -/
def toEnd (s : State) : State :=
  let s1 := s.near (256 * s.time.heatLen)
  let s2 := s1.advance s1.toStrike
  match planLast (fun _ => true) ((busPlan s2).filter (fun x => decide (x.1 ≤ 256 * s2.time.heatLen))) with
  | none => s2
  | some (k, _) => busUpTo k (k + 1) s2

/-- One cycle of the reference passes, and what is due then is done. -/
def tick (s : State) : State := ((s.dueNow).advance 1).dueNow

/-- Time advances to a reference instant; none where the strike comes first (log entry 7). -/
def toRef (s : State) (t : Nat) : Option State :=
  if t ≤ s.time.refNow then some s
  else
    let s1 := s.upTo t
    if t - s1.time.refNow < s1.toStrike then some (s1.advance (t - s1.time.refNow)) else none

/-- An event whose instant is `t`: it does nothing where that instant is not in this heat (log entries 4 and 7). -/
def atRef (s : State) (t : Nat) (f : State → State) : State :=
  match s.toRef t with
  | some s1 => f s1
  | none => s

/-- The event of a timer: its instant comes, and it acts where the timer still stands then (log entry 7). -/
def atTimer (s : State) (due : State → Option Nat) (act : State → State) : State :=
  match due s with
  | none => s
  | some t => s.atRef t (ifDue due act)

/-- An event at an instant of the heat, in 1/256 ns: on the first reference edge at which device time equals or passes it (R773);
nothing where the strike comes first. -/
def atFine (s : State) (t : Nat) (f : State → State) : State :=
  let s1 := s.near t
  let dt := s1.time.cyclesTo t
  if dt < s1.toStrike then f (s1.advance dt) else s

/-- An event at nanosecond `ns` of this heat (R773). -/
def atNs (s : State) (ns : Nat) (f : State → State) : State := s.atFine (256 * ns) f

/-- An event at an instant of `devNow` (R773). -/
def atDev (s : State) (t : Nat) (f : State → State) : State :=
  if t ≤ s.devNow then f s else s.atNs (t - s.time.devBase) f

/-- The event of an action at an instant of device time: it acts where it still stands then. -/
def atSlot (s : State) (due : State → Option Nat) (act : State → State) : State :=
  match due s with
  | none => s
  | some t => s.atDev t (fun s => match due s with | some u => if u ≤ s.devNow then act s else s | none => s)

end State

/-- The actions of the heat's plan up to the last of a kind, that one at its instant; nothing where it has been done. -/
def busThrough (s : State) (p : BusAct → Bool) : State :=
  match planLast p (busPlan s) with
  | none => s
  | some (k, t) => if k < s.vrs.pos then s else s.atFine t (fun s => busUpTo k (k + 1) s)

end Sys2Proof.Machine
end

