-- ==== Sys2Proof/Machine/Viras.lean ====
section
/-!
DEFINITION. Meanings of the events of the Viras bus: frames, windows, copies, votes, channels and the ladder
(spec/12_viras_bus.md; R538, R540).
-/

namespace Sys2Proof.Machine

/-- VIRAS_FRAME_TX (R503, R504): the controller starts its frame in an own slot, `lag` ns after its instant on each channel (0 when
it keeps its time, as it does where no such event comes). -/
def execVirasFrameTx (i lag : Nat) (s : State) : Host.Outcome State Fault Refusal :=
  if !mayTransmit s || !planOpen s (isSend i) then .next s
  else .next (busThrough { s with vrs := { s.vrs with lags := mPut s.vrs.lags i lag } } (isSend i))

/-- GUARD_WINDOW_CLOSE (R505, R506, R521): a frame still driven is cut. -/
def execGuardWindowClose (i c : Nat) (s : State) : Host.Outcome State Fault Refusal :=
  .next (busThrough s (fun a => a == .close i c))

/-- GUARD_CRC (R524): every window is closed until a new image lands. -/
def execGuardCrc (s : State) : Host.Outcome State Fault Refusal :=
  if s.vrs.guardCrc || s.vrs.img.isNone then .next s
  else
    let s0 := driversOff s
    let s1 := { s0 with vrs := { s0.vrs with guardCrc := true } }
    .next (if bit (s1.word Reg.vrsIntEn.addr) 7 then s1.fireDev 3 else s1)

-- Reception.

/-- A copy that a device in LISTEN or COLDSTART takes its time from (R538, R540, R563). -/
def integrationOk (s : State) (m : Img) (x : VirasRx) : Bool :=
  let ws := x.words.dropLast
  let slot := m.slots[fSlot ws]?
  s.tim.adopt.isNone && !s.time.refHold && !s.boot.stopped &&
  (s.tim.st == 1 || (s.tim.st == 2 && fStartup ws && isSync s && decide (fNode ws < s.vrs.node))) &&
  x.ok && x.words.length == fPlen ws + 3 && crc24 ws == x.words.getLastD 0 && shapeOk ws 30 && fSync ws &&
  bit (fDesc ws) 23 && (match slot with | some t => t.sync && t.owner == fNode ws | none => false) &&
  (fSection ws 0).getD 1 0 == s.time.heatLen

/-- Adopt the sender's time at its next strike (R538); a device in COLDSTART stops transmitting at once (R540). -/
def integrate (s : State) (m : Img) (x : VirasRx) : State :=
  let ws := x.words.dropLast
  match m.slots[fSlot ws]? with
  | none => s
  | some t =>
    let heat := (fSection ws 0).getD 0 0 * 2 ^ 24 + fHeat ws
    let left := ceilDiv (256 * s.time.heatLen - expectedAt s m t x.chan) 256
    { s with tim := { s.tim with
      adopt := some (BitVec.ofNat 48 (heat + 1), s.time.refNow + left), adoptLen := s.time.heatLen,
      txOn := if s.tim.st = 2 then false else s.tim.txOn } }

/-- The first counter of R512 that a copy advances; none for a good copy. -/
def copyFault (s : State) (m : Img) (x : VirasRx) : Option Nat :=
  let ws := x.words.dropLast
  if !x.ok || x.words.length != fPlen ws + 3 then some 0x08
  else if crc24 ws ≠ x.words.getLastD 0 then some 0x10
  else match slotAt m x.at_ with
    | none => some 0x18
    | some (i, t) =>
      if fNode ws ≠ t.owner ∨ fSlot ws ≠ i ∨ fHeat ws ≠ s.time.heat.toNat % 2 ^ 24 ∨ fSync ws ≠ t.sync ∨ !shapeOk ws t.pmax then
        some 0x18
      else
        let e := expectedAt s m t x.chan
        if x.at_ + 256 * m.rxWin < e ∨ e + 256 * m.rxWin < x.at_ then some 0x20 else none

/-- The device's own receiver takes a copy (R512, R514). -/
def receiveCopy (s : State) (m : Img) (x : VirasRx) : State :=
  let s0 := if integrationOk s m x then integrate s m x else s
  match copyFault s0 m x with
  | some off => s0.inc (vrsCtr x.chan off)
  | none =>
    let e := match slotAt m x.at_ with | some (_, t) => expectedAt s0 m t x.chan | none => 0
    let copy : VCopy := { chan := x.chan, words := x.words.dropLast, dev := (x.at_ : Int) - (e : Int) }
    let s1 := (s0.inc (vrsCtr x.chan 0)).setVchan x.chan { s0.vchan x.chan with good := true }
    if s1.vrs.copies.any (fun k => k.chan == x.chan) then s1
    else { s1 with vrs := { s1.vrs with copies := s1.vrs.copies ++ [copy] } }

/-- A hub blocks input on a branch (R511, R525). -/
def hubCut (s : State) (c b : Nat) : State :=
  let k := brKey c b
  let x := s.vlink k
  (((s.setVlink k { x with cutNow := true }).inc (brCtr c b 0x08)).vrsRaise 5).postB 0xB060 3 k
    (if x.idValid then x.node else 0xFFFF) s.time.ns true

/-- Branches of this hub on a channel whose links are UP. -/
def upBranches (s : State) (c : Nat) : List Nat := (List.range 8).filter (fun b => (s.vlink (brKey c b)).st == 2)

/-- What a hub passes on from a branch: toward its top hub, or as the top hub to every branch and to its own receiver (R509). -/
def relayFrom (s : State) (m : Img) (x : VirasRx) (b : Nat) (words : List Nat) (ok : Bool) : State :=
  let s1 := s.inc (brCtr x.chan b 0x10)
  if s.topOn x.chan then
    receiveCopy ((upBranches s x.chan).foldl (fun s d => s.emit (.relay x.chan d words)) s1) m
      { x with words := words, ok := ok, at_ := x.at_ + latOf m.starRate }
  else s1.emit (.relay x.chan 255 words)

/-- VIRAS_COPY_RECEIVED (R494, R509, R511, R512, R520): a hub relays what its branches and its top hub send; of a frame that outlasts
its branch's window the rest is blocked. -/
def execVirasCopyReceived (x : VirasRx) (s : State) : Host.Outcome State Fault Refusal :=
  match s.vrs.img with
  | none => .next s
  | some m =>
    if 3 ≤ x.chan ∨ s.boot.stopped then .next s
    else .next (s.atNs (x.at_ / 256) (fun s =>
      match x.branch with
      | none =>
        if !chanCarries s m x.chan x.at_ then s
        else
          let s1 := if s.hubOn x.chan then
              (upBranches s x.chan).foldl (fun s b => s.emit (.relay x.chan b x.words)) s
            else s
          receiveCopy s1 m x
      | some b =>
        let from_ := x.at_ - groupsTime m.starRate 2
        if !s.hubOn x.chan || decide (8 ≤ b) || !linkCarries s m (brKey x.chan b) x.at_ then s
        else match relayUntil s m x.chan b from_ with
          | none => hubCut s x.chan b
          | some close =>
            if from_ + groupsTime m.starRate (3 * x.words.length + 4) ≤ close then relayFrom s m x b x.words x.ok
            else hubCut (relayFrom s m x b (wordsIn m.starRate (close - from_) x.words) false) x.chan b))

/-- SLOT_VIOLATION (R511, R525). -/
def execSlotViolation (c b : Nat) (s : State) : Host.Outcome State Fault Refusal :=
  if s.hubOn c && decide (b < 8) && (s.vlink (brKey c b)).st == 2 then .next (hubCut s c b) else .next s

/-- BRANCH_SHUT (R525): cut in 16 consecutive heats. -/
def execBranchShut (c b : Nat) (s : State) : Host.Outcome State Fault Refusal :=
  let k := brKey c b
  let x := s.vlink k
  if !s.hubOn c || x.shut || decide (x.cutRun + b2n x.cutNow < 16) then .next s
  else .next ((s.setVlink k { x with st := 0, step := .idle, shut := true, since := s.time.refNow }).postB 0xB061 3 k
    (if x.idValid then x.node else 0xFFFF) 16 false)

/-- BRANCH_RESTART (R525): 1 s after it was shut. -/
def execBranchRestart (c b : Nat) (s : State) : Host.Outcome State Fault Refusal :=
  let k := brKey c b
  let x := s.vlink k
  if !s.hubOn c || !x.shut then .next s
  else .next (s.atRef (x.since + 1000000000) (fun s => ladderStart (s.setVlink k { s.vlink k with cutRun := 0, cutNow := false }) k))

-- The vote.

/-- SLOT_END_VOTE (R513 to R515, R529). -/
def execSlotEndVote (i : Nat) (s : State) : Host.Outcome State Fault Refusal :=
  .next (busThrough s (fun a => a == .vote i))

/-- CHAN_DOWN (R523): at the strike after eight heats without a good copy. -/
def execChanDown (c : Nat) (s : State) : Host.Outcome State Fault Refusal :=
  let x := s.vchan c
  if s.vmode c = 0 ∨ x.down ∨ x.miss < 8 ∨ !s.onStrike then .next s
  else .next (reclass (((s.setVchan c { x with down := true }).vrsRaise 1).post 0x8001 [BitVec.ofNat 8 c]))

/-- CHAN_UP (R523): at the strike after good copies in two heats. -/
def execChanUp (c : Nat) (s : State) : Host.Outcome State Fault Refusal :=
  let x := s.vchan c
  if !x.down ∨ x.run < 2 ∨ !s.onStrike then .next s
  else .next (reclass (((s.setVchan c { x with down := false }).vrsRaise 1).post 0x8002 [BitVec.ofNat 8 c]))

-- The ladder (R507 to R510, R526).

/-- Fields of word 0 of a ladder message (Table 12.4). -/
def lNode (w : Nat) : Nat := bits w 19 14
def lRole (w : Nat) : Nat := bits w 13 12
def lRate (w : Nat) : Nat := bits w 11 8

/-- A link waits in the ladder for HELLO or HELLO_ACK, or is locking. -/
def atHello (x : VLink) : Bool := x.st == 1 && (x.step == .lock || x.step == .hello false || x.step == .hello true)

/-- HELLO (R507): upstream checks it and answers HELLO_ACK or REJECT. -/
def execHello (c b w0 w1 : Nat) (s : State) : Host.Outcome State Fault Refusal :=
  let k := brKey c b
  match s.vrs.img with
  | none => .next s
  | some m =>
    if !s.hubOn c ∨ 8 ≤ b then .next s
    else if !atHello (s.vlink k) then .next (ladderBad s k 1)
    else
      let x := s.vlink k
      match helloReject s m c b (lNode w0) (lRole w0) w1 with
      | some r => .next (ladderHold (sendLadder s k 8 r) k)
      | none =>
        let s1 := s.setVlink k { x with idValid := true, node := lNode w0, step := .hello false, since := s.time.refNow }
        .next (ladderNext (sendLadder s1 k 2 (schedLow s)) k)

/-- HELLO_ACK (R507). -/
def execHelloAck (c w0 w1 : Nat) (s : State) : Host.Outcome State Fault Refusal :=
  let k := upKey c
  let x := s.vlink k
  match s.vrs.img with
  | none => .next s
  | some m =>
    if s.vmode c ≠ 2 then .next s
    else if !atHello x then .next (ladderBad s k 2)
    else
      let _ := (w0, w1)
      .next (s.setVlink k { x with step := if x.rate < m.starRate then .rate else .ping, since := s.time.refNow })

/-- RATE_REQ (R507): downstream answers RATE_ACK for the next rate, 13 code groups long. -/
def execRateReq (c w0 : Nat) (s : State) : Host.Outcome State Fault Refusal :=
  let k := upKey c
  let x := s.vlink k
  if s.vmode c ≠ 2 then .next s
  else if x.st ≠ 1 ∨ x.step ≠ .rate ∨ lRate w0 ≠ x.rate + 1 then .next (ladderBad s k 3)
  else
    let eof := s.time.refNow + ceilDiv (groupsTime x.rate 13) 256
    .next (sendLadder (s.setVlink k { x with step := .switching, since := eof }) k 4 0)

/-- RATE_ACK (R507). -/
def execRateAck (c b w0 : Nat) (s : State) : Host.Outcome State Fault Refusal :=
  let k := brKey c b
  let x := s.vlink k
  if !s.hubOn c ∨ 8 ≤ b then .next s
  else if x.st ≠ 1 ∨ x.step ≠ .rate ∨ lRate w0 ≠ x.rate + 1 then .next (ladderBad s k 4)
  else .next (s.setVlink k { x with step := .switching, since := s.time.refNow })

/-- RATE_SWITCH (R507): 10 µs after the EOF of RATE_ACK this end of the link runs at the next rate. -/
def execRateSwitch (k : Nat) (s : State) : Host.Outcome State Fault Refusal :=
  let x := s.vlink k
  if x.st ≠ 1 ∨ x.step ≠ .switching then .next s
  else .next (s.atRef (x.since + 10000) (fun s =>
    s.setVlink k { x with rate := x.rate + 1, step := .hello true, since := s.time.refNow, helloAt := none }))

/-- PING (R508): its PONG is due 2,000 ns later. -/
def execPing (c : Nat) (s : State) : Host.Outcome State Fault Refusal :=
  let k := upKey c
  let x := s.vlink k
  if s.vmode c ≠ 2 then .next s
  else if x.st ≠ 1 ∨ x.step ≠ .ping then .next (ladderBad s k 5)
  else .next (s.setVlink k { x with pongAt := some (s.time.refNow + 2000), since := s.time.refNow })

/-- PONG_SEND (R508). -/
def execPongSend (c : Nat) (s : State) : Host.Outcome State Fault Refusal :=
  let k := upKey c
  match (s.vlink k).pongAt with
  | none => .next s
  | some t => .next (s.atRef t (fun s => sendLadder (s.setVlink k { s.vlink k with pongAt := none }) k 6 0))

/-- P of the downstream end of a branch with link delay d (R509). -/
def branchPath (s : State) (c d : Nat) : Nat :=
  if s.topOn c then d
  else d + latOf (match s.vrs.img with | some m => m.starRate | none => 1) + pathOf s c

/-- PONG (R508): `rt` is t2 - t1 in 1/256 ns. After the sixteenth, READY carries P of the downstream end. -/
def execPong (c b rt : Nat) (s : State) : Host.Outcome State Fault Refusal :=
  let k := brKey c b
  let x := s.vlink k
  if !s.hubOn c ∨ 8 ≤ b then .next s
  else if x.st ≠ 1 ∨ x.step ≠ .ping then .next (ladderBad s k 6)
  else
    let y : VLink := { x with pongs := x.pongs + 1, repeats := 0, total := x.total + rt, since := s.time.refNow }
    if y.pongs < 16 then .next (sendLadder (s.setVlink k y) k 5 0)
    else
      let d := y.total / 32 - 256000
      let s1 := (s.setVlink k { y with delay := d, step := .ready }).setWord (brCtr c b 0x04) (d % 2 ^ 24)
      .next (sendLadder s1 k 7 (branchPath s1 c d))

/-- READY (R507, R509): downstream takes its path delay; the link is UP from the next strike. -/
def execReady (c p : Nat) (s : State) : Host.Outcome State Fault Refusal :=
  let k := upKey c
  let x := s.vlink k
  if s.vmode c ≠ 2 then .next s
  else if x.st ≠ 1 ∨ x.step ≠ .ping then .next (ladderBad s k 7)
  else .next ((s.setVlink k { x with delay := p % 2 ^ 24, step := .ready, pongAt := none }).setWord (vrsCtr c 0x48) (p % 2 ^ 24))

/-- REJECT (R507): the link is held idle for 1 s. -/
def execReject (c reason : Nat) (s : State) : Host.Outcome State Fault Refusal :=
  let k := upKey c
  let x := s.vlink k
  let _ := reason
  if s.vmode c ≠ 2 ∨ x.st = 0 ∨ x.step = .hold then .next s else .next (ladderHold s k)

/-- LADDER_BAD (R526): a message with a bad CRC (MSG 0) or an unknown MSG. -/
def execLadderBad (k msg : Nat) (s : State) : Host.Outcome State Fault Refusal :=
  if 27 ≤ k ∨ (s.vlink k).st = 0 then .next s else .next (ladderBad s k msg)

/-- Downstream sends HELLO (R507); the first one once its receiver has locked. -/
def sendHello (k : Nat) (s : State) : State :=
  let x := s.vlink k
  let y : VLink := if x.step = .lock then { x with step := .hello false, since := s.time.refNow } else x
  sendLadder (s.setVlink k { y with helloAt := some s.time.refNow }) k 1 (schedLow s)

/-- HELLO_TIMER (R507): every 1 ms downstream sends HELLO. -/
def execHelloTimer (c : Nat) (s : State) : Host.Outcome State Fault Refusal :=
  let x := s.vlink (upKey c)
  if s.vmode c ≠ 2 || !atHello x then .next s
  else match x.helloAt with
    | none => .next (sendHello (upKey c) s)
    | some t => .next (s.atRef (t + 1000000) (sendHello (upKey c)))

/-- LADDER_TIMEOUT (Table 12.5): a wait for lock, HELLO, HELLO_ACK or PONG runs out. -/
def execLadderTimeout (k : Nat) (s : State) : Host.Outcome State Fault Refusal :=
  let x := s.vlink k
  if 27 ≤ k ∨ x.st ≠ 1 then .next s
  else match x.step with
    | .lock => .next (s.atRef (x.since + 200000) (fun s => ladderStart s k))
    | .hello false => if k < 24 then .next s else .next (s.atRef (x.since + 50000000) (fun s => ladderStart s k))
    | .hello true => .next (s.atRef (x.since + 2000000) (fun s =>
        s.setVlink k { x with st := 3, rate := x.rate - 1, step := .idle, since := s.time.refNow }))
    | .ping =>
      if 24 ≤ k then .next s
      else .next (s.atRef (x.since + 100000) (fun s =>
        if x.repeats = 64 then ladderStart s k
        else sendLadder (s.setVlink k { x with repeats := x.repeats + 1, since := s.time.refNow }) k 5 0))
    | _ => .next s

/-- LADDER_HOLD_END (R507, R510): 1 s after a REJECT, or on a LOW link. -/
def execLadderHoldEnd (k : Nat) (s : State) : Host.Outcome State Fault Refusal :=
  let x := s.vlink k
  if 27 ≤ k then .next s
  else if (x.st = 1 ∧ x.step = .hold) ∨ x.st = 3 then
    .next (s.atRef (x.since + 1000000000) (fun s => ladderStart s k))
  else .next s

/-- STAR_LINK_DOWN (R520, R763): a star link loses signal or lock and runs its ladder again. -/
def execStarLinkDown (k : Nat) (s : State) : Host.Outcome State Fault Refusal :=
  let c := if 24 ≤ k then k - 24 else k / 8
  if 27 ≤ k ∨ s.vmode c ≠ 2 ∨ (s.vlink k).st = 0 then .next s
  else
    let at_ := 256 * s.time.ns + s.time.frac
    let s1 := ladderStart s k
    .next (reclass (s1.setVlink k { s1.vlink k with lostAt := if (s.vlink k).st = 2 then some at_ else none }))

-- The bus at a strike.

/-- A link at a strike: READY makes it UP (R507); heats in which its input was blocked are counted (R525). -/
def linkStrike (s : State) (k : Nat) (x : VLink) : State :=
  let y : VLink := { x with
    cutRun := if x.cutNow then x.cutRun + 1 else 0, cutNow := false, lostAt := none,
    st := if x.step = .ready then 2 else x.st, step := if x.step = .ready then .idle else x.step }
  let s1 := s.setVlink k y
  if x.step = .ready then s1.post 0x8003 [] else s1

/-- Reception of the heat that ends on a channel (R523). -/
def chanClose (s : State) (c : Nat) : State :=
  if s.vmode c = 0 then s
  else
    let x := s.vchan c
    s.setVchan c { x with
      miss := if x.good then 0 else x.miss + 1, run := if x.good then x.run + 1 else 0, good := false }

/-- A channel transmits in the heat that begins if it can carry frames at the strike (R520). -/
def chanLatch (s : State) (c : Nat) : State :=
  if s.vmode c = 0 then s else s.setVchan c { s.vchan c with txUp := linkUp s c }

/-- Outgoing mailbox words as their registers hold them (R546). -/
def mboxLatch (s : State) : List Nat := (List.range (s.fld Reg.mboxTxCnt)).map (fun k => s.fld Reg.mboxTx k)

/-- Mailbox words of the heat before become visible (R547). -/
def mboxVisible (s : State) : State :=
  let s1 := (List.range 64).foldl (fun s n =>
    let (stat, ws) := match mGet? s.tim.mbox n with
      | some (single, ws) => (ws.length + 8 * b2n single + 16, ws)
      | none => (0, [])
    (List.range 4).foldl (fun s k => s.setWord (0x011004 + 0x20 * n + 4 * k) (ws.getD k 0))
      (s.setWord (0x011000 + 0x20 * n) stat)) s
  let any := s.tim.mbox.any (fun x => !x.2.2.isEmpty)
  let s2 := { s1 with tim := { s1.tim with mbox := [] } }
  if any then s2.timRaise 4 else s2

/-- HINT words of the heat before become visible (R620). -/
def hintsVisible (s : State) : State :=
  let s1 := (List.range 64).foldl (fun s n =>
    s.setWord (0x020200 + 4 * n) (match mGet? s.pwr.hintIn n with | some w => 2 ^ 24 + w | none => 0)) s
  { s1 with pwr := { s1.pwr with hintSeen := s.pwr.hintIn, hintIn := [] } }

/-- The bus as its heat ends, before the activation of a strike: what was received is closed, links come UP. -/
def virasClose (s : State) : State :=
  let s1 := s.vrs.links.foldl (fun s x => linkStrike s x.1 x.2) s
  let s2 := [0, 1, 2].foldl chanClose s1
  let seen := s2.vrs.seen
  let s3 := (s2.setWord 0x100018 (seen % 2 ^ 32)).setWord 0x10001C (seen / 2 ^ 32)
  { s3 with vrs := { s3.vrs with
      blocked := false, copies := [], sent := [], pos := 0, lags := [], driving := [], member := seen, seen := 0 } }

/-- The words of the device's slots in the heat that begins are latched (Table 2.1, order 4; R546, R549, R620). -/
def virasLatch (s0 : State) : State :=
  let s := [0, 1, 2].foldl chanLatch s0
  let word := hintWordOf s
  { s with
    vrs := { s.vrs with
      mboxTx := mboxLatch s,
      commitTx := s.tim.units.filterMap (fun u => (unitKind u).map (reportWord u)),
      hintTx := if s.fld Reg.hintViras = 1 then some word else none },
    pwr := { s.pwr with hintWord := word } }

end Sys2Proof.Machine
end

