-- ==== Sys2Proof/Machine/ClusterTime.lean ====
section
/-!
DEFINITION. Meanings of cluster time: the commit opcodes of family 0x02, opcode family 0x0B, and the events of time states
and of the end of the last slot (spec/13_cluster_time.md). Family 0x0B is not open to tenant queues.
-/

namespace Sys2Proof.Machine

-- Cluster commit (R548 to R559).

/-- COMMIT_OPEN (R548, R556). -/
def bodyCommitOpen (c : Cmd) (s : State) : Body :=
  let p := c.params
  let cid := pf p 0 0
  let mask := pf p 15 8
    let absent := (bitList mask 64).any (fun n => match s.vrs.img with | some m => (m.node? n).isNone | none => true)
    if cid = 0 then .bad TimCause.form 24
    else if !bit mask s.vrs.node || absent then .bad TimCause.form 32
    else if s.tim.st = 0 then .deny TimCause.notJoined
    else if 4 ≤ s.tim.units.length ∨ s.tim.units.any (fun u => u.target == c.target) then .full TimCause.targetBusy
    else
      let u : CUnit :=
        { cid := cid, mask := mask, target := c.target, unit := s.staging.nextUnit, owner := c.src, tag := c.tag, quiet := c.noReply,
          isSealed := false, phase := 0, armed := 0, go := 0, committed := 0, aborted := 0, lost := false, cause := 0,
          failing := 0xFF }
      let s1 := { s with tim := { s.tim with units := s.tim.units ++ [u] } }
      let s2 := match c.src with
        | .queue f => s1.modQueue f (fun q => { q with promised := q.promised + 1 })
        | .mbox => s1
      .stage s2 [] false 0

/-- COMMIT_OPEN (opcode 0x0220). -/
def execCommitOpen (c : Cmd) (s : State) : Host.Outcome State Fault Refusal :=
  runCmd Op.commitOpen c bodyCommitOpen s

/-- COMMIT_CANCEL (R559). -/
def bodyCommitCancel (c : Cmd) (s : State) : Body :=
  let p := c.params
  match findUnit s (pf p 0 0) (BitVec.ofNat 48 (pf p 6 1)) with
  | none => .missing
  | some u =>
    if u.target.toNat ≤ s.time.heat.toNat + 2 then .fail { status := St.late }
    else .done (abortUnit s u TimCause.cancelled) 0

/-- COMMIT_CANCEL (opcode 0x0221). -/
def execCommitCancel (c : Cmd) (s : State) : Host.Outcome State Fault Refusal :=
  runCmd Op.commitCancel c bodyCommitCancel s

/-- Reports of a unit's current phase that were accepted (Table 13.8). -/
def phaseMask (u : CUnit) : Nat := if u.phase ≤ 2 then u.armed else if u.phase ≤ 4 then u.go else u.committed + u.aborted

/-- COMMIT_QUERY (Table 13.8). -/
def bodyCommitQuery (c : Cmd) (s : State) : Body :=
  let p := c.params
  match findUnit s (pf p 0 0) (BitVec.ofNat 48 (pf p 6 1)) with
  | none => .missing
  | some u => .done s (u.phase + phaseMask u * 2 ^ 64)

/-- COMMIT_QUERY (opcode 0x0222). -/
def execCommitQuery (c : Cmd) (s : State) : Host.Outcome State Fault Refusal :=
  runCmd Op.commitQuery c bodyCommitQuery s

-- Opcode family 0x0B.

/-- SCHED_LOAD (R517, R553, R554). -/
def bodySchedLoad (c : Cmd) (s : State) : Body :=
    if needsCluster c s then .deny TimCause.needCluster
    else match imgCheck s c.data with
      | some cause => .bad cause
      | none => .stage s [c.data] false 0

/-- SCHED_LOAD (opcode 0x0B01). -/
def execSchedLoad (c : Cmd) (s : State) : Host.Outcome State Fault Refusal :=
  runCmd Op.schedLoad c bodySchedLoad s

/-- SCHED_LOAD lands: the image, and its heat length (R86, R517). -/
def landSchedLoad (it : Item) (s : State) : State :=
  let m := parseImg it.data
  setHeatLen (landImage s m) s.time.heat m.heatLen

/-- TIM_JOIN (R528, R553). -/
def bodyTimJoin (c : Cmd) (s : State) : Body :=
  let p := c.params
    if s.vrs.img.isNone then .deny TimCause.noImage
    else if s.tim.st ≠ 0 then .done s 0
    else
      let s1 := enterTime s 1
      .done { s1 with tim := { s1.tim with cold := pf p 0 0 == 1 && isSync s, adopt := none, txOn := false } } 0

/-- TIM_JOIN (opcode 0x0B02). -/
def execTimJoin (c : Cmd) (s : State) : Host.Outcome State Fault Refusal :=
  runCmd Op.timJoin c bodyTimJoin s

/-- TIM_LEAVE (R528, Table 13.9): transmission stops with the next strike; pending units are aborted. -/
def bodyTimLeave (_c : Cmd) (s : State) : Body :=
    let s1 := enterTime s 0
    let s2 := { s1 with tim := { s1.tim with adopt := none } }
    .done (s.tim.units.foldl (fun s u => abortUnit s u TimCause.syncLost) s2) 0

/-- TIM_LEAVE (opcode 0x0B03). -/
def execTimLeave (c : Cmd) (s : State) : Host.Outcome State Fault Refusal :=
  runCmd Op.timLeave c bodyTimLeave s

/-- A signed 24-bit field as 32 bits. -/
def sext32 (v : Nat) : Nat := ofInt 32 (toInt 24 v)

/-- TIM_QUERY (Table 13.9). -/
def bodyTimQuery (_c : Cmd) (s : State) : Body :=
  (.done s
    (s.tim.st + s.time.cls * 2 ^ 8 + s.tim.usedCnt * 2 ^ 16 + sext32 (s.word 0x010114) * 2 ^ 32 +
     sext32 (s.word 0x010118) * 2 ^ 64 + sext32 (s.word 0x010110) * 2 ^ 96))

/-- TIM_QUERY (opcode 0x0B04). -/
def execTimQuery (c : Cmd) (s : State) : Host.Outcome State Fault Refusal :=
  runCmd Op.timQuery c bodyTimQuery s

/-- TIM_STEER (R545, R553). -/
def bodyTimSteer (c : Cmd) (s : State) : Body :=
  let p := c.params
  let ppb := toInt 32 (pf p 3 0)
    if ppb < -100000 ∨ 100000 < ppb then .bad 0 24
    else if needsCluster c s then .deny TimCause.needCluster
    else .stage s [c.data] false 0

/-- TIM_STEER (opcode 0x0B05). -/
def execTimSteer (c : Cmd) (s : State) : Host.Outcome State Fault Refusal :=
  runCmd Op.timSteer c bodyTimSteer s

/-- TIM_STEER lands (R545). -/
def landTimSteer (it : Item) (s : State) : State :=
  { s with tim := { s.tim with ppb := toInt 32 (pf it.params 3 0) } }.setWord 0x01011C (pf it.params 3 0)

/-- TIM_PTP_MAP (R544, R553). -/
def bodyTimPtpMap (c : Cmd) (s : State) : Body :=
  let p := c.params
    if 999999999 < pf p 15 12 then .bad 0 36
    else if needsCluster c s then .deny TimCause.needCluster
    else .stage s [c.data] false 0

/-- TIM_PTP_MAP (opcode 0x0B06). -/
def execTimPtpMap (c : Cmd) (s : State) : Host.Outcome State Fault Refusal :=
  runCmd Op.timPtpMap c bodyTimPtpMap s

/-- TIM_PTP_MAP lands (R544). -/
def landTimPtpMap (it : Item) (s : State) : State :=
  let p := it.params
  { s with tim := { s.tim with ptpHeat := BitVec.ofNat 48 (pf p 5 0), ptpSec := pf p 11 6, ptpNs := pf p 15 12 } }

-- Time states.

/-- COLDSTART (R539, R772): at the strike at which a sync node has spent 3 + rank heats in LISTEN. -/
def execColdstart (s : State) : Host.Outcome State Fault Refusal :=
  match s.vrs.img with
  | none => .next s
  | some m =>
    let rank := (m.syncs.filter (· < s.vrs.node)).length
    if s.tim.st ≠ 1 ∨ !s.tim.cold ∨ !isSync s ∨ s.tim.adopt.isSome ∨ s.tim.heats < 3 + rank ∨ !s.onStrike then .next s
    else
      let s1 := enterTime s 2
      .next (({ s1 with tim := { s1.tim with txOn := true } }.inc Ctr.timColdstart).post 0x1014 [])

/-- SYNC_LOST (R543): at the strike after eight consecutive heats not valid. -/
def execSyncLost (s : State) : Host.Outcome State Fault Refusal :=
  if s.tim.st = 4 ∧ 8 ≤ s.tim.bad ∧ s.onStrike then .next (enterHoldover s true) else .next s

/-- HOLDOVER_END (R543): 1 s of reference time in HOLDOVER. -/
def execHoldoverEnd (s : State) : Host.Outcome State Fault Refusal :=
  if s.tim.st ≠ 5 then .next s
  else .next (s.atRef (s.tim.holdFrom + 1000000000) (fun s =>
    let s1 := enterTime s 1
    ({ s1 with tim := { s1.tim with adopt := none } }.timRaise 2).post 0x1013 []))

/-- SYS_REFCLK is lost, as cluster time sees it (R543, R563). -/
def timeRefLost (s : State) : State :=
  if s.tim.st = 4 then enterHoldover s true
  else if s.tim.st = 3 then enterHoldover s false
  else reclass { s with tim := { s.tim with txOn := false, adopt := none } }

-- The end of the last slot.

/-- LAST_SLOT_END (R532 to R535, R550 to R552, R572 to R575, R626). -/
def execLastSlotEnd (s : State) : Host.Outcome State Fault Refusal :=
  if s.boot.stopped then .next s else .next (busThrough s (fun a => a == .last))

/-- Registers of cluster time at a strike, and the heat's deviations as those of the heat before (Table 13.11). -/
def timeLatch (s : State) : State :=
  let t := s.tim
  let sat (v : Int) : Nat := ofInt 24 (clampInt (-8388608) 8388607 v)
  let syncs := match s.vrs.img with | some m => m.syncs | none => []
  let entry (n : Nat) : Nat :=
    let used := 2 ^ 25 * b2n (bit t.usedMask n)
    match mGet? t.devs n with
    | some d => sat d + 2 ^ 24 + used
    | none => if n = s.vrs.node ∧ syncs.contains n ∧ 2 ≤ t.st then 2 ^ 24 + used else 0
  let s1 := (List.range 64).foldl (fun s n => s.setWord (0x010200 + 4 * n) (entry n)) s
  let s2 := (((s1.setWord 0x010110 (sat t.raw)).setWord 0x010114 (sat t.c)).setWord 0x010118 (sat t.r)).setWord 0x010160 t.last
  { s2 with tim := { t with
    usedCnt := (bitList t.usedMask 64).length, prevDevs := t.devs, prevValid := t.closed && t.valid, prevC := t.c,
    prevId := (match s.vrs.img with | some m => m.id | none => 0), prevLen := s.time.heatLen, devs := [], closed := false,
    valid := false, raw := 0, c := 0, usedMask := 0 } }

end Sys2Proof.Machine
end

