-- ==== Sys2Proof/Machine/Device.lean ====
section
/-!
DEFINITION. Meanings of opcode families 0x01 (device and identity), 0x0F (diagnostics), and of family 0x02 but for the
cluster commit (spec/04_commands.md, spec/02_strike.md).
-/

namespace Sys2Proof.Machine

-- Family 0x01 (Table 4.11).

/-- NOP. -/
def bodyNop (_c : Cmd) (s : State) : Body := .done s 0

/-- NOP (opcode 0x0101). -/
def execNop (c : Cmd) (s : State) : Host.Outcome State Fault Refusal :=
  runCmd Op.nop c bodyNop s

/-- GET_DEVICE_INFO (R2): under the boot ROM the version and the image read 0. -/
def bodyGetDeviceInfo (_c : Cmd) (s : State) : Body :=
  let (img, ver) := match s.nvm.running with | some r => (r.1, r.2.1) | none => (0, 0)
  (.done s
    (0x0160 + 0xB0 * 2 ^ 16 + ver * 2 ^ 32 + img * 2 ^ 64 + b2n s.vrs.hub * 2 ^ 72 + s.vrs.node * 2 ^ 80))

/-- GET_DEVICE_INFO (opcode 0x0102). -/
def execGetDeviceInfo (c : Cmd) (s : State) : Host.Outcome State Fault Refusal :=
  runCmd Op.getDeviceInfo c bodyGetDeviceInfo s

/-- GET_SERIAL (R647). -/
def bodyGetSerial (_c : Cmd) (s : State) : Body := .done s Config.serial.toNat

/-- GET_SERIAL (opcode 0x0103). -/
def execGetSerial (c : Cmd) (s : State) : Host.Outcome State Fault Refusal :=
  runCmd Op.getSerial c bodyGetSerial s

/-- GET_QUEUE_INFO: the queue of INSTANCE, which for a tenant is its own. -/
def bodyGetQueueInfo (c : Cmd) (s : State) : Body :=
  let x := s.insOf c.id
  let q := (s.func c.id).q
    if x.st == .free then .missing
    else .done s (State.backlog q + x.level * 2 ^ 32 + x.weight * 2 ^ 48 + q.lastCu * 2 ^ 64 + x.cap * 2 ^ 96)

/-- GET_QUEUE_INFO (opcode 0x0104). -/
def execGetQueueInfo (c : Cmd) (s : State) : Host.Outcome State Fault Refusal :=
  runCmd Op.getQueueInfo c bodyGetQueueInfo s

-- Family 0x0F (Table 4.12).

/-- ECHO returns parameter bytes 0 to 15. -/
def bodyEcho (c : Cmd) (s : State) : Body := .done s (pf c.params 15 0)

/-- ECHO (opcode 0x0F01). -/
def execEcho (c : Cmd) (s : State) : Host.Outcome State Fault Refusal :=
  runCmd Op.echo c bodyEcho s

/-- BURN: a count of 0 is out of range; one above CMD_COST_MAX has failed as COST. -/
def bodyBurn (c : Cmd) (s : State) : Body :=
  if pf c.params 3 0 = 0 then .bad 0 24 else .done s (pf c.params 3 0)

/-- BURN (opcode 0x0F02): its base cost is its count (Table 4.8). -/
def execBurn (c : Cmd) (s : State) : Host.Outcome State Fault Refusal :=
  runCmd (Op.burn c) c bodyBurn s

-- Family 0x02 (Table 2.5).

/-- SET_HEAT_LENGTH (R4, R39, R96, R553, R554). -/
def bodySetHeatLength (c : Cmd) (s : State) : Body :=
  let p := c.params
  let len := pf p 2 0
    if len < 20000 ∨ 16000000 < len then .bad 0 24
    else if needsCluster c s then .deny TimCause.needCluster
    else
      match s.vrs.img with
      | some m =>
        if s.tim.st ≠ 0 ∧ len < m.lastEnd + idleMin len then .bad 0x33 24 else .stage s [c.data] false 0
      | none => .stage s [c.data] false 0

/-- SET_HEAT_LENGTH (opcode 0x0201). -/
def execSetHeatLength (c : Cmd) (s : State) : Host.Outcome State Fault Refusal :=
  runCmd Op.setHeatLength c bodySetHeatLength s

/-- SET_HEAT_LENGTH lands (R86, R91). -/
def landSetHeatLength (it : Item) (s : State) : State := setHeatLen s s.time.heat (pf it.params 2 0)

/-- GET_TIME (R56): heat number, nanoseconds and precision class of one edge. -/
def bodyGetTime (_c : Cmd) (s : State) : Body :=
  .done s (s.time.heat.toNat + s.time.ns * 2 ^ 48 + s.time.cls * 2 ^ 80)

/-- GET_TIME (opcode 0x0202). -/
def execGetTime (c : Cmd) (s : State) : Host.Outcome State Fault Refusal :=
  runCmd Op.getTime c bodyGetTime s

/-- Sealed items that a queue sees: all, or a tenant's own (R168; log entry 52). -/
def seenItems (s : State) (c : Cmd) : List Item :=
  s.staging.items.filter (fun i => i.isSealed && (isManager c.src || i.inst == ownOf c.src))

/-- QUERY_STAGED (Table 2.5). -/
def bodyQueryStaged (c : Cmd) (s : State) : Body :=
  let h : Heat := BitVec.ofNat 48 (pf c.params 5 0)
  let items := seenItems s c
  let heats := (items.map (·.landing) ++ (if isManager c.src then s.staging.barriers.map (·.2) else [])).eraseDups
    if !heats.contains h then .missing
    else .done s ((items.filter (fun i => i.landing == h)).length + heats.length * 2 ^ 32)

/-- QUERY_STAGED (opcode 0x0203). -/
def execQueryStaged (c : Cmd) (s : State) : Host.Outcome State Fault Refusal :=
  runCmd Op.queryStaged c bodyQueryStaged s

/-- CANCEL_STAGED (R93, R96, R559): the sealed items of a landing heat that a command of the issuing queue with a tag
staged (log entry 52). -/
def bodyCancelStaged (c : Cmd) (s : State) : Body :=
  let h : Heat := BitVec.ofNat 48 (pf c.params 5 0)
  let tag : BitVec 32 := BitVec.ofNat 32 (pf c.params 9 6)
  let hit (i : Item) : Bool := i.isSealed && i.landing == h && i.tag == tag && i.owner == c.src
  let l := s.staging.items.filter hit
    if l.isEmpty then .missing
    else if l.any (fun i => i.commit.isSome) then .lock 0
    else if h = s.time.heat + 1 ∧ s.pastSeal then .fail { status := St.late }
    else .done { s with staging := { s.staging with items := s.staging.items.filter (fun i => !hit i) } } l.length

/-- CANCEL_STAGED (opcode 0x0204). -/
def execCancelStaged (c : Cmd) (s : State) : Host.Outcome State Fault Refusal :=
  runCmd Op.cancelStaged c bodyCancelStaged s

/-- A command is a later member of an open chain, whose flags the first member's replace (R175). -/
def inChain (c : Cmd) (s : State) : Bool :=
  match c.src with | .queue f => (s.func f).q.chain.isSome | .mbox => false

/-- BARRIER (R97): no item; AT_STRIKE is required. -/
def bodyBarrier (c : Cmd) (s : State) : Body :=
  if !c.atStrike ∧ !inChain c s then .bad Cause.flags 2 else .stage s [] false 0

/-- BARRIER (opcode 0x0205). -/
def execBarrier (c : Cmd) (s : State) : Host.Outcome State Fault Refusal :=
  runCmd Op.barrier c bodyBarrier s

end Sys2Proof.Machine
end

