-- ==== Sys2Proof/Machine/Queues.lean ====
section
/-!
DEFINITION. Command queues, doorbells, vectors and the mailbox's ownership (spec/03_host_link.md; spec/04_commands.md).
-/

namespace Sys2Proof.Machine

/-- Memory Space Enable of a function; that of a VF is VF MSE of its PF1 (Table 3.10; log entry 29). -/
def memOpen (s : State) (f : Nat) : Bool := if f < 4 then (s.func f).mse else (s.link (s.linkOf f)).vfMse

/-- A memory write to a function: discarded and reported as an Unsupported Request while Memory Space Enable is 0
(R148, Table 3.10). -/
def mmioWrite (s : State) (f : Nat) (act : State → State) : State :=
  if memOpen s f then act s else aer s f Aer.unsupported

/-- What a requester's shadows hold before any read. -/
def Shadow.fresh : Shadow := { ctr := none, hi := 0, heat := none }

/-- The queue starts service with its indices and phase reset (R186). -/
def enableNow (s : State) (f : Nat) : State :=
  s.modQueue f (fun q =>
    { q with enable := true, again := false, st := .run, consumer := 0, producer := 0, replyProd := 0, replyCons := 0,
             phase := true, armed := false, head := none, chain := none, loose := false, held := [], stalled := false })

/-- ENABLE is set: where the queue has not yet reached IDLE the enable waits (R186, R187). -/
def queueOn (s : State) (f : Nat) : State :=
  let q := (s.func f).q
  if q.enable then s
  else if q.st == .idle then enableNow s f
  else s.modQueue f (fun q => { q with enable := true, again := true })

/-- The cluster units of a queue that is disabled commit or abort without a second reply (R187). -/
def muteUnits (s : State) (f : Nat) : State :=
  { s with tim := { s.tim with units := s.tim.units.map (fun u =>
      if u.owner == Src.queue f then { u with owner := .queue 4096 } else u) } }

/-- The members of an open chain that a restart left undecided get no reply either (R187, R196). -/
def dropUndecided (s : State) (f : Nat) (all : Bool) : State :=
  { s with cmd := { s.cmd with undecided := s.cmd.undecided.filter (fun u => !(u.src == .queue f && (u.member || all))) } }

/-- The commands of a source that are in work and have yet to seal are discarded with their items, without a reply (R145,
R204). -/
def dropSealing (s : State) (src : Src) : State :=
  let out (j : Job) : Bool := j.cmd.src == src && (match j.fin with | .reply .. => false | _ => true)
  (s.cmd.jobs.filter out).foldl (fun s j => match j.fin with | .seal u _ _ _ => dropUnit s u | _ => s)
    { s with cmd := { s.cmd with jobs := s.cmd.jobs.filter (fun j => !out j) } }

/-- ENABLE is cleared: an open chain, the waiting replies of chains and those of cluster units, also the ones to come, are
discarded and no further command is taken; a command in work goes on to its end and its reply (R187). -/
def queueOff (s : State) (f : Nat) : State :=
  if !(s.func f).q.enable then s
  else (muteUnits (dropUndecided (dropChain s f) f false) f).modQueue f (fun q =>
    { q with enable := false, again := false, loose := false, held := q.held.filter (fun r => !r.2), promised := 0 })

/-- QUEUE_ENABLE (R186, R187). -/
def execQueueEnable (f : Nat) (s : State) : Host.Outcome State Fault Refusal :=
  .next (if s.present f then mmioWrite s f (fun s => queueOn s f) else s)

/-- QUEUE_DISABLE (R187). -/
def execQueueDisable (f : Nat) (s : State) : Host.Outcome State Fault Refusal :=
  .next (if s.present f then mmioWrite s f (fun s => queueOff s f) else s)

/-- QUEUE_IDLE (R187): the last command has finished and its reply is written; STATE becomes IDLE and a waiting enable takes
effect. -/
def execQueueIdle (f : Nat) (s : State) : Host.Outcome State Fault Refusal :=
  let q := (s.func f).q
  if q.st == .idle || (q.enable && !q.again) || inWork s (.queue f) || !q.held.isEmpty then .next s
  else if q.again then .next (enableNow s f)
  else .next (s.modQueue f (fun q => { q with st := .idle }))

/-- Completion entries that wait while a function issues nothing are written when it may again (R132, R140). -/
def drainFunc (s : State) (f : Nat) : State :=
  finishStops ((s.ins.qps.filter (fun p => p.1 / 65536 == f)).foldl (fun s p => cqDrain s f (p.1 % 65536) p.2.held.length) s)

/-- The device looks at a function's doorbells: present, in no reset, its instance not FREE (R139, R203). -/
def bellsLive (s : State) (f : Nat) : Bool := s.present f && !(s.func f).inFlr && (s.insOf f).st != .free

/-- A doorbell error is counted and flagged (R112, R780). -/
def bellError (s : State) (f : Nat) : State := (s.inc (Ctr.dbErr f)).flagFunc f 1

/-- A producer index beyond the ring (R111): the queue stops in ERROR, QERR is set, the error counted, recorded and
signalled. -/
def bellRange (s : State) (f : Nat) (k : Option Nat) : State :=
  ((((stopQueue s f k).flagFunc f 0).inc (Ctr.dbErr f)).post 0x2020 []).fire f 0

/-- New entries and outstanding entries that a producer index makes (R110). -/
def bellSpan (prod cons : Nat) (idx : BitVec 16) : Nat :=
  (idx.toNat + 65536 - prod) % 65536 + (prod + 65536 - cons) % 65536

/-- A producer index of a doorbell slot (R110 to R113, R203, R779). -/
def producerBell (f slot : Nat) (rx : Bool) (idx : BitVec 16) (s : State) : State :=
  if slot = 0 then
    let q := (s.func f).q
    if rx || !q.enable || q.again || q.st != .run then s
    else if 2 ^ q.logSlots - 1 < bellSpan q.producer q.consumer idx then bellRange s f none
    else s.modQueue f (fun q => { q with producer := idx.toNat })
  else if (s.insOf f).grants.getD 0 0 ≤ slot - 1 then bellError s f
  else
    let q := s.qp f (slot - 1)
    if q.st != .running || s.rul.dramDown then s
    else if rx then
      if 2 ^ q.logRx - 1 < bellSpan q.rxProd q.rxCons idx then bellRange s f (some (slot - 1))
      else s.setQp f (slot - 1) { q with rxProd := idx.toNat }
    else if 2 ^ q.logTx - 1 < bellSpan q.txProd q.txCons idx then bellRange s f (some (slot - 1))
    else s.setQp f (slot - 1) { q with txProd := idx.toNat }

/-- DOORBELL_PRODUCER (R110 to R113, R203, R779). -/
def execDoorbellProducer (f slot : Nat) (rx : Bool) (idx : BitVec 16) (s : State) : Host.Outcome State Fault Refusal :=
  .next (if bellsLive s f then mmioWrite s f (producerBell f slot rx idx) else s)

/-- A consumer index, with or without ARM (R778, R779, R780): accepted when within the entries written, else ignored in
every field and counted. -/
def consumerBell (f slot : Nat) (idx : BitVec 16) (arm : Bool) (s : State) : State :=
  if slot = 0 then
    let q := (s.func f).q
    if !q.enable || q.again || q.st != .run then s
    else if State.replyUsed q < (idx.toNat + 65536 - q.replyCons) % 65536 then bellError s f
    else
      let left := decide (State.replyUsed { q with replyCons := idx.toNat } ≠ 0)
      let s1 := s.modQueue f (fun q => { q with replyCons := idx.toNat, armed := if arm then !left else q.armed })
      if arm && left then s1.fire f (State.replyVec f) else s1
  else if (s.insOf f).grants.getD 0 0 ≤ slot - 1 then bellError s f
  else
    let q := s.qp f (slot - 1)
    if q.st != .running || s.rul.dramDown then s
    else if cqUsed q < (idx.toNat + 65536 - q.cqCons) % 65536 then bellError s f
    else
      let left := decide (cqUsed { q with cqCons := idx.toNat } ≠ 0)
      let s1 := s.setQp f (slot - 1) { q with cqCons := idx.toNat, armed := if arm then !left else q.armed }
      let s2 := if arm && left then s1.fire f q.vec else s1
      finishStops (cqDrain s2 f (slot - 1) q.held.length)

/-- DOORBELL_CONSUMER (R780): a consumer index without ARM. -/
def execDoorbellConsumer (f slot : Nat) (idx : BitVec 16) (s : State) : Host.Outcome State Fault Refusal :=
  .next (if bellsLive s f then mmioWrite s f (consumerBell f slot idx false) else s)

/-- ARM (R778): a consumer index with ARM 1; where entries remain unconsumed the vector fires at once. -/
def execArm (f slot : Nat) (idx : BitVec 16) (s : State) : Host.Outcome State Fault Refusal :=
  .next (if bellsLive s f then mmioWrite s f (consumerBell f slot idx true) else s)

/-- REPLY_HELD_WRITE (R140, R180): the first waiting reply is written once room appears and the function may issue
it. -/
def execReplyHeldWrite (f : Nat) (s : State) : Host.Outcome State Fault Refusal :=
  let q := (s.func f).q
  match q.held with
  | [] => .next s
  | r :: t =>
    if s.canDma f && decide (State.replyUsed q < 2 ^ q.logReplies - 1) then
      .next ((s.modQueue f (fun q => { q with held := t })).putReply f r.1)
    else .next s

/-- A vector's message may be sent as far as masks and enables go (R128). -/
def vecOpen (s : State) (f : Nat) (w : Vec) : Bool :=
  w.pending && !w.mask && !(s.func f).funcMask && (s.func f).msixEn && s.canDma f && s.present f

/-- HOLDOFF of a vector has passed, in reference time (R130). -/
def pastHoldoff (s : State) (w : Vec) : Bool :=
  match w.lastSent with
  | none => true
  | some t => decide (t + w.holdoff ≤ s.time.refNow)

/-- MSIX_MESSAGE (R129 to R131, R137): send the pending message, or count once that MAX_PER_HEAT withholds it. -/
def execMsixMessage (f v : Nat) (s : State) : Host.Outcome State Fault Refusal :=
  let w := mGetD (s.func f).vecs v Vec.fresh
  let setV (s : State) (x : Vec) : State := s.modFunc f (fun g => { g with vecs := mPut g.vecs v x })
  if !vecOpen s f w || !pastHoldoff s w then .next s
  else if w.maxPerHeat = 0 ∨ w.sentInHeat < w.maxPerHeat then
    .next (((setV s { w with pending := false, lastSent := some s.time.refNow, sentInHeat := w.sentInHeat + 1,
                             counted := false }).emitLink (s.linkOf f) (.msix f v (reqOf f w.addr.toNat false) w.data)).inc
      (Ctr.msg f))
  else if w.counted then .next s
  else .next ((setV s { w with counted := true }).inc (Ctr.hold f))

/-- The mailbox's header, data and reply are cleared and the next owner finds it free (R183). -/
def releaseMbox (s : State) : State :=
  { s with
    regs := s.regs.filter (fun p => !((decide (0x040400 ≤ p.1) && decide (p.1 < 0x040440)) ||
                                     (decide (0x041000 ≤ p.1) && decide (p.1 < 0x042000))))
    cmd := { s.cmd with mbox := { s.cmd.mbox with owner := 0, done := false, reply := none } } }

/-- A write of a link to CMD_MBOX_OWNER (R183): its own link number plus 1 claims the mailbox while the field reads 0; 0
releases it by the owner's link while BUSY is 0. -/
def mboxOwnerWrite (l v : Nat) (s : State) : State :=
  if s.cmd.mbox.owner = 0 ∧ v = l + 1 ∧ v ≤ 2 then { s with cmd := { s.cmd with mbox := { s.cmd.mbox with owner := v } } }
  else if v = 0 ∧ s.cmd.mbox.owner = l + 1 ∧ s.cmd.mbox.busy = false then releaseMbox s
  else s

/-- MBOX_CLAIM (R183). -/
def execMboxClaim (l : LinkId) (v : Nat) (s : State) : Host.Outcome State Fault Refusal :=
  .next (mmioWrite s (2 * l) (mboxOwnerWrite l v))

/-- MBOX_RELEASE (R183). -/
def execMboxRelease (l : LinkId) (s : State) : Host.Outcome State Fault Refusal :=
  .next (mmioWrite s (2 * l) (mboxOwnerWrite l 0))

end Sys2Proof.Machine
end

