-- ==== Sys2Proof/Machine/Instances.lean ====
section
/-!
DEFINITION. Opcode families 0x03 and 0x04: instances, pools, queue pairs and translation (spec/05_instances.md).
-/

namespace Sys2Proof.Machine

-- Causes of families 0x03 and 0x04 (Table 5.10).
namespace InsCause
def inUse : Nat := 0x10
def classFixed : Nat := 0x11
def state : Nat := 0x12
def retiring : Nat := 0x13
def managerInst : Nat := 0x14
end InsCause

/-- INS_STATE word (Table 5.13). -/
def insWord (i : Ins) : Nat :=
  let st := match i.st with | .free => 0 | .detached => 1 | .attached => 2 | .releasing => 3
  st + 8 * b2n i.elastic + 16 * b2n i.prot + 32 * b2n i.clearExp + 256 * (i.level % 4) + 65536 * (i.weight % 2048)

/-- The first grant of a command beyond the per-instance maximum, as FIELD (R234); 0xFFFF_FFFF passes where it means
unchanged. -/
def grantTooBig (ps : Params) (id : Nat) (keep : Bool) : Option Nat :=
  (List.range 7).find? (fun p => decide (poolMax id p < grantArg ps p) && !(keep && grantArg ps p == 0xFFFFFFFF))

/-- The cap of an instance is 0 or in range (R232). -/
def capOk (v : Nat) : Bool := v == 0 || (decide (10 ≤ v) && decide (v ≤ 1048575))

/-- The weight is in range (R231). -/
def weightOk (v : Nat) : Bool := decide (1 ≤ v) && decide (v ≤ 1024)

/-- INS_CREATE (R200, R201, R231, R232, R234). -/
def bodyInsCreate (c : Cmd) (s : State) : Body :=
  let p := c.params
  if s.boot.strapLink && (c.id == 2 || c.id == 3) then .bad Cause.inst 8
  else if State.isPf0 c.id || (s.insOf c.id).st != .free || creating s c.id then .fail { status := St.exists_ }
  else if pf p 1 1 = 0 then .deny InsCause.managerInst
  else if 3 < pf p 1 1 then .bad 0 25
  else if !weightOk (pf p 3 2) then .bad 0 26
  else if !capOk (pf p 7 4) then .bad 0 28
  else match grantTooBig p c.id false with
    | some q => .bad 0 (32 + 4 * q)
    | none => .stage s [c.data] false 0

/-- INS_CREATE (opcode 0x0301). -/
def execInsCreate (c : Cmd) (s : State) : Host.Outcome State Fault Refusal :=
  runCmd Op.insCreate c bodyInsCreate s

/-- INS_DESTROY (R200, R201). -/
def bodyInsDestroy (c : Cmd) (s : State) : Body :=
  if State.isPf0 c.id then .deny InsCause.managerInst
  else if destroying s c.id then .missing
  else .stage s [c.data] false 0

/-- INS_DESTROY (opcode 0x0302). -/
def execInsDestroy (c : Cmd) (s : State) : Host.Outcome State Fault Refusal :=
  runCmd Op.insDestroy c bodyInsDestroy s

/-- INS_RESIZE (R207, R208, R237); what a decrease removes is judged at the seal (R217, `unitInUse`). -/
def bodyInsResize (c : Cmd) (s : State) : Body :=
  let p := c.params
  if destroying s c.id then .lock 0
  else if !(s.insOf c.id).elastic then .deny InsCause.classFixed
  else
      match grantTooBig p c.id true with
      | some q => .bad 0 (32 + 4 * q)
      | none => .stage s [c.data] false 0

/-- INS_RESIZE (opcode 0x0303). -/
def execInsResize (c : Cmd) (s : State) : Host.Outcome State Fault Refusal :=
  runCmd Op.insResize c bodyInsResize s

/-- INS_SET_LIMITS (R230 to R233, R237). -/
def bodyInsSetLimits (c : Cmd) (s : State) : Body :=
  let p := c.params
  let sel := pf p 24 24
  let lim (i rate burst : Nat) : Bool :=
    !bit sel i || (decide (rate ≤ 1600000) && decide (1 ≤ burst) && decide (burst ≤ 16384))
  if destroying s c.id then .lock 0
  else if !lim 0 (pf p 3 0) (pf p 11 8) then .bad 0 24
  else if !lim 1 (pf p 7 4) (pf p 15 12) then .bad 0 28
  else if bit sel 2 && !weightOk (pf p 17 16) then .bad 0 40
  else if bit sel 3 && decide (3 < pf p 18 18) then .bad 0 42
  else if bit sel 3 && pf p 18 18 == 0 && !State.isPf0 c.id then .deny InsCause.managerInst
  else if bit sel 4 && !capOk (pf p 23 20) then .bad 0 44
  else .stage s [c.data] false 0

/-- INS_SET_LIMITS (opcode 0x0304). -/
def execInsSetLimits (c : Cmd) (s : State) : Host.Outcome State Fault Refusal :=
  runCmd Op.insSetLimits c bodyInsSetLimits s

/-- Four 4-byte values as a result. -/
def words4 (a b c d : Nat) : Nat :=
  a % 2 ^ 32 + b % 2 ^ 32 * 2 ^ 32 + c % 2 ^ 32 * 2 ^ 64 + d % 2 ^ 32 * 2 ^ 96

/-- INS_QUERY (Table 5.9). -/
def bodyInsQuery (c : Cmd) (s : State) : Body :=
  let i := s.insOf c.id
  let g (p : Nat) := i.grants.getD p 0
  (match pf c.params 0 0 with
    | 0 => .done s (words4 (g 0) (g 1) (g 2) (g 3))
    | 1 => .done s (words4 (g 4) (g 5) (g 6) (insWord i))
    | 2 => .done s (words4 i.h2wRate i.w2hRate (65536 * i.weight + i.level) i.cap)
    | _ => .bad 0 24)

/-- INS_QUERY (opcode 0x0305). -/
def execInsQuery (c : Cmd) (s : State) : Host.Outcome State Fault Refusal :=
  runCmd Op.insQuery c bodyInsQuery s

/-- POOL_QUERY (R209). -/
def bodyPoolQuery (c : Cmd) (s : State) : Body :=
  let p := pf c.params 0 0
  if 6 < p then .bad 0 24
  else .done s (words4 (poolTotal p) (granted s p) (reserved s p) (freeOf s p))

/-- POOL_QUERY (opcode 0x0306). -/
def execPoolQuery (c : Cmd) (s : State) : Host.Outcome State Fault Refusal :=
  runCmd Op.poolQuery c bodyPoolQuery s

/-- A local queue-pair number is granted, or the answer that says not (R213, R221). -/
def withQp (c : Cmd) (s : State) (k : Nat → Qp → Body) : Body :=
  let n := pf c.params 1 0
  if (s.insOf c.id).grants.getD 0 0 ≤ n then .missing else k n (s.qp c.id n)

/-- Ring sizes of QP_CONFIG are 2^6 to 2^16 entries. -/
def logOk (v : Nat) : Bool := decide (6 ≤ v) && decide (v ≤ 16)

/-- QP_CONFIG (R214, R218, Table 5.9). -/
def bodyQpConfig (c : Cmd) (s : State) : Body :=
  let p := c.params
  withQp c s fun n q =>
    if retiring s c.id 0 n then .lock InsCause.retiring
    else if q.st == .running || q.st == .error then .deny InsCause.state
    else if !logOk (pf p 2 2) then .bad 0 26
    else if !logOk (pf p 3 3) then .bad 0 27
    else if !logOk (pf p 4 4) then .bad 0 28
    else if s.vecCount c.id ≤ pf p 7 6 then .bad 0 30
    else if pf p 15 8 % 4096 ≠ 0 then .bad 0 32
    else if pf p 23 16 % 4096 ≠ 0 then .bad 0 40
    else if pf p 31 24 % 4096 ≠ 0 then .bad 0 48
    else (.done (s.setQp c.id n
      { q with st := .stopped, logTx := pf p 2 2, logRx := pf p 3 3, logCq := pf p 4 4, vec := pf p 7 6,
               txAddr := pf p 15 8, rxAddr := pf p 23 16, cqAddr := pf p 31 24 }) 0)

/-- QP_CONFIG (opcode 0x0310). -/
def execQpConfig (c : Cmd) (s : State) : Host.Outcome State Fault Refusal :=
  runCmd Op.qpConfig c bodyQpConfig s

/-- QP_START (R214, R218): every ring position becomes 0. -/
def bodyQpStart (c : Cmd) (s : State) : Body :=
  withQp c s fun n q =>
    if retiring s c.id 0 n then .lock InsCause.retiring
    else if q.st != .stopped || !q.held.isEmpty then .deny InsCause.state
    else (.done (s.setQp c.id n
      { q with st := .running, txProd := 0, txCons := 0, rxProd := 0, rxCons := 0, cqProd := 0, cqCons := 0,
               cqPhase := true, armed := false }) 0)

/-- QP_START (opcode 0x0311). -/
def execQpStart (c : Cmd) (s : State) : Host.Outcome State Fault Refusal :=
  runCmd Op.qpStart c bodyQpStart s

/-- What QP_STOP does to a queue pair (R214, R216, R466). -/
def qpStop (s : State) (i n : Nat) : State := (s.setQp i n { s.qp i n with st := .stopped }).freeSlots i n

/-- QP_STOP (R214, R216): DONE once the completion entries of finished work are written; a queue pair already STOPPED answers
DONE (Table 5.9, log entry 18). -/
def bodyQpStop (c : Cmd) (s : State) : Body :=
  withQp c s fun n q =>
    if q.st == .unconfigured then .deny InsCause.state
    else if q.held.isEmpty then .done (qpStop s c.id n) 0
    else .wait (qpWait (qpStop s c.id n) (State.qpKey c.id n) c)

/-- QP_STOP (opcode 0x0312). -/
def execQpStop (c : Cmd) (s : State) : Host.Outcome State Fault Refusal :=
  runCmd Op.qpStop c bodyQpStop s

/-- Code of a queue-pair state (Table 5.9). -/
def qpCode : QpState → Nat
  | .unconfigured => 0 | .stopped => 1 | .running => 2 | .error => 3

/-- QP_STATE. -/
def bodyQpState (c : Cmd) (s : State) : Body :=
  withQp c s fun _ q => .done s (qpCode q.st)

/-- QP_STATE (opcode 0x0313). -/
def execQpState (c : Cmd) (s : State) : Host.Outcome State Fault Refusal :=
  runCmd Op.qpState c bodyQpState s

/-- Remove the cached translations of an instance (R228). -/
def tlbDrop (s : State) (keep : Tlb → Bool) : State := { s with ins := { s.ins with tlb := s.ins.tlb.filter keep } }

/-- ITU_SET_ROOT (R228, R229). -/
def bodyItuSetRoot (c : Cmd) (s : State) : Body :=
  let r := pf c.params 7 0
  if !(s.insOf c.id).prot then .deny InsCause.state
  else if r % 4096 ≠ 0 then .bad 0 24
  else 
    .done (tlbDrop (s.modIns c.id (fun i => { i with root := r })) (fun t => t.inst != c.id)) 0

/-- ITU_SET_ROOT (opcode 0x0401). -/
def execItuSetRoot (c : Cmd) (s : State) : Host.Outcome State Fault Refusal :=
  runCmd Op.ituSetRoot c bodyItuSetRoot s

/-- A cached leaf lies outside a range of `n` 4 KiB pages from `base` (R226). -/
def tlbOutside (base n : Nat) (t : Tlb) : Bool :=
  let lo := t.base * 2 ^ pageBits t.size
  decide (lo + 2 ^ pageBits t.size ≤ base) || decide (base + n * 4096 ≤ lo)

/-- ITU_INVALIDATE (R225, R226). -/
def bodyItuInvalidate (c : Cmd) (s : State) : Body :=
  let p := c.params
  match pf p 0 0 with
  | 0 =>
    if pf p 15 8 % 4096 ≠ 0 then .bad 0 32
    else if pf p 19 16 = 0 ∨ 1048576 < pf p 19 16 then .bad 0 40
    else (.done ((tlbDrop s (fun t => t.inst != c.id || tlbOutside (pf p 15 8) (pf p 19 16) t)).inc
      Ctr.ituInval) 0)
  | 1 => .done ((tlbDrop s (fun t => t.inst != c.id)).inc Ctr.ituInval) 0
  | 2 => .done ((tlbDrop s (fun _ => false)).inc Ctr.ituInval) 0
  | _ => .bad 0 24

/-- ITU_INVALIDATE (opcode 0x0402). -/
def execItuInvalidate (c : Cmd) (s : State) : Host.Outcome State Fault Refusal :=
  runCmd Op.ituInvalidate c bodyItuInvalidate s

/-- ITU_PROBE: a walk, with the table entries that it finds in host memory, that installs, stops and stores nothing. -/
def bodyItuProbe (mem : TableMem) (c : Cmd) (s : State) : Body :=
  let p := c.params
  if !(s.insOf c.id).prot then .deny InsCause.state
  else if 1 < pf p 8 8 then .bad 0 32
  else
    let s1 := seeTables s mem
    match translate s1 c.id (pf p 7 0) (pf p 8 8 == 1) with
    | .error w => .done s1 (w.reason * 2 ^ 64)
    | .ok x => .done s1 (x.addr % 2 ^ 64 + x.leaf.size * 2 ^ 72 + b2n x.hit * 2 ^ 80)

/-- ITU_PROBE (opcode 0x0403). -/
def execItuProbe (c : Cmd) (mem : TableMem) (s : State) : Host.Outcome State Fault Refusal :=
  runCmd Op.ituProbe c (bodyItuProbe mem) s

/-- ITU_FAULT_READ: the oldest record is removed and returned. -/
def bodyItuFaultRead (_c : Cmd) (s : State) : Body :=
  match s.ins.faults with
  | [] => .missing
  | r :: t => (.done { s with ins := { s.ins with faults := t } }
      (r.addr % 2 ^ 64 + r.inst * 2 ^ 64 + r.reason * 2 ^ 80 + (b2n r.write + 2 * r.level) * 2 ^ 88 +
       r.heat.toNat % 2 ^ 32 * 2 ^ 96))

/-- ITU_FAULT_READ (opcode 0x0404). -/
def execItuFaultRead (c : Cmd) (s : State) : Host.Outcome State Fault Refusal :=
  runCmd Op.ituFaultRead c bodyItuFaultRead s

/-- Update the SNAP registers of an instance's window (R219, R233, Table 5.14). -/
def windowOf (i : Ins) : List Nat := i.grants ++ [i.h2wRate, i.w2hRate, i.weight, i.level, i.cap]

/-- The limiters of an instance are as at its creation: no rate (R205, R234). -/
def dropLimiters (s : State) (i : Nat) : State :=
  { s with tm := { s.tm with limiters := mDel (mDel s.tm.limiters (2 * i)) (2 * i + 1) } }

/-- INS_CREATE lands (R201, R206, R234): ATTACHED where the function is present, else DETACHED. -/
def landInsCreate (it : Item) (s : State) : State :=
  let p := it.params
  let x : Ins :=
    { Ins.fresh with
      st := if s.present it.inst then .attached else .detached,
      elastic := bit (pf p 0 0) 0, prot := bit (pf p 0 0) 1, clearExp := bit (pf p 0 0) 2, level := pf p 1 1,
      weight := pf p 3 2, cap := pf p 7 4, grants := (List.range 7).map (grantArg p) }
  (dropLimiters (s.setIns it.inst { x with win := windowOf x }) it.inst).post 0x2080 []

/-- INS_DESTROY lands (R201, R204, R237): RELEASING; every queue pair stops, the command queue is disabled, and the
instance's own pending items and those that change it are discarded. -/
def landInsDestroy (it : Item) (s : State) : State :=
  let i := it.inst
  let n := (s.insOf i).grants.getD 0 0
  let keys := (s.ins.qps.map (·.1)).filter (fun k => k / 65536 == i && decide (k % 65536 < n))
  let s1 := keys.foldl (fun s k => qpStop s i (k % 65536)) s
  let s2 := queueOff (dropSealing s1 (.queue i)) i
  let s3 := { s2 with staging := { s2.staging with items := s2.staging.items.filter (fun x =>
    x.owner != Src.queue i && !(x.inst == i && (x.op == 0x0303 || x.op == 0x0304))) } }
  (dropInsFrames s3 i).modIns i (fun x => { x with st := .releasing })

/-- INS_RESIZE lands (R213, R217 to R221). -/
def landInsResize (it : Item) (s : State) : State :=
  let i := it.inst
  let old := (s.insOf i).grants
  let new := (List.range 7).map (fun p => (itemGrant s it p).getD 0)
  let s1 := (List.range 7).foldl (fun s p => poolTrim s i p (new.getD p 0) (old.getD p 0)) s
  let s2 := (topUp s1 i old new).modIns i (fun x =>
    let y := { x with grants := new, grantHeat := it.landing }
    { y with win := windowOf y })
  (((s2.flagIns i 0).raise Reg.insStatus 0 0).post 0x2082 []).fire i 0

/-- A RELEASING instance with no held frame becomes FREE (Table 5.2, R205); no DMA request is outstanding between
steps (log entry 20). -/
def releaseIdle (s : State) : State :=
  ((s.ins.ins.filter (fun x => x.2.st == .releasing && !framesHeld s x.1)).map (·.1)).foldl
    (fun s i =>
      let g := (s.insOf i).grants
      let s1 := (List.range 7).foldl (fun s p => poolTrim s i p 0 (g.getD p 0)) s
      let s2 := { s1 with sto := { s1.sto with nss := s1.sto.nss.filter (fun n => n.1 / 65536 != i)
                                               quotas := mDel s1.sto.quotas i } }
      (((dropLimiters s2 i).setIns i Ins.fresh).raise Reg.insStatus 1 0).post 0x2081 []) s

/-- New settings land in a shaper of a map: its debt is forgiven and told to its owner's counters (R388, R397). -/
def setLimiter (s : State) (i dir rate burst : Nat) : State :=
  let x := s.limiter i dir
  let s1 := { s with tm := { s.tm with limiters := mPut s.tm.limiters (2 * i + dir) (x.set rate burst 0 false) } }
  if x.debt = 0 then s1 else (s1.add (Ctr.insForgiven i dir) x.debt).add Ctr.forgiven x.debt

/-- What a landed limit change tells the instance (R233, R397). -/
def tellLimits (s : State) (i : Nat) : State :=
  (s.flagIns i 1).modIns i (fun x => { x with win := windowOf x })

/-- INS_SET_LIMITS lands (R230 to R233, R397). -/
def landInsSetLimits (it : Item) (s : State) : State :=
  let p := it.params
  let i := it.inst
  let sel := pf p 24 24
  let s1 := s.modIns i (fun x =>
    let x1 := if bit sel 0 then { x with h2wRate := pf p 3 0, h2wBurst := pf p 11 8 } else x
    let x2 := if bit sel 1 then { x1 with w2hRate := pf p 7 4, w2hBurst := pf p 15 12 } else x1
    let x3 := if bit sel 2 then { x2 with weight := pf p 17 16 } else x2
    let x4 := if bit sel 3 then { x3 with level := pf p 18 18 } else x3
    if bit sel 4 then { x4 with cap := pf p 23 20 } else x4)
  let s2 := if bit sel 0 then setLimiter s1 i 0 (pf p 3 0) (pf p 11 8) else s1
  let s3 := if bit sel 1 then setLimiter s2 i 1 (pf p 7 4) (pf p 15 12) else s2
  tellLimits s3 i

end Sys2Proof.Machine
end

