-- ==== Sys2Proof/Machine/Lanes.lean ====
section
/-!
DEFINITION. Lanes and ports: opcode family 0x05, the events of bring-up, lane failure, degraded width, the banked state and the
diagnostics, and the lanes at a strike (spec/06_lanes_ports.md, R729, R730).
-/

namespace Sys2Proof.Machine

/-- The heat at which a command of this state lands at the earliest: that of the chain it joins, or its own target (R62, R175). -/
def targetOfCmd (c : Cmd) (s : State) : Heat :=
  let own := if c.atStrike then c.target else s.time.heat + 1
  let t := match c.src with
    | .queue f => (match (s.func f).q.chain with | some ch => ch.target | none => own)
    | .mbox => own
  if t.toNat ≤ s.time.heat.toNat then s.time.heat + 1 else t

/-- The staged PORT_CONFIGs of a port, in the order of staging, each with the heat it lands at or is staged for. -/
def stagedPorts (s : State) (p : Nat) : List (Nat × Params) :=
  (s.staging.items.filter (fun it => it.op == 0x0501 && pf it.params 0 0 == p)).map
    (fun it => ((if it.isSealed then it.landing else it.target).toNat, it.params))

/-- A PORT_CONFIG item as a configuration: none where it removes the port. -/
def cfgOf (p : Params) : Option (Nat × Nat) := if bit (pf p 1 1) 3 then none else some (pf p 2 2, pf p 3 3)

/-- Rate and width of the configurations that a port may have at or after a heat: the one it will have then, from what is active and
what is staged, and those staged for later (R251, R252). -/
def portShapes (s : State) (p heat : Nat) : List (Nat × Nat) :=
  let now := (s.port p).cfg.map (fun c => (c.rate, c.width))
  let l := stagedPorts s p
  let then_ := (l.filter (fun x => decide (x.1 ≤ heat))).foldl (fun _ x => cfgOf x.2) now
  then_.toList ++ (l.filter (fun x => decide (heat < x.1))).filterMap (fun x => cfgOf x.2)

/-- Distinct lane rates of a quad if a port took a rate on lanes (R251). -/
def quadRates (s : State) (p rate : Nat) (lanes : List Nat) (heat quad : Nat) : List Nat :=
  let others := ((List.range 16).filter (· != p)).flatMap (fun q =>
    (portShapes s q heat).filterMap (fun x =>
      if (groupLanes (anchorOf q) x.2).any (fun n => n / 4 == quad) then some x.1 else none))
  ((if lanes.any (fun n => n / 4 == quad) then [rate] else []) ++ others).eraseDups

/-- PORT_CONFIG (R250 to R252, R276, Table 6.6). -/
def bodyPortConfig (c : Cmd) (s : State) : Body :=
  let p := c.params
  let port := pf p 0 0
  let flags := pf p 1 1
  let rate := pf p 2 2
  let w := pf p 3 3
  if 15 < port then .bad 0 24
  else if bit flags 3 then .stage s [c.data] false 0
  else if rate = 0 ∨ 5 < rate then .bad 0 26
  else if 3 < w then .bad 0 27
  else if 3 < pf p 4 4 then .bad 0 28
  else if 3 < pf p 5 5 then .bad 0 29
  else
    let a := anchorOf port
    let lanes := groupLanes a w
    let heat := (targetOfCmd c s).toNat
    if a % 2 ^ w ≠ 0 then .bad LnCause.align 24
    else if (List.range 16).any (fun q => q != port &&
        (portShapes s q heat).any (fun x => (groupLanes (anchorOf q) x.2).any lanes.contains)) || lanes.any (inDiag s) then
      .bad LnCause.laneConflict 24
    else if (portShapes s port heat).any (fun x => x.2 != w) then .bad 0 27
    else if [0, 1, 2, 3].any (fun q => decide (2 < (quadRates s port rate lanes heat q).length)) then .bad LnCause.rateMix 26
    else if (if bit flags 0 then
        pf p 7 6 == 0 || (bitList (pf p 7 6) 16).any (fun sp => (resolveRate sp rate w).isNone)
      else speedOf rate w == 0) then .bad LnCause.speed 30
    else .stage s [c.data] false 0

/-- PORT_CONFIG (opcode 0x0501). -/
def execPortConfig (c : Cmd) (s : State) : Host.Outcome State Fault Refusal :=
  runCmd Op.portConfig c bodyPortConfig s

/-- PORT_BANK (R268, R270, R288). -/
def bodyPortBank (c : Cmd) (s : State) : Body :=
  let p := c.params
  if 15 < pf p 0 0 then .bad 0 24
  else if 1 < pf p 1 1 then .bad 0 25
  else if pf p 1 1 = 1 ∧ (s.port (pf p 0 0)).st = .disabled then .deny LnCause.state
  else .stage s [c.data] false 0

/-- PORT_BANK (opcode 0x0502). -/
def execPortBank (c : Cmd) (s : State) : Host.Outcome State Fault Refusal :=
  runCmd Op.portBank c bodyPortBank s

/-- PORT_STATUS (Table 6.6). -/
def bodyPortStatus (c : Cmd) (s : State) : Body :=
  let n := pf c.params 0 0
  if 15 < n then .bad 0 24
  else 
    .done s (portWord s n + portFailed s n * 2 ^ 32 + (s.port n).changeHeat.toNat * 2 ^ 64)

/-- PORT_STATUS (opcode 0x0503). -/
def execPortStatus (c : Cmd) (s : State) : Host.Outcome State Fault Refusal :=
  runCmd Op.portStatus c bodyPortStatus s

/-- Taps of an LN_EQ_TX word within Table 6.8: PRE2 from −8 to +7; the other fields fill their ranges but the signed
ones end at ±16. -/
def tapsOk (w : Nat) : Bool :=
  let sg (hi lo : Nat) := toInt 6 (bits w hi lo)
  decide (-8 ≤ sg 5 0) && decide (sg 5 0 ≤ 7) && decide (-16 ≤ sg 11 6) && decide (sg 11 6 ≤ 15) &&
  decide (-16 ≤ sg 23 18) && decide (sg 23 18 ≤ 15)

/-- LN_SET_EQ (R281, R288): a change of mode or taps ends a re-adaptation in progress, and then the lane's window restarts at the next
strike. -/
def bodyLnSetEq (c : Cmd) (s : State) : Body :=
  let p := c.params
  let n := pf p 0 0
  let tx := pf p 5 2
  let rx := pf p 9 6
  if 15 < n then .bad 0 24
  else if 1 < pf p 1 1 then .bad 0 25
  else if pf p 1 1 = 1 ∧ !tapsOk tx then .bad 0 26
  else
    let x := s.lane n
    let y := if pf p 1 1 = 1 then { x with fixed := true, eqTx := tx, eqRx := rx } else { x with fixed := false }
    let hit := y != x && x.readapt.isSome
    .done (s.setLane n (if hit then { y with readapt := none, restart := true } else y)) 0

/-- LN_SET_EQ (opcode 0x0504). -/
def execLnSetEq (c : Cmd) (s : State) : Host.Outcome State Fault Refusal :=
  runCmd Op.lnSetEq c bodyLnSetEq s

/-- LN_GET_EQ. -/
def bodyLnGetEq (c : Cmd) (s : State) : Body :=
  let n := pf c.params 0 0
  if 15 < n then .bad 0 24
  else 
    .done s ((s.lane n).eqTx + (s.lane n).eqRx * 2 ^ 32 + b2n (s.lane n).fixed * 2 ^ 64)

/-- LN_GET_EQ (opcode 0x0505). -/
def execLnGetEq (c : Cmd) (s : State) : Host.Outcome State Fault Refusal :=
  runCmd Op.lnGetEq c bodyLnGetEq s

/-- PORT_RESTORE (R267, R288). -/
def bodyPortRestore (c : Cmd) (s : State) : Body :=
  if 15 < pf c.params 0 0 then .bad 0 24
  else if (s.port (pf c.params 0 0)).st != .degraded then .deny LnCause.state
  else .stage s [c.data] false 0

/-- PORT_RESTORE (opcode 0x0506). -/
def execPortRestore (c : Cmd) (s : State) : Host.Outcome State Fault Refusal :=
  runCmd Op.portRestore c bodyPortRestore s

/-- The pattern of a sweep at a rate: PRBS31 at the NRZ rates, PRBS31Q at the PAM4 rates (R274). -/
def sweepPattern (rate : Nat) : Nat := if rate ≤ 2 then 2 else 4

/-- The transmit data returns to the receiver inside the PMA (R273, R274). -/
def Diag.nearEnd (d : Diag) : Bool := d.runs && (d.mode == 1 || d.mode == 4)

/-- LN_DIAG (R273, R274, R288): OFF needs no rate, and a sweep takes each in turn. -/
def bodyLnDiag (c : Cmd) (s : State) : Body :=
  let p := c.params
  let a := pf p 0 0
  let w := pf p 1 1
  let mode := pf p 2 2
  if 15 < a then .bad 0 24
  else if 3 < w then .bad 0 25
  else if a % 2 ^ w ≠ 0 ∨ 16 < a + 2 ^ w then .bad LnCause.align 24
  else if 4 < mode then .bad 0 26
  else if 5 < pf p 3 3 ∨ (pf p 3 3 = 0 ∧ 1 ≤ mode ∧ mode ≤ 3) then .bad 0 27
  else if 4 < pf p 4 4 then .bad 0 28
  else
    let lanes := groupLanes a w
    if lanes.any (fun n => (portOfLane s n).isSome) then .deny LnCause.state
    else
      let rest := s.ln.diags.filter (fun d => d.anchor != a)
      if rest.any (fun d => d.runs && (groupLanes d.anchor d.width).any lanes.contains) then
        .bad LnCause.laneConflict 24
      else if mode = 0 then
        .done (askPower { s with ln := { s.ln with diags := rest } } lanes false) 0
      else
        let rate := if mode = 4 then 1 else pf p 3 3
        let d : Diag := { anchor := a, width := w, mode := mode, rate := rate,
                          pattern := if mode = 4 then sweepPattern 1 else pf p 4 4, best := 0, ended := false, since := s.time.refNow }
        .done (askPower (rateLanes { s with ln := { s.ln with diags := d :: rest } } lanes rate) lanes true) 0

/-- LN_DIAG (opcode 0x0507). -/
def execLnDiag (c : Cmd) (s : State) : Host.Outcome State Fault Refusal :=
  runCmd Op.lnDiag c bodyLnDiag s

/-- LN_DIAG_RESULT (R274): a sweep's highest rate passed; the bits a PRBS run checked and found in error are the line's,
free values (log entry 23). -/
def bodyLnDiagResult (c : Cmd) (s : State) : Body :=
  if 15 < pf c.params 0 0 then .bad 0 24
  else match s.ln.diags.find? (fun d => d.anchor == pf c.params 0 0) with
    | none => .missing
    | some d =>
      (if d.mode = 4 then .done s d.best
        else if d.mode = 3 then
          let (e, s1) := s.draw
          let (n, s2) := s1.draw
          .done s2 (e % 2 ^ 64 + n % 2 ^ 64 * 2 ^ 64)
        else .done s 0)

/-- LN_DIAG_RESULT (opcode 0x0508). -/
def execLnDiagResult (c : Cmd) (s : State) : Host.Outcome State Fault Refusal :=
  runCmd Op.lnDiagResult c bodyLnDiagResult s

/-- A sweep's count at its present rate ends (R274): on to the next rate, or the end, at which the lanes leave DIAG. -/
def sweepNext (s : State) (d : Diag) (errors : Nat) : State :=
  let d1 := if errors = 0 then { d with best := d.rate, ended := d.rate == 5 } else { d with ended := true }
  let d2 := if d1.ended then d1 else { d1 with rate := d.rate + 1, pattern := sweepPattern (d.rate + 1), since := s.time.refNow }
  let s1 := { s with ln := { s.ln with diags := s.ln.diags.map (fun x => if x == d then d2 else x) } }
  if d2.ended then askPower s1 (groupLanes d.anchor d.width) false else rateLanes s1 (groupLanes d.anchor d.width) d2.rate

/-- SWEEP_STEP (R274): the count at a rate ends with a number of errors, 1 ms and then 10 ms after the rate began. -/
def execSweepStep (anchor errors : Nat) (s : State) : Host.Outcome State Fault Refusal :=
  match s.ln.diags.find? (fun d => d.anchor == anchor && d.mode == 4 && d.runs) with
  | none => .next s
  | some d => .next (s.atRef (d.since + 11000000) (fun s => sweepNext s d errors))

/-- The FEC of a port that has come up at a rate and a width (R255, R256, Table 6.1): with auto-negotiation Table 6.1's, for 25GbE the
one resolved; without it the configured one, 0 standing for Table 6.1's, for 25GbE RS(528,514) (log entry 91). -/
def fecOf (c : PortCfg) (rate w : Nat) (rs : Bool) : Nat :=
  if !c.an && c.fec != 0 then c.fec
  else if rate ≤ 1 then 1
  else if rate = 2 then (if w = 0 && c.an && !rs then 1 else 2)
  else 3

/-- What a port in training comes up as at a speed, where its attempt may (R255, R256, R265, R270): UP or DEGRADED, rate and width. -/
def comesUp (s : State) (p speed : Nat) (c : PortCfg) : Option (Bool × Nat × Nat) :=
  let x := s.port p
  if x.fromStore then
    (match x.stored with
     | some y => if y.speed = speed then some (y.up, y.rate, y.width) else none
     | none => none)
  else if x.reduced then (if speedOf x.rate x.width = speed then some (false, x.rate, x.width) else none)
  else if c.an then (if bit c.adv speed then (resolveRate speed c.rate c.width).map (fun r => (true, r.1, r.2)) else none)
  else if speedOf c.rate c.width = speed then some (true, c.rate, c.width)
  else none

/-- The end of a bring-up attempt that has not reached link up: 500 ms after its start, 5 ms after the landing strike of an exit
from the stored state (R257, R270). -/
def attemptEnd (x : Port) : Nat := if x.fromStore then x.exitAt + 5000000 else x.trainAt + 500000000

/-- PORT_UP (R253, R255, R256, R265, R267, R270): training of a port completes with what the link has resolved. -/
def execPortUp (p : Nat) (res : LinkResult) (s : State) : Host.Outcome State Fault Refusal :=
  match (s.port p).cfg with
  | none => .next s
  | some c =>
    let x := s.port p
    match comesUp s p res.speed c with
    | none => .next s
    | some (up, r, w) =>
      if x.st != .training || s.time.refHold || res.speed == 0 || decide (attemptEnd x < s.time.refNow) ||
         (groupLanes x.base w).any (fun n => (s.lane n).failed || !(s.lane n).powered) then .next s
      else
        let fec := match x.fromStore, x.stored with | true, some y => y.fec | _, _ => fecOf c r w res.rs
        let s1 := s.movePort p (fun y =>
          { y with st := if up then .up else .degraded, rate := r, width := w, speed := res.speed, fec := fec, exiting := false,
                   fromStore := false, stored := none })
        let s2 := (groupLanes x.base w).foldl (fun s n =>
          s.setLane n { s.lane n with sig := true, cdr := true, align := true, lossAt := none }) s1
        let s3 := trimLanes (rateLanes s2 (groupLanes x.base w) r) p x.base w
        let s4 := if up then s3.post 0x3001 []
          else (if x.fromStore then s3 else s3.inc (lnPortCtr p 0x18)).post 0x3003 []
        .next (reviewHealth (if x.exiting then s4.post 0x3007 [] else s4) p)

/-- LANE_SIGNAL_LOSS (R262): a powered lane loses signal, lock or alignment and its port goes DOWN. -/
def execLaneSignalLoss (n reason : Nat) (s : State) : Host.Outcome State Fault Refusal :=
  if 15 < n || !(s.lane n).powered then .next s
  else
    let x := s.lane n
    let s1 := s.setLane n { x with
      sig := x.sig && reason != 1, cdr := x.cdr && reason == 3, align := false, backAt := none,
      lossAt := some (x.lossAt.getD s.time.refNow) }
    match portOfLane s n with
    | none => .next s1
    | some p =>
      let y := s1.port p
      if s.portLive p && (groupLanes y.base y.width).contains n then .next (portDown s1 p (some y.st)) else .next s1

/-- A lane has everything again (R262, R264): a port that went DOWN for the loss comes back without retraining; a failed lane
counts the time. -/
def laneBack (s : State) (n : Nat) : State :=
  let x := s.lane n
  let s1 := s.setLane n { x with
    sig := true, cdr := true, align := true, lossAt := none,
    backAt := if x.failed then some (x.backAt.getD s.time.refNow) else none }
  match portOfLane s n with
  | none => s1
  | some p =>
    let y := s1.port p
    match y.lossFrom with
    | some st =>
      if (groupLanes y.base y.width).all (fun k => (s1.lane k).align && !(s1.lane k).failed) then
        (s1.movePort p (fun z => { z with st := st, speed := speedOf z.rate z.width, fec := z.lossFec, lossFrom := none })).post
          (if st == .up then 0x3001 else 0x3003) []
      else s1
    | none => s1

/-- LANE_SIGNAL_RETURN (R262, R264): a loss ends; one that has lasted 1 ms has failed the lane. -/
def execLaneSignalReturn (n : Nat) (s : State) : Host.Outcome State Fault Refusal :=
  if 15 < n || !(s.lane n).powered || s.time.refHold then .next s
  else .next (laneBack (if lossDue s n then failLanes s [(n, (s.lane n).lossReason)] else s) n)

/-- The earliest instant at which one of some lanes has been without signal, lock or alignment for 1 ms (R262). -/
def lossEnd (s : State) (ns : List Nat) : Option Nat :=
  (ns.filterMap (fun n => if (s.lane n).failed then none else (s.lane n).lossAt.map (· + 1000000))).min?

/-- LANE_FAILED (R262, R263, R265, R266, R278, R279): the named lanes whose loss has lasted 1 ms at one instant are declared failed in
one reference cycle, with what each has lost; and those whose training has failed (reason 5), while their port trains. -/
def execLaneFailed (ns : List (Nat × Nat)) (s : State) : Host.Outcome State Fault Refusal :=
  let lost := (ns.filter (fun x => x.2 != 5)).map (·.1)
  let train (s : State) := ns.filter (fun x => x.2 == 5 &&
    (match portOfLane s x.1 with | some p => (s.port p).st == .training | none => false))
  match lossEnd s lost with
  | none => .next (failLanes s (train s))
  | some t => .next (s.atRef t (fun s =>
      failLanes s ((lost.filter (lossDue s)).map (fun n => (n, (s.lane n).lossReason)) ++ train s)))

/-- LANE_RECOVERED (R264, R266): the cause of a loss has been absent for 100 ms, and the lane is healthy again; a DOWN port may begin
bring-up. -/
def execLaneRecovered (n : Nat) (s : State) : Host.Outcome State Fault Refusal :=
  let x := s.lane n
  if 15 < n || !x.failed || !(decide (1 ≤ x.reason) && decide (x.reason ≤ 3)) then .next s
  else match x.backAt with
    | none => .next s
    | some t => .next (s.atRef (t + 100000000) (fun s =>
        let s1 := s.setLane n { s.lane n with failed := false, reason := 0, backAt := none }
        match portOfLane s1 n with
        | none => s1
        | some p => retryPort (reviewHealth s1 p) p))

/-- TRAIN_FAIL (R257, R286): 500 ms after its start the attempt fails, is counted and recorded, and a new one begins. -/
def execTrainFail (p : Nat) (s : State) : Host.Outcome State Fault Refusal :=
  if (s.port p).st != .training || (s.port p).fromStore then .next s
  else .next (s.atRef ((s.port p).trainAt + 500000000) (fun s =>
    ((s.setPort p { s.port p with trainAt := s.time.refNow }).inc (lnPortCtr p 0x28)).post 0x3009 []))

/-- PLL_LOCK_FAIL (R287): the PLL of a lane has not locked 500 µs after the lane was powered up. -/
def execPllLockFail (n : Nat) (s : State) : Host.Outcome State Fault Refusal :=
  match (s.lane n).upAt with
  | none => .next s
  | some t =>
    if t + 500000 < s.time.refNow then .next s
    else .next (s.atRef (t + 500000) (fun s => if (s.lane n).powered then failLanes s [(n, 6)] else s))

/-- AUTO_RESTORE (R267): at the first strike after every configured lane has been healthy for 1 s, the device stages the restore
itself. -/
def autoRestore (s : State) (p : Nat) : State :=
  match (s.port p).cfg, (s.port p).healthyFrom with
  | some c, some t =>
    if (s.port p).st == .degraded && c.autoRestore && s.onStrike && decide (t + 1000000000 ≤ s.time.refNow) &&
       !s.staging.items.any (fun it => it.op == 0x0506 && pf it.params 0 0 == p) then
      stageOwn s 0x0506 (BitVec.ofNat 320 p) (s.time.heat + 1)
    else s
  | _, _ => s

/-- AUTO_RESTORE (R267). -/
def execAutoRestore (p : Nat) (s : State) : Host.Outcome State Fault Refusal := .next (autoRestore s p)

/-- The speeds that a port advertises: those configured, or the one of the group that R265 chose (R255, R265). -/
def advertised (s : State) (p : Nat) (c : PortCfg) : Nat :=
  if (s.port p).reduced then 2 ^ speedOf (s.port p).rate (s.port p).width else c.adv

/-- AN_PAGE (R255, R729): a malformed page is ignored and counted, under the first check it breaks. -/
def execAnPage (p : Nat) (page : AnPage) (s : State) : Host.Outcome State Fault Refusal :=
  let reason := if page.selector ≠ 1 then 1 else if page.reservedBit then 2 else if page.earlyAck then 3 else 0
  match (s.port p).cfg with
  | none => .next s
  | some c =>
    if (s.port p).st != .training || !c.an || (s.port p).fromStore then .next s
    else if reason = 0 then .next (s.emit (.anPage p (advertised s p c)))
    else .next ((s.inc (lnPortCtr p 0x30)).postB 0xB033 2 p 0xFFFF reason true)

/-- Bits and range of a transmit tap by number: 0 PRE2, 1 PRE1, 2 MAIN, 3 POST1 (Table 6.8). -/
def tapField (tap : Nat) : Nat × Int × Int :=
  match tap with
  | 0 => (0, -8, 7)
  | 1 => (6, -16, 15)
  | 2 => (12, 0, 63)
  | _ => (18, -16, 15)

/-- COEFF_REQUEST (R257, R730): in ADAPT the tap moves or stays at its limit; in FIXED nothing is updated. -/
def execCoeffRequest (n tap : Nat) (delta : Int) (s : State) : Host.Outcome State Fault Refusal :=
  let x := s.lane n
  match portOfLane s n with
  | none => .next s
  | some p =>
    if 15 < n || 3 < tap || x.fixed || (s.port p).st != .training then .next s
    else
      let (lo, mn, mx) := tapField tap
      let v := if tap = 2 then (bits x.eqTx (lo + 5) lo : Int) else toInt 6 (bits x.eqTx (lo + 5) lo)
      let v' := clampInt mn mx (v + delta)
      let s1 := s.setLane n { x with eqTx := setBits x.eqTx (lo + 5) lo (ofInt 6 v') }
      if v' = v + delta then .next s1
      else .next ((s1.inc (lnPortCtr p 0x38)).postB 0xB034 2 p 0xFFFF (n + 256 * tap) true)

/-- BANKED_EXIT_TIMEOUT (R270): 5 ms after the landing strike the peer has not trained from the stored state; full bring-up
follows. -/
def execBankedExitTimeout (p : Nat) (s : State) : Host.Outcome State Fault Refusal :=
  match (s.port p).cfg with
  | none => .next s
  | some c =>
    if (s.port p).st == .training && (s.port p).fromStore then
      .next (s.atRef ((s.port p).exitAt + 5000000) (fun s => attempt (s.setPort p { s.port p with stored := none }) p c.rate c))
    else .next s

-- What lands.

/-- PORT_CONFIG lands (R252, R264, R276, R282): the port is removed, or takes its configuration and begins bring-up; a diagnostic
on its lanes ends (log entry 92). -/
def landPortConfig (it : Item) (s : State) : State :=
  let p := it.params
  let n := pf p 0 0
  if bit (pf p 1 1) 3 then
    let s1 := clearFailures (dropPortFrames s n) n
    (askPower s1 (cfgLanes s1 n) false).movePort n (fun _ => Port.fresh)
  else
    let c : PortCfg := { flags := pf p 1 1 % 8, rate := pf p 2 2, width := pf p 3 3, minWidth := pf p 4 4,
                         fec := pf p 5 5, adv := pf p 7 6 }
    let s1 := s.setPort n { s.port n with cfg := some c, stored := none }
    let s2 := { s1 with ln := { s1.ln with diags := s1.ln.diags.filter (fun d =>
      !(groupLanes d.anchor d.width).any (cfgLanes s1 n).contains) } }
    let s3 := reviewHealth (clearFailures s2 n) n
    if (s3.port n).st == .banked then s3 else attempt s3 n c.rate c

/-- The equalisation words of the lanes of a group, and their return (R270). -/
def storeEq (s : State) (base w : Nat) : List (Nat × Nat × Nat) :=
  (groupLanes base w).map (fun n => (n, (s.lane n).eqTx, (s.lane n).eqRx))
def restoreEq (s : State) (eq : List (Nat × Nat × Nat)) : State :=
  eq.foldl (fun s e => s.setLane e.1 { s.lane e.1 with eqTx := e.2.1, eqRx := e.2.2 }) s

/-- PORT_BANK ENTER lands (R268, R270, R282). -/
def bankEnter (s : State) (n : Nat) : State :=
  let x := s.port n
  if x.st == .disabled || x.st == .banked then s
  else
    let s1 := dropPortFrames s n
    let s2 := askPower s1 (cfgLanes s1 n) false
    let st : Option Stored := if s.portLive n then
        some { up := x.st == .up, speed := x.speed, rate := x.rate, base := x.base, width := x.width, fec := x.fec,
               eq := storeEq s x.base x.width }
      else x.stored
    (s2.movePort n (fun y =>
      { y with st := .banked, speed := 0, fec := 0, exiting := false, fromStore := false, lossFrom := none, stored := st })).post
      0x3006 []

/-- PORT_BANK EXIT lands (R270, R282, R285): from the stored state where there is one and its lanes are healthy, else by full
bring-up. -/
def bankExit (s : State) (n : Nat) : State :=
  match (s.port n).cfg with
  | none => s
  | some c =>
    if (s.port n).st != .banked then s
    else
      let s0 := s.setPort n { s.port n with exiting := true }
      match (s.port n).stored with
      | some y =>
        if s.time.refHold || (groupLanes y.base y.width).any (fun k => (s.lane k).failed) then
          attempt (s0.setPort n { s0.port n with stored := none }) n c.rate c
        else
          let s1 := bringUp (restoreEq s0 y.eq) n y.base y.width y.rate (!y.up)
          s1.setPort n { s1.port n with fromStore := true, exitAt := s1.time.refNow }
      | none => attempt s0 n c.rate c

/-- PORT_BANK lands (R268, R270, R282). -/
def landPortBank (it : Item) (s : State) : State :=
  if pf it.params 1 1 = 1 then bankEnter s (pf it.params 0 0) else bankExit s (pf it.params 0 0)

/-- PORT_RESTORE lands (R267, R284): error-rate and training failures are cleared and the whole group retrains. -/
def landPortRestore (it : Item) (s : State) : State :=
  let n := pf it.params 0 0
  match (s.port n).cfg with
  | none => s
  | some c =>
    if (s.port n).st != .degraded then s
    else attempt ((reviewHealth (clearFailures s n) n).post 0x3005 []) n c.rate c

-- The lanes at a strike.

/-- Corrected symbols per 1,000,000 over a window (R258). -/
def ppmOf (h : List (Nat × Nat)) : Nat :=
  let c := h.foldl (fun a x => a + x.1) 0
  let r := h.foldl (fun a x => a + x.2) 0
  if r = 0 then 0 else c * 1000000 / r

/-- The lane carries a port that is UP or DEGRADED. -/
def carries (s : State) (n : Nat) : Bool :=
  match portOfLane s n with
  | none => false
  | some p => s.portLive p && (groupLanes (s.port p).base (s.port p).width).contains n

/-- The lane's port runs with RS-FEC (R255, R258, Table 6.1). -/
def hasFec (s : State) (n : Nat) : Bool :=
  match portOfLane s n with
  | none => false
  | some p => carries s n && decide (2 ≤ (s.port p).fec)

/-- The corrected symbols and uncorrectable codewords of the lanes in the heat that ends (R254). -/
def lanesCount (s : State) (hs : List LaneHeat) : State :=
  (hs.zip (List.range 16)).foldl (fun s x =>
    (s.add (lnLaneCtr x.2 0x10) x.1.corr).add (lnLaneCtr x.2 0x18) x.1.uncorr) s

/-- The end of a re-adaptation that begins now: 10 ms later (R260; log entry 24). -/
def readaptEnd (s : State) : Nat := s.time.refNow + 10000000

/-- One lane at a strike (R258 to R262, R275, R280, R281): its rate, what crossing the threshold does, and the reason for which it
fails, if it does. `anew`: every window restarts. -/
def laneStrike (s : State) (anew : Bool) (n : Nat) (h : LaneHeat) : State × Option Nat :=
  let x := s.lane n
  let hist := if anew || x.restart then [] else ((h.corr, h.recv) :: x.hist).take s.ln.window
  let fec := hasFec s n
  let ppm := if fec then ppmOf hist else 0
  let crossed := carries s n && (if fec then decide (s.ln.thresh < ppm) else h.hiBer)
  let y := { x with hist := hist, ppm := ppm, restart := false }
  if lossDue s n then (s.setLane n y, some x.lossReason)
  else if x.failed then (s.setLane n y, none)
  else match x.readapt with
    | some (end_, k) =>
      let k' := if anew then 0 else if end_ ≤ s.ln.strikeAt then k + 1 else k
      if k' < s.ln.window then (s.setLane n { y with readapt := some (end_, k') }, none)
      else (s.setLane n { y with readapt := none }, if crossed then some 4 else none)
    | none =>
      if !crossed then (s.setLane n y, none)
      else if x.fixed then (s.setLane n y, some 4)
      else ((s.setLane n { y with readapt := some (readaptEnd s, 0), hist := [] }).post 0x300A [], none)

/-- Lanes at a strike (R258, R275, R279): a changed window restarts every lane's; each lane is evaluated; those that fail do so
together. -/
def lanesStrike (s : State) (hs : List LaneHeat) : State :=
  let w := s.fld Reg.failWindow
  let anew := w != s.ln.window
  let s0 := { s with ln := { s.ln with thresh := s.fld Reg.failThresh, window := w } }
  let (s1, failed) := (List.range 16).foldl (fun (a : State × List (Nat × Nat)) n =>
    let (s', r) := laneStrike a.1 anew n (hs.getD n { corr := 0, recv := 0, uncorr := 0, hiBer := false })
    (s', match r with | some k => a.2 ++ [(n, k)] | none => a.2)) (s0, [])
  failLanes { s1 with ln := { s1.ln with strikeAt := s1.time.refNow } } failed

/-- SYS_REFCLK is lost (R285): every lane loses lock and every port that is UP, DEGRADED or TRAINING goes DOWN. -/
def lanesRefLost (s : State) : State :=
  let s1 := { s with ln := { s.ln with lanes := s.ln.lanes.map (fun (x : Nat × Lane) => 
    (x.1, { x.2 with cdr := false, align := false, lossAt := none, backAt := none })) } }
  let s2 := (List.range 16).foldl (fun s p =>
    match (s.port p).st with
    | .up => portDown s p none
    | .degraded => portDown s p none
    | .training => portDown s p none
    | .down => s.setPort p { s.port p with lossFrom := none }
    | _ => s) s1
  let s3 := if bit (s2.word (Reg.lnStatus.addr + 4)) 0 then s2.fireDev 6 else s2
  s3.post 0x3008 []

/-- SYS_REFCLK has returned (R285): full bring-up on every port that was not BANKED or DISABLED. -/
def lanesRefBack (s : State) : State :=
  (List.range 16).foldl (fun s p =>
    match (s.port p).cfg with
    | none => s
    | some c => if (s.port p).st == .banked then s else attempt s p c.rate c) s

end Sys2Proof.Machine
end

