-- ==== Sys2Proof/Machine/Power.lean ====
section
/-!
DEFINITION. Meanings of opcode family 0x0D and of the power, temperature and lane-power events
(spec/15_power_thermal.md; R271). Family 0x0D is not open to tenant queues.
-/

namespace Sys2Proof.Machine

-- Cause codes (Table 15.8).
def PwrCause.order : Nat := 0x10
def PwrCause.range : Nat := 0x11

/-- The first check of a list that fails: parameter byte, bound below, value, bound above. -/
def firstOut (l : List (Nat × Nat × Nat × Nat)) : Option Nat :=
  (l.find? (fun x => decide (x.2.2.1 < x.2.1) || decide (x.2.2.2 < x.2.2.1))).map (·.1)

/-- The values that PWR_SET selects, with the ranges of Table 15.6. -/
def pwrRanges (p : Params) : List (Nat × Nat × Nat × Nat) :=
  let sel (b : Nat) (l : List (Nat × Nat × Nat × Nat)) := if bit (pf p 0 0) b then l else []
  sel 1 [(2, 1, pf p 2 2, 40), (3, 0, pf p 3 3, 100)] ++
  sel 2 [(5, 500, pf p 6 5, 10000), (7, 5, pf p 7 7, 31)] ++
  sel 3 [(9, 10, pf p 9 9, 100), (10, 0, pf p 10 10, 150), (11, 100, pf p 13 11, 50000), (14, 100, pf p 15 14, 10000)]

/-- PWR_SET (R630, R631, Tables 15.7 and 15.8). -/
def bodyPwrSet (c : Cmd) (s : State) : Body :=
  let p := c.params
  match firstOut (pwrRanges p) with
  | some b => .bad PwrCause.range (24 + b)
  | none =>
    if bit (pf p 0 0) 3 ∧ pf p 10 10 < pf p 9 9 + 10 then .bad PwrCause.order 34
    else .stage s [c.data] false 0

/-- PWR_SET (opcode 0x0D01). -/
def execPwrSet (c : Cmd) (s : State) : Host.Outcome State Fault Refusal :=
  runCmd Op.pwrSet c bodyPwrSet s

/-- A changed LEAD: a wait in progress ends at the earlier of the two ends (R636). -/
def leadChanged (s : State) (old new : Nat) : State :=
  match s.pwr.wait with
  | some (t, e) => { s with pwr := { s.pwr with wait := some (min t (t - old + new), e) } }
  | none => s

/-- PWR_SET lands (R630); an alert that becomes enabled while it is asserted begins (R612). -/
def landPwrSet (it : Item) (s : State) : State :=
  let p := it.params
  let on (b : Nat) (f : State → State) (s : State) : State := if bit (pf p 0 0) b then f s else s
  let s1 := on 0 (fun s => s.setFld Reg.clkFloor (pf p 1 1)) s
  let s2 := on 1 (fun s => ((s.setFld Reg.slew (pf p 2 2)).setFld Reg.idleFloor (pf p 3 3)).setFld Reg.rampDown (pf p 4 4)) s1
  let s3 := on 2 (fun s =>
    leadChanged (((s.setFld Reg.hintLead (pf p 6 5)).setFld Reg.hintStep (pf p 7 7)).setFld Reg.hintViras (pf p 8 8))
      (s.fld Reg.hintLead) (pf p 6 5)) s2
  let s4 := on 3 (fun s =>
    (((s.setFld Reg.droopSoft (pf p 9 9)).setFld Reg.droopHard (pf p 10 10)).setFld Reg.hold (pf p 13 11)).setFld
      Reg.stepUp (pf p 15 14)) s3
  let s5 := on 4 (fun s => (s.setFld Reg.alertEn (bits (pf p 16 16) 2 2)).setFld Reg.alertStep (bits (pf p 16 16) 1 0)) s4
  if s.fld Reg.alertEn = 0 ∧ s5.fld Reg.alertEn = 1 ∧ s.pwr.alert then alertBegin s5 false else withRatio s5

/-- THM_SET (R630, R631). -/
def bodyThmSet (c : Cmd) (s : State) : Body :=
  let p := c.params
  let sel (b : Nat) (l : List (Nat × Nat × Nat × Nat)) := if bit (pf p 0 0) b then l else []
  match firstOut (sel 0 [(1, 60, pf p 1 1, 100), (2, 70, pf p 2 2, 105)] ++ sel 1 [(3, 10, pf p 4 3, 1000)]) with
  | some b => .bad PwrCause.range (24 + b)
  | none =>
    if bit (pf p 0 0) 0 ∧ pf p 2 2 < pf p 1 1 then .bad PwrCause.order 25
    else .stage s [c.data] false 0

/-- THM_SET (opcode 0x0D02). -/
def execThmSet (c : Cmd) (s : State) : Host.Outcome State Fault Refusal :=
  runCmd Op.thmSet c bodyThmSet s

/-- THM_SET lands (R630). -/
def landThmSet (it : Item) (s : State) : State :=
  let p := it.params
  let on (b : Nat) (f : State → State) (s : State) : State := if bit (pf p 0 0) b then f s else s
  let s1 := on 0 (fun s => (s.setFld Reg.thmWarn (pf p 1 1)).setFld Reg.thmThrottle (pf p 2 2)) s
  let s2 := on 1 (fun s => s.setFld Reg.stepMs (pf p 4 3)) s1
  on 2 (fun s => s.setFld Reg.deratePorts (pf p 6 5)) s2

/-- PWR_QUERY (Table 15.7). -/
def bodyPwrQuery (_c : Cmd) (s : State) : Body :=
  (.done s
    (ratioCode s + s.pwr.ceiling * 2 ^ 8 + (if s.pwr.blind then 0 else s.fld Reg.clkFloor) * 2 ^ 16 + hintPins s * 2 ^ 24 + s.pwr.target * 2 ^ 32 +
     iEst s % 2 ^ 24 * 2 ^ 40 + s.fld Reg.minMv * 2 ^ 64))

/-- PWR_QUERY (opcode 0x0D03). -/
def execPwrQuery (c : Cmd) (s : State) : Host.Outcome State Fault Refusal :=
  runCmd Op.pwrQuery c bodyPwrQuery s

/-- THM_QUERY (Table 15.7). -/
def bodyThmQuery (_c : Cmd) (s : State) : Body :=
  (.done s
    (ofInt 16 s.pwr.temp + s.pwr.hottest * 2 ^ 16 + s.pwr.ceiling * 2 ^ 24 + maskOf (goodSensors s) * 2 ^ 32 +
     b2n s.pwr.warn * 2 ^ 48 + b2n (s.pwr.ceiling != 0) * 2 ^ 49))

/-- THM_QUERY (opcode 0x0D04). -/
def execThmQuery (c : Cmd) (s : State) : Host.Outcome State Fault Refusal :=
  runCmd Op.thmQuery c bodyThmQuery s

/-- PWR_INJECT (R641). -/
def bodyPwrInject (c : Cmd) (s : State) : Body :=
  let p := c.params
  let src := pf p 0 0
  let dur := pf p 4 1
  if src = 0 ∨ 3 < src then .bad PwrCause.range 24
  else if dur < 10 ∨ 100000 < dur then .bad PwrCause.range 25
  else
    let t := max (mGetD s.pwr.inject src 0) (s.time.refNow + dur)
    let s1 := { s with pwr := { s.pwr with inject := mPut s.pwr.inject src t } }.inc Ctr.pwrInject
    let s2 := if src = 1 then (if softNow s then softBegin s1 true else softStep (softBegin s1 true))
      else if src = 2 then withRatio (hardBegin s1 true)
      else alertBegin s1 true
    .done s2 0

/-- PWR_INJECT (opcode 0x0D05). -/
def execPwrInject (c : Cmd) (s : State) : Host.Outcome State Fault Refusal :=
  runCmd Op.pwrInject c bodyPwrInject s

/-- INJECT_END (R641): the source is released. -/
def execInjectEnd (src : Nat) (s : State) : Host.Outcome State Fault Refusal :=
  match mGet? s.pwr.inject src with
  | none => .next s
  | some t => .next (s.atRef t (fun s =>
      let s1 := { s with pwr := { s.pwr with
        inject := mDel s.pwr.inject src, sagAt := if src = 2 then s.pwr.sagAt else s.time.refNow,
        sag := if src = 3 then max s.pwr.sag (min (alertCode s) (floorCap s)) else s.pwr.sag } }
      if src = 2 then { s1 with pwr := { s1.pwr with hardSag := s1.pwr.belowHard != 0 } } else s1))

/-- THM_CLEAR_LATCH (Table 15.7): THM_TRIP is cleared. -/
def bodyThmClearLatch (_c : Cmd) (s : State) : Body :=
  .done { s with pwr := { s.pwr with quenched := false, tripped := false } } 0

/-- THM_CLEAR_LATCH (opcode 0x0D06). -/
def execThmClearLatch (c : Cmd) (s : State) : Host.Outcome State Fault Refusal :=
  runCmd Op.thmClearLatch c bodyThmClearLatch s

-- Events of the supply.

/-- A detector that is watched (R642). -/
def watched (s : State) (d : Nat) : Bool := decide (d < 16) && !bit s.pwr.failed d && !s.boot.stopped

/-- DROOP_SOFT (R607, R610, R611). -/
def execDroopSoft (d : Nat) (s : State) : Host.Outcome State Fault Refusal :=
  if !watched s d then .next s
  else
    let s1 := setSoft { s with pwr := { s.pwr with stepAt := none } } (setBits s.pwr.belowSoft d d 1)
    .next (if softNow s then s1 else softStep (softBegin s1 false))

/-- DROOP_SOFT_STEP (R607): 20 ns more below SOFT; the detectors that still are. -/
def execDroopSoftStep (mask : Nat) (s : State) : Host.Outcome State Fault Refusal :=
  if !softNow s then .next s
  else .next (s.atRef (s.pwr.softAt + 20) (fun s =>
    let s1 := setSoft s (maskOf ((bitList mask 16).filter (watched s)))
    if softNow s1 then softStep s1 else s1))

/-- DROOP_HARD (R609, R611): a detector below HARD is below SOFT too. -/
def execDroopHard (d : Nat) (s : State) : Host.Outcome State Fault Refusal :=
  if !watched s d then .next s
  else
    let s1 := setSoft { s with pwr := { s.pwr with
      stepAt := none, hardFrom := if s.pwr.belowHard = 0 then s.time.refNow else s.pwr.hardFrom,
      lowTold := s.pwr.belowHard != 0 && s.pwr.lowTold } } (setBits s.pwr.belowSoft d d 1)
    let s2 := if softNow s then softBegin s1 false else softStep (softBegin s1 false)
    .next (withRatio (hardBegin { s2 with pwr := { s2.pwr with belowHard := setBits s2.pwr.belowHard d d 1 } } false))

/-- HARD_END (R609): no detector is below HARD; those given are still below SOFT. The floor binds again at once. -/
def execHardEnd (mask : Nat) (s : State) : Host.Outcome State Fault Refusal :=
  .next (setSoft { s with pwr := { s.pwr with belowHard := 0, hardSag := (mGet? s.pwr.inject 2).isSome } }
    (maskOf ((bitList mask 16).filter (watched s))))

/-- HOLD_EXPIRY (R610, R611): no detector has been below SOFT and no alert present for PWR_HOLD, which counts from the last instant
at which one was known to be. -/
def execHoldExpiry (s : State) : Host.Outcome State Fault Refusal :=
  if s.pwr.stepAt.isSome || alertNow s || hardNow s || (mGet? s.pwr.inject 1).isSome then .next s
  else .next (s.atRef (s.pwr.sagAt + s.fld Reg.hold) (fun s =>
    stepUp { s with pwr := { s.pwr with belowSoft := 0, belowFrom := [], softSag := false } }))

/-- STEP_UP (R610, R633). -/
def execStepUp (s : State) : Host.Outcome State Fault Refusal :=
  match s.pwr.stepAt with
  | none => .next s
  | some t => .next (s.atRef t stepUp)

/-- BRD_ALERT (R612, R645): the input has been asserted for 5 ns. -/
def execBrdAlert (s : State) : Host.Outcome State Fault Refusal :=
  if s.pwr.alert then .next s
  else
    let s1 := { s with pwr := { s.pwr with alert := true } }
    .next (if s.fld Reg.alertEn = 1 then alertBegin s1 false else s1)

/-- BRD_ALERT_DEASSERT (R612): the ratio stays where the alert held it until the hold time has passed. -/
def execBrdAlertDeassert (s : State) : Host.Outcome State Fault Refusal :=
  .next { s with pwr := { s.pwr with
    alert := false, sagAt := if s.pwr.alert then s.time.refNow else s.pwr.sagAt,
    sag := if alertNow s then max s.pwr.sag (min (alertCode s) (floorCap s)) else s.pwr.sag } }

/-- HINT_LEAD_EXPIRY (R618): the rise may go on. -/
def execHintLeadExpiry (s : State) : Host.Outcome State Fault Refusal :=
  match s.pwr.wait with
  | none => .next s
  | some (t, _) => .next (s.atRef t (fun s => { s with pwr := { s.pwr with wait := none } }))

/-- GOVERNOR_TICK (R613): the next 8 ns tick, with the issue demand that the blocks then have, in mA at full clock. -/
def execGovernorTick (demand : Nat) (s : State) : Host.Outcome State Fault Refusal :=
  .next (s.atRef ((s.time.refNow / 8 + 1) * 8) (fun s => governor s demand))

/-- A detector is excluded (R642): with fewer than 8 left there is no floor, and the thermal ceiling is 1/2. -/
def excludeDetector (d : Nat) (s : State) : State :=
  let s1 := setSoft { s with pwr := { s.pwr with
    failed := setBits s.pwr.failed d d 1, belowHard := setBits s.pwr.belowHard d d 0 } } (setBits s.pwr.belowSoft d d 0)
  let s2 := { s1 with pwr := { s1.pwr with hardSag := hardNow s1 && s1.pwr.hardSag } }.post 0x9005 []
  if (bitList s2.pwr.failed 16).length ≤ 8 ∨ s2.pwr.blind then s2
  else
    let s3 : State := { s2.setFld Reg.clkFloor 0 with pwr := { s2.pwr with blind := true } }
    if s3.pwr.ceiling < 2 then setCeiling s3 2 else s3

/-- The self-test of R642 fails: the detector has been below SOFT for 10 ms, and at least 8 others are above. -/
def selfTestFails (d : Nat) (s : State) : Bool :=
  bit s.pwr.belowSoft d &&
  decide (8 ≤ ((List.range 16).filter (fun k => k != d && watched s k && !bit s.pwr.belowSoft k)).length)

/-- DETECTOR_FAIL (R642): at boot by the reference check, later by the self-test. -/
def execDetectorFail (d : Nat) (s : State) : Host.Outcome State Fault Refusal :=
  if !watched s d then .next s
  else if s.cmd.fw == .boot then .next (excludeDetector d s)
  else if !selfTestFails d s then .next s
  else .next (s.atRef (mGetD s.pwr.belowFrom d 0 + 10000000) (fun s => if selfTestFails d s then excludeDetector d s else s))

/-- SUPPLY_LOW (R643): 1 ms below HARD, recorded once for the sag. -/
def execSupplyLow (s : State) : Host.Outcome State Fault Refusal :=
  if s.pwr.belowHard = 0 ∨ s.pwr.lowTold then .next s
  else .next (s.atRef (s.pwr.hardFrom + 1000000) (fun s =>
    { s with pwr := { s.pwr with lowTold := true } }.post 0x9007 []))

/-- SUPPLY_HIGH (R762). -/
def execSupplyHigh (s : State) : Host.Outcome State Fault Refusal :=
  if s.boot.stopped then .next s else .next (s.post 0x9006 [])

-- Events of the temperature: each carries the twelve filtered readings.

/-- TEMP_WARN (R623, R644). -/
def execTempWarn (t : List Int) (s : State) : Host.Outcome State Fault Refusal :=
  let s1 := setTemps s t
  if s1.pwr.warn || decide (warnTemp s1 < warnAt s1) then .next s1
  else
    let s2 := { s1 with pwr := { s1.pwr with warn := true } }
    .next ((((s2.raise Reg.thmStatus 0 5).inc Ctr.thmWarn).post 0x9010 []).fireDev 5)

/-- TEMP_WARN_END (R623). -/
def execTempWarnEnd (t : List Int) (s : State) : Host.Outcome State Fault Refusal :=
  let s1 := setTemps s t
  if decide (warnTemp s1 < warnAt s1 - 80) then .next { s1 with pwr := { s1.pwr with warn := false } } else .next s1

/-- THROTTLE (R624). -/
def execThrottle (t : List Int) (s : State) : Host.Outcome State Fault Refusal :=
  let s1 := setTemps s t
  if s1.pwr.throttled || decide (throttleTemp s1 < throttleAt s1) then .next s1
  else
    let s2 := { s1 with pwr := { s1.pwr with throttled := true, thmAt := s1.time.refNow } }
    .next ((((setCeiling s2 (max 1 s2.pwr.ceiling)).raise Reg.thmStatus 1 5).inc Ctr.thmThrottle).post 0x9011 [])

/-- The ceiling after an interval that the temperature has passed on one side (R624). -/
def ceilingStep (s : State) : State :=
  if s.pwr.region = 2 then
    (if s.pwr.ceiling < 3 then setCeiling s (s.pwr.ceiling + 1) else { s with pwr := { s.pwr with thmAt := s.time.refNow } })
  else if s.pwr.region = 0 then
    (let code := max (s.pwr.ceiling - 1) (ceilingMin s)
     let s1 := setCeiling { s with pwr := { s.pwr with throttled := code != ceilingMin s } } code
     if code = 0 then s1.post 0x9012 [] else s1)
  else { s with pwr := { s.pwr with thmAt := s.time.refNow } }

/-- THM_STEP (R624): an interval of THM_STEP_MS ends; readings that have left the side break it instead. -/
def execThmStep (t : List Int) (s : State) : Host.Outcome State Fault Refusal :=
  if !s.pwr.throttled then .next (setTemps s t)
  else .next (s.atRef (s.pwr.thmAt + s.fld Reg.stepMs * 1000000) (fun s =>
    let s1 := setTemps s t
    if s1.pwr.region = s.pwr.region then ceilingStep s1 else s1))

/-- SENSOR_FAIL (R644): the readings make a sensor invalid. -/
def execSensorFail (k : Nat) (t : List Int) (s : State) : Host.Outcome State Fault Refusal :=
  if 12 ≤ k ∨ sensorBad s k ∨ !readsBad s t k then .next (setTemps s t)
  else
    let s1 := setTemps { s with pwr := { s.pwr with badSensors := setBits s.pwr.badSensors k k 1 } } t
    .next (((s1.raise Reg.thmStatus 3 5).inc Ctr.thmSensorFail).post 0x9016 [])

-- Lane power (R271).

/-- A lane of a BANKED port that still transmits the frame in progress (R268). -/
def sendsOn (s : State) (n : Nat) : Bool :=
  match portOfLane s n with
  | some p => (s.port p).st == .banked && !(mGetD s.tm.sending p []).isEmpty
  | none => false

/-- LANE_POWER_STEP (R271, R618): the next lane is powered up or down, 20 µs after the last; a rise that changes the band
is announced first and waits for LEAD. -/
def execLanePowerStep (s : State) : Host.Outcome State Fault Refusal :=
  .next (s.atRef s.ln.powerAt (fun s =>
    match s.ln.power with
    | [] => s
    | (n, on) :: rest =>
      if on && s.pwr.wait.isSome || !on && sendsOn s n then s
      else if on && decide (s.pwr.pins < bandOf s (targetMa s)) then announce s (targetMa s)
      else
        let s1 := powerLane s n on
        let s2 := { s1 with ln := { s1.ln with power := rest, powerAt := s1.time.refNow + 20000 } }
        if rest.isEmpty then { s2 with pwr := { s2.pwr with quenchAt := s2.time.refNow } } else s2))

end Sys2Proof.Machine
end

