-- ==== Sys2Proof/Machine/NvmOps.lean ====
section
/-!
DEFINITION. The shared operations of flash, firmware images, update session, journalled writes and log flush
(spec/16_identity_nvm_log.md, R651 to R673, R681 to R686, R782).
-/

namespace Sys2Proof.Machine

def Ctr.nvmWrite : Nat := 0x031020
def Ctr.nvmErase : Nat := 0x031028
def Ctr.nvmTorn : Nat := 0x031030
def Ctr.nvmErr : Nat := 0x031038

-- Cause codes (Table 16.12).
namespace NvmCause
def session : Nat := 0x10
def state : Nat := 0x11
def svnOther : Nat := 0x12
def flash : Nat := 0x13
def key : Nat := 0x14
def range : Nat := 0x15
end NvmCause

namespace Nvm

/-- The governing boot header (R653). -/
def govern (n : Nvm) : BootHdr :=
  match n.hdrA, n.hdrB with
  | some a, some b => if a.seq < b.seq then b else a
  | some a, none => a
  | none, some b => b
  | none, none => { seq := 0, active := 0, trial := false, count := 0 }

/-- A rewritten header goes into the copy that does not govern (R653). -/
def putHdr (n : Nvm) (h : BootHdr) : Nvm :=
  match n.hdrA, n.hdrB with
  | some a, some b => if a.seq < b.seq then { n with hdrA := some h } else { n with hdrB := some h }
  | some _, none => { n with hdrB := some h }
  | none, _ => { n with hdrA := some h }

/-- The next header with given fields: SEQ advances by 1 (Table 16.2). -/
def nextHdr (n : Nvm) (active : Nat) (trial : Bool) (count : Nat) : BootHdr :=
  { seq := (n.govern.seq + 1) % 2 ^ 32, active := active, trial := trial, count := count }

/-- The inactive image: the one that ACTIVE does not name (R658). -/
def inactive (n : Nvm) : Nat := 1 - n.govern.active

def img (n : Nvm) (k : Nat) : ImgPart := if k = 0 then n.imgA else n.imgB
def setImg (n : Nvm) (k : Nat) (p : ImgPart) : Nvm := if k = 0 then { n with imgA := p } else { n with imgB := p }
def mark (n : Nvm) (k m : Nat) : Nvm := n.setImg k { n.img k with mark := m }

end Nvm

/-- A byte of an image partition; an erased byte reads 0xFF. -/
def ImgPart.byte (p : ImgPart) (a : Nat) : Byte :=
  match p.data.find? (fun x => decide (x.1 ≤ a) && decide (a < x.1 + x.2.length)) with
  | some x => x.2.getD (a - x.1) 0xFF
  | none => 0xFF

/-- Bytes of an image partition. -/
def ImgPart.read (p : ImgPart) (off len : Nat) : List Byte := (List.range len).map (fun k => p.byte (off + k))

/-- Fields of an image's header (Table 16.3). -/
def ImgPart.svn (p : ImgPart) : Nat := leNat (p.read 6 2)
def ImgPart.version (p : ImgPart) : Nat := leNat (p.read 8 4)
def ImgPart.bodyLen (p : ImgPart) : Nat := leNat (p.read 12 4)

/-- The first check of R654 that an image fails, 1 to 6. -/
def ImgPart.check (p : ImgPart) (floor : Nat) : Option Nat :=
  let h := p.read 0 512
  if dn h 3 0 ≠ 0x4E4A444F ∨ dn h 4 4 ≠ 1 ∨ dn h 17 16 ≠ 0x0160 ∨ dn h 19 19 ≠ 0 ∨ dn h 167 164 ≠ 0 ∨
      !allZero (h.drop 264) ∨ 0xB0 < dn h 18 18 then some 1
  else if p.bodyLen = 0 ∨ 16776704 < p.bodyLen then some 2
  else if 3 < dn h 5 5 ∨ Config.sha384 (p.read 20 96) ≠ Config.rootHash (dn h 5 5) then some 3
  else if !Config.ecdsaVerify (p.read 20 96) (h.take 168) (p.read 168 96) then some 4
  else if Config.sha384 (p.read 512 p.bodyLen) ≠ p.read 116 48 then some 5
  else if p.svn < floor then some 6
  else none

-- Records (R662, R663).

/-- Bytes that a record takes. -/
def nvmLen (n : Nat) : Nat := ceilDiv (12 + n) 16 * 16

/-- The current record of a key: the highest VERSION. -/
def recFind (l : List NvmRec) (key : Nat) : Option NvmRec :=
  (l.filter (fun r => r.key == key && key != 0)).foldl (fun a r =>
    match a with | some b => if b.version < r.version then some r else a | none => some r) none

/-- The value of a key; a record of length 0 deletes it. -/
def recValue (l : List NvmRec) (key : Nat) : Option (List Byte) :=
  match recFind l key with
  | some r => if r.value.isEmpty then none else some r.value
  | none => none

/-- VERSION of the next record of a key; the first is 1 (log entry 49). -/
def nextVersion (l : List NvmRec) (key : Nat) : Nat := match recFind l key with | some r => r.version + 1 | none => 1

/-- Capacity of a half of partition 5, and of the provisioning partition. -/
def halfSize : Nat := 3670016
def provSize : Nat := 65536

-- The flash controller (R660).

/-- Page programs that data at an offset takes. -/
def pagesFor (off len : Nat) : Nat := ceilDiv (off % 256 + len) 256

/-- A journalled write: its four steps, with the page programs of its data. -/
def writeSteps (pages : Nat) : List FlashStep := [.intent] ++ List.replicate pages .program ++ [.readback, .commit]

/-- An operation of the flash controller as it is asked for (log entry 50). -/
def flashOp (what : FlashWhat) (asker : Asker) : FlashOp :=
  let mk (steps : List FlashStep) (part off len : Nat) : FlashOp :=
    { what := what, steps := steps, seq := 0, isOpen := false, part := part, off := off, len := len, asker := asker }
  match what with
  | .eraseImage k => mk (List.replicate 256 .erase) (3 + k) 0 16777216
  | .voidImage k => mk [.erase] (3 + k) 0 4096
  | .image k off d => mk (writeSteps (pagesFor off d.length)) (3 + k) off d.length
  | .header _ _ => mk [.intent, .erase, .program, .readback, .commit] 0 0 16
  | .record prov _ v _ => mk [] (if prov then 1 else 5) 0 (nvmLen v.length)
  | .logPages l _ => mk (writeSteps l.length) 6 0 (256 * l.length)
  | .compact => mk [] 5 0 0

/-- Where an operation that now begins goes, and its steps. -/
def FlashOp.place (o : FlashOp) (s : State) : FlashOp :=
  let n := s.nvm
  let at_ (off : Nat) : FlashOp := { o with off := off, seq := n.nextSeq }
  match o.what with
  | .header _ _ => at_ (if (n.putHdr (n.nextHdr 0 false 0)).hdrA = n.hdrA then 0x1000 else 0)
  | .record prov _ _ _ =>
    let off := if prov then n.provUsed else 0x100000 + n.half * halfSize + n.cfgUsed
    { at_ off with steps := writeSteps (pagesFor off o.len) }
  | .logPages _ _ => at_ (256 * s.log.page)
  | .compact =>
    let off := 0x100000 + (1 - n.half) * halfSize
    { at_ off with steps := List.replicate 56 .erase ++ List.replicate (ceilDiv n.cfgUsed 256) .program ++
        [.intent, .program, .readback, .commit] ++ List.replicate 56 .erase }
  | _ => at_ o.off

/-- A record of the configuration does not fit into the current half (R662). -/
def FlashOp.tooBig (o : FlashOp) (n : Nvm) : Bool :=
  match o.what with
  | .record false _ _ _ => decide (halfSize < n.cfgUsed + o.len)
  | _ => false

/-- A log flush. -/
def FlashOp.isLog (o : FlashOp) : Bool := match o.what with | .logPages _ _ => true | _ => false

/-- A log flush is under way or waits for the flash. -/
def State.logWriting (s : State) : Bool :=
  (match s.nvm.cur with | some o => o.isLog | none => false) || s.nvm.waiting.any FlashOp.isLog

/-- The next operation begins, when none is in progress (R660). In a quench only a log flush begins, and from step 5
none (Table 15.5). -/
def flashKick (s : State) : State :=
  match s.nvm.cur, s.nvm.waiting with
  | none, o :: rest =>
    if s.boot.stopped || (s.pwr.quench != 0 && (!o.isLog || decide (5 ≤ s.pwr.quench))) then s
    else
      let (o', rest') := if o.tooBig s.nvm then (flashOp .compact .nobody, o :: rest) else (o, rest)
      { s with nvm := { s.nvm with cur := some (o'.place s), waiting := rest', nextSeq := s.nvm.nextSeq + 1 } }
  | _, _ => s

/-- Ask for an operation: behind those that wait; a log flush before them (R681). -/
def flashAsk (s : State) (what : FlashWhat) (asker : Asker) : State :=
  let o := flashOp what asker
  flashKick { s with nvm := { s.nvm with waiting := if o.isLog then o :: s.nvm.waiting else s.nvm.waiting ++ [o] } }

/-- A command waits for a flash operation: its engine number. -/
def flashWait (s : State) (c : Cmd) : State × Nat :=
  let e := 0x1000000 + s.nvm.nextEngine
  ({ s with nvm := { s.nvm with nextEngine := s.nvm.nextEngine + 1 },
            cmd := { s.cmd with busyOps := s.cmd.busyOps ++ [(e, c)] } }, e)

/-- The command that waits under an engine number is answered (R161, R165). -/
def endWait (s : State) (e : Nat) (f : Fail) : State :=
  let mine := s.cmd.busyOps.filter (fun b => b.1 == e)
  mine.foldl (fun s b => answer s b.2 f.status 0 f s.time.heat f.result)
    { s with cmd := { s.cmd with busyOps := s.cmd.busyOps.filter (fun b => b.1 != e) } }

/-- Whoever waits for an operation is told; a PLDM update goes on by itself. -/
def tellAsker (s : State) (a : Asker) (f : Fail) : State :=
  match a with | .command e => endWait s e f | _ => s

/-- A journal entry is appended; the ring holds 32,768, and the next 64 KiB block is erased before it is reached
(R660). -/
def journalAdd (s : State) (o : FlashOp) (kind crc : Nat) : State :=
  let e : JEntry :=
    { seq := o.seq, kind := kind, part := o.part, off := o.off, len := o.len, crc := crc, heat := s.time.heat }
  let pos := (s.nvm.jpos + 1) % 32768
  let s1 := { s with nvm := { s.nvm with journal := (e :: s.nvm.journal).take 32768, jpos := pos } }
  if pos % 2048 = 0 then s1.inc Ctr.nvmErase else s1

/-- Bytes with erased ones behind them, up to a length. -/
def padFF (n : Nat) (l : List Byte) : List Byte := l ++ List.replicate (n - l.length) 0xFF

/-- A boot header copy (Table 16.2). -/
def BootHdr.bytes (h : BootHdr) : List Byte :=
  let b : List Byte :=
    [0x42, 0x48, 0x44, 0x52] ++ leBytes 4 h.seq ++ leBytes 1 h.active ++ leBytes 1 (b2n h.trial) ++ leBytes 1 h.count ++ [0]
  b ++ leBytes 4 (crc32c b)

/-- A record: KEY, LENGTH, VERSION, the value, the CRC, and padding (R662). -/
def NvmRec.bytes (r : NvmRec) : List Byte :=
  let b := leBytes 2 r.key ++ leBytes 2 r.value.length ++ leBytes 4 r.version ++ r.value
  padFF (nvmLen r.value.length) (b ++ leBytes 4 (crc32c b))

/-- The data that a journalled write programs, which the CRC of its journal entries covers (Table 16.4). The data of a half marker
have no stated layout (log entry 49). -/
def FlashOp.bytes (s : State) (o : FlashOp) : List Byte :=
  match o.what with
  | .image _ _ d => d
  | .record prov key v _ =>
    ({ key := key, version := nextVersion (if prov then s.nvm.prov else s.nvm.cfg) key, value := v } : NvmRec).bytes
  | .logPages l _ => l.flatMap (fun p => padFF 256 (p.flatMap LogEntry.bytes))
  | .header h _ => h.bytes
  | _ => []

/-- A write that the boot ROM makes in a stage of the boot (R655, R656, R660, R695): INTENT, data, COMMIT. -/
def bootWrite (s : State) (what : FlashWhat) : State :=
  let o := (flashOp what .nobody).place s
  let s1 := { s with nvm := { s.nvm with nextSeq := s.nvm.nextSeq + 1 } }
  let s2 := (journalAdd (journalAdd s1 o 1 (crc32c (o.bytes s))) o 2 (crc32c (o.bytes s))).inc Ctr.nvmWrite
  match what with | .header _ _ => s2.inc Ctr.nvmErase | _ => s2

-- The update session (R658) and PLDM type 5 (R659).

/-- The session ends; its image, where it is not VERIFIED, is EMPTY. -/
def endSession (s : State) : State :=
  match s.nvm.session with
  | none => s
  | some x =>
    let n := if (s.nvm.img x.img).mark = 2 then s.nvm else s.nvm.mark x.img 0
    { s with nvm := { n with session := none } }

/-- An update step has been made in the session. -/
def sessionStep (s : State) (off : Nat) : State :=
  { s with nvm := { s.nvm with session := s.nvm.session.map (fun x => { x with nextOff := off, stepAt := s.time.refNow }) } }

namespace State
def sbPort (s : State) (p : Nat) : SbPort := mGetD s.sb p (SbPort.reset (0x1D + p) 0)
def setSb (s : State) (p : Nat) (x : SbPort) : State := { s with sb := mPut s.sb p x }
end State

/-- A PLDM type 5 request of the device to the update agent. -/
def pldmAsk (s : State) (p cmd : Nat) (data : List Byte) : State :=
  s.sbSend p { peer := 0, kind := 1, cmd := 0x0500 + cmd, request := true, cc := 0, data := data }

/-- RequestFirmwareData of the next 2,048 bytes (R659). -/
def pldmFetch (s : State) (p : Nat) : State := pldmAsk s p 0x15 (leBytes 4 (s.sbPort p).got ++ leBytes 4 2048)

/-- All of the image has come: TransferComplete, the checks of R654, VerifyComplete, and on success the rewrite of the
boot header (R659). -/
def pldmVerify (s : State) (p : Nat) : State :=
  match s.nvm.session with
  | none => s
  | some x =>
    let s1 := pldmAsk s p 0x16 [0]
    match (s1.nvm.img x.img).check s1.nvm.floor with
    | none =>
      let s2 := endSession { s1 with nvm := s1.nvm.mark x.img 2 }
      let s3 := (pldmAsk s2 p 0x17 [0]).setSb p { (pldmAsk s2 p 0x17 [0]).sbPort p with fd := .apply }
      flashAsk s3 (.header (s3.nvm.nextHdr x.img true 0) true) (.pldm p)
    | some r =>
      let s2 := flashAsk (endSession s1) (.voidImage x.img) .nobody
      let s3 := pldmAsk s2 p 0x17 (leBytes 1 r)
      s3.setSb p { s3.sbPort p with fd := .ready }

-- The log partition (R667, R668, R671, R672).

/-- A page is written at the write position; a block is erased before its first page is reused. -/
def putPage (s : State) (l : List LogEntry) : State :=
  let p := s.log.page
  let s1 := if p % 256 = 0 then
      { s with log := { s.log with pages := s.log.pages.filter (fun x => x.1 / 256 != p / 256) } }.inc Ctr.nvmErase else s
  { s1 with log := { s1.log with page := (p + 1) % 65536, pages := (p, l) :: s1.log.pages } }.inc Ctr.logPage

/-- The page at the write position is skipped (R686). -/
def skipPage (s : State) : State := { s with log := { s.log with page := (s.log.page + 1) % 65536 } }

/-- The page written last does not read back: readers skip it (R686). -/
def dropPage (s : State) : State :=
  { s with log := { s.log with pages := s.log.pages.filter (fun x => (x.1 + 1) % 65536 != s.log.page) } }

/-- Pages that a log flush has programmed. -/
def FlashOp.programmed (o : FlashOp) : Nat :=
  match o.what with
  | .logPages l _ => l.length - (o.steps.filter (fun x => x == .program)).length
  | _ => 0

/-- Entries in pages of eight (R667). -/
def pagesOf : Nat → List LogEntry → List (List LogEntry)
  | 0, _ => []
  | n + 1, l => if l.isEmpty then [] else l.take 8 :: pagesOf n (l.drop 8)

/-- A flush begins: entries lost since the last event are reported (R669), then every unflushed entry goes out in pages
(R667). Answers the entries that it writes. -/
def flushBegin (s0 : State) (asker : Asker) : State × Nat :=
  let s : State := if s0.log.lostSince = 0 then s0
    else { s0 with log := { s0.log with lostSince := 0 } }.post 0xA002 (leBytes 4 s0.log.lostSince)
  let l := s.flushEntries
  let s1 := { s with log := { s.log with flushDue := false } }
  if l.isEmpty then (tellAsker s1 asker { status := St.done, result := s1.log.seqFlushed.toNat }, 0)
  else (flashAsk s1 (.logPages (pagesOf l.length l) s1.log.seqNext) asker, l.length)

-- The end of an operation.

/-- A record that still does not fit after a compaction cannot be written: its command fails as after R686 (log entry 49). -/
def refuseTooBig (s : State) : State :=
  match s.nvm.waiting with
  | o :: rest =>
    if o.tooBig s.nvm then
      tellAsker { s with nvm := { s.nvm with waiting := rest } } o.asker { status := St.fault, cause := NvmCause.flash }
    else s
  | [] => s

/-- An operation has made its last step (R658 to R662, R667). -/
def flashFinish (s : State) (o : FlashOp) : State :=
  match o.what with
  | .eraseImage k =>
    let s1 := sessionStep { s with nvm := s.nvm.setImg k { data := [], mark := 1 } } 0
    (match o.asker with
     | .pldm p => pldmFetch s1 p
     | a => tellAsker s1 a { status := St.done, result := k })
  | .voidImage k =>
    { s with nvm := s.nvm.setImg k { s.nvm.img k with data := (s.nvm.img k).data.filter (fun x => decide (4096 ≤ x.1)) } }
  | .image k off d =>
    let s1 := sessionStep { s with nvm := s.nvm.setImg k { s.nvm.img k with data := mPut (s.nvm.img k).data off d } } (off + d.length)
    (match o.asker with
     | .pldm p =>
       let x := s1.sbPort p
       let s2 := s1.setSb p { x with got := x.got + d.length }
       if x.size ≤ x.got + d.length then pldmVerify s2 p else pldmFetch s2 p
     | a => tellAsker s1 a { status := St.done })
  | .header h act =>
    let s1 := { s with nvm := s.nvm.putHdr h }
    let s2 := if act then s1.post 0xA013 (leBytes 1 h.active) else s1
    (match o.asker with
     | .pldm p => (pldmAsk s2 p 0x18 [0]).setSb p { (pldmAsk s2 p 0x18 [0]).sbPort p with fd := .activate }
     | a => tellAsker s2 a { status := St.done })
  | .record prov key v _ =>
    let l := if prov then s.nvm.prov else s.nvm.cfg
    let ver := nextVersion l key
    let r : NvmRec := { key := key, version := ver, value := v }
    let n := if prov then { s.nvm with prov := l ++ [r], provUsed := s.nvm.provUsed + o.len }
             else { s.nvm with cfg := l ++ [r], cfgUsed := s.nvm.cfgUsed + o.len }
    tellAsker { s with nvm := n } o.asker { status := St.done, result := if prov then 0 else ver }
  | .logPages _ next =>
    tellAsker { s with log := { s.log with seqFlushed := next } } o.asker { status := St.done, result := next.toNat }
  | .compact =>
    let keys := (s.nvm.cfg.map (·.key)).eraseDups
    let live := keys.filterMap (fun k => recFind s.nvm.cfg k)
    refuseTooBig ({ s with nvm := { s.nvm with
      cfg := live, half := 1 - s.nvm.half,
      cfgUsed := live.foldl (fun (a : Nat) (r : NvmRec) => a + nvmLen r.value.length) 0 } }.post 0xA022 [])

/-- A program, an erase or a read-back has failed (R686): ABORT, the counts, and what becomes of the write. -/
def flashFail (s0 : State) (o : FlashOp) : State :=
  let sA := if o.isOpen then journalAdd s0 o 3 (crc32c (o.bytes s0)) else s0
  let s := ((sA.inc Ctr.nvmErr).raise Reg.nvmStatus 1 0).post 0xA021 []
  let fault : Fail := { status := St.fault, cause := NvmCause.flash }
  let again (s : State) (w : FlashWhat) : State :=
    { s with nvm := { s.nvm with waiting := flashOp w o.asker :: s.nvm.waiting } }
  let lost (s : State) : State :=
    match o.asker with
    | .pldm p => s.setSb p { s.sbPort p with fd := .ready }
    | a => tellAsker s a fault
  match o.what with
  | .eraseImage _ => lost (endSession s)
  | .image _ _ _ => lost (endSession s)
  | .voidImage _ => s
  | .header _ _ =>
    lost (if o.steps.head? = some .program ∨ o.steps.head? = some .readback then
      { s with nvm := if o.off = 0 then { s.nvm with hdrA := none } else { s.nvm with hdrB := none } } else s)
  | .record prov key v false =>
    let n := if prov then { s.nvm with provUsed := s.nvm.provUsed + o.len } else { s.nvm with cfgUsed := s.nvm.cfgUsed + o.len }
    again { s with nvm := n } (.record prov key v true)
  | .record prov _ _ true =>
    lost { s with nvm := if prov then { s.nvm with provUsed := s.nvm.provUsed + o.len }
                         else { s.nvm with cfgUsed := s.nvm.cfgUsed + o.len } }
  | .logPages l next =>
    let s1 := s.raise Reg.logStatus 2 0
    (match o.steps.head? with
     | some .program => again (skipPage s1) (.logPages (l.drop o.programmed) next)
     | some .intent => again s1 (.logPages l next)
     | _ => again (dropPage s1) (.logPages (l.drop (l.length - 1)) next))
  | .compact =>
    match s.nvm.waiting with
    | w :: rest => tellAsker { s with nvm := { s.nvm with waiting := rest } } w.asker fault
    | [] => s

/-- One step of the operation in progress ends, well or not (R660, R686). -/
def flashStep (s : State) (ok : Bool) : State :=
  match s.nvm.cur with
  | none => s
  | some o =>
    let idle : State := { s with nvm := { s.nvm with cur := none } }
    match o.steps with
    | [] => flashKick (flashFinish idle o)
    | x :: rest =>
      if !ok then flashKick (flashFail idle o)
      else
        let s1 := match x with
          | .intent => journalAdd s o 1 (crc32c (o.bytes s))
          | .erase => s.inc Ctr.nvmErase
          | .program => (match o.what with
            | .logPages l _ => (match l[o.programmed]? with | some p => putPage s p | none => s)
            | _ => s)
          | .commit => (journalAdd s o 2 (crc32c (o.bytes s))).inc Ctr.nvmWrite
          | _ => s
        let o' := { o with steps := rest, isOpen := (o.isOpen || x == .intent) && x != .commit }
        if rest.isEmpty then flashKick (flashFinish { s1 with nvm := { s1.nvm with cur := none } } o')
        else { s1 with nvm := { s1.nvm with cur := some o' } }

/-- A page program is in progress (R628, R707). -/
def programming (s : State) : Bool :=
  match s.nvm.cur with | some o => o.steps.head? == some .program | none => false

-- Failure of the log memory (R671).

/-- An entry of the main ring moves behind those of the fallback ring, and a message that carries it follows (R666, R669, R682). -/
def fallBack (s : State) (e : LogEntry) : State :=
  let new : LogEntry := { e with seq := s.log.seqNext, flags := e.flags + 16 }
  let (s1, t) := s.overwrite s.log.fb 16
  { s1 with
    log := { s1.log with fb := t ++ [new], seqNext := s.log.seqNext + 1 },
    sb := s1.sb.map (fun x => (x.1, { x.2 with tx := x.2.tx.map (fun m =>
      if m.cmd = 0x020A ∧ m.data = e.bytes then { m with data := new.bytes } else m) })) }

/-- The log memory fails; entries of the given SEQs cannot be read. What other blocks post on this edge comes after LOG_MEM_FAIL
(R682). -/
def logFails (s : State) (bad : List Word) : State :=
  if s.log.fallback then s
  else
    let here (e : LogEntry) : Bool := e.heat == s.time.heat && e.ns == s.time.ns && s.unflushed e.seq && !e.settled
    let late := s.log.main.filter here
    let main := s.log.main.filter (fun e => !here e)
    let unread := main.filter (fun e => s.unflushed e.seq && bad.contains e.seq)
    let s1 := { s with log := { s.log with
      fallback := true, memFail := true, badSeqs := bad, fb := [], main := main, seqNext := s.log.seqNext - BitVec.ofNat 32 late.length } }
    late.foldl fallBack ((s1.add Ctr.logLost unread.length).post 0xA001 (leBytes 4 unread.length))

end Sys2Proof.Machine
end

