-- ==== Sys2Proof/Machine/Rules.lean ====
section
/-!
DEFINITION. Opcode family 0x07, the aging scan and the landing of rule items (spec/08_parse_rules.md).
-/

namespace Sys2Proof.Machine

-- Causes of family 0x07 (Table 8.14).
namespace RulCause
def quota : Nat := 0x10
def bucketFull : Nat := 0x11
def tenantAction : Nat := 0x12
def notOwner : Nat := 0x13
def keyType : Nat := 0x14
def entryFmt : Nat := 0x15
end RulCause

/-- A failing check: status and cause; where a field of the data is at fault FIELD is 0xFF (Table 4.5). -/
def badEntry (cause : Nat) : Fail := { status := St.badParam, cause := cause, field := 0xFF }
def denyEntry (cause : Nat) : Fail := { status := St.denied, cause := cause }
def fullEntry (cause : Nat) : Fail := { status := St.noRoom, cause := cause }

/-- What R340 forbids an action of a tenant owner, and what Table 8.14 calls not the owner's. -/
def tenantAct (s : State) (o : Nat) (a : Action) : Option Fail :=
  if 1 < a.act then some (denyEntry RulCause.tenantAction)
  else if a.act = 1 ∧ a.ttype ≠ 2 ∧ a.ttype ≠ 4 then some (denyEntry RulCause.tenantAction)
  else if a.rewrite || a.decap || (a.ttype == 4 && a.target != 0) then some (denyEntry RulCause.tenantAction)
  else if a.act = 1 ∧ a.ttype = 2 ∧
      (a.target ≠ o ∨ (a.queue ≠ 0xFFFF ∧ (s.insOf o).grants.getD 0 0 ≤ a.queue)) then
    some (denyEntry RulCause.notOwner)
  else none

/-- The checks of an entry's action for its owner (R218, R340, Table 8.14): its exception queue is one of its own instance (log entry
32). -/
def checkAct (s : State) (o : Nat) (a : Action) : Option Fail :=
  match (if mgrOwner o then none else tenantAct s o a) with
  | some f => some f
  | none =>
    if a.act = 2 ∧ (a.proc = 1 ∧ o ≠ 0 ∨ a.proc = 2 ∧ o ≠ 2) then some (denyEntry RulCause.notOwner)
    else if a.police && decide ((s.insOf o).grants.getD 5 0 ≤ a.policer) then some (denyEntry RulCause.notOwner)
    else if a.police && retiring s o 5 a.policer then some { status := St.locked, cause := 0x13 }
    else none

/-- An ordered entry image (Table 8.11) for local index `k` of an owner. -/
def checkRule (s : State) (o k : Nat) (b : List Byte) : Option Fail :=
  if 3 ≤ byteAt b 146 || 2 ≤ byteAt b 147 || !actionFmt ((b.drop 148).take 16) || !allZero ((b.drop 164).take 12) then
    some (badEntry RulCause.entryFmt)
  else if !mgrOwner o && byteAt b 146 != 1 then some (denyEntry RulCause.tenantAction)
  else match checkAct s o (Action.ofBytes ((b.drop 148).take 16)) with
    | some f => some f
    | none =>
      if (s.insOf o).grants.getD 1 0 ≤ k then some (fullEntry RulCause.quota)
      else if retiring s o 1 k then some { status := St.locked, cause := 0x13 }
      else none

/-- Write an ordered entry (R340, R355, R356); the counter of a valid entry stays (log entry 32). -/
def putRule (s : State) (o k : Nat) (b : List Byte) : State :=
  let q := o * 65536 + k
  let key := dn b 71 0
  let mask := dn b 143 72
  let old := mGet? s.rul.rules q
  s.setRule q
    { key := if mgrOwner o then key else setBits key 15 0 o
      mask := if mgrOwner o then mask else setBits mask 15 0 0xFFFF
      prio := dn b 145 144, tier := byteAt b 146 % 4, action := Action.ofBytes ((b.drop 148).take 16)
      frames := (old.map (·.frames)).getD 0, bytes := (old.map (·.bytes)).getD 0
      sframes := (old.map (·.sframes)).getD 0, sbytes := (old.map (·.sbytes)).getD 0 }

/-- The image of an ordered entry. -/
def Rule.image (r : Rule) : List Byte :=
  leBytes 72 r.key ++ leBytes 72 r.mask ++ leBytes 2 r.prio ++ leBytes 1 r.tier ++ [1] ++ r.action.bytes ++ leBytes 12 0

/-- Write entries one by one until one fails (R358): the state, how many were written, and the failure. -/
def eachEntry (check : State → Nat → List Byte → Option Fail) (put : State → Nat → List Byte → State) :
    State → Nat → List (List Byte) → State × Nat × Option Fail
  | s, n, [] => (s, n, none)
  | s, n, b :: t =>
    match check s n b with
    | some f => (s, n, some f)
    | none => eachEntry check put (put s n b) (n + 1) t

/-- The answer of an immediate command over entries (R358). -/
def nowBody (r : State × Nat × Option Fail) : Body :=
  match r with
  | (s, n, none) => .done s n
  | (s, n, some f) => .other s { f with result := n }

/-- The answer of a staged command over entries: any failing entry fails it whole, each judged as though those before it had been
written (R358, R362). -/
def stageBody (s : State) (flow : Bool) (check : State → Nat → List Byte → Option Fail) (put : State → Nat → List Byte → State)
    (es : List (List Byte)) : Body :=
  match (eachEntry check put s 0 es).2.2 with
  | some f => .fail f
  | none => .stage s es flow es.length

/-- RULE_WRITE (R340, R354 to R358, R362). -/
def bodyRuleWrite (c : Cmd) (s : State) : Body :=
  let p := c.params
  let first := pf p 3 2
  let n := pf p 5 4
  if n = 0 then .bad 0 28
  else
    if c.data.length % 176 ≠ 0 then .fail (badEntry RulCause.entryFmt)
    else if c.data.length ≠ 176 * n then .bad Cause.length 10
    else
      let es := chunks 176 n c.data
      let check (s : State) (i : Nat) (b : List Byte) := checkRule s c.id (first + i) b
      let put (s : State) (i : Nat) (b : List Byte) := putRule s c.id (first + i) b
      if isNow c then nowBody (eachEntry check put s 0 es) else stageBody s false check put es

/-- RULE_WRITE (opcode 0x0701). -/
def execRuleWrite (c : Cmd) (s : State) : Host.Outcome State Fault Refusal :=
  runCmd (Op.ruleWrite c) c bodyRuleWrite s

/-- A staged RULE_WRITE entry lands; beyond a quota that shrank meanwhile it names nothing. -/
def landRuleWrite (it : Item) (s : State) : State :=
  let k := pf it.params 3 2 + it.sub
  if (s.insOf it.inst).grants.getD 1 0 ≤ k then s else putRule s it.inst k it.data

/-- RULE_DELETE (R354, R358). -/
def bodyRuleDelete (c : Cmd) (s : State) : Body :=
  let p := c.params
  let first := pf p 3 2
  let n := pf p 5 4
  if n = 0 then .bad 0 28
  else
    let ks := (List.range n).map (fun i => c.id * 65536 + first + i)
    if (s.insOf c.id).grants.getD 1 0 < first + n then .bad 0 26
    else if isNow c then
      .done (ks.foldl (fun s k => s.delRule k) s) (ks.filter (fun k => (mGet? s.rul.rules k).isSome)).length
    else .stage s (List.replicate n []) false n

/-- RULE_DELETE (opcode 0x0702). -/
def execRuleDelete (c : Cmd) (s : State) : Host.Outcome State Fault Refusal :=
  runCmd (Op.ruleDelete c) c bodyRuleDelete s

/-- A staged delete lands. -/
def landRuleDelete (it : Item) (s : State) : State := s.delRule (it.inst * 65536 + pf it.params 3 2 + it.sub)

/-- RULE_READ (Table 8.10): an invalid entry reads as zeros. -/
def bodyRuleRead (c : Cmd) (s : State) : Body :=
  let p := c.params
  let k := pf p 3 2
    if (s.insOf c.id).grants.getD 1 0 ≤ k then .bad 0 26
    else match mGet? s.rul.rules (c.id * 65536 + k) with
      | some r => doneAt s c (pf p 15 8) r.image 1
      | none => doneAt s c (pf p 15 8) (leBytes 176 0) 0

/-- RULE_READ (opcode 0x0703). -/
def execRuleRead (c : Cmd) (s : State) : Host.Outcome State Fault Refusal :=
  runCmd Op.ruleRead c bodyRuleRead s

/-- RULE_COUNT: frames and bytes, live or of the last strike. -/
def bodyRuleCount (c : Cmd) (s : State) : Body :=
  let p := c.params
  let k := pf p 3 2
    if (s.insOf c.id).grants.getD 1 0 ≤ k then .bad 0 26
    else if 1 < pf p 4 4 then .bad 0 28
    else
      match mGet? s.rul.rules (c.id * 65536 + k) with
      | some r =>
        .done s (if pf p 4 4 = 0 then r.frames.toNat + r.bytes.toNat * 2 ^ 64 else r.sframes.toNat + r.sbytes.toNat * 2 ^ 64)
      | none => .done s 0

/-- RULE_COUNT (opcode 0x0704). -/
def execRuleCount (c : Cmd) (s : State) : Host.Outcome State Fault Refusal :=
  runCmd Op.ruleCount c bodyRuleCount s

/-- The key type of an image is one of Table 8.5 and open to its owner (Table 8.13, R340). -/
def checkType (b : List Byte) : Option Fail :=
  let t := imageType b
  if t = 0 ∨ 4 < t then some (badEntry RulCause.keyType)
  else if !mgrOwner (imageOwner b) && (t == 1 || t == 4) then some (badEntry RulCause.keyType)
  else none

/-- The owner that an image names may be written by the command's queue (R158). -/
def checkOwner (s : State) (c : Cmd) (b : List Byte) : Option Fail :=
  if !isManager c.src && imageOwner b != ownOf c.src then some { status := St.denied, cause := Cause.inst }
  else if (s.insOf (imageOwner b)).st == .free then some (badEntry Cause.inst)
  else none

/-- Room and quota of an insert (R362, R363), and what an existing entry of the key answers (R365; log entry 32). -/
def checkPlace (s : State) (c : Cmd) (b : List Byte) : Option Fail :=
  let o := imageOwner b
  let quotaFull := decide ((s.insOf o).grants.getD 2 0 ≤ flowUsed s o)
  match flowFind s (imageKey b) with
  | some (_, f) =>
    if !bit (pf c.params 0 0) 1 || (!mgrOwner o && f.owner != o) then some { status := St.exists_ }
    else if f.owner ≠ o ∧ quotaFull then some (fullEntry RulCause.quota)
    else none
  | none =>
    if quotaFull then some (fullEntry RulCause.quota)
    else if (flowRoom s (imageKey b)).isNone then some (fullEntry RulCause.bucketFull)
    else none

/-- The checks of one entry of FLOW_INSERT. -/
def checkFlow (c : Cmd) (s : State) (b : List Byte) : Option Fail :=
  if 16 ≤ byteAt b 0 || 2 ≤ byteAt b 1 || 4096 ≤ dn b 3 2 || !actionFmt ((b.drop 44).take 16) || !allZero (b.drop 60) then
    some (badEntry RulCause.entryFmt)
  else
    (checkType b).or ((checkOwner s c b).or
      ((checkAct s (imageOwner b) (Action.ofBytes ((b.drop 44).take 16))).or (checkPlace s c b)))

/-- Write a flow entry (R340, R355, R356, R365): a replaced entry keeps its counter. -/
def putFlow (s : State) (b : List Byte) : State :=
  let k := imageKey b
  let act := Action.ofBytes ((b.drop 44).take 16)
  match flowFind s k with
  | some (pos, f) => s.setFlow pos { f with owner := imageOwner b, action := act, learned := false }
  | none =>
    match flowRoom s k with
    | none => s
    | some pos => s.setFlow pos { ktype := k.1, key := k.2, owner := imageOwner b, action := act, learned := false,
                                  hit := false, idle := 0, frames := 0, bytes := 0, sframes := 0, sbytes := 0 }

/-- The image of a flow entry (Table 8.13). -/
def Flow.image (f : Flow) : List Byte :=
  leBytes 1 f.ktype ++ leBytes 1 (b2n f.learned) ++ leBytes 2 f.owner ++ leBytes 40 f.key ++ f.action.bytes ++ leBytes 4 0

/-- FLOW_INSERT (R340, R354, R356, R358, R362, R363, R365). -/
def bodyFlowInsert (c : Cmd) (s : State) : Body :=
    if c.data.length % 64 ≠ 0 ∨ c.data.isEmpty then .fail (badEntry RulCause.entryFmt)
    else
      let es := chunks 64 (c.data.length / 64) c.data
      if isNow c then nowBody (eachEntry (fun s _ b => checkFlow c s b) (fun s _ b => putFlow s b) s 0 es)
      else stageBody s true (fun s _ b => checkFlow c s b) (fun s _ b => putFlow s b) es

/-- FLOW_INSERT (opcode 0x0710). -/
def execFlowInsert (c : Cmd) (s : State) : Host.Outcome State Fault Refusal :=
  runCmd (Op.flowInsert c) c bodyFlowInsert s

/-- A staged flow entry lands over whatever the key then holds (R90). -/
def landFlowInsert (it : Item) (s : State) : State :=
  if (s.insOf (imageOwner it.data)).st == .free then s else putFlow s it.data

/-- The entry that an image's key names and the command may reach (log entry 32). -/
def flowOf (s : State) (c : Cmd) (b : List Byte) : Option (Nat × Flow) :=
  let b' := if isManager c.src then b else b.take 2 ++ leBytes 2 (ownOf c.src) ++ b.drop 4
  match flowFind s (imageKey b') with
  | some x => if isManager c.src || x.2.owner == ownOf c.src then some x else none
  | none => none

/-- The checks of one entry of FLOW_DELETE. -/
def checkDelete (c : Cmd) (s : State) (b : List Byte) : Option Fail :=
  let t := imageType b
  if t = 0 ∨ 4 < t then some (badEntry RulCause.keyType)
  else if !isManager c.src && (t == 1 || t == 4) then some (badEntry RulCause.keyType)
  else if (flowOf s c b).isNone then some { status := St.notFound }
  else none

/-- The entry that an image's key names goes. -/
def dropFlow (c : Cmd) (s : State) (b : List Byte) : State :=
  match flowOf s c b with | some x => s.delFlow x.1 | none => s

/-- FLOW_DELETE (R354, R358, R367). -/
def bodyFlowDelete (c : Cmd) (s : State) : Body :=
    if c.data.length % 64 ≠ 0 ∨ c.data.isEmpty then .fail (badEntry RulCause.entryFmt)
    else
      let es := chunks 64 (c.data.length / 64) c.data
      if isNow c then nowBody (eachEntry (fun s _ b => checkDelete c s b) (fun s _ b => dropFlow c s b) s 0 es)
      else stageBody s true (fun s _ b => checkDelete c s b) (fun s _ b => dropFlow c s b) es

/-- FLOW_DELETE (opcode 0x0711). -/
def execFlowDelete (c : Cmd) (s : State) : Host.Outcome State Fault Refusal :=
  runCmd (Op.flowDelete c) c bodyFlowDelete s

/-- A staged delete lands: the entry that the key then has goes (R362, R368). The deletes of a strike land before its
learns. -/
def landFlowDelete (it : Item) (s : State) : State :=
  let own := if isManager it.owner then it.data else it.data.take 2 ++ leBytes 2 it.inst ++ it.data.drop 4
  match flowFind s (imageKey own) with
  | some (pos, f) => if isManager it.owner || f.owner == it.inst then s.delFlow pos else s
  | none => s

/-- FLOW_LOOKUP: the counts, and the image with them at a host address where one is given. -/
def bodyFlowLookup (c : Cmd) (s : State) : Body :=
  let p := c.params
    if c.data.length ≠ 64 then .fail (badEntry RulCause.entryFmt)
    else match flowOf s c c.data with
      | none => .missing
      | some (_, f) =>
        let r := f.frames.toNat + f.bytes.toNat * 2 ^ 64
        if pf p 15 8 = 0 then .done s r
        else doneAt s c (pf p 15 8) (f.image ++ leBytes 8 f.frames.toNat ++ leBytes 8 f.bytes.toNat) r

/-- FLOW_LOOKUP (opcode 0x0713). -/
def execFlowLookup (c : Cmd) (s : State) : Host.Outcome State Fault Refusal :=
  runCmd Op.flowLookup c bodyFlowLookup s

/-- FLOW_FLUSH begins in the aging engine (R370). -/
def bodyFlowFlush (c : Cmd) (s : State) : Body :=
  let p := c.params
    if s.rul.flush.isSome then .fail { status := St.busy }
    else
      let f : Flush := { flags := pf p 0 0, bd := pf p 3 2, ttype := pf p 6 6, target := pf p 5 4 }
      .wait { s with rul := { s.rul with flush := some f }, cmd := { s.cmd with busyOps := s.cmd.busyOps ++ [(0x0714, c)] } }

/-- FLOW_FLUSH (opcode 0x0714). -/
def execFlowFlush (c : Cmd) (s : State) : Host.Outcome State Fault Refusal :=
  runCmd Op.flowFlush c bodyFlowFlush s

/-- An entry is one that a flush removes. -/
def Flush.takes (u : Flush) (f : Flow) : Bool :=
  (!bit u.flags 0 || (f.ktype == 1 && f.key % 65536 == u.bd)) &&
  (!bit u.flags 1 || (f.action.ttype == u.ttype && f.action.target == u.target)) && (!bit u.flags 2 || f.learned)

/-- The commands in progress in an engine end: their answers are written (R161, R165). -/
def endBusy (s : State) (engine : Nat) (status result : Nat) : State :=
  let mine := s.cmd.busyOps.filter (fun b => b.1 == engine)
  mine.foldl (fun s b => answer s b.2 status 0 { status := status } s.time.heat result)
    { s with cmd := { s.cmd with busyOps := s.cmd.busyOps.filter (fun b => b.1 != engine) } }

/-- FLUSH_DONE (R370, Table 8.16): the entries go, the command is answered; FAULT where package DRAM has become unavailable (R49). -/
def execFlushDone (s : State) : Host.Outcome State Fault Refusal :=
  match s.rul.flush with
  | none => .next s
  | some u =>
    if s.rul.dramDown then .next (endBusy { s with rul := { s.rul with flush := none } } 0x0714 St.fault 0)
    else
    let n := (s.rul.flows.filter (fun f => u.takes f.2)).length
    let s1 := { s with rul := { s.rul with flush := none, flows := s.rul.flows.filter (fun f => !u.takes f.2) } }
    .next (endBusy (s1.post 0x4005) 0x0714 St.done n)

/-- FLOW_AGED_READ (R360). -/
def bodyFlowAgedRead (c : Cmd) (s : State) : Body :=
  let p := c.params
  match s.rul.aged with
  | [] => .missing
  | n :: t => doneAt { s with rul := { s.rul with aged := t } } c (pf p 15 8) n t.length

/-- FLOW_AGED_READ (opcode 0x0715). -/
def execFlowAgedRead (c : Cmd) (s : State) : Host.Outcome State Fault Refusal :=
  runCmd Op.flowAgedRead c bodyFlowAgedRead s

/-- CAPTURE_READ (R350): the parse record and the frame. -/
def bodyCaptureRead (c : Cmd) (s : State) : Body :=
  let p := c.params
  match s.rul.capture with
  | [] => .missing
  | (r, b) :: t => doneAt { s with rul := { s.rul with capture := t } } c (pf p 15 8) (r ++ b) b.length

/-- CAPTURE_READ (opcode 0x0716). -/
def execCaptureRead (c : Cmd) (s : State) : Host.Outcome State Fault Refusal :=
  runCmd Op.captureRead c bodyCaptureRead s

/-- A source ID names an instance, a port or a tunnel profile (R329). -/
def sourceOk (i : Nat) : Bool :=
  decide (i < 4096) || (decide (0x1000 ≤ i) && decide (i < 0x1010)) || (decide (0x2000 ≤ i) && decide (i < 0x3000))

/-- SRC_CONFIG (Table 8.10, R361). -/
def bodySrcConfig (c : Cmd) (s : State) : Body :=
  let p := c.params
    if !sourceOk (pf p 3 2) then .bad 0 26
    else if pf p 5 4 = 0 ∨ 4095 < pf p 5 4 then .bad 0 28
    else if 2 < pf p 7 7 then .bad 0 31
    else if 8 < pf p 8 8 then .bad 0 32
    else .stage s [c.data] false 0

/-- SRC_CONFIG (opcode 0x0720). -/
def execSrcConfig (c : Cmd) (s : State) : Host.Outcome State Fault Refusal :=
  runCmd Op.srcConfig c bodySrcConfig s

/-- SRC_CONFIG lands. -/
def landSrcConfig (it : Item) (s : State) : State :=
  let p := it.params
  let i := pf p 3 2
  let x := s.srcCfg i
  let y := { x with bd := pf p 5 4, learn := bit (pf p 6 6) 0, inner := bit (pf p 6 6) 1, flowKey := pf p 7 7, rssBits := pf p 8 8 }
  { s with rul := { s.rul with srcs := mPut s.rul.srcs i y } }

/-- A flood member's four bytes keep Table 8.10: a port, a queue or a tunnel. -/
def memberOk (b : List Byte) : Bool :=
  let t := bits (dn b 1 0) 14 12
  !bit (dn b 1 0) 15 && (t == 1 && decide (dn b 1 0 % 4096 < 16) || t == 2 || t == 3)

/-- BD_CONFIG (Table 8.10, R345 to R347). -/
def bodyBdConfig (c : Cmd) (s : State) : Body :=
  let p := c.params
  let n := pf p 13 13
    if 4095 < pf p 3 2 then .bad 0 26
    else if 2 < pf p 4 4 then .bad 0 28
    else if pf p 12 12 ≠ 0 ∧ pf p 12 12 ≠ 2 then .bad 0 36
    else if 64 < n then .bad 0 37
    else
      if c.data.length ≠ 4 * n then .bad Cause.length 10
      else if !(chunks 4 n c.data).all memberOk then .fail (badEntry RulCause.entryFmt)
      else .stage s [c.data] false 0

/-- BD_CONFIG (opcode 0x0721). -/
def execBdConfig (c : Cmd) (s : State) : Host.Outcome State Fault Refusal :=
  runCmd Op.bdConfig c bodyBdConfig s

/-- BD_CONFIG lands. -/
def landBdConfig (it : Item) (s : State) : State :=
  let p := it.params
  let members := (chunks 4 (pf p 13 13) it.data).map (fun b =>
    { id := dn b 1 0 % 4096, ttype := bits (dn b 1 0) 14 12, queue := dn b 3 2 : Flood })
  let y : BdCfg := { unknown := pf p 4 4, age := bit (pf p 5 5) 0, notify := bit (pf p 5 5) 1, limit := pf p 9 6,
                     excQueue := pf p 11 10, excInst := pf p 12 12, members := members }
  { s with rul := { s.rul with bds := mPut s.rul.bds (pf p 3 2) y } }

/-- REWRITE_SET: the profile's reserved fields are 0 and a push names one of its two TPIDs (Table 8.11 ff.). -/
def rewriteOk (b : List Byte) : Bool :=
  decide (byteAt b 0 < 64) && decide (byteAt b 1 < 64) && allZero (b.drop 18) &&
  (bits (byteAt b 0) 3 2 != 1 || netAt b 16 2 == 0x8100 || netAt b 16 2 == 0x88A8)

/-- REWRITE_SET (Table 8.10). -/
def bodyRewriteSet (c : Cmd) (s : State) : Body :=
  let p := c.params
    if 4095 < pf p 3 2 then .bad 0 26
    else
      if c.data.length ≠ 32 ∨ !rewriteOk c.data then .fail (badEntry RulCause.entryFmt) else .stage s [c.data] false 0

/-- REWRITE_SET (opcode 0x0722). -/
def execRewriteSet (c : Cmd) (s : State) : Host.Outcome State Fault Refusal :=
  runCmd Op.rewriteSet c bodyRewriteSet s

/-- REWRITE_SET lands. -/
def landRewriteSet (it : Item) (s : State) : State :=
  { s with rul := { s.rul with rewrites := mPut s.rul.rewrites (pf it.params 3 2) it.data } }

/-- A tunnel profile keeps Table 8.12. -/
def tunnelOk (b : List Byte) : Bool :=
  byteAt b 0 % 4 != 0 && bits (byteAt b 0) 3 2 == 0 && bits (byteAt b 0) 7 6 == 0 && decide (byteAt b 2 < 128) &&
  byteAt b 3 == 0 && byteAt b 7 == 0 && decide (dn b 23 22 < 4096) && allZero (b.drop 58)

/-- TUNNEL_SET (Tables 8.10 and 8.12). -/
def bodyTunnelSet (c : Cmd) (s : State) : Body :=
  let p := c.params
    if 4095 < pf p 3 2 then .bad 0 26
    else
      if c.data.length ≠ 64 ∨ !tunnelOk c.data then .fail (badEntry RulCause.entryFmt) else .stage s [c.data] false 0

/-- TUNNEL_SET (opcode 0x0723). -/
def execTunnelSet (c : Cmd) (s : State) : Host.Outcome State Fault Refusal :=
  runCmd Op.tunnelSet c bodyTunnelSet s

/-- TUNNEL_SET lands. -/
def landTunnelSet (it : Item) (s : State) : State :=
  { s with rul := { s.rul with tunnels := mPut s.rul.tunnels (pf it.params 3 2) it.data } }

/-- MIRROR_SET (R349). -/
def bodyMirrorSet (c : Cmd) (s : State) : Body :=
  let p := c.params
  let cut := pf p 9 8
    if 63 < pf p 2 2 then .bad 0 26
    else if pf p 3 3 = 0 ∨ 3 < pf p 3 3 then .bad 0 27
    else if 4095 < pf p 5 4 ∨ (pf p 3 3 = 1 ∧ 15 < pf p 5 4) then .bad 0 28
    else if cut ≠ 0 ∧ (cut < 64 ∨ 16384 < cut) then .bad 0 32
    else if pf p 13 10 = 0 ∨ 65536 < pf p 13 10 then .bad 0 34
    else .stage s [c.data] false 0

/-- MIRROR_SET (opcode 0x0724). -/
def execMirrorSet (c : Cmd) (s : State) : Host.Outcome State Fault Refusal :=
  runCmd Op.mirrorSet c bodyMirrorSet s

/-- MIRROR_SET lands. -/
def landMirrorSet (it : Item) (s : State) : State :=
  let p := it.params
  let m : Mirror := { ttype := pf p 3 3, target := pf p 5 4, queue := pf p 7 6, trunc := pf p 9 8, ratio := pf p 13 10, seen := 0 }
  { s with rul := { s.rul with mirrors := mPut s.rul.mirrors (pf p 2 2) m } }

/-- PARSER_PORTS (Table 8.10). -/
def bodyParserPorts (c : Cmd) (s : State) : Body :=
  .stage s [c.data] false 0

/-- PARSER_PORTS (opcode 0x0725). -/
def execParserPorts (c : Cmd) (s : State) : Host.Outcome State Fault Refusal :=
  runCmd Op.parserPorts c bodyParserPorts s

/-- PARSER_PORTS lands. -/
def landParserPorts (it : Item) (s : State) : State :=
  { s with rul := { s.rul with vxlan := pf it.params 3 2, geneve := pf it.params 5 4, nvme := pf it.params 7 6 } }

/-- Positions of the flow table (Table 8.9). -/
def flowPositions : Nat := 16777216

/-- Positions that one heat's slice visits (R359). -/
def sliceSize (s : State) : Nat := ceilDiv flowPositions s.rul.period

/-- Post an aged notice (R360). -/
def postNotice (s : State) (f : Flow) : State :=
  if 4096 ≤ s.rul.aged.length then
    let told := bit (s.word Reg.rulStatus.addr) 4
    let s1 := (s.inc Ctr.rulAgedLost).raise Reg.rulStatus 4 0
    if told then s1 else s1.post 0x4004
  else ({ s with rul := { s.rul with aged := s.rul.aged ++ [f.image] } }).raise Reg.rulStatus 3 0

/-- The scan visits one entry (R359, R364); `hit` where a lookup hits it in that very cycle. -/
def visit (s : State) (pos : Nat) (f : Flow) (hit : Bool) : State :=
  if !f.action.age then s
  else if f.hit then s.setFlow pos { f with hit := hit, idle := 0 }
  else if f.idle + 1 < s.rul.limit then s.setFlow pos { f with hit := hit, idle := f.idle + 1 }
  else if hit then (s.setFlow pos { f with hit := true, idle := 0 }).inc Ctr.rulReprieve
  else
    let s1 := (s.delFlow pos).inc Ctr.rulAged
    if f.action.notify then postNotice s1 f else s1

/-- CU that the first `n` positions of the slices due cost (R359). -/
def agingCu (size n : Nat) : Nat := n / size * ceilDiv size 64 + ceilDiv (n % size) 64

/-- Positions of the slices due that the scan may have visited by now: none beyond those whose cycles the ledger has served (R77,
R775; log entry 80). Where no budget applies there is no aging work. -/
def agingPaid (s : State) : Nat :=
  let size := sliceSize s
  let due := s.rul.behind * size
  if !s.budget.full || s.rul.dramDown then s.rul.partDone
  else
    let left := ceilDiv s.budget.open_.aging 100
    if agingCu size due ≤ left then 0
    else
      let cu := agingCu size due - left
      let per := ceilDiv size 64
      min due (cu / per * size + min size (cu % per * 64))

/-- AGING_SLICE (R77, R359, R364): the scan goes on by up to `n` positions of the slices that are due; slice k of a scan
covers the positions from k times the slice size, and a scan has one slice per heat of the period, so that the last ones
may be empty. -/
def execAgingSlice (n : Nat) (hits : List Nat) (s : State) : Host.Outcome State Fault Refusal :=
  let size := sliceSize s
  let k := min n (agingPaid s - s.rul.partDone)
  let lo := s.rul.scanPos
  let total := size * s.rul.period
  let due (p : Nat) : Bool := decide (lo ≤ p) && decide (p < lo + k) || decide (p + total < lo + k)
  let s1 := (s.rul.flows.filter (fun f => due f.1)).foldl (fun s f => visit s f.1 f.2 (hits.contains f.1)) s
  let done := s.rul.partDone + k
  .next { s1 with
    rul := { s1.rul with
    scanPos := (lo + k) % total, behind := s.rul.behind - done / size, partDone := done % size } }

end Sys2Proof.Machine
end

