-- ==== Sys2Proof/Machine/Nvm.lean ====
section
/-!
DEFINITION. Meanings of opcode family 0x0E and of the events of the flash, the update session and the log
(spec/16_identity_nvm_log.md). The family is not open to tenant queues.
-/

namespace Sys2Proof.Machine

/-- FAULT with cause FLASH: no flash answers (R702). -/
def noFlash : Body := .fail { status := St.fault, cause := NvmCause.flash }

/-- An update opcode of another owner than the session's (R658). -/
def lockedOut (s : State) (c : Cmd) : Bool :=
  match s.nvm.session with | some x => x.owner != .command c.src | none => false

/-- NVM_INFO (Table 16.11). -/
def bodyNvmInfo (_c : Cmd) (s : State) : Body :=
  let h := s.nvm.govern
  (.done s
    (s.nvm.mib * 1048576 + h.active * 2 ^ 32 + b2n h.trial * 2 ^ 40 + h.count * 2 ^ 48 +
     (s.nvm.img s.nvm.inactive).mark * 2 ^ 56 + s.nvm.floor * 2 ^ 64 +
     (match s.nvm.running with | some r => r.2.2.1 | none => 0) * 2 ^ 80))

/-- NVM_INFO (opcode 0x0E01). -/
def execNvmInfo (c : Cmd) (s : State) : Host.Outcome State Fault Refusal :=
  runCmd Op.nvmInfo c bodyNvmInfo s

/-- NVM_CFG_WRITE (R660, R662): a journalled write of a record. -/
def bodyNvmCfgWrite (c : Cmd) (s : State) : Body :=
  let key := pf c.params 1 0
  if key = 0 ∨ (3 ≤ key ∧ key < 0x8000) then .bad NvmCause.key 24
  else if 4096 < c.data.length then .bad Cause.length 10
  else
    if s.nvm.mib = 0 then noFlash
    else
      let (s1, e) := flashWait s c
      .wait (flashAsk s1 (.record false key c.data false) (.command e))

/-- NVM_CFG_WRITE (opcode 0x0E02). -/
def execNvmCfgWrite (c : Cmd) (s : State) : Host.Outcome State Fault Refusal :=
  runCmd Op.nvmCfgWrite c bodyNvmCfgWrite s

/-- NVM_CFG_READ (R662). -/
def bodyNvmCfgRead (c : Cmd) (s : State) : Body :=
  let p := c.params
  ((
    match recValue s.nvm.cfg (pf p 1 0) with
    | none => .missing
    | some v => doneAt s c (pf p 15 8) v v.length))

/-- NVM_CFG_READ (opcode 0x0E03). -/
def execNvmCfgRead (c : Cmd) (s : State) : Host.Outcome State Fault Refusal :=
  runCmd Op.nvmCfgRead c bodyNvmCfgRead s

/-- The fields of a provisioning value keep their ranges, and its reserved bytes are 0 (R663; log entry 49). -/
def provOk (v : List Byte) : Bool :=
  decide (dn v 1 0 ≤ 4092) && decide (1 ≤ dn v 2 2) && decide (dn v 2 2 ≤ 64) && decide (dn v 7 7 < 128) && decide (dn v 8 8 < 128) &&
  decide (dn v 9 9 / 16 = 0) && decide (bits (dn v 9 9) 1 0 < 3) && decide (bits (dn v 9 9) 3 2 < 3) && decide (dn v 10 10 < 2) &&
  allZero (v.drop 11)

/-- NVM_PROV_WRITE (R663). -/
def bodyNvmProvWrite (c : Cmd) (s : State) : Body :=
  if c.data.length ≠ 16 then .bad Cause.length 10
  else
    if !provOk c.data then .bad 0 0xFF
    else if s.nvm.mib = 0 ∨ provSize < s.nvm.provUsed + nvmLen 16 then noFlash
    else
      let (s1, e) := flashWait s c
      .wait (flashAsk s1 (.record true 0x0100 c.data false) (.command e))

/-- NVM_PROV_WRITE (opcode 0x0E04). -/
def execNvmProvWrite (c : Cmd) (s : State) : Host.Outcome State Fault Refusal :=
  runCmd Op.nvmProvWrite c bodyNvmProvWrite s

-- Firmware update (R658).

/-- FW_BEGIN: the session opens and the inactive partition is erased. -/
def bodyFwBegin (c : Cmd) (s : State) : Body :=
    if s.nvm.mib = 0 then noFlash
    else if lockedOut s c then .lock NvmCause.session
    else
      let k := s.nvm.inactive
      let x : Session := { owner := .command c.src, img := k, nextOff := 0, stepAt := s.time.refNow }
      let (s1, e) := flashWait { s with nvm := { s.nvm.mark k 1 with session := some x } } c
      .wait (flashAsk s1 (.eraseImage k) (.command e))

/-- FW_BEGIN (opcode 0x0E10). -/
def execFwBegin (c : Cmd) (s : State) : Host.Outcome State Fault Refusal :=
  runCmd Op.fwBegin c bodyFwBegin s

/-- FW_WRITE: data goes to an offset at or beyond the end of the previous write. -/
def bodyFwWrite (c : Cmd) (s : State) : Body :=
  let off := pf c.params 3 0
  let n := c.data.length
    if s.nvm.mib = 0 then noFlash
    else match s.nvm.session with
      | none => .lock NvmCause.session
      | some x =>
        if x.owner ≠ .command c.src then .lock NvmCause.session
        else if n < 256 ∨ 4096 < n ∨ n % 256 ≠ 0 then .bad Cause.length 10
        else if off % 256 ≠ 0 ∨ off < x.nextOff ∨ 16777216 < off + n then .bad 0 24
        else
          let (s1, e) := flashWait (sessionStep s x.nextOff) c
          .wait (flashAsk s1 (.image x.img off c.data) (.command e))

/-- FW_WRITE (opcode 0x0E11). -/
def execFwWrite (c : Cmd) (s : State) : Host.Outcome State Fault Refusal :=
  runCmd Op.fwWrite c bodyFwWrite s

/-- FW_END (R654, R658): the image becomes VERIFIED or EMPTY, and the session closes. -/
def bodyFwEnd (c : Cmd) (s : State) : Body :=
    if s.nvm.mib = 0 then noFlash
    else match s.nvm.session with
      | none => .lock NvmCause.session
      | some x =>
        if x.owner ≠ .command c.src then .lock NvmCause.session
        else match (s.nvm.img x.img).check s.nvm.floor with
          | none =>
            .done (endSession { s with nvm := s.nvm.mark x.img 2 })
              ((s.nvm.img x.img).svn + (s.nvm.img x.img).version * 2 ^ 16)
          | some r =>
            .other (flashAsk (endSession s) (.voidImage x.img) .nobody)
              { status := St.badParam, cause := 0x20 + r, field := 0xFF }

/-- FW_END (opcode 0x0E12). -/
def execFwEnd (c : Cmd) (s : State) : Host.Outcome State Fault Refusal :=
  runCmd Op.fwEnd c bodyFwEnd s

/-- FW_ACTIVATE: the VERIFIED image becomes ACTIVE in trial from the next reset. -/
def bodyFwActivate (c : Cmd) (s : State) : Body :=
    let k := s.nvm.inactive
    if s.nvm.mib = 0 then noFlash
    else if lockedOut s c then .lock NvmCause.session
    else if (s.nvm.img k).mark ≠ 2 then .deny NvmCause.state
    else
      let (s1, e) := flashWait s c
      .wait (flashAsk s1 (.header (s.nvm.nextHdr k true 0) true) (.command e))

/-- FW_ACTIVATE (opcode 0x0E13). -/
def execFwActivate (c : Cmd) (s : State) : Host.Outcome State Fault Refusal :=
  runCmd Op.fwActivate c bodyFwActivate s

/-- FW_CONFIRM (R656, R684): TRIAL becomes 0. -/
def bodyFwConfirm (c : Cmd) (s : State) : Body :=
    let h := s.nvm.govern
    if s.nvm.mib = 0 then noFlash
    else if s.nvm.session.isSome then .lock NvmCause.session
    else if !h.trial then .done s 0
    else
      let (s1, e) := flashWait s c
      .wait (flashAsk s1 (.header (s.nvm.nextHdr h.active false h.count) false) (.command e))

/-- FW_CONFIRM (opcode 0x0E14). -/
def execFwConfirm (c : Cmd) (s : State) : Host.Outcome State Fault Refusal :=
  runCmd Op.fwConfirm c bodyFwConfirm s

/-- FW_ABORT: the session closes and the image is EMPTY. -/
def bodyFwAbort (c : Cmd) (s : State) : Body :=
    if s.nvm.mib = 0 then noFlash
    else match s.nvm.session with
      | none => .missing
      | some x => if x.owner ≠ .command c.src then .lock NvmCause.session else .done (endSession s) 0

/-- FW_ABORT (opcode 0x0E15). -/
def execFwAbort (c : Cmd) (s : State) : Host.Outcome State Fault Refusal :=
  runCmd Op.fwAbort c bodyFwAbort s

/-- SVN_COMMIT (R657, R684). -/
def bodySvnCommit (c : Cmd) (s : State) : Body :=
  let p := c.params
    let h := s.nvm.govern
    if s.nvm.session.isSome then .lock NvmCause.session
    else match s.nvm.running with
      | none => .deny NvmCause.state
      | some r =>
        let other := s.nvm.img (1 - r.1)
        if r.1 ≠ h.active ∨ h.trial then .deny NvmCause.state
        else if pf p 0 0 = 0 ∧ (other.check s.nvm.floor).isNone ∧ other.svn < r.2.2.1 then .deny NvmCause.svnOther
        else
          let f := max s.nvm.floor (min 64 r.2.2.1)
          .done ({ s with nvm := { s.nvm with floor := f } }.post 0xA015 []) f

/-- SVN_COMMIT (opcode 0x0E16). -/
def execSvnCommit (c : Cmd) (s : State) : Host.Outcome State Fault Refusal :=
  runCmd Op.svnCommit c bodySvnCommit s

-- The log (R664 to R673, R783).

/-- The active ring (R670, R672). -/
def activeRing (s : State) : List LogEntry := if s.log.fallback then s.log.fb else s.log.main

/-- The entries that LOG_READ copies from a SEQ on (R783). -/
def logFrom (s : State) (first : Word) (count : Nat) : List LogEntry :=
  if (first - s.log.seqNext).toNat < 2 ^ 31 then []
  else ((activeRing s).filter (fun e => decide ((e.seq - first).toNat < 2 ^ 31))).take count

/-- LOG_READ (R672, R783). -/
def bodyLogRead (c : Cmd) (s : State) : Body :=
  let p := c.params
  let first : Word := BitVec.ofNat 32 (pf p 3 0)
  let count := pf p 5 4
  ((
    if count = 0 ∨ 4096 < count then .bad NvmCause.range 28
    else
      let l := logFrom s first count
      let from_ := match l with | e :: _ => e.seq.toNat | [] => first.toNat
      let result := from_ + l.length * 2 ^ 32 + s.log.seqNext.toNat * 2 ^ 48
      match doneAt s c (pf p 15 8) (l.flatMap LogEntry.bytes) result with
      | .done s1 r => if s.log.fallback then .other s1 { status := St.degraded, result := r } else .done s1 r
      | b => b))

/-- LOG_READ (opcode 0x0E20). -/
def execLogRead (c : Cmd) (s : State) : Host.Outcome State Fault Refusal :=
  runCmd Op.logRead c bodyLogRead s

/-- LOG_FLUSH (R667): a flush, after which the command is answered. -/
def bodyLogFlush (c : Cmd) (s : State) : Body :=
    if s.nvm.mib = 0 then noFlash
    else
      let (s1, e) := flashWait s c
      .wait (flushBegin s1 (.command e)).1

/-- LOG_FLUSH (opcode 0x0E21). -/
def execLogFlush (c : Cmd) (s : State) : Host.Outcome State Fault Refusal :=
  runCmd Op.logFlush c bodyLogFlush s

/-- LOG_CLEAR_FAIL (R673, R685). -/
def bodyLogClearFail (_c : Cmd) (s : State) : Body :=
    if s.log.fallback then .deny NvmCause.state else .done { s with log := { s.log with memFail := false } } 0

/-- LOG_CLEAR_FAIL (opcode 0x0E22). -/
def execLogClearFail (c : Cmd) (s : State) : Host.Outcome State Fault Refusal :=
  runCmd Op.logClearFail c bodyLogClearFail s

/-- LOG_MARK (R783). -/
def bodyLogMark (c : Cmd) (s : State) : Body :=
  .done (s.post 0xA0F0 (leBytes 12 (pf c.params 11 0))) s.log.seqNext.toNat

/-- LOG_MARK (opcode 0x0E23). -/
def execLogMark (c : Cmd) (s : State) : Host.Outcome State Fault Refusal :=
  runCmd Op.logMark c bodyLogMark s

-- Identity (R649, R650).

/-- ID_CERT_READ (R649). -/
def bodyIdCertRead (c : Cmd) (s : State) : Body :=
  let p := c.params
  ((
    match s.nvm.cert with
    | none => .missing
    | some d => doneAt s c (pf p 15 8) d d.length))

/-- ID_CERT_READ (opcode 0x0E30). -/
def execIdCertRead (c : Cmd) (s : State) : Host.Outcome State Fault Refusal :=
  runCmd Op.idCertRead c bodyIdCertRead s

/-- The signed part of the attestation record (R650). -/
def attestBody (s : State) (nonce : List Byte) : List Byte :=
  nonce ++ leBytes 16 Config.serial.toNat ++ padTo 168 (match s.nvm.running with | some r => r.2.2.2 | none => []) ++
  leBytes 2 s.nvm.floor ++ leBytes 6 s.time.heat.toNat

/-- ID_ATTEST (R650). -/
def bodyIdAttest (c : Cmd) (s : State) : Body :=
  let p := c.params
  if c.data.length ≠ 32 then .bad Cause.length 10
  else ((
    let b := attestBody s c.data
    doneAt s c (pf p 15 8) (b ++ padTo 96 (Config.ecdsaSign b)) 0))

/-- ID_ATTEST (opcode 0x0E31). -/
def execIdAttest (c : Cmd) (s : State) : Host.Outcome State Fault Refusal :=
  runCmd Op.idAttest c bodyIdAttest s

-- Events.

/-- FLASH_OP_DONE (R660, R686): an erase, a page program, a read-back or a journal entry ends, well or not. -/
def execFlashOpDone (ok : Bool) (s : State) : Host.Outcome State Fault Refusal :=
  if s.boot.stopped then .next s else .next (flashStep s ok)

/-- SESSION_TIMEOUT (R658): 60 s without an update step. -/
def execSessionTimeout (s : State) : Host.Outcome State Fault Refusal :=
  match s.nvm.session with
  | none => .next s
  | some x => .next (s.atRef (x.stepAt + 60000000000) (fun s =>
      let s1 := (endSession s).post 0xA014 []
      match x.owner with
      | .port p => s1.setSb p { s1.sbPort p with fd := .idle }
      | .command _ => s1))

/-- AUTO_CONFIRM (R659): Odjan has been in RUN for 60 s. -/
def execAutoConfirm (s : State) : Host.Outcome State Fault Refusal :=
  let h := s.nvm.govern
  if !s.boot.autoConfirm || s.cmd.fw != .run || !h.trial || s.nvm.session.isSome || s.nvm.mib == 0 then .next s
  else .next (s.atRef (s.nvm.runFrom + 60000000000) (fun s =>
    flashAsk s (.header (s.nvm.nextHdr h.active false h.count) false) .nobody))

/-- LOG_FLUSH_WORK (R667, R681, R782): the due flush is made as log work of a heat with a full budget, at 2 CU an entry: it begins
once the work that the ledger holds of it has been served, and entries posted since are work added to it (log entry 80); in the
lifeboat at once and outside any budget. -/
def execLogFlushWork (s : State) : Host.Outcome State Fault Refusal :=
  if !s.log.flushDue || s.nvm.mib == 0 || s.boot.stopped || s.logWriting then .next s
  else match s.cmd.fw with
    | .lifeboat => .next (flushBegin s .nobody).1
    | .run =>
      if !s.budget.full || s.budget.open_.log != 0 || s.budget.logBooked == 0 then .next s
      else
        let (s1, n) := flushBegin s .nobody
        .next { s1 with budget := { s1.budget with
          logBooked := 0, todo := { s1.budget.todo with log := s1.budget.todo.log + 200 * (n - s.budget.logBooked) } } }
    | _ => .next s

end Sys2Proof.Machine
end

