-- ==== Sys2Proof/Machine/Firmware.lean ====
section
/-!
DEFINITION. Meanings of the events of the firmware: its restart and its coming to RUN, an open chain that is not closed, the
loss and return of SYS_REFCLK, and memory failures (R49, R94, R95, R179, R195, R196, R277, R577, R655, R656, R671, R697, R714,
R760, R775).
-/

namespace Sys2Proof.Machine

/-- CHAIN_OPEN (R179): a chain whose last member was taken 64 strikes ago, with no further command fully covered, is discarded with
ABORTED replies. A head that the device has not read is covered only as far as no slot of it is. -/
def execChainOpen (f : Nat) (s : State) : Host.Outcome State Fault Refusal :=
  let q := (s.func f).q
  let covered := match q.head with | some h => decide (h.slots ≤ State.backlog q) | none => false
  match q.chain with
  | none => .next s
  | some ch =>
    if ch.age < 64 || covered then .next s
    else
      let s1 := dropChain s f
      let s2 := ch.members.foldl (fun s m => s.issueReply f
        { tag := m.tag, status := St.aborted, detail := 16, heat := s.time.heat, phase := false, result := 0 } true) s1
      .next (s2.post 0x2061 [])

/-- What a restart leaves undecided (R196): the members of the open chains, the commands in work, and those that a long operation
holds. -/
def undecidedNow (s : State) : List Undecided :=
  s.funcs.flatMap (fun x => match x.2.q.chain with
    | some ch => ch.members.map (fun m => { src := .queue x.1, tag := m.tag, member := true })
    | none => []) ++
  (s.cmd.jobs.filter (fun j => j.fin != .chain)).map (fun j => { src := j.cmd.src, tag := j.cmd.tag, member := false }) ++
  s.cmd.busyOps.map (fun b => { src := b.2.src, tag := b.2.tag, member := false })

/-- The restart begins (R94, R195, R196, R656, R775): what is not sealed is discarded, and no budget is kept. -/
def restart (s : State) : State :=
  let lost := undecidedNow s
  let s1 := s.funcs.foldl (fun s x => dropChain s x.1) s
  let s2 := s1.cmd.jobs.foldl (fun s j => match j.fin with | .seal u _ _ _ => dropUnit s u | _ => s) s1
  let s3 := { s2 with
    cmd := { s2.cmd with fw := .restart, undecided := s2.cmd.undecided ++ lost, busyOps := [], jobs := [] },
    budget := { s2.budget with full := false, runHeat := false, cmdLeft := 0, carriedIn := 0, todo := Work.zero, carried := [],
                               guardUsed := 0, stall := none, stallFrom := none },
    rul := { s2.rul with behind := 0, partDone := 0 } }
  let s4 := ((((s3.inc Ctr.fwRestart).raise Reg.cmdStatus 0 0).fireDev 0).post 0x2060 [])
  let h := s4.nvm.govern
  if h.trial then flashAsk s4 (.header (s4.nvm.nextHdr h.active true (h.count + 1)) false) .nobody else s4

/-- FW_RESTART (R195): the management cores have made no progress for 10 ms. -/
def execFwRestart (s : State) : Host.Outcome State Fault Refusal :=
  if s.cmd.fw != .run || s.boot.stopped then .next s
  else
    match s.budget.stallFrom with
    | none => .next s
    | some t => .next (s.atRef (t + 10000000) restart)

/-- Replies to the commands that the restart left undecided: FAULT with WATCHDOG (R181, R196). -/
def watchdogReplies (s : State) : State :=
  s.cmd.undecided.foldl (fun s u =>
    let r : Reply := { tag := u.tag, status := St.fault, detail := 32, heat := s.time.heat, phase := false, result := 0 }
    match u.src with
    | .mbox => mboxDone (s.inc Ctr.err) (some r)
    | .queue f => s.issueReply f r u.member) { s with cmd := { s.cmd with undecided := [] } }

/-- One reference edge passes, where the strike leaves room for it (R665). -/
def nextEdge (s : State) : State := if 1 < s.toStrike then s.tick else s

/-- Instances 0 and 2 as R200 creates them. -/
def bootIns (s : State) (i : Nat) : State :=
  let x : Ins := { Ins.fresh with st := .attached, elastic := true, weight := 256 }
  s.setIns i { x with win := windowOf x }

/-- Deferred entries in the order of R665. -/
def deferRank (code : Nat) : Nat := if code = 0x9015 then 0 else if code = 0xA020 then 1 else if code = 0xA001 then 2 else 3

/-- Odjan records the deferred events, each on its own edge, then BOOTED (R665, R697), and a bad certificate (R649). -/
def recordBoot (s : State) : State :=
  let l := (List.range 4).flatMap (fun r => s.boot.deferred.filter (fun e => deferRank e.1 == r))
  let s1 := l.foldl (fun s e =>
    nextEdge (if e.1 = 0xA020 then (s.postF e.1 e.2 8).inc Ctr.nvmTorn else s.postF e.1 e.2 8)) { s with boot := { s.boot with deferred := [] } }
  let data : List Byte := match s1.nvm.running with | some r => leBytes 1 r.1 ++ leBytes 2 r.2.2.1 | none => []
  let s2 := s1.post 0xA010 data
  let good := match s2.nvm.cert with | some d => Config.certKey d == Config.identityKey | none => false
  if good then { s2 with nvm := { s2.nvm with certBad := false } }
  else nextEdge { s2 with nvm := { s2.nvm with certBad := true } } |>.post 0xA030 []

/-- The stored port chain (R277, Table 16.5): the packets of key 0x0002, as one chain with target heat H + 2. One that fails
takes the chain with it (R178). -/
def portChain (s : State) : State :=
  match recValue s.nvm.cfg 2 with
  | none => s
  | some v =>
    let unit := s.staging.nextUnit
    let target := s.time.heat + 2
    let s0 := { s with staging := { s.staging with nextUnit := unit + 1 } }
    let packets := chunks 64 (min 64 (v.length / 64)) v
    let run (a : Option State) (x : List Byte × Nat) : Option State :=
      match a with
      | none => none
      | some st =>
        let (code, c) := decodeHeader (.queue 4096) (leNat (x.1.take 64)) [] [] []
        let b := if (match opOf code c st with | some op => (checkResv op c).isSome | none => true) then .bad Cause.resvBits
          else if code = 0x0501 then bodyPortConfig c st else if code = 0x0502 then bodyPortBank c st
          else if code = 0x0506 then bodyPortRestore c st else .fail { status := St.badParam, cause := Cause.chainOp }
        match b with
        | .stage st1 es fl _ =>
          stageItems (charge st1 .mbox 50 5000) { code := code, base := 50, stages := true } c unit x.2 target es fl
        | _ => none
    match (packets.zip (List.range packets.length)).foldl run (some s0) with
    | none => s0
    | some s1 => settle (assured s1) s1 (decodeHeader (.queue 4096) 0 [] [] []).2 5000 0 (.seal unit target false 0)

/-- The budget of the heat in which Odjan reaches RUN (R775). -/
def runBudget (s : State) : State :=
  let left := if s.pastSeal then 0 else 4 * (s.sealNs - s.time.ns) / 100
  { s with budget := { s.budget with
    full := false, runHeat := true, used := 0, delivered := 0, cmdLeft := left, overrun := false, cause := 0,
    carriedIn := 0, todo := Work.zero, carried := [], guardUsed := 0, stall := none, stallFrom := none } }

/-- FW_RUN (R167, R196, R200, R665, R697, R775): Odjan reaches RUN after the boot, or after a restart. -/
def execFwRun (s : State) : Host.Outcome State Fault Refusal :=
  let first := s.cmd.fw == .boot && s.boot.stage == 8
  if s.boot.stopped || !(first || s.cmd.fw == .restart) then .next s
  else
    let s1 := runBudget { s with cmd := { s.cmd with fw := .run }, nvm := { s.nvm with runFrom := s.time.refNow } }
    if !first then .next (mboxUndefined (watchdogReplies s1))
    else
      let s2 := bootIns s1 0
      let s3 := if s2.enabledLinks.contains 1 then bootIns s2 2 else s2
      .next (mboxUndefined (portChain (recordBoot s3)))

-- The reference clock.

/-- An event of the reference clock is recorded; during the boot it waits for the log of the new boot, which stage FLASH begins
(R95, R695; log entry 53). -/
def refEvent (s : State) (code : Nat) (data : List Byte) : State :=
  if s.cmd.fw = .boot then { s with boot := { s.boot with deferred := s.boot.deferred ++ [(code, data)] } } else s.post code data

/-- REF_LOST (R95, R285, R760): the reference runs on the internal oscillator. -/
def execRefLost (s : State) : Host.Outcome State Fault Refusal :=
  if s.time.refHold then .next s
  else
    let s1 := { s with time := { s.time with refHold := true, refLostAt := s.time.refNow } }
    if s.boot.stopped then .next s1
    else
      let s2 := if bit (s1.fld Reg.stkIntEn) 5 then s1.fireDev 1 else s1
      .next (timeRefLost (lanesRefLost (reclass (refEvent s2 0x1002 []))))

/-- The device runs on SYS_REFCLK again (R95, R285). -/
def refBack (s : State) : State :=
  let ms := min ((s.time.refNow - s.time.refLostAt) / 1000000) 0xFFFFFFFF
  lanesRefBack (reclass (refEvent { s with time := { s.time with refHold := false } } 0x1003 (leBytes 4 ms)))

/-- REF_RETURNED (R95, R285, R760): the clock has been good for 10 ms, which lie behind the loss. -/
def execRefReturned (s : State) : Host.Outcome State Fault Refusal :=
  if !s.time.refHold then .next s
  else if s.boot.stopped then .next { s with time := { s.time with refHold := false } }
  else .next (s.atRef (s.time.refLostAt + 10000000) refBack)

-- Memory failures.

/-- DRAM_UNAVAILABLE (R49, R577): the data path stops; cause MEM is latched. -/
def execDramUnavailable (s : State) : Host.Outcome State Fault Refusal :=
  .next { s with rul := { s.rul with dramDown := true }, tri := { s.tri with mem := true } }

/-- MANAGEMENT_SRAM_ERROR (R577, R671, R714): an uncorrectable error in management SRAM; `ring` where it lies in the region of
the log ring, with the SEQs that cannot be read, and `romBank` where it is the boot ROM's bank. -/
def execManagementSramError (ring : Option (List Word)) (romBank : Bool) (s : State) : Host.Outcome State Fault Refusal :=
  if s.boot.stopped then .next s
  else
    let s1 := { s with tri := { s.tri with mem := true },
                       boot := { s.boot with romBankBad := s.boot.romBankBad || (romBank && s.cmd.fw == .lifeboat) } }
    .next (match ring with | some bad => logFails s1 bad | none => s1)

end Sys2Proof.Machine
end

