-- ==== Sys2Proof/Machine/HostLinks.lean ====
section
/-!
DEFINITION. The host links: errors of requests and completions, training, link reset, function-level reset, bus master
enable, power states and VF Enable (spec/03_host_link.md).
-/

namespace Sys2Proof.Machine

/-- A TLP that fails its ECRC check, where checking is enabled: discarded and reported (R148). -/
def ecrcFails (s : State) (f : Nat) : State := (aer s f Aer.ecrc).post 0x2033 []

/-- ECRC checking of a link is enabled. -/
def ecrcOn (s : State) (l : Nat) : Bool := (s.link l).ecrc

/-- MMIO_POISON (R148): the write is discarded and reported. -/
def execMmioPoison (f : Nat) (ecrc : Bool) (s : State) : Host.Outcome State Fault Refusal :=
  if !s.present f then .next s
  else if ecrc && ecrcOn s (s.linkOf f) then .next (ecrcFails s f)
  else .next ((aer s f Aer.poisonedTlp).post 0x2041 [])

/-- UNSUPPORTED_REQUEST (R148); reported against PF0 of the link, as are the next two (log entry 70). -/
def execUnsupportedRequest (l : LinkId) (ecrc : Bool) (s : State) : Host.Outcome State Fault Refusal :=
  if ecrc && ecrcOn s l then .next (ecrcFails s (2 * l))
  else .next (aer (s.emitLink l (.cplAbort l false)) (2 * l) Aer.unsupported)

/-- MALFORMED (R148): discarded and reported as fatal. -/
def execMalformed (l : LinkId) (s : State) : Host.Outcome State Fault Refusal :=
  .next ((aer s (2 * l) Aer.malformed).post 0x2034 [])

/-- UNEXPECTED_COMPLETION (R148): discarded and reported as advisory. -/
def execUnexpectedCompletion (l : LinkId) (ecrc : Bool) (s : State) : Host.Outcome State Fault Refusal :=
  if ecrc && ecrcOn s l then .next (ecrcFails s (2 * l)) else .next (aer s (2 * l) Aer.unexpected)

/-- A DMA read fails: its queue stops in ERROR, DMA_ERR is set and counted, the function's vector 0 fires, AER reports it
and the event is recorded (R148, R149, R197). -/
def dmaFails (s : State) (f : Nat) (k : Option Nat) (err event : Nat) : State :=
  let s1 := ((stopQueue s f k).flagFunc f 2).inc (Ctr.dmaErr f)
  ((aer s1 f err).post event []).fire f 0

/-- The event of a DMA read that fails (Table 3.10). -/
def readEvent : ReadFault → Nat
  | .unsupported => 0x2030
  | .abort => 0x2030
  | .timeout => 0x2031
  | .poisoned => 0x2032
  | .ecrc => 0x2033

/-- A queue is one that a DMA read may belong to: an enabled command queue that runs, or a running queue pair. -/
def queueLive (s : State) (f : Nat) : Option Nat → Bool
  | none => (s.func f).q.enable && (s.func f).q.st == .run
  | some k => decide (k < (s.insOf f).grants.getD 0 0) && (s.qp f k).st == .running

/-- A read is one that a doorbell has covered (R113, R119): of the command ring, that of the slot at the consumer index; of a
receive ring, that of its next descriptor; other data belongs to a covered command or a covered transmit descriptor. -/
def readCovered (s : State) (d : DmaRead) : Bool :=
  match d.got, d.qp with
  | .header _ _, none =>
    let q := (s.func d.func).q
    State.backlog q != 0 && d.addr == q.base + 64 * (q.consumer % 2 ^ q.logSlots)
  | .header _ _, some _ => false
  | .rx _, some k => (s.qp d.func k).rxProd != (s.qp d.func k).rxCons
  | .rx _, none => false
  | .data, none => State.backlog (s.func d.func).q != 0
  | .data, some k => (s.qp d.func k).txProd != (s.qp d.func k).txCons

/-- A receive descriptor keeps Table 5.17 (R246). -/
def rxDescOk (d : RxDesc) : Bool := decide (64 ≤ d.len) && decide (d.len ≤ 65536) && d.resv == 0

/-- A descriptor that breaks R245 or R246 stops the queue pair (R245). -/
def descInvalid (s : State) (f k : Nat) : State :=
  (((stopQueue s f (some k)).flagFunc f 0).fire f 0).post 0x2072 []

/-- What a DMA read brought is used: a command's header becomes known to the choice, a receive descriptor is checked. -/
def readGot (s : State) (f : Nat) (k : Option Nat) : DmaGot → State
  | .header slot ptrs => headerRead (finishJobs s) f slot ptrs
  | .rx x => match k with | some n => if rxDescOk x then s else descInvalid s f n | none => s
  | .data => s

/-- DMA_READ_COMPLETION (R113, R119, R148, R149, R156, R160, R222, R242, R246); an ECRC that is not checked fails nothing. -/
def execDmaReadCompletion (d : DmaRead) (s : State) : Host.Outcome State Fault Refusal :=
  if !s.present d.func || !s.canDma d.func || !queueLive s d.func d.qp || !readCovered s d then .next s
  else
    match access (seeTables s d.mem) d.func d.qp d.addr false with
    | (s1, none) => .next s1
    | (s1, some _) =>
      match d.fate with
      | some r =>
        if r = .ecrc ∧ !ecrcOn s1 (s1.linkOf d.func) then .next (readGot s1 d.func d.qp d.got)
        else .next (dmaFails s1 d.func d.qp (readAer r) (readEvent r))
      | none => .next (readGot s1 d.func d.qp d.got)

/-- DMA_TIMEOUT (R149): a timer that host software has disabled never expires (Table 3.1). -/
def execDmaTimeout (f : Nat) (k : Option Nat) (s : State) : Host.Outcome State Fault Refusal :=
  if !s.present f || !queueLive s f k || (s.func f).cplOff then .next s else .next (dmaFails s f k Aer.timeout 0x2031)

/-- ATS_INVALIDATE (R123, R124). -/
def execAtsInvalidate (f page count : Nat) (s : State) : Host.Outcome State Fault Refusal :=
  if !s.present f then .next s
  else
    let l := s.linkOf f
    let keep (e : Nat × Nat × Nat) : Bool := e.1 != f || decide (e.2.1 < page) || decide (page + count ≤ e.2.1)
    .next ((s.setLink l { s.link l with atc := (s.link l).atc.filter keep }).emit (.atsInvalidated f))

/-- LINK_UP (R99, R101, R150, R691): no earlier than 1 ms after the release of RST_N, while PERST is deasserted. -/
def execLinkUp (l : LinkId) (width speed : Nat) (flit : Bool) (s : State) : Host.Outcome State Fault Refusal :=
  let k := s.link l
  if !s.enabledLinks.contains l || k.trained || k.perst || s.boot.rstN || s.boot.railHold ||
     decide (s.time.refNow < 1000000) || !([1, 4, 8, 15].contains width) || speed == 0 || decide (6 < speed) ||
     (speed == 6 && !flit) then .next s
  else
    let s1 := (s.setLink l { k with trained := true, width := width, speed := speed, flit := flit }).post 0x2001 []
    .next (if width = 15 ∧ speed = 6 then s1 else s1.post 0x2003 [])

/-- Reply of a command whose queue or mailbox is taken away goes nowhere (R145, R184). -/
def orphan (s : State) (src : Src) : State :=
  let away (c : Cmd) : Cmd := if c.src == src then { c with src := .queue 4096 } else c
  { s with
    cmd := { s.cmd with
      busyOps := s.cmd.busyOps.map (fun b => (b.1, away b.2)), jobs := s.cmd.jobs.map (fun j => { j with cmd := away j.cmd }),
      undecided := s.cmd.undecided.filter (fun u => u.src != src) },
    tim := { s.tim with units := s.tim.units.map (fun u => if u.owner == src then { u with owner := .queue 4096 } else u) } }

/-- Clear what Table 3.9 clears of one function (R143, R145): queue pairs, doorbell positions, command queue, MSI-X table, PBA and
configuration space; of PF1 and VFs also the moderation table and the cached translations of the instance. -/
def clearFunc (s : State) (f : Nat) : State :=
  let x := s.func f
  let pf0 := State.isPf0 f
  let s1 := orphan (dropSealing (dropChain s f) (.queue f)) (.queue f)
  let s2 := s1.setFunc f { Func.fresh with
    qerr := x.qerr, dbErr := x.dbErr, dmaErr := x.dmaErr, inFlr := x.inFlr,
    vecs := if pf0 then x.vecs.map (fun v => (v.1, { v.2 with addr := 0, data := 0, mask := true, pending := false, counted := false }))
      else [] }
  let s2' := (s2.ins.qps.filter (fun p => p.1 / 65536 == f)).foldl (fun s p => s.freeSlots f (p.1 % 65536)) s2
  let s3 := { s2' with ins := { s2'.ins with qps := s2'.ins.qps.filter (fun p => p.1 / 65536 != f) } }
  let l := s.linkOf f
  finishStops (if pf0 then s3
    else
      let s4 := s3.setLink l { s3.link l with atc := (s3.link l).atc.filter (fun e => e.1 != f) }
      { s4 with ins := { s4.ins with tlb := s4.ins.tlb.filter (fun t => t.inst != f) } })

/-- The instance IDs of the VFs present on a link (Table 3.2, R146). -/
def vfIds (s : State) (l : Nat) : List Nat :=
  if (s.link l).vfEnable then
    (List.range (s.link l).numVfs).map (fun k => (if l = 0 then 4 else 4 + s.vfSplit) + k)
  else []

/-- The VFs of a link disappear: their instances become DETACHED (R146, Table 5.2), VF Enable becomes 0, and so does NumVFs (log
entry 71). -/
def removeVfs (s : State) (l : Nat) : State :=
  let s1 := (vfIds s l).foldl (fun s f =>
    let s' := clearFunc s f
    if (s'.insOf f).st == .attached then s'.modIns f (fun i => { i with st := .detached }) else s') s
  s1.setLink l { s1.link l with vfEnable := false, numVfs := 0 }

/-- The register mailbox is released by a reset of the owning link or of its PF0 (R184): a command taken goes on, its reply is
discarded; DATA byte 18 of the event is the link, 0 HA or 1 HB (log entry 72). -/
def mboxReset (s : State) (l : Nat) : State :=
  if s.cmd.mbox.owner = l + 1 then
    let s1 := releaseMbox (orphan s .mbox)
    ({ s1 with cmd := { s1.cmd with mbox := { s1.cmd.mbox with busy := false } } }).post 0x2062 [BitVec.ofNat 8 l]
  else s

/-- The link reset scope of Table 3.9: every function of the link, as by FLR. -/
def resetLinkFuncs (s : State) (l : Nat) : State :=
  mboxReset (clearFunc (clearFunc (removeVfs s l) (2 * l)) (2 * l + 1)) l

/-- Configuration space that a link keeps for its PF0 is cleared: ECRC checking and generation, Link Control (Table 3.9). -/
def clearLinkCfg (s : State) (l : Nat) : State :=
  s.setLink l { s.link l with ecrc := false, ecrcGen := false, aspm := false, inL1 := false }

/-- LINK_RESET (R143, R145, R146, R148, R150, R184, R761): PERST, Hot Reset, Data Link Down or Link Disable. -/
def execLinkReset (l : LinkId) (kind : LinkResetKind) (s : State) : Host.Outcome State Fault Refusal :=
  if !s.enabledLinks.contains l then .next s
  else
    let k := s.link l
    let s1 := if k.trained then (s.inc (Ctr.linkDown (2 * l))).post 0x2002 [] else s
    let s2 := if kind == .linkDown && k.trained then aer s1 (2 * l) Aer.surpriseDown else s1
    let s3 := resetLinkFuncs s2 l
    .next ((clearLinkCfg s3 l).setLink l { (clearLinkCfg s3 l).link l with
      trained := false, width := 0, speed := 0, flit := false, vfMse := false, pageSize := 1,
      perst := k.perst || kind == .perst })

/-- PERST_DEASSERT (R691): the link may train. -/
def execPerstDeassert (l : LinkId) (s : State) : Host.Outcome State Fault Refusal :=
  .next (s.setLink l { s.link l with perst := false })

/-- FLR (R139, R143 to R146, R184): fetching stops and the state of Table 3.9 goes. -/
def execFlr (f : Nat) (s : State) : Host.Outcome State Fault Refusal :=
  if !s.present f then .next s
  else
    let l := s.linkOf f
    let s1 := if f = 2 * l + 1 then
        let s' := removeVfs s l
        s'.setLink l { s'.link l with vfMse := false, pageSize := 1 }
      else s
    let s2 := clearFunc s1 f
    let s3 := if State.isPf0 f then clearLinkCfg (mboxReset s2 l) l else s2
    .next (s3.modFunc f (fun x => { x with inFlr := true }))

/-- FLR_COMPLETE (R144). -/
def execFlrComplete (f : Nat) (s : State) : Host.Outcome State Fault Refusal :=
  if (s.func f).inFlr then .next ((s.modFunc f (fun x => { x with inFlr := false })).post 0x2010 []) else .next s

/-- Queue pairs of a function whose next transmit may be in the course of being fetched: its descriptors are covered. -/
def fetching (s : State) (f : Nat) : List Nat :=
  ((s.ins.qps.filter (fun p => p.1 / 65536 == f && p.2.st == .running && p.2.txProd != p.2.txCons)).map (·.1 % 65536))

/-- BUS_MASTER_CLEAR (R140): no further request is issued; pending replies and vectors are held; a transmit that is being fetched is
cut off. -/
def execBusMasterClear (f : Nat) (s : State) : Host.Outcome State Fault Refusal :=
  if s.present f && (s.func f).bme then .next (s.modFunc f (fun x => { x with bme := false, cut := fetching s f })) else .next s

/-- BUS_MASTER_SET (R128, R140). -/
def execBusMasterSet (f : Nat) (s : State) : Host.Outcome State Fault Refusal :=
  if s.present f then .next (drainFunc (s.modFunc f (fun x => { x with bme := true, cut := [] })) f) else .next s

/-- D3HOT_ENTRY (R132). -/
def execD3hotEntry (f : Nat) (s : State) : Host.Outcome State Fault Refusal :=
  if s.present f then .next (s.modFunc f (fun x => { x with d3 := true })) else .next s

/-- D0_RETURN (R132): the function resumes where it stopped. -/
def execD0Return (f : Nat) (s : State) : Host.Outcome State Fault Refusal :=
  if s.present f then .next (drainFunc (s.modFunc f (fun x => { x with d3 := false })) f) else .next s

/-- TotalVFs of a link's PF1 (R103, R104). -/
def totalVfs (s : State) (l : Nat) : Nat := if l = 0 then s.vfSplit else 4092 - s.vfSplit

/-- VF_ENABLE_SET (R146, R202): each VF present is attached to the instance of its position; while VF Enable is 1 the
field keeps its NumVFs. -/
def execVfEnableSet (l : LinkId) (n : Nat) (s : State) : Host.Outcome State Fault Refusal :=
  if !s.present (2 * l + 1) || !(decide (l < 2)) || (s.link l).vfEnable || decide (totalVfs s l < n) then .next s
  else
    let s1 := s.setLink l { s.link l with vfEnable := true, numVfs := n }
    .next ((vfIds s1 l).foldl (fun s f =>
      if (s.insOf f).st == .detached then s.modIns f (fun i => { i with st := .attached }) else s) s1)

/-- VF_ENABLE_CLEAR (R146, R238). -/
def execVfEnableClear (l : LinkId) (s : State) : Host.Outcome State Fault Refusal :=
  if (s.link l).vfEnable then .next (removeVfs s l) else .next s

end Sys2Proof.Machine
end

