-- ==== Sys2Proof/Machine/Mac.lean ====
section
/-!
DEFINITION. Reception, MAC control, pause, preemption and gates: the events of spec/07_mac.md and opcode family 0x06.
-/

namespace Sys2Proof.Machine

/-- Causes of family 0x06 (Table 7.5). -/
def MacCause.gateLen : Nat := 0x10
def MacCause.gateEntry : Nat := 0x11
def MacCause.gateBase : Nat := 0x12
def MacCause.fcRange : Nat := 0x13

/-- A frame's start is one that the port takes (R327). -/
def smdBad (s : State) (p smd : Nat) : Bool := decide (1 < smd) || (smd == 1 && !(s.mac p).cfg.preEn)

/-- The port receives in CUT mode (R291, R425). -/
def cutMode (s : State) (p : Nat) : Bool := (s.mac p).cfg.cut && !(s.secy p).enable

/-- The packet that a frame received from the wire enters a pipeline as (R311, R329). -/
def wirePkt (s : State) (p : Nat) (bytes : List Byte) (len : Nat) (tail : Bool) (cip : List Byte) (ecc : List EccHit)
    (sat : Bool) : Pkt :=
  { id := s.tm.nextId, bytes := bytes, len := len, edits := [], src := srcPort p, ing := some p, tail := tail,
    stamp := some s.stamp, tx := none, cip := cip, sto := noSto, cls := 0, colour := 0, hash := 0, record := [],
    inner := false, copy := false, main := false, exc := 0, mir := none, hold := none, ecc := ecc, sat := sat,
    policed := 0, kept := none }

/-- The next reception takes a new number. -/
def nextId (s : State) : State := { s with tm := { s.tm with nextId := s.tm.nextId + 1 } }

/-- A frame passes to packet memory (Table 7.7). -/
def rxCount (s : State) (p len : Nat) : State := (s.inc (macCtr p 0x100)).add (macCtr p 0x108) len

/-- The counter under which STORE mode discards a frame (R290). -/
def rxDiscard (s : State) (x : RxFrame) : Option Nat :=
  let len := x.bytes.length + 4
  if len < 64 then some 0x120
  else if !x.fcsOk then some 0x128
  else if (s.mac x.port).cfg.maxFrame < len then some 0x130
  else if x.abort then some 0x138
  else none

/-- A received pause of a class (R296): quanta 0 ends it, others replace the time that is left. -/
def pauseClass (s : State) (p c q : Nat) : State :=
  let x := s.pc p c
  if x.recoverTo.isSome then s
  else if q = 0 then s.setPc p c { x with pausedTo := none, heldFrom := none }
  else
    let held := match x.pausedTo with | some t => decide (s.time.refNow < t) | none => false
    s.setPc p c { x with pausedTo := some (s.time.refNow + quantaNs s p q),
                         heldFrom := if held then x.heldFrom else some s.time.refNow }

/-- A valid PAUSE frame (R295, R296, R300). -/
def pauseFrame (s : State) (p q : Nat) : State :=
  if (s.mac p).cfg.fcMode ≠ 1 then s.inc (macCtr p 0x160)
  else
    let s1 := s.inc (macCtr p 0x200)
    if bit (s.mac p).cfg.honour 0 then pauseClass s1 p 0 (q % 65536) else s1

/-- A valid PFC frame (R295, R296, R300): the enabled classes with the quanta of each class. -/
def pfcFrame (s : State) (p mask : Nat) (quanta : List Nat) : State :=
  if (s.mac p).cfg.fcMode ≠ 2 then s.inc (macCtr p 0x160)
  else (bitList mask 8).foldl (fun s c =>
    let s1 := s.inc (macCtr p (0x200 + 8 * c))
    if bit (s.mac p).cfg.honour c then pauseClass s1 p c (quanta.getD c 0 % 65536) else s1) s

/-- A malformed control frame (R325). -/
def badControl (s : State) (p opcode : Nat) : State :=
  ((s.inc (macCtr p 0x158)).macRaise p 5).postB 0xB030 2 p 0xFFFF (opcode % 65536) true

/-- A frame of EtherType 0x8808, consumed by the MAC (R295, R325): opcode, class-enable vector and quanta as IEEE 802.3 places
them; the octet before the class enables, the quanta of classes that a PFC frame does not enable being its own, and the padding
are reserved. -/
def controlFrame (s : State) (p : Nat) (b : List Byte) : State :=
  let op := netAt b 14 2
  let mask := netAt b 17 1
  if netAt b 0 6 ≠ 0x0180C2000001 then badControl s p op
  else if op = 1 then (if allZero (b.drop 18) then pauseFrame s p (netAt b 16 2) else badControl s p op)
  else if op = 0x0101 then
    (if netAt b 16 1 = 0 ∧ mask ≠ 0 ∧ allZero (b.drop 34) then
      pfcFrame s p mask ((List.range 8).map (fun c => netAt b (18 + 2 * c) 2))
    else badControl s p op)
  else badControl s p op

/-- FRAME_RECEIVED (R42, R290, R291, R295, R311, R323, R327, R413, R424, R724): a whole frame is filtered and enters a pipeline, or is
consumed by the MAC. A frame that loss of link has cut is filtered on a port that is DOWN by then. -/
def execFrameReceived (x : RxFrame) (s0 : State) : Host.Outcome State Fault Refusal :=
  let p := x.port
  if 15 < p || s0.rul.dramDown || !(s0.portLive p || (x.abort && (s0.port p).st == .down)) then .next s0
  else
    let s := if x.smd = 1 ∨ 1 < x.frags then s0.add (macCtr p 0x180) x.frags else s0
    if smdBad s p x.smd then .next (s.inc (macCtr p 0x190))
    else if x.assyErr then .next (s.inc (macCtr p 0x188))
    else match rxDiscard s x with
      | some c => .next (s.inc (macCtr p c))
      | none =>
        if netAt x.bytes 12 2 = 0x8808 then .next (controlFrame s p x.bytes)
        else if cutMode s p && decide (256 < x.bytes.length + 4) then .next s
        else if x.overrun then .next (overrunDrop s (srcPort p))
        else if x.sat && (s.secy p).enable && netAt x.bytes 12 2 == 0x88E5 then
          .next (((overrunDrop s (srcPort p)).inc Ctr.satDrop).raise Reg.cipStatus 5 0)
        else match macsecRx (meetEcc s x.ecc) p x.ecc x.bytes with
          | (s1, none) => .next s1
          | (s1, some (b, cip)) =>
            .next (pipeline (nextId (rxCount s1 p (b.length + 4))) (wirePkt s1 p b (b.length + 4) true cip x.ecc x.sat))

/-- CUT_HANDOFF (R291, R292, R379): the head of a frame passes to a pipeline before its tail. -/
def execCutHandoff (h : CutHead) (s : State) : Host.Outcome State Fault Refusal :=
  let p := h.port
  if 15 < p || !s.portLive p || s.rul.dramDown || !cutMode s p || decide (h.len ≤ 256) || h.head.length != 256 ||
     (mGet? s.tm.cuts p).isSome || netAt h.head 12 2 == 0x8808 then .next s
  else if smdBad s p h.smd then .next (s.inc (macCtr p 0x190))
  else if h.overrun then .next (overrunDrop s (srcPort p))
  else
    let c : CutFrame :=
      { id := s.tm.nextId, head := h.head, len := h.len, maxFrame := (s.mac p).cfg.maxFrame,
        ports := [s.rul.vxlan, s.rul.geneve, s.rul.nvme], old := { bds := [], ctxs := [], conns := [], nss := [] } }
    let s1 := { s with tm := { s.tm with cuts := mPut s.tm.cuts p c } }
    .next (pipeline (nextId (rxCount s1 p h.len)) (wirePkt s1 p h.head h.len false noCip h.ecc false))

/-- FRAME_TAIL (R292 to R294, R301, R346, R379, R724): the frame is processed under the configuration that its first byte met (R30,
R47; log entry 89). -/
def execFrameTail (t : CutTail) (s0 : State) : Host.Outcome State Fault Refusal :=
  match mGet? s0.tm.cuts t.port with
  | none => .next s0
  | some c =>
    let s := if t.frags = 0 then s0 else s0.add (macCtr t.port 0x180) t.frags
    if s0.rul.dramDown then .next s0
    else if !t.fcsOk then .next (slagCut s t.port c.id 0x140)
    else if c.maxFrame < c.len then .next (slagCut s t.port c.id 0x148)
    else if t.abort then .next (slagCut s t.port c.id 0x150)
    else if (c.head ++ t.rest).length + 4 ≠ c.len then .next s0
    else .next (underOld s c (fun s => goodCut s t.port c.id (c.head ++ t.rest) t.ecc t.sat))

/-- CTRL_FRAME_PAUSE (R295, R296, R300). -/
def execCtrlFramePause (p q : Nat) (s : State) : Host.Outcome State Fault Refusal :=
  .next (if 15 < p || !s.portLive p then s else pauseFrame s p q)

/-- CTRL_FRAME_PFC (R295, R296, R300): the enabled classes with the quanta of each class. -/
def execCtrlFramePfc (p mask : Nat) (quanta : List Nat) (s : State) : Host.Outcome State Fault Refusal :=
  .next (if 15 < p || !s.portLive p then s else pfcFrame s p mask quanta)

/-- CTRL_MALFORMED (R325). -/
def execCtrlMalformed (p opcode : Nat) (s : State) : Host.Outcome State Fault Refusal :=
  .next (if 15 < p || !s.portLive p then s else badControl s p opcode)

/-- PAUSE_EXPIRY (R296, R317). -/
def execPauseExpiry (p c : Nat) (s : State) : Host.Outcome State Fault Refusal := .next (s.atTimer (expiryDue p c) (expiryAct p c))

/-- PFC_REPEAT (R298). -/
def execPfcRepeat (p c : Nat) (s : State) : Host.Outcome State Fault Refusal := .next (s.atTimer (repeatDue p c) (repeatAct p c))

/-- PAUSE_CAP_HIT (R299, R318). -/
def execPauseCapHit (p c : Nat) (s : State) : Host.Outcome State Fault Refusal := .next (s.atTimer (capDue p c) (capAct p c))

/-- PAUSE_WINDOW_END (R299): the next window of 1 ms begins. -/
def execPauseWindowEnd (p : Nat) (s : State) : Host.Outcome State Fault Refusal := .next (s.atTimer (windowDue p) (windowAct p))

/-- PAUSE_STORM (R300, R317). -/
def execPauseStorm (p c : Nat) (s : State) : Host.Outcome State Fault Refusal := .next (s.atTimer (stormDue p c) (stormAct p c))

/-- RECOVERY_END (R300). -/
def execRecoveryEnd (p c : Nat) (s : State) : Host.Outcome State Fault Refusal := .next (s.atTimer (recoverDue p c) (recoverAct p c))

/-- VERIFY_TIMER (R302, R326). -/
def execVerifyTimer (p : Nat) (s : State) : Host.Outcome State Fault Refusal := .next (s.atTimer (verifyDue p) (verifyAct p))

/-- RESPOND_MPACKET (R302). -/
def execRespondMpacket (p : Nat) (s : State) : Host.Outcome State Fault Refusal :=
  if (s.mac p).verify = 2 && s.portLive p then .next (s.modMac p (fun m => { m with verify := 3, preActive := true }))
  else .next s

/-- VERIFY_MPACKET (R302). -/
def execVerifyMpacket (p : Nat) (s : State) : Host.Outcome State Fault Refusal :=
  if (s.mac p).cfg.preEn && s.portLive p then .next (s.emit (.mpacket p true)) else .next s

/-- HOLD_ASSERT (R304, R322). -/
def execHoldAssert (p : Nat) (s : State) : Host.Outcome State Fault Refusal :=
  .next (s.atSlot (fun s => (holdAhead s p).map (·.1)) (fun s => holdNext s p))

/-- HOLD_RELEASE (R304). -/
def execHoldRelease (p : Nat) (s : State) : Host.Outcome State Fault Refusal :=
  .next (s.atSlot (fun s => (releaseAhead s p).map (·.1)) (fun s => releaseNext s p))

/-- GATE_ENTRY_BOUNDARY (R305, R309). -/
def execGateEntryBoundary (p : Nat) (s : State) : Host.Outcome State Fault Refusal :=
  .next (s.atSlot (fun s => (s.mac p).gate.map (fun g => (nextBoundary s (s.mac p) g).1)) (fun s => boundary s p))

/-- GATE_ACTIVE (R307, R308, R319). -/
def execGateActive (p : Nat) (s : State) : Host.Outcome State Fault Refusal :=
  .next (s.atSlot (fun s => (s.mac p).next.map (·.startRef)) (fun s => gateBegins s p))

-- Opcode family 0x06.

/-- MAC_SET_RX (R290, R291, R314). -/
def bodyMacSetRx (c : Cmd) (s : State) : Body :=
  let p := c.params
  if 15 < pf p 0 0 then .bad 0 24
  else if 1 < pf p 1 1 then .bad 0 25
  else if pf p 3 2 < 1518 ∨ 16384 < pf p 3 2 then .bad 0 26
  else .stage s [c.data] false 0

/-- MAC_SET_RX (opcode 0x0601). -/
def execMacSetRx (c : Cmd) (s : State) : Host.Outcome State Fault Refusal :=
  runCmd Op.macSetRx c bodyMacSetRx s

/-- MAC_SET_FC (R296 to R300, R314). -/
def bodyMacSetFc (c : Cmd) (s : State) : Body :=
  let p := c.params
  if 15 < pf p 0 0 then .bad 0 24
  else if 2 < pf p 1 1 then .bad 0 25
  else if pf p 5 4 = 0 then .bad MacCause.fcRange 28
  else if pf p 7 6 = 0 ∨ 1000 < pf p 7 6 then .bad MacCause.fcRange 30
  else if pf p 9 8 = 0 ∨ 10000 < pf p 9 8 then .bad MacCause.fcRange 32
  else .stage s [c.data] false 0

/-- MAC_SET_FC (opcode 0x0602). -/
def execMacSetFc (c : Cmd) (s : State) : Host.Outcome State Fault Refusal :=
  runCmd Op.macSetFc c bodyMacSetFc s

/-- MAC_SET_PREEMPT (R301, R302, R304, R316). -/
def bodyMacSetPreempt (c : Cmd) (s : State) : Body :=
  let p := c.params
  if 15 < pf p 0 0 then .bad 0 24
  else if 3 < pf p 2 2 then .bad 0 26
  else if pf p 4 4 = 0 ∨ 128 < pf p 4 4 then .bad MacCause.fcRange 28
  else if 10000 < pf p 7 6 then .bad MacCause.fcRange 30
  else if 10000 < pf p 9 8 then .bad MacCause.fcRange 32
  else .stage s [c.data] false 0

/-- MAC_SET_PREEMPT (opcode 0x0603). -/
def execMacSetPreempt (c : Cmd) (s : State) : Host.Outcome State Fault Refusal :=
  runCmd Op.macSetPreempt c bodyMacSetPreempt s

/-- The entries of a gate list as their bytes spell them (Table 7.4). -/
def gateEntries (n : Nat) (d : List Byte) : List GateEntry :=
  (List.range n).map (fun k => { interval := dn d (8 * k + 2) (8 * k), gates := dn d (8 * k + 4) (8 * k + 4),
                                 op := dn d (8 * k + 5) (8 * k + 5) % 4 })

/-- An entry keeps Table 7.4. -/
def gateEntryOk (d : List Byte) (k : Nat) : Bool :=
  decide (8 ≤ dn d (8 * k + 2) (8 * k)) && dn d (8 * k + 3) (8 * k + 3) == 0 &&
  decide (dn d (8 * k + 5) (8 * k + 5) < 3) && dn d (8 * k + 7) (8 * k + 6) == 0

/-- GATE_SET (R305 to R307, R328). -/
def bodyGateSet (c : Cmd) (s : State) : Body :=
  let p := c.params
  let n := pf p 3 2
  let locked := bit (pf p 1 1) 0
  if 15 < pf p 0 0 then .bad 0 24
  else if n = 0 ∨ 1024 < n then .bad 0 26
  else if c.data.length ≠ 8 * n then .bad MacCause.gateLen
  else if !locked && decide (s.time.heatLen ≤ pf p 12 10) then .bad MacCause.gateBase 34
  else if !locked && decide (pf p 15 13 < 64) then .bad MacCause.gateBase 37
  else if (List.range n).any (fun k => !gateEntryOk c.data k) then .bad MacCause.gateEntry
  else .stage s [c.data] false 0

/-- GATE_SET (opcode 0x0604). -/
def execGateSet (c : Cmd) (s : State) : Host.Outcome State Fault Refusal :=
  runCmd Op.gateSet c bodyGateSet s

/-- GATE_DISABLE (R320). -/
def bodyGateDisable (c : Cmd) (s : State) : Body :=
  if 15 < pf c.params 0 0 then .bad 0 24 else .stage s [c.data] false 0

/-- GATE_DISABLE (opcode 0x0605). -/
def execGateDisable (c : Cmd) (s : State) : Host.Outcome State Fault Refusal :=
  runCmd Op.gateDisable c bodyGateDisable s

/-- GATE_STATUS (Table 7.3). -/
def bodyGateStatus (c : Cmd) (s : State) : Body :=
  let n := pf c.params 0 0
  if 15 < n then .bad 0 24
  else
    let m := s.mac n
    let pend := b2n m.next.isSome * 4 + gatesNow m * 256
    (match m.gate with
      | none => .done s pend
      | some g => .done s (1 + 2 * b2n g.locked + pend + m.gateIdx * 2 ^ 16 + cycleOf s g % 2 ^ 24 * 2 ^ 32 +
          g.startNs % 2 ^ 24 * 2 ^ 56 + g.startHeat.toNat * 2 ^ 80))

/-- GATE_STATUS (opcode 0x0606). -/
def execGateStatus (c : Cmd) (s : State) : Host.Outcome State Fault Refusal :=
  runCmd Op.gateStatus c bodyGateStatus s

/-- Classes whose pause state has a property; in PAUSE mode all classes share one (R296, R299, R300). -/
def classMask (s : State) (p : Nat) (f : PauseClass → Bool) : Nat :=
  if (s.mac p).cfg.fcMode = 1 then (if f (s.pc p 0) then 255 else 0)
  else maskOf ((List.range 8).filter (fun c => f (s.pc p c)))

/-- FC_STATUS (Table 7.3). -/
def bodyFcStatus (c : Cmd) (s : State) : Body :=
  let n := pf c.params 0 0
  if 15 < n then .bad 0 24
  else (.done s (classMask s n (·.pausedTo.isSome) + classMask s n (·.recoverTo.isSome) * 2 ^ 8 +
    classMask s n (·.xoff) * 2 ^ 16 + classMask s n (·.capped) * 2 ^ 24 + (s.mac n).verify * 2 ^ 32 +
    b2n (s.mac n).preActive * 2 ^ 40))

/-- FC_STATUS (opcode 0x0607). -/
def execFcStatus (c : Cmd) (s : State) : Host.Outcome State Fault Refusal :=
  runCmd Op.fcStatus c bodyFcStatus s

/-- FC_WD_RELEASE (R300): RECOVERY of the named classes ends at once. -/
def bodyFcWdRelease (c : Cmd) (s : State) : Body :=
  let n := pf c.params 0 0
  if 15 < n then .bad 0 24
  else (.done ((bitList (pf c.params 1 1) 8).foldl (fun s k =>
    let i := pauseIdx s n k
    s.setPc n i { s.pc n i with recoverTo := none }) s) 0)

/-- FC_WD_RELEASE (opcode 0x0608). -/
def execFcWdRelease (c : Cmd) (s : State) : Host.Outcome State Fault Refusal :=
  runCmd Op.fcWdRelease c bodyFcWdRelease s

/-- MAC_SET_RX lands (R314). -/
def landMacSetRx (it : Item) (s : State) : State :=
  s.modMac (pf it.params 0 0) (fun m =>
    { m with cfg := { m.cfg with cut := pf it.params 1 1 == 1, maxFrame := pf it.params 3 2 } })

/-- MAC_SET_FC lands (R314): a change of mode ends own and received pause; else own XOFF ends where the new settings press for it no
longer (log entry 58). -/
def landMacSetFc (it : Item) (s : State) : State :=
  let q := it.params
  let p := pf q 0 0
  let changed := (s.mac p).cfg.fcMode != pf q 1 1
  let s1 := if changed then (List.range 8).foldl (fun s c => xonSend s p c) s else s
  let s2 := s1.modMac p (fun m => { m with
    cfg := { m.cfg with fcMode := pf q 1 1, honour := pf q 2 2, generate := pf q 3 3, quanta := pf q 5 4,
                        wdLimit := pf q 7 6, recovery := pf q 9 8 }
    pause := if changed then m.pause.map (fun (x : Nat × PauseClass) => (x.1, { x.2 with pausedTo := none, heldFrom := none }))
             else m.pause })
  let s3 := if changed then s2 else (List.range 8).foldl (fun s c => if presses s p c then s else xonSend s p c) s2
  if s3.portLive p then pressAgain s3 p else s3

/-- MAC_SET_PREEMPT lands (R314, R316). -/
def landMacSetPreempt (it : Item) (s : State) : State :=
  let q := it.params
  let p := pf q 0 0
  let s1 := s.modMac p (fun m => { m with
    cfg := { m.cfg with preEn := bit (pf q 1 1) 0, verifyDis := bit (pf q 1 1) 1, addFrag := pf q 2 2, express := pf q 3 3,
                        verifyTime := pf q 4 4, holdAdv := pf q 7 6, relAdv := pf q 9 8 } })
  if s1.portLive p then startVerify s1 p
  else s1.modMac p (fun m => { m with verify := if m.cfg.preEn && !m.cfg.verifyDis then 1 else 0, preActive := false })

/-- GATE_SET lands (R307, R320). -/
def landGateSet (it : Item) (s : State) : State :=
  let q := it.params
  let p := pf q 0 0
  let locked := bit (pf q 1 1) 0
  let g : GateList :=
    { locked := locked, entries := gateEntries (pf q 3 2) it.data, cycle := if locked then 0 else pf q 15 13,
      baseHeat := if locked then 0 else BitVec.ofNat 48 (pf q 9 4), baseNs := if locked then 0 else pf q 12 10,
      startHeat := 0, startNs := 0, startRef := 0 }
  let g' := placeGate s g
  if g'.startRef ≤ s.devNow then gateStart s p g'
  else s.modMac p (fun m => { m with next := some g', holdTo := if m.next.isSome then s.devNow else m.holdTo,
                                     relTo := if m.next.isSome then s.devNow else m.relTo })

/-- GATE_DISABLE lands (R320): every gate is open and both lists go. -/
def landGateDisable (it : Item) (s : State) : State :=
  let p := pf it.params 0 0
  resumeTop (s.modMac p (fun m => { m with gate := none, next := none, gateIdx := 0, hold := false })) p

end Sys2Proof.Machine
end

