-- ==== Sys2Proof/Machine/Registers.lean ====
section
/-!
DEFINITION. Register writes: what a memory write of 4 or 8 bytes to BAR0 or BAR2, or a write of a field of
configuration space, makes of the registers that have no row of their own (spec/00_scope.md R10 to R18;
spec/03_host_link.md R108; the field tables of every chapter; spec/20_register_index.md), and STK_SHARES (R87).
-/

namespace Sys2Proof.Machine

/-- REG_CLAMP and REG_REFUSED (R18): offset of the register within its BAR, value written. -/
def regEvent (s : State) (code off x : Nat) : State := s.post code (leBytes 4 off ++ leBytes 4 x)

/-- The nearest limit of a range (R18). -/
def nearest (mn mx v : Nat) : Nat := max mn (min mx v)

/-- The largest value a field takes: that of STK_IO_PULSE is also the heat length minus 8 ns (Table 2.11). -/
def fldMax (s : State) (f : Fld) : Nat := if f.addr = 0x010090 then min f.mx (s.time.heatLen - 8) else f.mx

/-- What is left of status bits after a write of `v`: the bits written as 1 are cleared, but for those of `now`, which an event has
set in the same cycle (R20). -/
def cleared (old v now : Nat) : Nat := old - (Nat.land old v - Nat.land (Nat.land old v) now)

/-- What a field holds after a write of `v` to it (Table 0.4, R18, R20): a W1C field loses the bits written as 1. -/
def fldAfter (s : State) (f : Fld) (old v now : Nat) : Nat :=
  if f.w1c then cleared old v now else nearest f.mn (fldMax s f) v

/-- One field of the register word at `off` takes its part of a word written at offset `bo` of a BAR; a value outside its range is
recorded (R18). -/
def fieldWrite (s : State) (off bo x : Nat) (f : Fld) : State :=
  let v := bits x f.hi f.lo
  let y := fldAfter s f (bits (s.word off) f.hi f.lo) v (bits (s.justSet off) f.hi f.lo)
  let s1 := s.setWord off (setBits (s.word off) f.hi f.lo y)
  if f.w1c || y == v then s1 else regEvent s1 0x2050 bo x

/-- A word that R631 refuses: HARD below SOFT + 10 mV, or WARN above THROTTLE, judged on the values that would be
stored. -/
def orderRefused (s : State) (off x : Nat) : Bool :=
  let y (f : Fld) : Nat := fldAfter s f 0 (bits x f.hi f.lo) 0
  (off == 0x02000C && decide (y Reg.droopHard < y Reg.droopSoft + 10)) ||
  (off == 0x021008 && decide (y Reg.thmThrottle < y Reg.thmWarn))

/-- What a changed register does at once: a changed LEAD (R636), a floor that lifts or lowers the rate (R614), an alert
that becomes enabled while it is asserted (R612). -/
def afterWrite (s0 : State) (off : Nat) (s : State) : State :=
  if off = 0x020024 then leadChanged s (s0.fld Reg.hintLead) (s.fld Reg.hintLead)
  else if off = 0x02001C ∧ s0.fld Reg.alertEn = 0 ∧ s.fld Reg.alertEn = 1 ∧ s.pwr.alert then alertBegin s false
  else if off = 0x020018 ∨ off = 0x02001C ∨ off = 0x020020 then withRatio s
  else s

/-- A word written to a register of `writable` at offset `bo` of a BAR: each of its fields acts as its access code states (R10);
offsets with no such field ignore the write (R13, R17). -/
def plainWrite (s : State) (off bo x : Nat) : State :=
  if orderRefused s off x then regEvent s 0x2051 bo x
  else afterWrite s off ((writable.filter (fun f => f.hits off)).foldl (fun s f => fieldWrite s off bo x f) s)

/-- STK_SHARES (R87): refused whole where the sum as written exceeds 90, else stored with clamping. -/
def sharesWrite (s : State) (x : Nat) : State :=
  if 90 < bits x 7 0 + bits x 15 8 + bits x 23 16 then regEvent s 0x2051 0x010028 x
  else [Reg.shAging, Reg.shLog, Reg.shTelem].foldl (fun s f => fieldWrite s 0x010028 0x010028 x f) s

/-- CMD_MBOX_CTRL (Table 4.15, R20, R181, R183): DONE is cleared by 1; GO of the owner's link submits while BUSY is 0, and a command
whose opcode is undefined is answered at once (R167). -/
def mboxCtrlWrite (s : State) (l x : Nat) : State :=
  let m := s.cmd.mbox
  let m1 := if bit x 2 && !bit (s.justSet 0x040204) 2 then { m with done := false } else m
  if bit x 0 && m.owner == l + 1 && !m.busy then mboxUndefined { s with cmd := { s.cmd with mbox := { m1 with busy := true } } }
  else { s with cmd := { s.cmd with mbox := m1 } }

/-- A word written to the queue block of a function, at an offset of its BAR and within the block: the ring registers take
a value only while ENABLE is 0 (Table 4.14, R186, R187). -/
def queueBlockWrite (s : State) (f off o x : Nat) : State :=
  let q := (s.func f).q
  let put (g : Queue → Queue) : State := s.modQueue f g
  let size (hi lo v : Nat) (g : Nat → State) : State :=
    let y := nearest lo hi v
    if y = v then g y else regEvent (g y) 0x2050 off x
  if o = 0x18 then (if bit x 0 then queueOn s f else queueOff s f)
  else if q.enable then s
  else if o = 0x00 then put (fun q => { q with base := setBits q.base 31 12 (bits x 31 12) })
  else if o = 0x04 then put (fun q => { q with base := setBits q.base 63 32 x })
  else if o = 0x08 then size 16 7 (bits x 4 0) (fun y => put (fun q => { q with logSlots := y }))
  else if o = 0x0C then put (fun q => { q with replyBase := setBits q.replyBase 31 12 (bits x 31 12) })
  else if o = 0x10 then put (fun q => { q with replyBase := setBits q.replyBase 63 32 x })
  else if o = 0x14 then size 16 4 (bits x 4 0) (fun y => put (fun q => { q with logReplies := y }))
  else s

/-- A word written to a PF0 BAR0 offset by a requester of a link (Tables 4.13 and 20.2 onwards); `bo` is the offset in the BAR that
the write came through. -/
def pf0Write (s : State) (l off bo x : Nat) : State :=
  if off < 0x040000 ∨ 0x042000 ≤ off then (if off = 0x010028 then sharesWrite s x else plainWrite s off bo x)
  else if off < 0x040040 then queueBlockWrite s 0 off (off - 0x040000) x
  else if off < 0x040080 then (if s.enabledLinks.contains 1 then queueBlockWrite s 2 off (off - 0x040040) x else s)
  else if off = 0x040200 then mboxOwnerWrite l (bits x 1 0) s
  else if off = 0x040204 then mboxCtrlWrite s l x
  else if Reg.mboxHdr.hits off || Reg.mboxData.hits off then
    (if s.cmd.mbox.owner = l + 1 then s.setWord off x else s)
  else plainWrite s off bo x

/-- The PF0 BAR0 offset that an offset of the lifeboat function reaches (Table 17.6); the queue blocks are not there. -/
def lifeboatOffset (off : Nat) : Option Nat :=
  if off < 0x2000 then some off
  else if 0x4080 ≤ off ∧ off < 0x6000 then some (off - 0x4000 + 0x040000)
  else if 0x8000 ≤ off ∧ off < 0xA000 then some (off - 0x8000 + 0x030000)
  else none

/-- A word written to the instance window of PF1 or a VF (Table 5.14). -/
def windowWrite (s : State) (f off x : Nat) : State :=
  if off < 0x40 then queueBlockWrite s f off off x
  else if off = 0x0104 then
    let now := s.justSet (State.winKey f)
    let keep (old : Bool) (b : Nat) : Bool := old && (!bit x b || bit now b)
    s.modIns f (fun i => { i with grantChg := keep i.grantChg 0, limitChg := keep i.limitChg 1, ituFault := keep i.ituFault 2 })
  else s

/-- Bytes of BAR2 of a function where its MSI-X table, its moderation table and its status page begin (Table 3.3). -/
def bar2Bases (f : Nat) : Nat × Nat × Nat := if f < 4 then (0x800000, 0xE00000, 0xF00000) else (0x8000, 0xE000, 0xF000)

/-- Doorbell slots of a function (Table 20.2). -/
def bellSlots (f : Nat) : Nat := if f < 4 then 65537 else 2048

/-- A word written to the doorbell area (Table 3.4): producer indices at 0x0 and 0x4 of a slot, the consumer index with ARM at 0x8;
the command slot has no field at 0x4. -/
def bellWrite (s : State) (f off x : Nat) : State :=
  let idx := BitVec.ofNat 16 x
  let k := off / 16
  if !bellsLive s f then s
  else match off % 16 with
    | 0 => producerBell f k false idx s
    | 4 => if k = 0 then s else producerBell f k true idx s
    | 8 => consumerBell f k idx (bit x 31) s
    | _ => s

/-- A word written to BAR2: doorbells, MSI-X table, moderation words, function status word (Tables 3.3, 3.4, 3.6 and 3.11, R20,
R109, R128). -/
def bar2Write (s : State) (f off x : Nat) : State :=
  let (tab, mod, page) := bar2Bases f
  let n := s.vecCount f
  let setV (v : Nat) (g : Vec → Vec) : State := s.modFunc f (fun y => { y with vecs := mMod y.vecs v Vec.fresh g })
  if off < 16 * bellSlots f then bellWrite s f off x
  else if tab ≤ off ∧ off < tab + 16 * n then
    let v := (off - tab) / 16
    match (off - tab) % 16 with
    | 0 => setV v (fun w => { w with addr := BitVec.ofNat 64 (setBits w.addr.toNat 31 2 (bits x 31 2)) })
    | 4 => setV v (fun w => { w with addr := BitVec.ofNat 64 (setBits w.addr.toNat 63 32 x) })
    | 8 => setV v (fun w => { w with data := BitVec.ofNat 32 x })
    | _ => setV v (fun w => { w with mask := bit x 0 })
  else if mod ≤ off ∧ off < mod + 8 * n then
    let v := (off - mod) / 8
    if (off - mod) % 8 = 0 then
      let h := bits x 23 0
      let s1 := setV v (fun w => { w with holdoff := min h 1000000 })
      if h ≤ 1000000 then s1 else regEvent s1 0x2050 off x
    else setV v (fun w => { w with maxPerHeat := bits x 7 0 })
  else if off = page + 4 then
    let now := s.justSet (fspKey f 4)
    let keep (old : Bool) (b : Nat) : Bool := old && (!bit x b || bit now b)
    s.modFunc f (fun y => { y with qerr := keep y.qerr 0, dbErr := keep y.dbErr 1, dmaErr := keep y.dmaErr 2 })
  else s

/-- Size of a BAR as a power of two (Table 3.3): BAR0 of PF0 64 MiB, BAR2 of the PFs 16 MiB, all others 64 KiB. -/
def barLog (f : Nat) (two : Bool) : Nat := if two then (if f < 4 then 24 else 16) else if State.isPf0 f then 26 else 16

/-- One half of a BAR is written (R105): the address bits below the size stay 0. -/
def barHalf (old log : Nat) (high : Bool) (v : Nat) : Nat :=
  if high then setBits old 63 32 v else setBits old 31 log (v / 2 ^ log)

/-- Codes of the Completion Timeout Value field that ranges A and B give, and 0 for the default (Table 3.1). -/
def cplCodes : List Nat := [0, 1, 2, 5, 6]

/-- System page sizes of 4 to 64 KiB, as the one bit that stands for each (R107). -/
def pageSizes : List Nat := [1, 2, 4, 8, 16]

/-- A write of a field of configuration space, by field number (the spec names the fields and gives no offsets; log entry
29): 0 Max Payload Size code, 1 Max Read Request Size code, 2 MSI-X Enable, 3 Function Mask, 4 ATS Enable, 5 AER
severities, 6 Memory Space Enable, 7 ECRC checking, 8 VF MSE of PF1, 9 ECRC generation, 10 ASPM L1 enable, 11 Completion Timeout
Value, 12 Completion Timeout Disable, 13 System Page Size of PF1 (R107), 14 and 15 BAR0, 16 and 17 BAR2 (R105), 18 NumVFs of PF1
while VF Enable is 0. A code that Table 3.1 does not list is ignored. -/
def cfgWrite (s : State) (f field v : Nat) : State :=
  let l := s.linkOf f
  let b := bit v 0
  if field = 0 then (if v ≤ 3 then s.modFunc f (fun y => { y with mps := 128 * 2 ^ v }) else s)
  else if field = 1 then (if v ≤ 5 then s.modFunc f (fun y => { y with mrrs := 128 * 2 ^ v }) else s)
  else if field = 2 then s.modFunc f (fun y => { y with msixEn := b })
  else if field = 3 then s.modFunc f (fun y => { y with funcMask := b })
  else if field = 4 then s.modFunc f (fun y => { y with ats := b })
  else if field = 5 then
    s.modFunc f (fun y => { y with aerSev := (List.range 11).foldl (fun m e => mPut m e (bit v e)) y.aerSev })
  else if field = 6 then s.modFunc f (fun y => { y with mse := b })
  else if field = 7 then s.setLink l { s.link l with ecrc := b }
  else if field = 8 ∧ f = 2 * l + 1 then s.setLink l { s.link l with vfMse := b }
  else if field = 9 then s.setLink l { s.link l with ecrcGen := b }
  else if field = 10 then s.setLink l { s.link l with aspm := b, inL1 := (s.link l).inL1 && b }
  else if field = 11 then (if cplCodes.contains v then s.modFunc f (fun y => { y with cplRange := v }) else s)
  else if field = 12 then s.modFunc f (fun y => { y with cplOff := b })
  else if field = 13 ∧ f = 2 * l + 1 then (if pageSizes.contains v then s.setLink l { s.link l with pageSize := v } else s)
  else if field = 14 ∨ field = 15 then s.modFunc f (fun y => { y with bar0 := barHalf y.bar0 (barLog f false) (field == 15) v })
  else if field = 16 ∨ field = 17 then s.modFunc f (fun y => { y with bar2 := barHalf y.bar2 (barLog f true) (field == 17) v })
  else if field = 18 ∧ f = 2 * l + 1 then
    (if (s.link l).vfEnable ∨ totalVfs s l < v then s else s.setLink l { s.link l with numVfs := v })
  else s

/-- The lifeboat function of a link (R701), which carries the number of its PF0. -/
def lifeboatFunc (s : State) (f : Nat) : Bool :=
  s.boot.presented && s.cmd.fw == .lifeboat && State.isPf0 f && s.enabledLinks.contains (s.linkOf f)

/-- A 32-bit word written to a BAR of a function. -/
def wordWrite (s : State) (w : RegWrite) (off x : Nat) : State :=
  if lifeboatFunc s w.func then
    match w.space, lifeboatOffset off with
    | .cfg, _ => cfgWrite s w.func off x
    | .bar0, some o => pf0Write s w.link o off x
    | _, _ => s
  else
    match w.space with
    | .bar0 => if State.isPf0 w.func then pf0Write s w.link off off x else windowWrite s w.func off x
    | .bar2 => bar2Write s w.func off x
    | .cfg => cfgWrite s w.func off x

/-- A memory write of accepted form: 8 bytes act on two registers, the lower first (R108). -/
def barWrite (w : RegWrite) (s : State) : State :=
  let s1 := wordWrite s w w.offset (w.value.toNat % 2 ^ 32)
  if w.size = 8 then wordWrite s1 w (w.offset + 4) (w.value.toNat / 2 ^ 32) else s1

/-- A memory write is of 4 or 8 bytes, naturally aligned (R108). -/
def RegWrite.sizeOk (w : RegWrite) : Bool := (w.size == 4 || w.size == 8) && w.offset % w.size == 0

/-- REGISTER_WRITE (R10, R13, R17, R18, R106, R108, R148): the checks in the order of Table 3.10; a write of unsupported
size or alignment is ignored, counted and recorded. -/
def execRegisterWrite (w : RegWrite) (s : State) : Host.Outcome State Fault Refusal :=
  if !(s.present w.func || lifeboatFunc s w.func) || s.linkOf w.func != w.link then .next s
  else if w.space == .cfg then .next (wordWrite s w w.offset (w.value.toNat % 2 ^ 32))
  else if !RegWrite.sizeOk w then
    .next (((aer s w.func Aer.completerAbort).inc (Ctr.mmioErr w.func)).post 0x2040 [])
  else .next (mmioWrite s w.func (barWrite w))

/-- STK_SHARES_WRITE (R87, R18). -/
def execStkSharesWrite (v : Word) (s : State) : Host.Outcome State Fault Refusal := .next (sharesWrite s v.toNat)

end Sys2Proof.Machine
end

