-- ==== Sys2Proof/Machine/Storage.lean ====
section
/-!
DEFINITION. Opcode family 0x0A and the landing of its items (spec/11_storage.md).
-/

namespace Sys2Proof.Machine

-- Causes of family 0x0A (Table 11.9).
namespace StoCause
def state : Nat := 0x10
def slots : Nat := 0x11
def nsQuota : Nat := 0x12
def xtsCtx : Nat := 0x13
def nsKey : Nat := 0x14
end StoCause

/-- Key of the connection that a command names. -/
def connOf (c : Cmd) : Nat := State.qpKey c.id (pf c.params 3 2)

/-- With NOW, a connection changes only while its queue pair is STOPPED or UNCONFIGURED (R480). -/
def connIdle (s : State) (c : Cmd) : Bool :=
  let q := (s.qp c.id (pf c.params 3 2)).st
  q == .stopped || q == .unconfigured

/-- The key of a connection's data (R459). -/
def connBinding (d : List Byte) : Binding := .tlsRx (byteAt d 0) (netAt d 1 16) (netAt d 17 16) (netAt d 33 2) (netAt d 35 2)

/-- Another connection or a TLS_RX context has the key (R459). -/
def connTaken (s : State) (key : Nat) (b : Binding) : Bool :=
  (s.bound b).isSome ||
  s.sto.conns.any (fun c => c.1 != key && b == .tlsRx c.2.ver c.2.srcIp c.2.dstIp c.2.sport c.2.dport)

/-- What is set and what staged commands of an opcode will set, by key: the larger of the two at each key but one (log entry
38). -/
def claimedBut (s : State) (live : SMap Nat) (op key : Nat) (keyOf size : Item → Nat) : Nat :=
  let all := (s.staging.items.filter (fun it => it.op == op)).foldl
    (fun m it => mPut m (keyOf it) (max (mGetD m (keyOf it) 0) (size it))) live
  (all.filter (fun x => x.1 != key)).foldl (fun a x => a + x.2) 0

/-- Slots of all connections but one, those of staged STO_CONN_SETs among them (R482). -/
def slotsBut (s : State) (key : Nat) : Nat :=
  claimedBut s (s.sto.conns.map (fun c => (c.1, 2 ^ c.2.logSlots))) 0x0A01 key
    (fun it => State.qpKey it.inst (pf it.params 3 2)) (fun it => 2 ^ pf it.params 6 6)

/-- A connection as STO_CONN_SET sets it (R459). -/
def setConnAs (s : State) (key : Nat) (p : Params) (d : List Byte) : State :=
  s.setConn key { Conn.fresh with
    ver := byteAt d 0, srcIp := netAt d 1 16, dstIp := netAt d 17 16, sport := netAt d 33 2, dport := netAt d 35 2,
    hdgst := bit (pf p 4 4) 0, ddgst := bit (pf p 4 4) 1, cpda := pf p 5 5, logSlots := pf p 6 6, ctrl := pf p 9 8,
    rxSeq := pf p 13 10 }

/-- STO_CONN_SET (R458, R459, R464, R480, R482). -/
def bodyStoConnSet (c : Cmd) (s : State) : Body :=
  let p := c.params
  let key := connOf c
  if (s.insOf c.id).grants.getD 0 0 ≤ pf p 3 2 then .missing
  else if retiring s c.id 0 (pf p 3 2) then .lock 0x13
  else if 31 < pf p 5 5 then .bad 0 29
  else if pf p 6 6 < 4 ∨ 10 < pf p 6 6 then .bad 0 30
  else
    if c.data.length ≠ 37 then .bad Cause.length 10
    else if byteAt c.data 0 ≠ 4 ∧ byteAt c.data 0 ≠ 6 then .bad 0
    else if isNow c && !connIdle s c then .deny StoCause.state
    else if connTaken s key (connBinding c.data) then .fail { status := St.exists_ }
    else if 2097152 < slotsBut s key + 2 ^ pf p 6 6 then .full StoCause.slots
    else if isNow c then .done (setConnAs s key p c.data) 0
    else .stage s [c.data] false 0

/-- STO_CONN_SET (opcode 0x0A01). -/
def execStoConnSet (c : Cmd) (s : State) : Host.Outcome State Fault Refusal :=
  runCmd (Op.stoConnSet c) c bodyStoConnSet s

/-- A staged connection lands (R484). -/
def landStoConnSet (it : Item) (s : State) : State :=
  let n := pf it.params 3 2
  let key := State.qpKey it.inst n
  if (s.insOf it.inst).grants.getD 0 0 ≤ n || connTaken s key (connBinding it.data) then s
  else setConnAs s key it.params it.data

/-- A connection goes with its slots (R466, R484). -/
def dropConn (s : State) (key : Nat) : State := { s with sto := { s.sto with conns := mDel s.sto.conns key } }

/-- STO_CONN_CLEAR (R480). -/
def bodyStoConnClear (c : Cmd) (s : State) : Body :=
    if (s.conn? (connOf c)).isNone then .missing
    else if isNow c && !connIdle s c then .deny StoCause.state
    else if isNow c then .done (dropConn s (connOf c)) 0
    else .stage s [c.data] false 0

/-- STO_CONN_CLEAR (opcode 0x0A02). -/
def execStoConnClear (c : Cmd) (s : State) : Host.Outcome State Fault Refusal :=
  runCmd (Op.stoConnClear c) c bodyStoConnClear s

/-- A staged clear lands. -/
def landStoConnClear (it : Item) (s : State) : State := dropConn s (State.qpKey it.inst (pf it.params 3 2))

/-- What STO_CONN_QUERY returns: state, slots in use, expected sequence, PI errors, data digest errors. -/
def Conn.view (c : Conn) : List Nat :=
  [match c.st with | .ready => 1 | .halted => 2 | .resync => 3 | .fault => 4, c.slots.length, c.rxSeq % 2 ^ 32,
   c.piErrs % 2 ^ 32, c.ddErrs % 2 ^ 32]

/-- STO_CONN_QUERY (Table 11.8): one byte does not hold more than 255 slots in use (log entry 38). -/
def bodyStoConnQuery (c : Cmd) (s : State) : Body :=
  let p := c.params
    if 1 < pf p 4 4 then .bad 0 28
    else
      match s.conn? (connOf c) with
      | none => .missing
      | some x =>
        let v := if pf p 4 4 = 0 then x.view else x.snap
        let n := v.getD 1 0
        let (r, s1) := if n < 256 then (n, s) else s.draw
        .done s1 (v.getD 0 0 + r % 256 * 2 ^ 8 + v.getD 2 0 * 2 ^ 16 + v.getD 3 0 * 2 ^ 48 + v.getD 4 0 * 2 ^ 80)

/-- STO_CONN_QUERY (opcode 0x0A03). -/
def execStoConnQuery (c : Cmd) (s : State) : Host.Outcome State Fault Refusal :=
  runCmd Op.stoConnQuery c bodyStoConnQuery s

/-- STO_RESYNC (R479, R487). -/
def bodyStoResync (c : Cmd) (s : State) : Body :=
  let p := c.params
  match s.conn? (connOf c) with
  | none => .missing
  | some x =>
    if x.st != .resync then .deny StoCause.state
    else .done (s.setConn (connOf c) { x with resume := some (pf p 7 4) }) 0

/-- STO_RESYNC (opcode 0x0A04). -/
def execStoResync (c : Cmd) (s : State) : Host.Outcome State Fault Refusal :=
  runCmd Op.stoResync c bodyStoResync s

/-- Key of a namespace entry. -/
def nsKey (i n : Nat) : Nat := i * 65536 + n

/-- The number of namespace entries that name an XTS context changes; with none left it is unbound (R414, R462). -/
def nameXts (s : State) (i : Nat) (x : Option Nat) (more : Bool) : State :=
  match x with
  | none => s
  | some n =>
    let k := ctxKey i n
    let c := s.ctx k
    let now := match c.binding with | some (.xts m) => m | _ => 0
    let m := if more then now + 1 else now - 1
    if c.st == CtxState.unset then s else s.setCtx k { c with binding := if m = 0 then none else some (.xts m) }

/-- A namespace entry is put or removed; the XTS contexts it named and names keep count. -/
def setNs (s : State) (i n : Nat) (x : Option Ns) : State :=
  let k := nsKey i n
  let s1 := nameXts s i ((mGet? s.sto.nss k).bind (·.xts)) false
  match x with
  | none => { s1 with sto := { s1.sto with nss := mDel s1.sto.nss k } }
  | some y =>
    let s2 := nameXts s1 i y.xts true
    { s2 with sto := { s2.sto with nss := mPut s2.sto.nss k y } }

/-- The entry that parameters spell (Table 11.8). -/
def nsOf (p : Params) : Ns :=
  { ctrl := pf p 5 4, nsid := pf p 9 6, lba := if pf p 10 10 = 12 then 4096 else 512, pi := pf p 11 11, piType := pf p 12 12,
    txAct := pf p 13 13, rxAct := pf p 14 14, appTag := pf p 16 15, appMask := pf p 18 17,
    xts := if bit (pf p 19 19) 0 then some (pf p 22 20) else none }

/-- The namespace quota of an owner. -/
def nsQuota (s : State) (i : Nat) : Nat := mGetD s.sto.quotas i 0

/-- An XTS context may be named by an owner's entry (R462). -/
def xtsOk (s : State) (i : Nat) : Option Nat → Bool
  | none => true
  | some x => decide (x < (s.insOf i).grants.getD 3 0) && (s.ctx (ctxKey i x)).kind == 7

/-- Another entry of an owner has the lookup key (R462). -/
def nsTaken (s : State) (i n : Nat) (x : Ns) : Bool :=
  s.sto.nss.any (fun e => e.1 / 65536 == i && e.1 != nsKey i n && e.2.ctrl == x.ctrl && e.2.nsid == x.nsid)

/-- STO_NS_SET (R462, R463, R480, Table 11.9). -/
def bodyStoNsSet (c : Cmd) (s : State) : Body :=
  let p := c.params
  let n := pf p 3 2
  let x := nsOf p
  if nsQuota s c.id ≤ n then .full StoCause.nsQuota
  else if bit (pf p 0 0) 1 then
    (if (mGet? s.sto.nss (nsKey c.id n)).isNone then .bad 0 26
     else if isNow c then .done (setNs s c.id n none) 0 else .stage s [c.data] false 0)
  else if pf p 10 10 ≠ 9 ∧ pf p 10 10 ≠ 12 then .bad 0 34
  else if 2 < x.pi then .bad 0 35
  else if x.pi ≠ 0 ∧ (x.piType = 0 ∨ 3 < x.piType) then .bad 0 36
  else if 2 < x.txAct then .bad 0 37
  else if 1 < x.rxAct then .bad 0 38
  else
    if !xtsOk s c.id x.xts then .bad StoCause.xtsCtx 44
    else if (match x.xts with | some k => retiring s c.id 3 k | none => false) then .lock 0x13
    else if nsTaken s c.id n x then
      .fail { status := St.exists_, cause := StoCause.nsKey }
    else if isNow c then .done (setNs s c.id n (some x)) 0
    else .stage s [c.data] false 0

/-- STO_NS_SET (opcode 0x0A10). -/
def execStoNsSet (c : Cmd) (s : State) : Host.Outcome State Fault Refusal :=
  runCmd (Op.stoNsSet c) c bodyStoNsSet s

/-- A staged namespace entry lands (R483); one beyond the quota, or whose lookup key another entry has by now, is discarded (log
entry 38). -/
def landStoNsSet (it : Item) (s : State) : State :=
  let n := pf it.params 3 2
  if nsQuota s it.inst ≤ n || (!bit (pf it.params 0 0) 1 && nsTaken s it.inst n (nsOf it.params)) then s
  else setNs s it.inst n (if bit (pf it.params 0 0) 1 then none else some (nsOf it.params))

/-- STO_NS_QUOTA (R462). -/
def bodyStoNsQuota (c : Cmd) (s : State) : Body :=
  let n := pf c.params 3 0
  let others := claimedBut s s.sto.quotas 0x0A11 c.id (·.inst) (fun it => pf it.params 3 0)
  (if 65536 < others + n then .full StoCause.nsQuota else .stage s [c.data] false 0)

/-- STO_NS_QUOTA (opcode 0x0A11). -/
def execStoNsQuota (c : Cmd) (s : State) : Host.Outcome State Fault Refusal :=
  runCmd Op.stoNsQuota c bodyStoNsQuota s

/-- A namespace quota lands; entries beyond it go (log entry 38). -/
def landStoNsQuota (it : Item) (s : State) : State :=
  let n := pf it.params 3 0
  let gone := s.sto.nss.filter (fun e => e.1 / 65536 == it.inst && decide (n ≤ e.1 % 65536))
  gone.foldl (fun s e => setNs s it.inst (e.1 % 65536) none)
    { s with sto := { s.sto with quotas := if n = 0 then mDel s.sto.quotas it.inst else mPut s.sto.quotas it.inst n } }

/-- STO_NS_QUERY (Table 11.8). -/
def bodyStoNsQuery (c : Cmd) (s : State) : Body :=
  let p := c.params
  match mGet? s.sto.nss (nsKey c.id (pf p 3 2)) with
  | none => .missing
  | some n => .done s (n.nsid % 2 ^ 32 + n.ctrl % 2 ^ 16 * 2 ^ 32 + n.pi * 2 ^ 48 + n.piType * 2 ^ 56 +
      n.xts.getD 0xFFFFFF % 2 ^ 24 * 2 ^ 64)

/-- STO_NS_QUERY (opcode 0x0A12). -/
def execStoNsQuery (c : Cmd) (s : State) : Host.Outcome State Fault Refusal :=
  runCmd Op.stoNsQuery c bodyStoNsQuery s

end Sys2Proof.Machine
end

