-- ==== Sys2Proof/Machine/SidebandOps.lean ====
section
/-!
DEFINITION. The shared operations of the SMBus sideband: ports, counters, sending, responses, sensors
(spec/16_identity_nvm_log.md, R674 to R678, R687; R731, R732). Numbers of commands and completion codes are those of
DSP0236, DSP0240, DSP0248 and DSP0267 (log entry 47).
-/

namespace Sys2Proof.Machine

/-- Counter `k` of port `p` (Table 16.13): 0 RX_MSG, 1 TX_MSG, 2 PEC_ERR, 3 ARB_LOST, 4 TX_FAIL, 5 TIMEOUT, 6 BAD_PKT. -/
def sbCtr (p k : Nat) : Nat := 0x001008 + 0x40 * p + 8 * k

/-- A status bit of a port becomes 1; SB_INT_EN holds the enables of both ports (R679, Table 16.13). -/
def sbRaise (s : State) (p b : Nat) : State :=
  let a := 0x001004 + 0x40 * p
  let s0 := s.mark a (2 ^ b)
  if bit (s.word a) b then s0
  else
    let s' := s0.setWord a (setBits (s.word a) b b 1)
    if bit (s.fld Reg.sbIntEn) (4 * p + b) then s'.fireDev 0 else s'

/-- An event of the sideband is recorded while the log engine runs (R676). -/
def sbPost (s : State) (f : State → State) : State := if s.boot.stopped then s else f s

/-- The sideband of a port serves: VDD_AUX has been up for 10 ms (R689). -/
def sbLive (s : State) (p : Nat) : Bool := s.boot.standby && decide (p < 2)

/-- What a port has to send is sent, in order, unless it waits out a back-off (R674, R677; log entry 51). -/
def sbDrain (s : State) (p : Nat) : State :=
  let x := s.sbPort p
  if x.backoff then s
  else
    let s1 := x.tx.foldl (fun s m => (s.emit (.mctp p m)).inc (sbCtr p 1)) s
    if x.tx.isEmpty then s else s1.setSb p { x with tx := [], retries := 0 }

/-- The first message of a port is discarded (R677). -/
def sbTxFail (s : State) (p : Nat) : State :=
  let x := s.sbPort p
  let s1 := (s.setSb p { x with tx := x.tx.tail, retries := 0, backoff := false }).inc (sbCtr p 4)
  sbPost (sbRaise s1 p 1) (fun s => s.post 0xA040 [])

/-- A whole message has been received on a port: what was to be sent before has been, and the message is answered. -/
def sbReceive (s : State) (p : Nat) (f : State → State) : State :=
  if sbLive s p then f ((sbDrain s p).inc (sbCtr p 0)) else s

/-- A response to the requester. -/
def sbAnswer (s : State) (p kind cmd cc : Nat) (data : List Byte) : State :=
  s.sbSend p { peer := 0, kind := kind, cmd := cmd, request := false, cc := cc, data := data }

-- Completion codes.
namespace Cc
def ok : Nat := 0
def invalidData : Nat := 2
def notReady : Nat := 4
def unsupported : Nat := 5
def invalidType : Nat := 0x20
def versionUnsupported : Nat := 0x80
def sensor : Nat := 0x80
def notInUpdate : Nat := 0x80
def record : Nat := 0x82
def alreadyInUpdate : Nat := 0x81
def badTypeInData : Nat := 0x83
def badState : Nat := 0x84
end Cc

/-- PLDM types that the device serves (Table 16.8). -/
def pldmTypes : List Nat := [0, 2, 5]

/-- Commands of a PLDM type that the device serves (Table 16.8). -/
def pldmCommands (t : Nat) : List Nat :=
  match t with
  | 0 => [1, 2, 3, 4, 5]
  | 2 => [4, 0x11, 0x21, 0x51]
  | 5 => [1, 2, 0x10, 0x13, 0x14, 0x1A, 0x1B, 0x1C, 0x1D]
  | _ => []

/-- Readings that a strike latches for the sideband (R675, R676): sensors 1 to 12 the junction sensors, 13 the device
temperature, 15 PWR_MIN_MV, 16 I_est in A, 17 to 32 the port states, 33 the time state (log entry 48). -/
def sbLatch (s : State) : State :=
  let code (x : PState) : Nat := match x with
    | .disabled => 0 | .banked => 1 | .down => 2 | .training => 3 | .up => 4 | .degraded => 5
  { s with sbSeen :=
    ((List.range 12).map (fun k => (1 + k, bits (s.word (0x021040 + 4 * k)) 15 0))) ++
    [(13, ofInt 16 s.pwr.temp), (15, s.fld Reg.minMv), (16, bits s.pwr.hintWord 15 0 / 100)] ++
    ((List.range 16).map (fun p => (17 + p, code (s.port p).st))) ++ [(33, s.tim.st)] }

/-- Operational states of a sensor: enabled, unavailable. -/
def sensorOn : Byte := 0
def sensorGone : Byte := 2

/-- The answer to a reading: the latched value; the hard-trip sensor reads at any time; while the core is in reset, halted
or tripped every other one is unavailable (R676). -/
def sensorData (s : State) (k : Nat) : State × List Byte :=
  if k = 14 then (s.draw.2, sensorOn :: leBytes 4 s.draw.1)
  else if s.boot.stopped then (s, sensorGone :: leBytes 4 0)
  else if decide (1 ≤ k) && decide (k ≤ 12) && bit (s.word (0x021040 + 4 * (k - 1))) 16 then (s, sensorGone :: leBytes 4 0)
  else (s, sensorOn :: leBytes 4 (mGetD s.sbSeen k 0))

/-- PLDM type 5 is served: core 0 runs Odjan or the boot ROM (R676). -/
def fdLive (s : State) : Bool := !s.boot.stopped && s.cmd.fw != .restart && !s.boot.romBankBad

/-- An update session is open that this port does not own (R658). -/
def heldByOther (s : State) (p : Nat) : Bool := match s.nvm.session with | some x => x.owner != .port p | none => false

/-- Update mode is entered on some port, or a session is open that this port does not own (R658). -/
def fdTaken (s : State) (p : Nat) : Bool := (s.sbPort (1 - p)).fd != .idle || heldByOther s p

/-- A PLDM type 5 command in a state that admits it, else the code that the standard gives. -/
def fdCommand (s : State) (p cmd : Nat) (states : List FdState) (f : State → State) : State :=
  sbReceive s p (fun s =>
    if !fdLive s then sbAnswer s p 1 (0x0500 + cmd) Cc.notReady []
    else if heldByOther s p then
      sbAnswer s p 1 (0x0500 + cmd) Cc.alreadyInUpdate []
    else if (s.sbPort p).fd == .idle then sbAnswer s p 1 (0x0500 + cmd) Cc.notInUpdate []
    else if !states.contains (s.sbPort p).fd then sbAnswer s p 1 (0x0500 + cmd) Cc.badState []
    else f s)

/-- The number of a firmware-device state. -/
def FdState.code : FdState → Nat
  | .idle => 0 | .learn => 1 | .ready => 2 | .download => 3 | .verify => 4 | .apply => 5 | .activate => 6

/-- A port's firmware-device state changes. -/
def setFd (s : State) (p : Nat) (x : FdState) : State := s.setSb p { s.sbPort p with fd := x }

/-- The port's own session ends (R658). -/
def endPort (s : State) (p : Nat) : State :=
  match s.nvm.session with
  | some x => if x.owner = .port p then endSession s else s
  | none => s

end Sys2Proof.Machine
end

