-- ==== Sys2Proof/Machine/Traffic.lean ====
section
/-!
DEFINITION. Opcode family 0x08 and the landing of its items (spec/09_traffic.md).
-/

namespace Sys2Proof.Machine

-- Causes of family 0x08 (Table 9.7).
namespace TmCause
def nodeState : Nat := 0x10
def threshOrder : Nat := 0x11
def range : Nat := 0x12
def notOwner : Nat := 0x13
def groupFull : Nat := 0x14
end TmCause

/-- Out of range, at a parameter byte. -/
def outOfRange (byte : Nat) : Body := .bad TmCause.range (24 + byte)

/-- A signed byte (OVERHEAD). -/
def sbyte (v : Nat) : Int := toInt 8 v

/-- Rate, burst, overhead and reset mode of TM_SHAPER_SET are in range (Table 9.5): the byte of the first that is not. -/
def shaperRange (p : Params) : Option Nat :=
  if 1600000 < pf p 13 10 then some 10
  else if pf p 17 14 = 0 ∨ 16384 < pf p 17 14 then some 14
  else if sbyte (pf p 18 18) < -32 then some 18
  else if 1 < pf p 19 19 then some 19
  else none

/-- A root exists. -/
def rootOk (r : Nat) : Bool := decide (r < 18)

/-- A group is present on a root: group 0 always (R395). -/
def groupHere (s : State) (r g : Nat) : Bool := g == 0 || (mGet? s.tm.groups (r * 1024 + g)).isSome

/-- The pool node named by a command and the place that uses it elsewhere (R218, R396, R410): the failure, if any. -/
def nodeCheck (s : State) (i n : Nat) (u : NodeUse) : Option Body :=
  if (s.insOf i).grants.getD 4 0 ≤ n then some (.deny TmCause.notOwner)
  else if retiring s i 4 n then some (.lock 0x13)
  else match (s.node i n).use with
    | some v => if v = u then none else some (.bad TmCause.nodeState)
    | none => none

/-- The node of a class queue is one of its owner's: an instance's own, or the manager's for a port or a tunnel. -/
def nodeOwner (i owner : Nat) : Bool := if owner < 4096 then i == owner else mgrOwner i

/-- TM_SHAPER_SET (R387, R388, R396, R397, Table 9.6). -/
def bodyTmShaperSet (c : Cmd) (s : State) : Body :=
  let p := c.params
  let kind := pf p 0 0
  let r := pf p 3 2
  let o := pf p 5 4
  let n := pf p 9 8
  let rest (k : Body) : Body := match shaperRange p with | some b => outOfRange b | none => k
  let go : Body := .stage s [c.data] false 0
  if 3 < kind then outOfRange 0
  else
    if kind < 3 && !rootOk r then outOfRange 2
    else if kind = 0 then rest go
    else if kind = 1 then
      if 1023 < o ∨ o = 0 then outOfRange 4 else if !groupHere s r o then .bad TmCause.nodeState 28 else rest go
    else if kind = 2 then
      let u := NodeUse.cls r o (pf p 6 6)
      if !sourceOk o then outOfRange 4
      else if 7 < pf p 6 6 then outOfRange 6
      else if !nodeOwner c.id o then .deny TmCause.notOwner
      else match nodeCheck s c.id n u with
        | some b => b
        | none =>
          if bit (pf p 1 1) 0 then (if (s.node c.id n).use = some u then go else .bad TmCause.nodeState 32) else rest go
    else if 4096 ≤ o ∨ (s.insOf o).st == .free then outOfRange 4
    else if 1 < pf p 6 6 then outOfRange 6
    else if pf p 18 18 ≠ 0 then outOfRange 18
    else if pf p 19 19 ≠ 0 then outOfRange 19
    else rest go

/-- TM_SHAPER_SET (opcode 0x0801). -/
def execTmShaperSet (c : Cmd) (s : State) : Host.Outcome State Fault Refusal :=
  runCmd Op.tmShaperSet c bodyTmShaperSet s

/-- A pool node is set: its debt is forgiven (R388), and it serves a place. -/
def setNodeTo (s : State) (i n rate burst : Nat) (overhead : Int) (zero : Bool) (u : Option NodeUse) : State :=
  let x := s.node i n
  let s1 := s.setNode i n { sh := x.sh.set rate burst overhead zero, use := u }
  if x.sh.debt = 0 then s1 else s1.add Ctr.forgiven x.sh.debt

/-- A node, by its key, returns to the unused state (R205, R396); its debt is discarded with it and counts as forgiven (R388). -/
def freeNode (s : State) (k : Nat) : State :=
  let x := (mGetD s.tm.nodes k Node.fresh).sh
  let s1 := { s with tm := { s.tm with nodes := mDel s.tm.nodes k } }
  if x.debt = 0 then s1 else s1.add Ctr.forgiven x.debt

/-- Whatever other node serves a place gives it up. -/
def clearPlace (s : State) (u : NodeUse) (keep : Nat) : State :=
  match s.nodeFor u with
  | some n => if n.1 = keep then s else freeNode s n.1
  | none => s

/-- TM_SHAPER_SET lands (R388, R396, R397, R402). -/
def landTmShaperSet (it : Item) (s : State) : State :=
  let p := it.params
  let r := pf p 3 2
  let o := pf p 5 4
  let n := pf p 9 8
  let rate := pf p 13 10
  let burst := pf p 17 14
  let ovr := sbyte (pf p 18 18)
  let zero := pf p 19 19 == 1
  match pf p 0 0 with
  | 0 =>
    let x := s.rootSh r
    let s1 := { s with tm := { s.tm with rootSh := mPut s.tm.rootSh r (x.set rate burst ovr zero) } }
    if x.debt = 0 then s1 else (s1.add (Ctr.rootForgiven r) x.debt).add Ctr.forgiven x.debt
  | 1 =>
    if !groupHere s r o then s
    else
      let g := groupAt s r o
      setNodeTo s g.nodeInst g.node rate burst ovr zero (some (.group r o))
  | 2 =>
    let u := NodeUse.cls r o (pf p 6 6)
    if (s.insOf it.inst).grants.getD 4 0 ≤ n then s
    else if bit (pf p 1 1) 0 then (if (s.node it.inst n).use = some u then freeNode s (nodeKey it.inst n) else s)
    else setNodeTo (clearPlace s u (nodeKey it.inst n)) it.inst n rate burst ovr zero (some u)
  | _ =>
    if (s.insOf o).st == .free then s
    else
      let dir := pf p 6 6
      let s1 := s.modIns o (fun x => if dir = 0 then { x with h2wRate := rate, h2wBurst := burst }
                                     else { x with w2hRate := rate, w2hBurst := burst })
      tellLimits (setLimiter s1 o dir rate burst) o

/-- TM_GROUP_SET (R396, Table 9.6). -/
def bodyTmGroupSet (c : Cmd) (s : State) : Body :=
  let p := c.params
  let r := pf p 1 0
  let g := pf p 3 2
  let n := pf p 9 8
  if !rootOk r then outOfRange 0
  else if g = 0 ∨ 1023 < g then outOfRange 2
  else
    if bit (pf p 7 7) 0 then (if groupHere s r g then .stage s [c.data] false 0 else .bad TmCause.nodeState 26)
    else if pf p 5 4 = 0 ∨ 1024 < pf p 5 4 then outOfRange 4
    else if 7 < pf p 6 6 then outOfRange 6
    else if !mgrOwner c.id then .deny TmCause.notOwner
    else match nodeCheck s c.id n (.group r g) with
      | some b => b
      | none => .stage s [c.data] false 0

/-- TM_GROUP_SET (opcode 0x0802). -/
def execTmGroupSet (c : Cmd) (s : State) : Host.Outcome State Fault Refusal :=
  runCmd Op.tmGroupSet c bodyTmGroupSet s

/-- A group of a root goes: its node is free, its owners return to group 0 (R395, R399). -/
def dropGroup (s : State) (r g : Nat) : State :=
  let x := groupAt s r g
  let s1 := freeNode s (nodeKey x.nodeInst x.node)
  { s1 with tm := { s1.tm with
    groups := mDel s1.tm.groups (r * 1024 + g)
    ownerGroup := s1.tm.ownerGroup.filter (fun o => !(o.1 / 16384 == r && o.2 == g))
    rrGroup := mDel s1.tm.rrGroup (r * 1024 + g) } }

/-- TM_GROUP_SET lands (R396, R398): a new node serves the group unshaped until TM_SHAPER_SET shapes it. -/
def landTmGroupSet (it : Item) (s : State) : State :=
  let p := it.params
  let r := pf p 1 0
  let g := pf p 3 2
  let n := pf p 9 8
  if bit (pf p 7 7) 0 then (if groupHere s r g then dropGroup s r g else s)
  else
    let u := NodeUse.group r g
    let s1 := clearPlace s u (nodeKey it.inst n)
    let s2 := s1.setNode it.inst n { s1.node it.inst n with use := some u }
    let x : Group := { weight := pf p 5 4, prio := pf p 6 6, nodeInst := it.inst, node := n }
    { s2 with tm := { s2.tm with groups := mPut s2.tm.groups (r * 1024 + g) x } }

/-- TM_OWNER_SET (Table 9.6). -/
def bodyTmOwnerSet (c : Cmd) (s : State) : Body :=
  let p := c.params
  let o := pf p 3 2
  if !rootOk (pf p 1 0) then outOfRange 0
  else if !sourceOk o then outOfRange 2
  else if 1023 < pf p 5 4 then outOfRange 4
  else if 4096 ≤ o ∧ (pf p 7 6 = 0 ∨ 1024 < pf p 7 6) then outOfRange 6
  else
    if !groupHere s (pf p 1 0) (pf p 5 4) then .bad TmCause.nodeState 28 else .stage s [c.data] false 0

/-- TM_OWNER_SET (opcode 0x0803). -/
def execTmOwnerSet (c : Cmd) (s : State) : Host.Outcome State Fault Refusal :=
  runCmd Op.tmOwnerSet c bodyTmOwnerSet s

/-- TM_OWNER_SET lands (R398, R399): an owner that moves keeps its frames and loses its deficit. -/
def landTmOwnerSet (it : Item) (s : State) : State :=
  let p := it.params
  let r := pf p 1 0
  let o := pf p 3 2
  let k := ownKey r o
  let old := groupOf s r o
  let g := if groupHere s r (pf p 5 4) then pf p 5 4 else 0
  let drop (m : SMap Dwrr) : SMap Dwrr := m.map (fun (x : Nat × Dwrr) =>
    if x.1 = r * 1024 + old ∨ x.1 = r * 1024 + g then (x.1, { x.2 with deficit := mDel x.2.deficit o }) else x)
  { s with tm := { s.tm with
    ownerGroup := if g = 0 then mDel s.tm.ownerGroup k else mPut s.tm.ownerGroup k g
    ownerWeight := if o < 4096 then s.tm.ownerWeight else mPut s.tm.ownerWeight k (pf p 7 6)
    rrGroup := if g = old then s.tm.rrGroup else drop s.tm.rrGroup } }

/-- TM_CLASS_SCHED (Table 9.6). -/
def bodyTmClassSched (c : Cmd) (s : State) : Body :=
  let p := c.params
  if !rootOk (pf p 1 0) then outOfRange 0
  else match (List.range 8).find? (fun k => pf p (3 + k) (3 + k) == 0) with
    | some k => outOfRange (3 + k)
    | none => .stage s [c.data] false 0

/-- TM_CLASS_SCHED (opcode 0x0804). -/
def execTmClassSched (c : Cmd) (s : State) : Host.Outcome State Fault Refusal :=
  runCmd Op.tmClassSched c bodyTmClassSched s

/-- TM_CLASS_SCHED lands. -/
def landTmClassSched (it : Item) (s : State) : State :=
  let p := it.params
  { s with tm := { s.tm with
    strict := mPut s.tm.strict (pf p 1 0) (pf p 2 2)
    weights := mPut s.tm.weights (pf p 1 0) ((List.range 8).map (fun k => pf p (3 + k) (3 + k))) } }

/-- TM_ADMIT_SET (R382, Table 9.6). -/
def bodyTmAdmitSet (c : Cmd) (s : State) : Body :=
  let p := c.params
  if 15 < pf p 0 0 then outOfRange 0
  else match [2, 6, 10, 14].find? (fun b => decide (131072 < pf p (b + 3) b)) with
    | some b => outOfRange b
    | none =>
      if pf p 5 2 ≤ pf p 9 6 ∧ pf p 9 6 ≤ pf p 13 10 ∧ pf p 13 10 ≤ pf p 17 14 then .stage s [c.data] false 0
      else .bad TmCause.threshOrder

/-- TM_ADMIT_SET (opcode 0x0805). -/
def execTmAdmitSet (c : Cmd) (s : State) : Host.Outcome State Fault Refusal :=
  runCmd Op.tmAdmitSet c bodyTmAdmitSet s

/-- TM_ADMIT_SET lands: the XOFF report is judged again at once (R403). -/
def landTmAdmitSet (it : Item) (s : State) : State :=
  let p := it.params
  let x : Admit := { xon := pf p 5 2, xoff := pf p 9 6, dropY := pf p 13 10, drop := pf p 17 14 }
  (bitList (pf p 1 1) 8).foldl (fun s c =>
    reviewIng { s with tm := { s.tm with admits := mPut s.tm.admits (8 * pf p 0 0 + c) x } } (pf p 0 0) c) s

/-- TM_QLIM_SET (Table 9.6). -/
def bodyTmQlimSet (c : Cmd) (s : State) : Body :=
  let p := c.params
  if !rootOk (pf p 1 0) then outOfRange 0
  else if 131072 < pf p 7 4 then outOfRange 4
  else .stage s [c.data] false 0

/-- TM_QLIM_SET (opcode 0x0806). -/
def execTmQlimSet (c : Cmd) (s : State) : Host.Outcome State Fault Refusal :=
  runCmd Op.tmQlimSet c bodyTmQlimSet s

/-- TM_QLIM_SET lands (R403). -/
def landTmQlimSet (it : Item) (s : State) : State :=
  let p := it.params
  (bitList (pf p 2 2) 8).foldl (fun s c =>
    { s with tm := { s.tm with qlim := mPut s.tm.qlim (8 * pf p 1 0 + c) (pf p 7 4) } }) s

/-- TM_SRC_CLASS (R374, R375, Table 9.6). -/
def bodyTmSrcClass (c : Cmd) (s : State) : Body :=
  let p := c.params
  if !sourceOk (pf p 1 0) then outOfRange 0
  else if 2 < pf p 2 2 then outOfRange 2
  else if 7 < pf p 3 3 then outOfRange 3
  else .stage s [c.data] false 0

/-- TM_SRC_CLASS (opcode 0x0807). -/
def execTmSrcClass (c : Cmd) (s : State) : Host.Outcome State Fault Refusal :=
  runCmd Op.tmSrcClass c bodyTmSrcClass s

/-- TM_SRC_CLASS lands. -/
def landTmSrcClass (it : Item) (s : State) : State :=
  let p := it.params
  let i := pf p 1 0
  let y := { s.srcCfg i with trust := pf p 2 2, defClass := pf p 3 3, colourDscp := bit (pf p 4 4) 0 }
  { s with rul := { s.rul with srcs := mPut s.rul.srcs i y } }

/-- A policer of an instance may be set (R218, R410). -/
def policerCheck (s : State) (i k : Nat) : Option Body :=
  if (s.insOf i).grants.getD 5 0 ≤ k then some (.deny TmCause.notOwner)
  else if retiring s i 5 k then some (.lock 0x13)
  else none

/-- Rates and sizes of a policer are in range for its mode (Tables 9.4 and 9.5): the byte of the first that is not. -/
def policerRange (p : Params) : Option Nat :=
  let rate (v : Nat) : Bool := decide (1 ≤ v) && decide (v ≤ 1600000)
  let size (v : Nat) : Bool := decide (64 ≤ v) && decide (v ≤ 16777216)
  if 2 < pf p 4 4 then some 4
  else if !rate (pf p 9 6) then some 6
  else if pf p 4 4 = 2 && !rate (pf p 13 10) then some 10
  else if !size (pf p 17 14) then some 14
  else if pf p 4 4 ≠ 0 && !size (pf p 21 18) then some 18
  else if 2 < pf p 22 22 then some 22
  else if 2 < pf p 23 23 then some 23
  else if 2 < pf p 24 24 then some 24
  else if 63 < pf p 25 25 then some 25
  else if 63 < pf p 26 26 then some 26
  else none

/-- TM_POLICER_SET (R389, R390, R410). -/
def bodyTmPolicerSet (c : Cmd) (s : State) : Body :=
  let p := c.params
  match policerCheck s c.id (pf p 3 0) with
  | some b => b
  | none =>
    match policerRange p with
      | some b => outOfRange b
      | none => .stage s [c.data] false 0

/-- TM_POLICER_SET (opcode 0x0810). -/
def execTmPolicerSet (c : Cmd) (s : State) : Host.Outcome State Fault Refusal :=
  runCmd Op.tmPolicerSet c bodyTmPolicerSet s

/-- TM_POLICER_SET lands: its buckets are full (R404). -/
def landTmPolicerSet (it : Item) (s : State) : State :=
  let p := it.params
  let k := policerKey it.inst (pf p 3 0)
  let old := mGetD s.tm.policers k Policer.fresh
  let x : Policer :=
    { old with mode := pf p 4 4, aware := bit (pf p 5 5) 0, cir := pf p 9 6, pir := pf p 13 10, cbs := pf p 17 14,
               ebs := pf p 21 18, acts := [pf p 22 22, pf p 23 23, pf p 24 24], yDscp := pf p 25 25, rDscp := pf p 26 26,
               c := 1000 * pf p 17 14, e := 1000 * pf p 21 18 }
  if (s.insOf it.inst).grants.getD 5 0 ≤ pf p 3 0 then s
  else { s with tm := { s.tm with policers := mPut s.tm.policers k x } }

/-- TM_POLICER_READ (R391, R410). -/
def bodyTmPolicerRead (c : Cmd) (s : State) : Body :=
  let p := c.params
  match policerCheck s c.id (pf p 3 0) with
  | some b => b
  | none =>
    if 1 < pf p 4 4 then outOfRange 4
    else
        let x := mGetD s.tm.policers (policerKey c.id (pf p 3 0)) Policer.fresh
        let n := if pf p 4 4 = 0 then x.counts else x.scounts
        doneAt s c (pf p 15 8) (padTo 64 (n.flatMap (leBytes 8))) 0

/-- TM_POLICER_READ (opcode 0x0811). -/
def execTmPolicerRead (c : Cmd) (s : State) : Host.Outcome State Fault Refusal :=
  runCmd Op.tmPolicerRead c bodyTmPolicerRead s

/-- A shaper as TM_SHAPER_READ returns it. -/
def shaperResult (x : Shaper) (snap : Bool) : Nat :=
  ofInt 48 (if snap then x.stok else x.tok) + (if snap then x.sforgiven else x.forgiven) % 2 ^ 64 * 2 ^ 64

/-- TM_SHAPER_READ (R410): of a root, a group's node, a class queue's node or an instance limiter. -/
def bodyTmShaperRead (c : Cmd) (s : State) : Body :=
  let p := c.params
  let r := pf p 3 2
  let o := pf p 5 4
  let n := pf p 9 8
  let ten := !isManager c.src
  let give (x : Shaper) : Body := .done s (shaperResult x (pf p 10 10 == 1))
  if 3 < pf p 0 0 then outOfRange 0
  else if 1 < pf p 10 10 then outOfRange 10
  else
    if pf p 0 0 < 3 && !rootOk r then outOfRange 2
    else match pf p 0 0 with
      | 0 => if ten then .deny TmCause.notOwner else give (s.rootSh r)
      | 1 =>
        if ten then .deny TmCause.notOwner
        else if o = 0 ∨ !groupHere s r o then .missing
        else let g := groupAt s r o; give (s.node g.nodeInst g.node).sh
      | 2 =>
        if (ten && o != ownOf c.src) || decide ((s.insOf c.id).grants.getD 4 0 ≤ n) then .deny TmCause.notOwner
        else if retiring s c.id 4 n then .lock 0x13
        else if (s.node c.id n).use ≠ some (.cls r o (pf p 6 6)) then .missing
        else give (s.node c.id n).sh
      | _ =>
        if ten && o != ownOf c.src then .deny TmCause.notOwner
        else if 4096 ≤ o ∨ (s.insOf o).st == .free then .missing
        else if 1 < pf p 6 6 then outOfRange 6
        else give (s.limiter o (pf p 6 6))

/-- TM_SHAPER_READ (opcode 0x0812). -/
def execTmShaperRead (c : Cmd) (s : State) : Host.Outcome State Fault Refusal :=
  runCmd Op.tmShaperRead c bodyTmShaperRead s

end Sys2Proof.Machine
end

