-- ==== Sys2Proof/Machine/Triads.lean ====
section
/-!
DEFINITION. Meanings of opcode family 0x0C and of the triad events (spec/14_triads.md). The family is not open to tenant
queues.
-/

namespace Sys2Proof.Machine

-- Cause codes (Table 14.7).
namespace TriCause
def state : Nat := 0x10
def members : Nat := 0x11
def triadId : Nat := 0x12
def needCluster : Nat := 0x13
end TriCause

/-- The configuration that TRI_SET gives (Table 14.6). MAC and IP addresses are byte strings, first byte first. -/
def triCfgOf (p : Params) (d : List Byte) : TriCfg :=
  let b := leBytes 40 p.toNat
  { triad := pf p 1 1, nodes := [pf p 2 2, pf p 3 3, pf p 4 4], ssp := bit (pf p 5 5) 1, announce := pf p 6 6,
    port := pf p 7 7, mac := beNat ((b.drop 8).take 6), tci := pf p 15 14, svc := pf p 17 16 % 4096,
    ipv4 := beNat ((b.drop 18).take 4), ipv6 := d }

/-- The members of a triad are this node and two others, all of the active image (Table 14.7). -/
def membersOk (s : State) (l : List Nat) : Bool :=
  l.contains s.vrs.node && l.eraseDups.length == l.length &&
  l.all (fun n => match s.vrs.img with | some m => (m.node? n).isSome | none => false)

/-- TRI_SET (R567, R568, R590). -/
def bodyTriSet (c : Cmd) (s : State) : Body :=
  let p := c.params
  let t := pf p 0 0
  if 8 ≤ t then .bad 0 24
  else
    if needsCluster c s then .deny TriCause.needCluster
    else if bit (pf p 5 5) 0 then .stage s [c.data] false 0
    else if c.data.length ≠ 0 ∧ c.data.length ≠ 16 then .bad Cause.length 10
    else if pf p 1 1 = 0 ∨ s.tri.slots.any (fun x => x.1 != t && x.2.cfg.triad == pf p 1 1) then .bad TriCause.triadId 25
    else if !membersOk s [pf p 2 2, pf p 3 3, pf p 4 4] then .bad TriCause.members 26
    else if 8 < pf p 6 6 then .bad 0 30
    else if 15 < pf p 7 7 then .bad 0 31
    else .stage s [c.data] false 0

/-- TRI_SET (opcode 0x0C01). -/
def execTriSet (c : Cmd) (s : State) : Host.Outcome State Fault Refusal :=
  runCmd Op.triSet c bodyTriSet s

/-- A member of a triad as configured anew (R591). -/
def Triad.newOf (c : TriCfg) : Triad :=
  { cfg := c, st := .init, epoch := 0, owner := 3, named := 3, fresh := true, word := 0, heard := [], seen := 0, missed := 0,
    unconf := 0, conf := 0, virasCause := false, causes := 0, inGap := false, gap := [], decided := none, relieved := false,
    claimOk := false, stepDown := none, handover := none, forced := false, ownerHeat := 0, announceLeft := 0,
    announceAt := 0 }

/-- TRI_CFG and TRI_NODES (Table 14.8). -/
def triRegs (s : State) (t : Nat) : State :=
  match s.triad t with
  | none => (s.setWord (triCtr t 0) 0).setWord (triCtr t 4) 0
  | some x =>
    (s.setWord (triCtr t 0)
      (2 ^ 31 + b2n x.cfg.ssp * 2 ^ 30 + ownRank s x % 4 * 2 ^ 28 + x.cfg.announce * 2 ^ 24 + x.cfg.triad * 2 ^ 16 +
       x.cfg.port * 2 ^ 8)).setWord (triCtr t 4)
      (x.cfg.nodes.getD 2 0 * 2 ^ 16 + x.cfg.nodes.getD 1 0 * 2 ^ 8 + x.cfg.nodes.getD 0 0)

/-- TRI_SET lands (R591, R599). -/
def landTriSet (it : Item) (s : State) : State :=
  let t := pf it.params 0 0
  let c := triCfgOf it.params it.data
  let s1 :=
    if bit (pf it.params 5 5) 0 then
      (let s' := discardGap s t
       { s' with tri := { s'.tri with slots := mDel s'.tri.slots t } })
    else match s.triad t with
      | some x =>
        if x.cfg.triad = c.triad ∧ x.cfg.nodes = c.nodes then
          (if c.ssp then s else discardGap s t).setTriad t { x with cfg := c, inGap := x.inGap && c.ssp, gap := if c.ssp then x.gap else [] }
        else (discardGap s t).setTriad t (Triad.newOf c)
      | none => s.setTriad t (Triad.newOf c)
  triRegs s1 t

/-- TRI_QUERY (Table 14.6). -/
def bodyTriQuery (c : Cmd) (s : State) : Body :=
  let t := pf c.params 0 0
  if 8 ≤ t then .bad 0 24
  else
    match s.triad t with
    | none => .missing
    | some x =>
      let known := decide (x.owner < 3)
      .done s (x.word + causesOf s x * 2 ^ 24 + (if known then x.ownerHeat.toNat else 0) * 2 ^ 32 +
        nodeOf x x.owner * 2 ^ 80)

/-- TRI_QUERY (opcode 0x0C02). -/
def execTriQuery (c : Cmd) (s : State) : Host.Outcome State Fault Refusal :=
  runCmd Op.triQuery c bodyTriQuery s

/-- TRI_HANDOVER (R593). -/
def bodyTriHandover (c : Cmd) (s : State) : Body :=
  let t := pf c.params 0 0
  if 8 ≤ t then .bad 0 24
  else if 3 < pf c.params 1 1 then .bad 0 25
  else
    match s.triad t with
    | some x => if x.st = .owner then .stage s [c.data] false 0 else .deny TriCause.state
    | none => .deny TriCause.state

/-- TRI_HANDOVER (opcode 0x0C03). -/
def execTriHandover (c : Cmd) (s : State) : Host.Outcome State Fault Refusal :=
  runCmd Op.triHandover c bodyTriHandover s

/-- TRI_HANDOVER lands (R593, R600): the latching of the same strike acts on it. -/
def landTriHandover (it : Item) (s : State) : State :=
  let t := pf it.params 0 0
  match s.triad t with
  | some x => s.setTriad t { x with handover := some (pf it.params 1 1) }
  | none => s

/-- TRI_REARM (R577): the latch of cause MEM is cleared; while package DRAM is unavailable the cause stays present (log entry 44). -/
def bodyTriRearm (_c : Cmd) (s : State) : Body :=
  .done { s with tri := { s.tri with mem := s.rul.dramDown } } 0

/-- TRI_REARM (opcode 0x0C04). -/
def execTriRearm (c : Cmd) (s : State) : Host.Outcome State Fault Refusal :=
  runCmd Op.triRearm c bodyTriRearm s

/-- TRI_ISO_CLEAR (R588). -/
def bodyTriIsoClear (_c : Cmd) (s : State) : Body :=
    if s.tri.isoA || s.tri.isoB then .deny TriCause.state
    else .done { s with tri := { s.tri with latched := false } } 0

/-- TRI_ISO_CLEAR (opcode 0x0C05). -/
def execTriIsoClear (c : Cmd) (s : State) : Host.Outcome State Fault Refusal :=
  runCmd Op.triIsoClear c bodyTriIsoClear s

/-- TRI_FORCE (R594): the member opens at the next strike. -/
def bodyTriForce (c : Cmd) (s : State) : Body :=
  let t := pf c.params 0 0
  if 8 ≤ t then .bad 0 24
  else
    match s.triad t with
    | none => .missing
    | some x => if !fit s x then .deny TriCause.state else .done (s.setTriad t { x with forced := true }) 0

/-- TRI_FORCE (opcode 0x0C06). -/
def execTriForce (c : Cmd) (s : State) : Host.Outcome State Fault Refusal :=
  runCmd Op.triForce c bodyTriForce s

/-- ISOLATE_LEVEL_CHANGE (R586): the filtered level of ISOLATE_A, or of ISOLATE_B, changes. -/
def execIsolateLevelChange (b level : Bool) (s : State) : Host.Outcome State Fault Refusal :=
  let a' := if b then s.tri.isoA else level
  let b' := if b then level else s.tri.isoB
  let began := a' != b' && s.tri.isoA == s.tri.isoB
  .next { s with tri := { s.tri with
    isoA := a', isoB := b', disagreeFrom := if began then s.time.refNow else s.tri.disagreeFrom } }

/-- ISO_DISCREPANCY (R588, R589): the levels have disagreed for DISC_MS. -/
def execIsoDiscrepancy (s : State) : Host.Outcome State Fault Refusal :=
  if s.tri.isoA == s.tri.isoB || s.tri.latched || !s.tri.isoEn || s.boot.stopped then .next s
  else .next (s.atRef (s.tri.disagreeFrom + s.fld Reg.discMs * 1000000) (fun s =>
    ((({ s with tri := { s.tri with latched := true } }).inc 0x101018).triRaise 6).post 0x8017 []))

/-- ANNOUNCEMENT (R583): the next one of a new owner, 1 ms after the last. -/
def execAnnouncement (t : Nat) (s : State) : Host.Outcome State Fault Refusal :=
  match s.triad t with
  | none => .next s
  | some x =>
    if x.announceLeft = 0 ∨ x.st ≠ .owner ∨ !x.cfg.ssp then .next s
    else .next (s.atRef x.announceAt (fun s =>
      announceOnce (s.setTriad t { x with announceLeft := x.announceLeft - 1, announceAt := s.time.refNow + 1000000 }) x.cfg))

end Sys2Proof.Machine
end

