-- ==== Sys2Proof/Machine/Strike.lean ====
section
/-!
DEFINITION. The strike: the actions of Table 2.1 in their order, the work budget of the heat that begins, the adoption
strike, the seal point, and the end of a STRIKE_IO pulse (spec/02_strike.md; R38, R54, R57 to R77, R83 to R87, R171,
R538, R626, R774 to R776). What comes about on the edge carries the time of the heat that the strike begins.
-/

namespace Sys2Proof.Machine

-- Activation (R63).

/-- One staged item becomes active, by the opcode that staged it. -/
def landItem (it : Item) (s : State) : State :=
  match it.op with
  | 0x0201 => landSetHeatLength it s
  | 0x0301 => landInsCreate it s
  | 0x0302 => landInsDestroy it s
  | 0x0303 => landInsResize it s
  | 0x0304 => landInsSetLimits it s
  | 0x0501 => landPortConfig it s
  | 0x0502 => landPortBank it s
  | 0x0506 => landPortRestore it s
  | 0x0601 => landMacSetRx it s
  | 0x0602 => landMacSetFc it s
  | 0x0603 => landMacSetPreempt it s
  | 0x0604 => landGateSet it s
  | 0x0605 => landGateDisable it s
  | 0x0701 => landRuleWrite it s
  | 0x0702 => landRuleDelete it s
  | 0x0710 => landFlowInsert it s
  | 0x0711 => landFlowDelete it s
  | 0x0720 => landSrcConfig it s
  | 0x0721 => landBdConfig it s
  | 0x0722 => landRewriteSet it s
  | 0x0723 => landTunnelSet it s
  | 0x0724 => landMirrorSet it s
  | 0x0725 => landParserPorts it s
  | 0x0801 => landTmShaperSet it s
  | 0x0802 => landTmGroupSet it s
  | 0x0803 => landTmOwnerSet it s
  | 0x0804 => landTmClassSched it s
  | 0x0805 => landTmAdmitSet it s
  | 0x0806 => landTmQlimSet it s
  | 0x0807 => landTmSrcClass it s
  | 0x0810 => landTmPolicerSet it s
  | 0x0903 => landCtxSet it s
  | 0x0904 => landCtxKey it s
  | 0x0905 => landCtxBind it s
  | 0x090C => landSecySet it s
  | 0x0A01 => landStoConnSet it s
  | 0x0A02 => landStoConnClear it s
  | 0x0A10 => landStoNsSet it s
  | 0x0A11 => landStoNsQuota it s
  | 0x0B01 => landSchedLoad it s
  | 0x0B05 => landTimSteer it s
  | 0x0B06 => landTimPtpMap it s
  | 0x0C01 => landTriSet it s
  | 0x0C03 => landTriHandover it s
  | 0x0D01 => landPwrSet it s
  | 0x0D02 => landThmSet it s
  | _ => s

/-- A PORT_CONFIG that removes its port: within a unit it frees its lanes before the others take them (R276). -/
def removesPort (it : Item) : Bool := it.op == 0x0501 && bit (pf it.params 1 1) 3

/-- The items of one strike in the order of their landing: by unit in the order of sealing, removals of ports first within
each. -/
def landingOrder (l : List Item) : List Item :=
  (l.map (·.unit)).eraseDups.flatMap (fun u =>
    let m := l.filter (fun i => i.unit == u)
    m.filter removesPort ++ m.filter (fun i => !removesPort i))

/-- The phase of the cluster unit that holds an item. -/
def clusterPhase (s : State) (u : Nat) : Nat :=
  match s.tim.units.find? (fun x => x.unit == u) with | some x => x.phase | none => 0

/-- An item lands on the strike that begins heat `n`: it is sealed for it, and where a cluster unit holds it, that unit has
committed (R63, R551). -/
def landsAt (s : State) (n : Heat) (it : Item) : Bool :=
  it.isSealed && it.landing == n && (match it.commit with | some u => clusterPhase s u == 5 | none => true)

/-- An item that is discarded on the strike that begins its landing heat: its cluster unit has not committed (R551). -/
def failsAt (s : State) (n : Heat) (it : Item) : Bool :=
  it.isSealed && it.landing == n && (match it.commit with | some u => clusterPhase s u != 5 | none => false)

/-- A change of an instance is discarded on the strike on which the instance's destroy lands (R237). -/
def overDestroy (due : List Item) (it : Item) : Bool :=
  (it.op == 0x0303 || it.op == 0x0304) && due.any (fun d => d.op == 0x0302 && d.inst == it.inst)

/-- An item lands, unless it is one that the commands of an instance staged which is being released by now (R204), or its object lies
in package DRAM and that is unavailable (R49). -/
def landLive (s : State) (it : Item) : State :=
  if outOfReach s it.op then s
  else match it.owner with
    | .queue f => if (s.insOf f).st == .releasing then s else landItem it s
    | .mbox => landItem it s

/-- The CUT frames whose tail has not come keep what an activation replaced of their configuration (R30, R47). -/
def keepOld (was s : State) : State :=
  if s.tm.cuts.isEmpty then s
  else
    let o : OldConfig :=
      { bds := mChanged was.rul.bds s.rul.bds, ctxs := mChanged was.cip.ctxs s.cip.ctxs,
        conns := mChanged was.sto.conns s.sto.conns, nss := mChanged was.sto.nss s.sto.nss }
    { s with tm := { s.tm with cuts := s.tm.cuts.map (fun (x : Nat × CutFrame) => (x.1, { x.2 with old :=
      { bds := mElse x.2.old.bds o.bds, ctxs := mElse x.2.old.ctxs o.ctxs, conns := mElse x.2.old.conns o.conns,
        nss := mElse x.2.old.nss o.nss } })) } }

/-- Activation (R63, R67): what lands leaves the staging store and becomes active; items that come later than their target
are counted. -/
def activate (s : State) (n : Heat) : State :=
  let here := s.staging.items.filter (landsAt s n)
  let due := here.filter (fun i => !overDestroy here i)
  let keep := s.staging.items.filter (fun i => !landsAt s n i && !failsAt s n i)
  let s1 := { s with staging := { s.staging with
    items := keep, barriers := s.staging.barriers.filter (fun b => b.2 != n) } }
  let slips := (due.filter (fun i => decide (i.target.toNat < n.toNat))).length
  let s2 := if slips = 0 then s1 else (s1.add Ctr.slip slips).raise Reg.stkStatus 2 1
  keepOld s2 ((landingOrder due).foldl landLive s2)

-- Snapshot (R57, R58).

/-- The budget registers of the heat that ends (R74, R774 to R776, Table 2.10). -/
def budgetRegs (s : State) : State :=
  let b := s.budget
  ((((s.setFld Reg.snapPlanned (if b.full then b.planned else 0)).setFld Reg.snapDelivered
    (if b.live then b.delivered / 100 else 0)).setFld Reg.snapUsed (if b.live then b.used / 100 else 0)).setFld Reg.snapCause
    (if b.full && b.overrun then b.cause else 0)).setFld Reg.snapCarried (if b.full then b.carriedIn else 0)

/-- The snapshot of a shaper: the tokens and what was forgiven. -/
def Shaper.snapped (x : Shaper) : Shaper := { x with stok := x.tok, sforgiven := x.forgiven }

/-- The counters of objects that have no place in the counter bank, at the strike that begins heat `n` (R769). -/
def snapObjects (s : State) (n : Heat) : State :=
  let sh (m : SMap Shaper) : SMap Shaper := m.map (fun x => (x.1, x.2.snapped))
  { s with
    snap := { heat := n, ctrs := s.ctrs },
    rul := { s.rul with
      rules := s.rul.rules.map (fun (x : Nat × Rule) => (x.1, { x.2 with sframes := x.2.frames, sbytes := x.2.bytes })),
      flows := s.rul.flows.map (fun (x : Nat × Flow) => (x.1, { x.2 with sframes := x.2.frames, sbytes := x.2.bytes })) },
    tm := { s.tm with
      rootSh := sh s.tm.rootSh, limiters := sh s.tm.limiters,
      nodes := s.tm.nodes.map (fun (x : Nat × Node) => (x.1, { x.2 with sh := x.2.sh.snapped })),
      policers := s.tm.policers.map (fun (x : Nat × Policer) => (x.1, { x.2 with scounts := x.2.counts })) },
    cip := { s.cip with ctxs := s.cip.ctxs.map (fun (x : Nat × Ctx) => (x.1, { x.2 with snap := x.2.view })) },
    sto := { s.sto with conns := s.sto.conns.map (fun (x : Nat × Conn) => (x.1, { x.2 with snap := x.2.view })) } }

/-- SNAP_RULES_BEHIND: the rules that the scan has not reached, in 24 bits. -/
def snapBehind (s : State) : State := s.setWord 0x400118 (s.rul.behind % 2 ^ 24)

/-- Snapshot of the heat that ends at the strike that begins heat `n`: counters, the counters of objects that have no place in
the bank (R769), and the SNAP fields that the management complex and the scan keep. -/
def snapshot (s : State) (n : Heat) : State := snapBehind (snapObjects (budgetRegs s) n)

-- Sampling and latching (R57, orders 3 and 4).

/-- The STRIKE_IO inputs: the pins that were inputs in the heat that ends are sampled (R83, R84); the bit of an output pin
keeps its value (log entry 29). -/
def sampleIo (s : State) (pins : BitVec 8) : State :=
  let old := BitVec.ofNat 8 (s.fld Reg.ioIn)
  let now := (pins &&& ~~~s.io.dir) ||| (old &&& s.io.dir)
  let s1 := { s with io := { s.io with pinIn := pins } }.mark Reg.ioChg.addr (now ^^^ old).toNat
  (s1.setFld Reg.ioIn now.toNat).setFld Reg.ioChg (BitVec.ofNat 8 (s.fld Reg.ioChg) ||| (now ^^^ old)).toNat

/-- The mode of a STRIKE_IO pin (Table 2.11). -/
def ioModeOf (s : State) (k : Nat) : Nat := bits (s.fld Reg.ioMode) (2 * k + 1) (2 * k)

/-- The STRIKE_IO outputs at the strike that begins heat `n` (R83, R85). -/
def latchIo (s : State) (n : Heat) : State :=
  let dir := s.fld Reg.ioDir
  let level (k : Nat) : Bool :=
    match ioModeOf s k with
    | 1 => true
    | 2 => bit n.toNat 0
    | _ => bit (s.fld Reg.ioOut) k
  { s with io := { s.io with
    dir := BitVec.ofNat 8 dir, drive := BitVec.ofNat 8 (maskOf ((bitList dir 8).filter level)),
    pulsing := BitVec.ofNat 8 (maskOf ((bitList dir 8).filter (fun k => ioModeOf s k == 1))) } }

/-- Temperatures and the lowest detector reading are latched (R622, Tables 15.9 and 15.10). -/
def sampleSensors (s : State) (x : StrikeIn) : State :=
  let s1 := setTemps s x.sensors
  let s2 := (List.range 12).foldl (fun s k =>
    match x.sensors[k]? with
    | some t => s.setWord (0x021040 + 4 * k) (ofInt 16 t + b2n (sensorBad s k) * 2 ^ 16)
    | none => s) s1
  { (s2.setFld Reg.minMv (x.minMv / 5 * 5 % 1024)) with env := x }

-- The work budget (R68 to R77, R171, R774 to R776).

/-- What becomes of an overrun judged in the heat that ended (R74, R76). -/
def overrunStrike (s : State) : State :=
  let b := s.budget
  if !b.overrun then { s with budget := { b with quiet := b.quiet + 1, runHeats := b.runHeats + 1 } }
  else
    let count := b.runCount + 1
    let tell := decide (1024 ≤ b.quiet) || decide (1024 ≤ b.runHeats + 1)
    let s1 := { s with budget := { b with
      quiet := 0, runCount := if tell then 0 else count, runHeats := if tell then 0 else b.runHeats + 1 } }
    let s2 := (s1.inc Ctr.overrun).raise Reg.stkStatus 1 1
    if tell then s2.post 0x1001 (leBytes 4 count ++ leBytes 1 b.cause) else s2

/-- planned of R68 for the heat that begins. -/
def plannedCu (s : State) : Nat := 4 * (s.time.heatLen - s.effGuard) / 100

/-- Management cycles of carried work (R68). -/
def carriedWork (b : Budget) : Nat := b.carried.foldl (fun a w => a + w.total) 0

/-- Reference time since which the management cores have made no progress, if they stall in the heat that begins: a stall from its
first nanosecond on goes on from the last heat (R195). -/
def stallStart (s : State) (stall : Option Nat) : Option Nat :=
  match stall, s.budget.stallFrom with
  | none, _ => none
  | some 0, some t => some t
  | some ns, _ => some (s.time.refNow + s.time.cyclesTo (256 * ns))

/-- No budget is planned (R775). -/
def noBudget (b : Budget) (pa pl pt : Nat) : Budget :=
  { b with
    full := false, runHeat := false, planned := 0, pool := 0, carriedIn := 0, todo := Work.zero, carried := [],
    credit := Work.zero, share := Work.zero, cmdLeft := 0, used := 0, guardUsed := 0, delivered := 0, logBooked := 0,
    stall := none, stallFrom := none, pctAging := pa, pctLog := pl, pctTelem := pt, overrun := false, cause := 0 }

/-- The budget of the heat that begins (R68, R70, R87, R171, R774, R775): the shares are of what the carried work leaves; a share
that its category does not need goes to Commands; the aging slice, a due flush and the telemetry are the work of theirs. -/
def planBudget (s : State) (x : StrikeIn) : State :=
  let (pa, pl, pt) := s.shares
  let planned := plannedCu s
  let pool := planned - 200
  let s1 := s.setFld Reg.costMax (pool * (100 - pa - pl - pt) / 100)
  let b := s.budget
  if s.cmd.fw != .run then { s1 with budget := noBudget b pa pl pt }
  else
    let carried := ceilDiv (carriedWork b) 100
    let part (p : Nat) : Nat := (pool - carried) * p / 100
    let agingNeed := ceilDiv (sliceSize s) 64
    let booked := if s.log.flushDue then s.flushEntries.length else b.logBooked
    let logNeed := 2 * (booked - b.logBooked)
    let cmds := part (100 - pa - pl - pt)
    { s1 with
      budget := { b with
        full := true, runHeat := false, planned := planned, pool := pool, carriedIn := carried,
        todo := { svc := 20000, cmds := 0, aging := 100 * agingNeed, log := 100 * logNeed, telem := 100 * x.telemCu },
        credit := Work.zero, share := { svc := 200, cmds := cmds, aging := part pa, log := part pl, telem := part pt },
        cmdLeft := cmds + (part pa - agingNeed) + (part pl - logNeed) + (part pt - x.telemCu),
        used := b.guardUsed, guardUsed := 0, delivered := 0, logBooked := booked,
        stall := x.stall, stallFrom := stallStart s x.stall, pctAging := pa, pctLog := pl, pctTelem := pt,
        overrun := false, cause := 0 },
      rul := { s1.rul with behind := s1.rul.behind + 1 } }

-- The edge.

/-- Device time at a strike (R51, R86, R87): the heat number becomes `n`, the nanosecond counter 0, and what remains of a
nanosecond is kept (log entry 40). -/
def Time.strike (t : Time) (n : Heat) (jump : Bool) : Time :=
  let passed := t.dev t.hk
  let rest := if jump then 0 else (passed - 256 * t.heatLen) % 256
  { t with
    heat := n, edge := none, ns := 0, frac := rest, sealDone := false, devBase := t.devBase + (if jump then t.ns else t.heatLen),
    hk := 0, base := rest, corr := 0, corrAt := 0, corrLen := 0, strikes := t.strikes + 1 }

/-- What every function, queue, chain and instance counts per heat begins anew (R130, R172, R179, R191). -/
def perHeat (s : State) : State :=
  { s with
    cmd := { s.cmd with visits := [false, false, false, false] }
    funcs := s.funcs.map (fun (x : Nat × Func) => (x.1, { x.2 with
      vecs := x.2.vecs.map (fun (v : Nat × Vec) => (v.1, { v.2 with sentInHeat := 0, counted := false })),
      q := { x.2.q with
        deficit := 0, lastCu := x.2.q.heatCu, heatCu := 0,
        chain := x.2.q.chain.map (fun (c : Chain) => { c with age := c.age + 1 }) } })),
    ins := { s.ins with ins := s.ins.ins.map (fun (x : Nat × Ins) => (x.1, { x.2 with heatCu := 0 })) } }

/-- Register settings that take effect at a strike (R87, R188, R361, R395; spec/13_cluster_time.md, Configuration). -/
def settings (s : State) : State :=
  { s with
    time := { s.time with guard := s.fld Reg.guard },
    cmd := { s.cmd with quantum := s.fld Reg.quantum },
    rul := { s.rul with period := s.fld Reg.agePeriod, limit := s.fld Reg.ageLimit },
    tm := { s.tm with quantum := s.fld Reg.tmQuantum, stale := s.fld Reg.staleMax },
    tim := { s.tim with minSync := s.fld Reg.minSync } }

/-- The quench goes on at a strike: admission refuses every frame from now; without a schedule image there is no own slot to
wait for (Table 15.5, steps 2 and 3). -/
def quenchStrike (s : State) : State :=
  if s.pwr.quench != 1 then s
  else
    let s1 := { s with pwr := { s.pwr with quench := 2 } }
    if s1.vrs.img.isNone then quenchLanes s1 else s1

/-- The registers of cluster time are latched from the heat that ends, under the state it had (Table 13.11). -/
def timeClose (s : State) (st : Nat) : State :=
  let now := s.tim.st
  let s1 := timeLatch { s with tim := { s.tim with st := st } }
  { s1 with tim := { s1.tim with st := now } }

/-- Time states and cluster units at a strike of the device's own (R541 to R543, R550). -/
def timeEdge (s : State) (n : Heat) : State :=
  let s1 := reclass (timeClose (timeStrike s) s.tim.st)
  { s1 with tim := { s1.tim with units := s1.tim.units.map (unitStrike s1 n) } }

/-- Sampling and everything after it (Table 2.1, orders 3, 4 and 6), and the budget of the heat that begins. -/
def edgeEnd (s0 : State) (n : Heat) (x : StrikeIn) : State :=
  let s1 := hintsVisible (mboxVisible (sampleSensors (isolateStrike (sampleIo s0 x.pins)) x))
  let s2 := if s1.cmd.fw == .run then { s1 with pwr := { s1.pwr with hintHeld := false } } else s1
  let s3 := triadsStrike (bandAtStrike (latchIo s2 n)) n
  let s4 := sbLatch (virasLatch s3)
  let s5 := quenchStrike (lanesStrike s4 x.lanes)
  let s6 := perHeat (settings s5)
  let s7 := reclass { s6 with time := { s6.time with rate := rateNow s6 } }
  let s8 := if n.toNat % 1024 = 0 then { s7 with log := { s7.log with flushDue := true } } else s7
  (planBudget (overrunStrike s8) x).raise Reg.stkStatus 0 1

/-- The actions of the strike edge that begins heat `n` are under way (R5). -/
def onEdge (s : State) (n : Heat) : State := { s with time := { s.time with edge := some n } }

/-- Errors and replays of one host link in the heat that ends (R148, Table 3.10; log entry 84). -/
def linkErrors (s : State) (l : Nat) (e : Nat × Nat) : State :=
  if !(s.link l).trained ∨ e.1 + e.2 = 0 then s
  else aer ((s.add (Ctr.corrErr (2 * l)) e.1).add (Ctr.replay (2 * l)) e.2) (2 * l) Aer.receiver

/-- What the links and the lanes counted in the heat that ends goes into their counters before the snapshot (R58, R148, R254). -/
def heatCounts (s : State) (x : StrikeIn) : State :=
  lanesCount ((x.links.zip [0, 1]).foldl (fun s e => linkErrors s e.2 e.1) s) x.lanes

/-- The strike edge that begins heat `n` of the device's own time; an instance becomes FREE at a strike after the one at
which it entered RELEASING (Table 5.2). -/
def strikeEdge (s : State) (n : Heat) (x : StrikeIn) : State :=
  let s0 := onEdge (finishJobs s) n
  let s1 := snapshot (heatCounts (triadsEdge s0) x) n
  let s2 := timeEdge (virasClose s1) n
  let s3 := { s2 with time := s2.time.strike n false }
  let s4 := match x.logFail with | some bad => logFails s3 bad | none => s3
  (edgeEnd (gatesAtStrike (activate (releaseIdle s4) n)) n x).dueNow

/-- STRIKE (R51, R57): time comes to the end of the heat. Where an adoption strike comes first, or the device is held in
reset or halted, there is none. -/
def execStrike (x : StrikeIn) (s : State) : Host.Outcome State Fault Refusal :=
  let first := match s.tim.adopt with | some a => decide (a.2 ≤ s.time.refNow + s.toStrike) | none => false
  if s.boot.stopped || first then .next s
  else .next (strikeEdge s.toEnd (s.time.heat + 1) x)

-- Adoption of cluster time (R54, R538, R557, R776).

/-- Commands whose items had sealed and are now discarded (R54); items that the device staged itself belong to none. -/
def discardedCmds (s : State) : Nat :=
  ((s.staging.items.filter (fun i => i.isSealed && (match i.owner with | .queue f => decide (f < 4096) | .mbox => true))).map
    (fun i => (i.unit, i.mem))).eraseDups.length

/-- The members of every open chain are answered ABORTED with TIME_JUMP (R54). -/
def abortOpenChains (s : State) : State :=
  s.funcs.foldl (fun s x =>
    match x.2.q.chain with
    | none => s
    | some ch =>
      ch.members.foldl (fun s m => s.issueReply x.1
        { tag := m.tag, status := St.aborted, detail := 4, heat := s.time.heat, phase := false, result := 0 } true)
        (dropChain s x.1)) s

/-- The commands in work at a jump: one that has yet to seal is discarded with the cycles that are left of it, `gone` in all; the
others go on (R54, R776). -/
def jumpJobs : List Job → Nat → Nat → List Job × Nat
  | [], _, gone => ([], gone)
  | j :: t, prev, gone =>
    match j.fin with
    | .reply .. => let (r, g) := jumpJobs t j.left gone; ({ j with left := j.left - gone } :: r, g)
    | _ => jumpJobs t j.left (gone + min j.own (j.left - prev))

/-- Cycles of commands that are no longer to be done, taken from the oldest carried work on. -/
def dropCmds : List Work → Nat → List Work
  | [], _ => []
  | w :: t, n => { w with cmds := w.cmds - n } :: dropCmds t (n - w.cmds)

/-- A command in work that has yet to seal is answered ABORTED with TIME_JUMP (R54); the members of a chain are answered with
it. -/
def abortJob (s : State) (j : Job) : State :=
  match j.fin with
  | .seal u _ _ _ => answer (dropUnit s u) j.cmd St.aborted 4 { status := St.aborted } s.time.heat 0
  | _ => s

/-- The commands in work that a jump discards (R54). -/
def abortJobs (s : State) : State :=
  let (keep, gone) := jumpJobs s.cmd.jobs 0 0
  s.cmd.jobs.foldl abortJob { s with
    cmd := { s.cmd with jobs := keep }, budget := { s.budget with carried := dropCmds s.budget.carried gone } }

/-- Every staged item is discarded; cluster units get their second reply (R54, R557). -/
def jumpDiscard (s : State) : State :=
  let s1 := abortOpenChains (abortJobs s)
  let s2 := s1.tim.units.foldl (fun s u => abortUnit s u 0 4) s1
  { s2 with staging := { s2.staging with items := [], barriers := [] } }

/-- The time state becomes INTEGRATE, which falls back to the state in which the copy was accepted (R538, R542). -/
def jumpState (s : State) : State :=
  let was := s.tim.st
  let s1 := enterTime s 3
  reclass { s1 with tim := { s1.tim with from_ := was, adopt := none, txOn := false, prevValid := false } }

/-- An adoption strike before the seal point closes the heat: no overrun is judged, and its unfinished work is carried (R776). -/
def jumpCarry (s : State) : State :=
  if s.time.sealDone then s
  else { s with budget := { s.budget.close with overrun := false, cause := 0 }, time := { s.time with sealDone := true } }

/-- The adoption strike: device time becomes heat `n` of length `len`. -/
def jumpEdge (s : State) (n : Heat) (len : Nat) (x : StrikeIn) : State :=
  let s0 := onEdge (finishJobs s) n
  let old := s0.time.heat
  let lost := discardedCmds s0
  let s1 := snapshot (heatCounts (triadsEdge (jumpCarry s0)) x) n
  let s2 := timeClose (virasClose s1) s1.tim.st
  let s3 := setHeatLen { s2 with time := s2.time.strike n true } (old + 1) len
  let s4 := if len = s0.time.heatLen then s3 else { s3 with tim := { s3.tim with ptpHeat := n } }
  let s5 := match x.logFail with | some bad => logFails s4 bad | none => s4
  let s6 := ((s5.inc Ctr.timAdopt).post 0x1010 (leBytes 6 old.toNat ++ leBytes 4 lost)).raise Reg.stkStatus 4 1
  (edgeEnd (gatesAtJump (jumpState (jumpDiscard (releaseIdle s6)))) n x).dueNow

/-- TIME_JUMP (R54, R538): the adoption strike comes, unless the device's own strike comes first. -/
def execTimeJump (x : StrikeIn) (s : State) : Host.Outcome State Fault Refusal :=
  match s.tim.adopt with
  | none => .next s
  | some (n, t) =>
    if s.boot.stopped then .next s
    else
      let s1 := s.upTo t
      if s1.toStrike < t - s1.time.refNow then .next s
      else .next (jumpEdge (s1.advance (t - s1.time.refNow)) n s.tim.adoptLen x)

-- The seal point and the pulse.

/-- SEAL_POINT (R61, R73) of heat `h`: what is unfinished then is judged, and what has been served ends. -/
def execSealPoint (h : Heat) (s : State) : Host.Outcome State Fault Refusal :=
  if h != s.time.heat || s.time.sealDone || s.boot.stopped then .next s else .next (s.atNs s.sealNs (fun s => finishJobs s.judge))

/-- STRIKE_IO_PULSE_END (R85): the pins in mode PULSE go low. -/
def execStrikeIoPulseEnd (s : State) : Host.Outcome State Fault Refusal :=
  if s.io.pulsing = 0 || s.boot.stopped then .next s
  else .next (s.atNs s.pulseNs (fun s => s.endPulse))

end Sys2Proof.Machine
end

