-- ==== Sys2Proof/Machine/Reads.lean ====
section
/-!
DEFINITION. Register reads: what a memory read of 4 or 8 bytes of BAR0 or BAR2, or a read of a field of configuration space,
returns, and the shadows of multi-word reads (spec/00_scope.md R10 to R25, the column "Read returns" of Table 0.4;
spec/02_strike.md R55; spec/03_host_link.md R99 to R110; the field tables of every chapter; spec/20_register_index.md).
-/

namespace Sys2Proof.Machine

-- Counters (R9, R14, R767 to R769).

/-- Where the 64-bit counters of PF0 BAR0 lie (Table 20.1 and the tables it names): first offset, bytes of counters, stride and
number of repetitions. -/
def counterAreas : List (Nat × Nat × Nat × Nat) :=
  [(0x001008, 56, 0x40, 2), (0x010040, 24, 0, 1), (0x010180, 56, 0, 1), (0x020100, 72, 0, 1), (0x021100, 48, 0, 1),
   (0x030020, 32, 0, 1), (0x031020, 32, 0, 1), (0x040028, 16, 0x40, 2), (0x040118, 24, 0, 1), (0x080108, 40, 0, 1),
   (0x090008, 8, 0x10, 4096), (0x100100, 72, 0x80, 3), (0x100300, 24, 0, 1)] ++
  [0, 1, 2].map (fun c => (0x100408 + 0x100 * c, 16, 0x20, 8)) ++
  [(0x101018, 16, 0, 1), (0x101120, 64, 0x80, 8), (0x200010, 24, 0x100, 16), (0x201010, 48, 0x100, 16),
   (0x300100, 160, 0x1000, 16), (0x300200, 320, 0x1000, 16), (0x400000, 56, 0, 1), (0x400140, 112, 0, 1),
   (0x401000, 16, 0x10, 64), (0x500040, 64, 0, 1), (0x501000, 128, 0x100, 18), (0x503000, 144, 0, 1),
   (0x510000, 16, 0x10, 4096), (0x600100, 88, 0, 1), (0x601010, 72, 0x100, 16), (0x700100, 80, 0, 1)]

/-- A counter of PF0 BAR0 lies at an offset. -/
def isCounter (k : Nat) : Bool :=
  k % 8 == 0 && counterAreas.any (fun a =>
    decide (a.1 ≤ k) &&
    (if a.2.2.1 = 0 then decide (k < a.1 + a.2.1)
     else decide ((k - a.1) % a.2.2.1 < a.2.1) && decide ((k - a.1) / a.2.2.1 < a.2.2.2)))

/-- A counter of the function status page lies at a page offset (Tables 3.11, 18.13): those of a link are PF0's. -/
def isPageCounter (f y : Nat) : Bool :=
  y % 8 == 0 && ((decide (0x10 ≤ y) && decide (y ≤ 0x40)) || (State.isPf0 f && decide (0x108 ≤ y) && decide (y ≤ 0x118)))

/-- The counter that holds the register at an offset of a BAR, if one does: its key, and whether it is the copy in the snapshot
bank (R767, R768). -/
def counterAt (f : Nat) (space : Space) (off : Nat) : Option (Bool × Nat) :=
  let k := off / 8 * 8
  let page := (bar2Bases f).2.2
  match space with
  | .bar0 =>
    if State.isPf0 f then
      if k < 0x800000 then (if isCounter k then some (false, k) else none)
      else if k < 0x1000000 then (if isCounter (k - 0x800000) then some (true, k - 0x800000) else none)
      else
        let id := (k - 0x1000000) / 0x200
        let y := (k - 0x1000000) % 0x200
        if id < 4096 && isPageCounter id y then some (true, fspKey id y) else none
    else if k = 0x28 ∨ k = 0x30 then some (false, 0x8000000 + 0x10000 * f + k) else none
  | .bar2 => if page ≤ k && isPageCounter f (k - page) then some (false, fspKey f (k - page)) else none
  | .cfg => none

/-- The value of a counter, live or as the last strike copied it (R14, R23). -/
def counterVal (s : State) (bank : Bool) (key : Nat) : Nat := (if bank then mGetD s.snap.ctrs key 0 else s.ctr key).toNat

-- Registers of PF0 BAR0.

/-- Words of a number of which a register range shows 32 bits each. -/
def wordOf (v k : Nat) : Nat := v / 2 ^ (32 * k) % 2 ^ 32

/-- The queue block of a function (Table 4.14). -/
def queueBlockRead (s : State) (f o : Nat) : Nat :=
  let q := (s.func f).q
  let x := s.insOf f
  if o = 0x00 then wordOf q.base 0
  else if o = 0x04 then wordOf q.base 1
  else if o = 0x08 then q.logSlots
  else if o = 0x0C then wordOf q.replyBase 0
  else if o = 0x10 then wordOf q.replyBase 1
  else if o = 0x14 then q.logReplies
  else if o = 0x18 then b2n q.enable
  else if o = 0x1C then q.consumer + (match q.st with | .idle => 0 | .run => 1 | .error => 2) * 2 ^ 16
  else if o = 0x20 then q.replyProd + b2n q.phase * 2 ^ 16
  else if o = 0x24 then (if x.st == .free then 0 else x.weight + x.level * 2 ^ 11)
  else if o = 0x38 then State.backlog q
  else 0

/-- The bytes of a reply (Table 4.3). -/
def replyBytes (r : Reply) : List Byte :=
  leBytes 4 r.tag.toNat ++ leBytes 1 r.status ++ leBytes 3 r.detail.toNat ++ leBytes 6 r.heat.toNat ++ leBytes 2 (b2n r.phase) ++
  leBytes 16 r.result.toNat

/-- CMD_FW_STATE and CMD_MBOX_CTRL.SERVER (Table 4.15); during a restart or the boot nobody serves (log entry 87). -/
def fwCode : FwState → Nat
  | .boot => 0
  | .run => 1
  | .restart => 2
  | .lifeboat => 3
def serverCode : FwState → Nat
  | .run => 1
  | .lifeboat => 2
  | _ => 0

/-- ID_ and SB_ registers that have a home of their own (Tables 16.13 and 17.9). -/
def idRegs (s : State) : SMap Nat :=
  let run := s.nvm.running
  let sb (p : Nat) : Nat :=
    match mGet? s.sb p with | some x => x.eid + x.addr * 2 ^ 8 + x.speed * 2 ^ 15 | none => 0
  [(0x000, 0x01601F8C), (0x004, 0x10B0), (0x008, match run with | some r => r.2.1 | none => 0),
   (0x00C, match run with
      | some r => r.1 + s.nvm.floor * 2 ^ 8 + r.2.2.1 * 2 ^ 16
      | none => 2 + s.nvm.floor * 2 ^ 8),
   (0x010, wordOf Config.serial.toNat 0), (0x014, wordOf Config.serial.toNat 1), (0x018, wordOf Config.serial.toNat 2),
   (0x01C, wordOf Config.serial.toNat 3), (0x020, b2n s.nvm.certBad),
   (0x040, s.boot.stage + s.boot.lbReason * 2 ^ 4 + s.boot.failed * 2 ^ 8 + s.boot.bootMs * 2 ^ 16),
   (0x044, s.boot.cause),
   (0x048, b2n s.boot.strapHub + 2 * b2n s.boot.strapBoot + 4 * b2n s.boot.strapLink + s.boot.strapNode * 2 ^ 8),
   (0x1000, sb 0), (0x1040, sb 1)]

/-- STK_ and TIM_ registers that have a home of their own (Tables 2.7, 2.9, 13.11), as a requester's link reads them (R55). -/
def stkRegs (s : State) (l : Nat) : SMap Nat :=
  let seen := (mGetD s.shadows l Shadow.fresh).heat.getD 0
  [(0x010000, s.time.ns + s.time.cls * 2 ^ 24), (0x010004, wordOf seen.toNat 0), (0x010008, wordOf seen.toNat 1),
   (0x010010, wordOf s.snap.heat.toNat 0), (0x010014, wordOf s.snap.heat.toNat 1), (0x010020, s.time.heatLen),
   (0x010030, s.word 0x010030 + b2n s.time.refHold * 2 ^ 5),
   (0x010100, s.tim.st + s.time.cls * 2 ^ 4 + s.tim.usedCnt * 2 ^ 8),
   (0x010120, wordOf s.tim.ptpHeat.toNat 0), (0x010124, wordOf s.tim.ptpHeat.toNat 1), (0x010128, wordOf s.tim.ptpSec 0),
   (0x01012C, wordOf s.tim.ptpSec 1), (0x010130, s.tim.ptpNs)]

/-- PWR_ and THM_ registers that have a home of their own (Tables 15.9, 15.10). -/
def pwrRegs (s : State) : SMap Nat :=
  [(0x020028, ratioCode s + s.pwr.ceiling * 2 ^ 4 + hintPins s * 2 ^ 8 + s.pwr.target * 2 ^ 11),
   (0x02002C, iEst s % 2 ^ 24), (0x020030, Config.dynFull), (0x020034, s.pwr.belowSoft + s.pwr.failed * 2 ^ 16),
   (0x021014, ofInt 16 s.pwr.temp + s.pwr.hottest * 2 ^ 16 + s.pwr.ceiling * 2 ^ 20 + b2n s.pwr.warn * 2 ^ 22 +
     b2n (s.pwr.ceiling != 0) * 2 ^ 23),
   (0x021018, b2n s.pwr.tripped + 2 * b2n s.pwr.quenched)]

/-- SEQ of the oldest entry in the active ring; that of the next entry where the ring is empty (log entry 87). -/
def seqOldest (s : State) : Nat :=
  match (if s.log.fallback then s.log.fb else s.log.main) with
  | e :: _ => e.seq.toNat
  | [] => s.log.seqNext.toNat

/-- LOG_ and NVM_ registers that have a home of their own (Table 16.14). -/
def logRegs (s : State) : SMap Nat :=
  let h := s.nvm.govern
  [(0x030000, s.word 0x030000 + b2n s.log.memFail * 2 ^ 3 + b2n s.log.fallback * 2 ^ 4), (0x030008, s.log.seqNext.toNat),
   (0x03000C, s.log.seqFlushed.toNat), (0x030010, seqOldest s),
   (0x031000, s.word 0x031000 + b2n s.nvm.cur.isSome + b2n s.nvm.session.isSome * 2 ^ 3), (0x031008, s.nvm.mib),
   (0x03100C, h.active + 2 * b2n h.trial + h.count * 2 ^ 8 + (s.nvm.img s.nvm.inactive).mark * 2 ^ 16)]

/-- LOG_RECENT (R670): the 16 newest entries of the active ring, each at its SEQ mod 16. -/
def logRecent (s : State) (o : Nat) : Nat :=
  let ring := if s.log.fallback then s.log.fb else s.log.main
  match (ring.drop (ring.length - 16)).find? (fun e => e.seq.toNat % 16 == o / 32) with
  | some e => dn e.bytes (o % 32 + 3) (o % 32)
  | none => 0

/-- CMD_ registers that have a home of their own, the queue blocks apart (Table 4.15). -/
def cmdRegs (s : State) : SMap Nat :=
  let m := s.cmd.mbox
  [(0x040100, fwCode s.cmd.fw), (0x040200, m.owner),
   (0x040204, 2 * b2n m.busy + 4 * b2n m.done + serverCode s.cmd.fw * 2 ^ 4)]

/-- CMD_MBOX_REPLY. -/
def mboxReply (s : State) (o : Nat) : Nat := match s.cmd.mbox.reply with | some r => dn (replyBytes r) (o + 3) o | none => 0

/-- INS_ pool registers, INS_STATE and ITU_STATUS (Table 5.13). -/
def insRead (s : State) (off : Nat) : Option Nat :=
  if off < 0x080038 then some (if off % 8 = 0 then poolTotal ((off - 0x080000) / 8) else freeOf s ((off - 0x080000) / 8))
  else if off = 0x080100 then some (s.word off + s.ins.faults.length)
  else if 0x090000 ≤ off ∧ off % 16 = 0 then some (insWord (s.insOf ((off - 0x090000) / 16)))
  else none

/-- A channel of VRS_CHAN_STATE (Table 12.11). -/
def chanWord (s : State) (c : Nat) : Nat :=
  let x := s.vlink (upKey c)
  let st := if (s.vchan c).down then 0 else if s.vmode c = 2 ∧ !s.topOn c then x.st else if linkUp s c then 2 else 0
  s.vmode c + st * 4 + (if s.vmode c = 2 then (if s.topOn c then (match s.vrs.img with | some m => m.starRate | none => 0) else x.rate) * 16
    else 0)

/-- VRS_BR_STATE of a branch (Table 12.11). -/
def branchWord (s : State) (c b : Nat) : Nat :=
  let x := s.vlink (8 * c + b)
  x.st + x.node * 2 ^ 8 + b2n x.idValid * 2 ^ 14 + b2n x.shut * 2 ^ 16

/-- VRS_ and TRI_ registers that have a home of their own (Tables 12.11 and 14.8). -/
def vrsRegs (s : State) : SMap Nat :=
  [(0x100000, s.vrs.node + b2n s.vrs.hub * 2 ^ 8), (0x100004, chanWord s 0 + chanWord s 1 * 2 ^ 8 + chanWord s 2 * 2 ^ 16),
   (0x100008, s.word 0x100008 + b2n s.vrs.guardCrc * 2 ^ 7),
   (0x10100C, b2n s.tri.isoA + 2 * b2n s.tri.isoB + 4 * b2n (s.tri.isoA != s.tri.isoB) + 8 * b2n s.tri.isolated +
     16 * b2n s.tri.latched),
   (0x101010, s.word 0x101010 + 0x2A)]

/-- Lane and port registers, and LN_GLOBAL_STATUS (Tables 6.8 to 6.10). -/
def lnRead (s : State) (off : Nat) : Option Nat :=
  let o := off % 0x100
  if off = 0x202000 then some (s.word off + b2n s.time.refHold)
  else if off < 0x201000 then
    let x := s.lane ((off - 0x200000) / 0x100)
    if o = 0 then
      some (b2n x.sig + 2 * b2n x.cdr + 4 * b2n x.align + 8 * b2n x.failed + b2n x.fixed * 2 ^ 4 + b2n (!x.powered) * 2 ^ 6 +
        x.reason * 2 ^ 8)
    else if o = 4 then some x.eqTx
    else if o = 8 then some x.eqRx
    else if o = 0xC then some (x.ppm % 2 ^ 24)
    else none
  else if off < 0x202000 then
    let p := (off - 0x201000) / 0x100
    if o = 0 then some (portWord s p)
    else if o = 4 then some (portFailed s p)
    else if o = 8 then
      some (match (s.port p).cfg with | some c => c.flags % 16 + maskOf (cfgLanes s p) * 2 ^ 16 | none => 0)
    else none
  else none

/-- MAC_ registers of a port (Table 7.6). -/
def macRead (s : State) (p o : Nat) : Option Nat :=
  let m := s.mac p
  let c := m.cfg
  if o = 0x00 then some (c.maxFrame + b2n c.cut * 2 ^ 16)
  else if o = 0x04 then some (c.fcMode + c.honour * 2 ^ 8 + c.generate * 2 ^ 16)
  else if o = 0x08 then some (c.wdLimit + c.recovery * 2 ^ 16)
  else if o = 0x0C then some c.quanta
  else if o = 0x10 then
    some (maskOf ((List.range 8).filter (paused s p)) + classMask s p (fun x => x.recoverTo.isSome) * 2 ^ 8 +
      classMask s p (·.xoff) * 2 ^ 16 + classMask s p (·.capped) * 2 ^ 24)
  else if o = 0x14 then
    some (b2n c.preEn + 2 * b2n c.verifyDis + c.addFrag * 2 ^ 2 + c.express * 2 ^ 8 + c.verifyTime * 2 ^ 16)
  else if o = 0x18 then some (c.holdAdv + c.relAdv * 2 ^ 16)
  else if o = 0x1C then some (m.verify + b2n m.preActive * 2 ^ 3 + b2n m.hold * 2 ^ 4)
  else if o = 0x20 then
    some (b2n m.gate.isSome + (match m.gate with | some g => 2 * b2n g.locked | none => 0) + 4 * b2n m.next.isSome +
      gatesNow m * 2 ^ 8 + m.gateIdx * 2 ^ 16)
  else match m.gate with
    | none => if o = 0x24 ∨ o = 0x28 ∨ o = 0x2C ∨ o = 0x30 then some 0 else none
    | some g =>
      if o = 0x24 then some (cycleOf s g)
      else if o = 0x28 then some g.startNs
      else if o = 0x2C then some (wordOf g.startHeat.toNat 0)
      else if o = 0x30 then some (wordOf g.startHeat.toNat 1)
      else none

/-- PRS_, RUL_, CIP_ and STO_ registers that have a home of their own (Tables 8.15, 10.13, 11.10). -/
def pipeRegs (s : State) : SMap Nat :=
  [(0x400040, s.rul.vxlan + s.rul.geneve * 2 ^ 16), (0x400044, s.rul.nvme), (0x400110, s.rul.aged.length),
   (0x400114, s.rul.flows.length), (0x600008, s.cip.slots.length + 1), (0x700008, s.sto.conns.length),
   (0x70000C, 0x200000 - slotsBut s (2 ^ 40))]

/-- CIP_SECY_STATUS of a port (Table 10.13). -/
def secyWord (s : State) (p : Nat) : Nat :=
  let y := s.secy p
  b2n y.enable + 2 * b2n y.enable + 4 * b2n (y.enable && y.protect) + y.an * 2 ^ 3

/-- TM_REGION_FREE and the occupancies of a root (Table 9.8), in whole KiB (log entry 86). -/
def tmRead (s : State) (off : Nat) : Option Nat :=
  let r := (off - 0x501000) / 0x100
  let o := off % 0x100
  if off < 0x500010 then none
  else if off < 0x500020 then some (regionFree s ((off - 0x500010) / 4) / 4)
  else if off < 0x501000 ∨ 0x502200 ≤ off then none
  else if 0x80 ≤ o ∧ o < 0xA0 ∧ r < 16 then some (occIng s r ((o - 0x80) / 4) / 4)
  else if 0xA0 ≤ o ∧ o < 0xC0 then
    let c := (o - 0xA0) / 4
    some (s.tm.queues.foldl (fun a q =>
      if keyRoot q.1 = r ∧ keyClass q.1 = c then a + occQueue s r (keyOwner q.1) c else a) 0 / 4)
  else none

/-- A register of PF0 BAR0 that is no counter, as a requester's link reads it: a register with a home of its own, else the word of
the register file, in which a reserved field, a write-only field and an offset without a register are 0 (R10, R13, R17). -/
def pf0Read (s : State) (l off : Nat) : Nat :=
  let fixed (m : SMap Nat) : Nat := (mGet? m off).getD (s.word off)
  if off < 0x010000 then fixed (idRegs s)
  else if off < 0x020000 then fixed (stkRegs s l)
  else if off < 0x030000 then fixed (pwrRegs s)
  else if off < 0x040000 then
    (if 0x030800 ≤ off ∧ off < 0x030A00 then logRecent s (off - 0x030800) else fixed (logRegs s))
  else if off < 0x040040 then queueBlockRead s 0 (off - 0x040000)
  else if off < 0x040080 then (if s.enabledLinks.contains 1 then queueBlockRead s 2 (off - 0x040040) else 0)
  else if off < 0x080000 then
    (if 0x040440 ≤ off ∧ off < 0x040460 then mboxReply s (off - 0x040440) else fixed (cmdRegs s))
  else if off < 0x100000 then (insRead s off).getD (s.word off)
  else if off < 0x200000 then
    (if 0x100400 ≤ off ∧ off < 0x100700 ∧ off % 0x20 = 0 then branchWord s ((off - 0x100400) / 0x100) (off % 0x100 / 0x20)
     else fixed (vrsRegs s))
  else if off < 0x300000 then (lnRead s off).getD (s.word off)
  else if off < 0x400000 then
    (if off < 0x310000 then (macRead s ((off - 0x300000) / 0x1000) (off % 0x1000)).getD (s.word off) else 0)
  else if 0x500000 ≤ off ∧ off < 0x600000 then (tmRead s off).getD (s.word off)
  else if 0x601000 ≤ off ∧ off < 0x602000 ∧ off % 0x100 = 0 then secyWord s ((off - 0x601000) / 0x100)
  else if off < 0x800000 then fixed (pipeRegs s)
  else 0

/-- The instance window of PF1 or a VF (Table 5.14). -/
def windowRead (s : State) (f off : Nat) : Nat :=
  let x := s.insOf f
  let w (k : Nat) : Nat := x.win.getD k 0
  if off < 0x40 then queueBlockRead s f off
  else if off = 0x100 then f + insWord x % 64 * 2 ^ 16
  else if off = 0x104 then b2n x.grantChg + 2 * b2n x.limitChg + 4 * b2n x.ituFault
  else if off = 0x108 then wordOf x.grantHeat.toNat 0
  else if off = 0x10C then wordOf x.grantHeat.toNat 1
  else if 0x110 ≤ off ∧ off < 0x12C ∧ off % 4 = 0 then w ((off - 0x110) / 4)
  else if off = 0x130 then w 7
  else if off = 0x134 then w 8
  else if off = 0x138 then w 9 * 2 ^ 16 + w 10
  else if off = 0x13C then w 11
  else 0

/-- The function status page (Table 3.11). -/
def pageRead (s : State) (f y : Nat) : Nat :=
  let x := s.func f
  let k := s.link (s.linkOf f)
  let kind := if State.isPf0 f then 0 else if f < 4 then 1 else 2
  if y = 0 then f + s.linkOf f * 2 ^ 16 + kind * 2 ^ 17
  else if y = 4 then b2n x.qerr + 2 * b2n x.dbErr + 4 * b2n x.dmaErr
  else if y = 0x100 ∧ State.isPf0 f then k.width + k.speed * 2 ^ 4 + b2n k.flit * 2 ^ 8
  else 0

/-- BAR2 (Table 3.3): the doorbells read 0 (R109); MSI-X table, PBA, moderation table and function status page. -/
def bar2Read (s : State) (f off : Nat) : Nat :=
  let (tab, mod, page) := bar2Bases f
  let pba := if f < 4 then 0xC00000 else 0xC000
  let n := s.vecCount f
  let vec (k : Nat) : Vec := mGetD (s.func f).vecs k Vec.fresh
  if tab ≤ off ∧ off < tab + 16 * n then
    let v := vec ((off - tab) / 16)
    match (off - tab) % 16 with
    | 0 => wordOf v.addr.toNat 0
    | 4 => wordOf v.addr.toNat 1
    | 8 => v.data.toNat
    | _ => b2n v.mask
  else if pba ≤ off ∧ 8 * (off - pba) < n then
    maskOf ((List.range 32).filter (fun b => (vec (8 * (off - pba) + b)).pending))
  else if mod ≤ off ∧ off < mod + 8 * n then
    let v := vec ((off - mod) / 8)
    if (off - mod) % 8 = 0 then v.holdoff else v.maxPerHeat
  else if page ≤ off then pageRead s f (off - page)
  else 0

/-- Code of a payload or request size: 128 · 2^n bytes (Table 3.1). -/
def sizeCode (n : Nat) : Nat := ((List.range 6).find? (fun k => 128 * 2 ^ k == n)).getD 0

/-- A read of a field of configuration space, by the field numbers of `cfgWrite` (log entry 29), and beyond them: 19 Vendor and
Device ID, 20 Revision ID and class code, 21 Subsystem IDs, 22 and 23 the Device Serial Number of a PF (R99, R100); of PF1: 24
TotalVFs (R103), 25 First VF Offset and VF Stride, 26 Supported Page Sizes (R107); 27 MSI-X Table Size, 28 Table Offset and BIR, 29
PBA Offset and BIR (R766). A BAR that is not implemented reads 0 (R105), as do all other fields. -/
def cfgRead (s : State) (f field : Nat) : Nat :=
  let l := s.linkOf f
  let k := s.link l
  let x := s.func f
  let boat := s.cmd.fw == .lifeboat
  let pf1 := f == 2 * l + 1
  let bar (b : Nat) (high : Bool) : Nat := if high then wordOf b 1 else wordOf b 0 + 4
  if field = 0 then sizeCode x.mps
  else if field = 1 then sizeCode x.mrrs
  else if field = 2 then b2n x.msixEn
  else if field = 3 then b2n x.funcMask
  else if field = 4 then b2n x.ats
  else if field = 5 then maskOf ((List.range 11).filter (fun e => mGetD x.aerSev e (e == Aer.malformed || e == Aer.surpriseDown)))
  else if field = 6 then b2n x.mse
  else if field = 7 then b2n k.ecrc
  else if field = 8 then (if pf1 then b2n k.vfMse else 0)
  else if field = 9 then b2n k.ecrcGen
  else if field = 10 then b2n k.aspm
  else if field = 11 then x.cplRange
  else if field = 12 then b2n x.cplOff
  else if field = 13 then (if pf1 then k.pageSize else 0)
  else if field = 14 ∨ field = 15 then bar x.bar0 (field == 15)
  else if field = 16 ∨ field = 17 then (if boat then 0 else bar x.bar2 (field == 17))
  else if field = 18 then (if pf1 then k.numVfs else 0)
  else if field = 19 then 0x1F8C + (if boat then 0x016F else if f < 4 then 0x0160 else 0x0161) * 2 ^ 16
  else if field = 20 then 0xB0 + 0x020000 * 2 ^ 8
  else if field = 21 then s.boot.subVendor + s.boot.subId * 2 ^ 16
  else if field = 22 ∨ field = 23 then (if f < 4 then wordOf Config.serial.toNat (field - 22) else 0)
  else if field = 24 then (if pf1 then totalVfs s l else 0)
  else if field = 25 then (if pf1 then 2 + 2 ^ 16 else 0)
  else if field = 26 then (if pf1 then 31 else 0)
  else if field = 27 then (if boat then 0 else s.vecCount f - 1)
  else if field = 28 then (if boat then 0 else (bar2Bases f).1 + 2)
  else if field = 29 then (if boat then 0 else (if f < 4 then 0xC00000 else 0xC000) + 2)
  else 0

-- A read as a requester sees it.

/-- A register word that is no counter. -/
def plainRead (s : State) (l f : Nat) (space : Space) (off : Nat) : Nat :=
  if lifeboatFunc s f then
    match space with
    | .bar0 =>
      (match lifeboatOffset off with
       | some o => pf0Read s l o
       | none => 0)
    | .bar2 => 0
    | .cfg => cfgRead s f off
  else
    match space with
    | .bar0 => if State.isPf0 f then pf0Read s l off else windowRead s f off
    | .bar2 => bar2Read s f off
    | .cfg => cfgRead s f off

/-- The counter at an offset of a BAR, through the layout of the lifeboat function where that is what is read (Table 17.6). -/
def counterSeen (s : State) (f : Nat) (space : Space) (off : Nat) : Option (Bool × Nat) :=
  if lifeboatFunc s f then
    match space, lifeboatOffset off with
    | .bar0, some o => counterAt f .bar0 o
    | _, _ => none
  else counterAt f space off

/-- The name under which a shadow belongs to a counter, live or in the bank (R22, R25). -/
def shadowName (c : Bool × Nat) : Nat := c.2 + (if c.1 then 2 ^ 40 else 0)

/-- A 32-bit register as a requester on a link reads it (R22): the high half of a counter comes from the requester's shadow where
that belongs to the counter. -/
def readWord (s : State) (l f : Nat) (space : Space) (off : Nat) : Nat :=
  match counterSeen s f space off with
  | none => plainRead s l f space off
  | some c =>
    let x := mGetD s.shadows l Shadow.fresh
    if off % 8 = 0 then wordOf (counterVal s c.1 c.2) 0
    else if x.ctr = some (shadowName c) then x.hi.toNat
    else wordOf (counterVal s c.1 c.2) 1

/-- The high half of a counter goes into a requester's shadow (R22, R25). -/
def takeShadow (s : State) (l : Nat) (c : Bool × Nat) : State :=
  { s with shadows := mMod s.shadows l Shadow.fresh (fun x =>
    { x with ctr := some (shadowName c), hi := BitVec.ofNat 32 (counterVal s c.1 c.2 / 2 ^ 32) }) }

/-- The heat number goes into a requester's shadow (R55). -/
def takeHeat (s : State) (l : Nat) : State :=
  { s with shadows := mMod s.shadows l Shadow.fresh (fun x => { x with heat := some s.time.heat }) }

/-- What a read does to the requester's shadows: a 32-bit read of a counter's low half (R22), and any read of STK_NS (R55). -/
def readEffect (s : State) (l f : Nat) (space : Space) (off size : Nat) : State :=
  let s1 := if State.isPf0 f && space == .bar0 && off == 0x010000 && !lifeboatFunc s f then takeHeat s l else s
  match counterSeen s f space off with
  | some c => if size = 4 ∧ off % 8 = 0 then takeShadow s1 l c else s1
  | none => s1

/-- What a read of 4 or 8 bytes returns (R21, R22, R108): 8 bytes of a counter are one whole value; otherwise the lower register
first. -/
def readValue (s : State) (l f : Nat) (space : Space) (off size : Nat) : Nat :=
  if size = 4 then readWord s l f space off
  else match counterSeen s f space off with
    | some c => counterVal s c.1 c.2
    | none => readWord s l f space off + readWord s l f space (off + 4) * 2 ^ 32

/-- A read is performed and its data sent (R10, R118). -/
def readBar (s : State) (l f : Nat) (space : Space) (off size : Nat) : State :=
  let s1 := readEffect s l f space off size
  s1.emitLink l (.readData l (readValue s1 l f space off size))

/-- An access is of 4 or 8 bytes, naturally aligned (R108). -/
def BarAccess.sizeOk (a : BarAccess) : Bool := (a.size == 4 || a.size == 8) && a.offset % a.size == 0

/-- MMIO_ACCESS (R10, R17, R108, R148): the checks in the order of Table 3.10, as for REGISTER_WRITE. A TLP that fails its ECRC check
is discarded; a read of unsupported size or alignment gets Completer Abort; one while Memory Space Enable is 0 is an unsupported
request; any other returns its data. An unsupported write is ignored; what a supported write does is REGISTER_WRITE's. -/
def execMmioAccess (a : BarAccess) (write ecrc : Bool) (s : State) : Host.Outcome State Fault Refusal :=
  let l := s.linkOf a.func
  if !(s.present a.func || lifeboatFunc s a.func) then .next s
  else if ecrc && ecrcOn s l then .next (ecrcFails s a.func)
  else if a.space == .cfg then (if write then .next s else .next (s.emitLink l (.readData l (cfgRead s a.func a.offset))))
  else if !BarAccess.sizeOk a then
    .next (((aer (if write then s else s.emitLink l (.cplAbort l true)) a.func Aer.completerAbort).inc (Ctr.mmioErr a.func)).post
      0x2040 [])
  else if !memOpen s a.func then
    .next (aer (if write then s else s.emitLink l (.cplAbort l false)) a.func Aer.unsupported)
  else if write then .next s
  else .next (readBar s l a.func a.space a.offset a.size)

/-- STK_NS_READ (R55): a 32-bit read of STK_NS by a requester on a link. -/
def execStkNsRead (r : LinkId) (s : State) : Host.Outcome State Fault Refusal :=
  .next (readBar s r (2 * r) .bar0 0x010000 4)

/-- COUNTER_LOW_READ (R22, R25): a 32-bit read of a counter's low half by a requester on a link (log entry 66): the live counter, or
its copy in the snapshot bank. -/
def execCounterLowRead (r : LinkId) (bank : Bool) (key : Nat) (s : State) : Host.Outcome State Fault Refusal :=
  let s1 := takeShadow s r (bank, key)
  .next (s1.emitLink r (.readData r (wordOf (counterVal s1 bank key) 0)))

end Sys2Proof.Machine
end

