-- ==== Sys2Proof/Machine/Reset.lean ====
section
/-!
DEFINITION. Meanings of power-up, the kinds of reset, the boot stages, the lifeboat, and the shutdowns for temperature
(spec/17_startup.md; spec/15_power_thermal.md, R626 to R629).
-/

namespace Sys2Proof.Machine

/-- STICKY counters (R11): firmware restarts, quenches, trips, torn writes, losses of the two links. -/
def stickyCtrs : List Nat :=
  [Ctr.fwRestart, Ctr.thmQuench, Ctr.thmTrip, Ctr.nvmTorn, Ctr.linkDown 0, Ctr.linkDown 2]

/-- What every reset leaves of the flash: its contents; no operation begins or goes on, and a session has ended (R683). An
operation whose INTENT stands is kept as the torn write that the next boot finds (R661). -/
def Nvm.afterReset (n : Nvm) : Nvm :=
  let k (p : ImgPart) : ImgPart := if p.mark = 1 then { p with mark := 0 } else p
  { n with
    mib := 0, imgA := k n.imgA, imgB := k n.imgB, session := none, waiting := [], running := none, chosen := none, runFrom := 0,
    certBad := false, cur := match n.cur with | some o => if o.isOpen then some { o with asker := .nobody } else none | none => none }

/-- The trained links go down with a reset or a halt: each is counted, and but for a warm reset recorded (Table 3.11, R150). -/
def linksDown (s : State) (record : Bool) : State :=
  [0, 1].foldl (fun s l =>
    if (s.link l).trained then
      let s1 := s.inc (Ctr.linkDown (2 * l))
      if record then s1.post 0x2002 [] else s1
    else s) s

/-- What a warm reset leaves (Table 17.4): STICKY fields, flash and fuses, the log rings until they are saved (R695), the
levels at the inputs, the straps, and of the sideband the terminus ID, the event receivers and the messages that wait; every
other field of a register takes its reset value (R12). -/
def warmClear (s0 : State) : State :=
  let s := linksDown s0 false
  let z := State.reset
  { z with
    time := { Time.reset with refHold := s.time.refHold },
    io := { z.io with pinIn := s.io.pinIn },
    ctrs := s.ctrs.filter (fun c => stickyCtrs.contains c.1),
    links := s.links.map (fun x => (x.1, { HostLink.fresh with perst := x.2.perst })),
    log := { s.log with flushDue := false },
    pwr := { PwrUnit.reset with
      alert := s.pwr.alert, quenched := s.pwr.quenched, tripped := s.pwr.tripped, tripHold := s.pwr.tripHold },
    tri := { TriUnit.reset with isoA := s.tri.isoA, isoB := s.tri.isoB },
    vrs := Viras.reset s.boot.strapHub s.boot.strapNode,
    nvm := s.nvm.afterReset,
    sb := s.sb.map (fun x => (x.1, { SbPort.reset (0x1D + x.1) 0 with tid := x.2.tid, receiver := x.2.receiver, tx := x.2.tx })),
    sbSeen := s.sbSeen,
    boot := { Boot.reset with
      strapHub := s.boot.strapHub, strapBoot := s.boot.strapBoot, strapLink := s.boot.strapLink, strapNode := s.boot.strapNode,
      cause := s.boot.cause, rstN := s.boot.rstN, railHold := s.boot.railHold, standby := s.boot.standby, stopped := true,
      deferred := s.boot.deferred.filter (fun e => e.1 == 0x9015) },
    env := s.env, out := s.out, free := s.free, pending := s.pending }

/-- The reset that now begins has a cause; causes that coincide are all shown (Table 17.9). -/
def withCause (s : State) (c : Nat) : State :=
  let old := if s.boot.rstN || s.boot.railHold then s.boot.cause else 0
  { s with boot := { s.boot with cause := maskOf (bitList old 5 ++ bitList c 5) } }

/-- The boot begins, where nothing holds the device in reset (R690, R694). A reference clock that is lost at this release is
recorded among the first entries of the new boot (R95). -/
def startBoot (s : State) : State :=
  if s.boot.rstN || s.boot.railHold || !s.boot.standby || s.pwr.tripHold then s
  else
    let lost := if s.time.refHold then [(0x1002, [])] else []
    { s with boot := { s.boot with stopped := false, stage := 1, deferred := s.boot.deferred ++ lost } }

/-- The trip ends below 105 °C with RST_N asserted (R629). -/
def endTrip (s : State) : State :=
  if s.pwr.tripHold && s.boot.rstN && decide (s.pwr.temp < 1680) then
    { s with pwr := { s.pwr with tripHold := false }, boot := { s.boot with cause := setBits s.boot.cause 3 3 1 } }
  else s

/-- POWER_ON_RESET (R689, R698): everything but fuses, flash and the levels at the inputs is cleared. -/
def execPowerOnReset (s : State) : Host.Outcome State Fault Refusal :=
  let z := State.reset
  .next { z with
    io := { z.io with pinIn := s.io.pinIn }, env := s.env, out := s.out, free := s.free, pending := s.pending,
    log := { Log.reset with page := s.log.page, pages := s.log.pages }, nvm := s.nvm.afterReset,
    tri := { TriUnit.reset with isoA := s.tri.isoA, isoB := s.tri.isoB },
    pwr := { PwrUnit.reset with alert := s.pwr.alert },
    boot := { Boot.reset with rstN := true, standby := false, stopped := true } }

/-- STANDBY_RELEASE (R689): VDD_AUX has stayed above 2.9 V for 10 ms; the sideband serves. -/
def execStandbyRelease (s : State) : Host.Outcome State Fault Refusal :=
  .next { s with boot := { s.boot with standby := true } }

/-- RST_N_ASSERT (R629, R698, R746): a warm reset, which lasts until the release. -/
def execRstNAssert (t : List Int) (s : State) : Host.Outcome State Fault Refusal :=
  if s.boot.rstN then .next (endTrip (setTemps s t))
  else
    let s1 := warmClear (withCause s 2)
    .next (endTrip (setTemps { s1 with boot := { s1.boot with rstN := true } } t))

/-- RAIL_DROP (R690, R713): a monitored rail is below 90 % of nominal. -/
def execRailDrop (s : State) : Host.Outcome State Fault Refusal :=
  if s.boot.railHold then .next s
  else
    let s1 := warmClear (withCause s 16)
    .next { s1 with boot := { s1.boot with railHold := true } }

/-- RAIL_RETURN (R690): the rails are back; the internal hold ends. -/
def execRailReturn (refLost : Bool) (s : State) : Host.Outcome State Fault Refusal :=
  if !s.boot.railHold then .next s
  else .next (startBoot { s with boot := { s.boot with railHold := false }, time := { s.time with refHold := refLost } })

/-- RST_N_RELEASE (R53, R95, R693, R694): the straps are sampled (bit 0 ROLE, 1 BOOT, 2 LINK, 8 to 13 NODE, as ID_STRAPS has
them), and the boot begins. -/
def execRstNRelease (straps : Nat) (refLost : Bool) (t : List Int) (s : State) : Host.Outcome State Fault Refusal :=
  if !s.boot.rstN then .next s
  else
    let s1 := endTrip (setTemps s t)
    let hub := bit straps 0
    let node := bits straps 13 8
    .next (startBoot { s1 with
      boot := { s1.boot with rstN := false, strapHub := hub, strapBoot := bit straps 1, strapLink := bit straps 2, strapNode := node },
      vrs := Viras.reset hub node, time := { s1.time with refHold := refLost } })

/-- A write to ID_RESET reaches the register: PF0, or the lifeboat function, of an enabled link is presented (R701). -/
def idReset (s : State) (l : Nat) : Bool := s.boot.presented && s.enabledLinks.contains l && !s.boot.stopped

/-- A warm reset asked for by the register comes after a page program in progress, or 4 ms later without its end (R707). -/
def registerReset (s0 : State) (pageDone lifeboat : Bool) : State :=
  let s := if programming s0 && pageDone then flashStep s0 true else s0
  let s1 := warmClear (withCause s 4)
  startBoot { s1 with boot := { s1.boot with lbRequest := lifeboat } }

/-- ID_RESET_WARM (R707). -/
def execIdResetWarm (l : LinkId) (pageDone : Bool) (s : State) : Host.Outcome State Fault Refusal :=
  if idReset s l then .next (registerReset s pageDone false) else .next s

/-- ID_RESET_LIFEBOAT (R699, R707). -/
def execIdResetLifeboat (l : LinkId) (pageDone : Bool) (s : State) : Host.Outcome State Fault Refusal :=
  if idReset s l then .next (registerReset s pageDone true) else .next s

/-- RESET_KEY (R707): a wrong key; the write is ignored and recorded. -/
def execResetKey (l : LinkId) (s : State) : Host.Outcome State Fault Refusal :=
  if idReset s l then .next (s.post 0x2091 []) else .next s

-- The boot (Table 17.3).

/-- The log of the previous boot is saved as far as it can be, and a new log begins (R668, R695). -/
def saveLog (s : State) (b : BootIn) : State :=
  let live := s.log.main.filter (fun e => s.unflushed e.seq)
  let good := live.filter (fun e => !b.badSeqs.contains e.seq && !s.log.badSeqs.contains e.seq)
  let l := good ++ (if s.log.fallback then s.log.fb.filter (fun e => s.unflushed e.seq) else [])
  let lost := if b.mib = 0 then live.length + (l.length - good.length) else live.length - good.length
  let s1 := if b.mib = 0 ∨ l.isEmpty then s else (pagesOf l.length l).foldl putPage (bootWrite s (.logPages (pagesOf l.length l) 0))
  let s2 := { s1 with log := { Log.reset with
    page := s1.log.page, pages := s1.log.pages, fallback := b.ringBad, memFail := s1.log.memFail || b.ringBad } }
  if b.ringBad then
    { s2 with boot := { s2.boot with deferred := s2.boot.deferred ++ [(0xA001, leBytes 4 lost)] } }
  else s2

/-- A torn write is undone (R661). -/
def undoTorn (s : State) : State :=
  match s.nvm.cur with
  | none => s
  | some o =>
    let n := { s.nvm with cur := none }
    let s1 : State := match o.what with
      | .record true _ _ _ => { s with nvm := { n with provUsed := n.provUsed + o.len } }
      | .record false _ _ _ => { s with nvm := { n with cfgUsed := n.cfgUsed + o.len } }
      | .image k _ _ =>
        { s with nvm := n.setImg k { data := (n.img k).data.filter (fun x => decide (4096 ≤ x.1)), mark := 0 } }
      | .logPages _ _ =>
        let done := o.programmed
        let mine (k : Nat) : Bool := (List.range done).any (fun j => k == (o.off / 256 + j) % 65536)
        let s' := { s with nvm := n, log := { s.log with pages := s.log.pages.filter (fun x => !mine x.1) } }
        if o.steps.head? = some .program then skipPage s' else s'
      | .header _ _ => { s with nvm := if o.off = 0 then { n with hdrA := none } else { n with hdrB := none } }
      | _ => { s with nvm := n }
    let s2 := (journalAdd s1 o 3 (crc32c (o.bytes s))).raise Reg.nvmStatus 2 0
    { s2 with boot := { s2.boot with
      deferred := s2.boot.deferred ++ [(0xA020, leBytes 1 o.part ++ leBytes 4 o.off ++ leBytes 4 o.len)] } }

/-- The provisioning record and the ROLE record come into force (R135, R496, R663, R679). -/
def readProv (s : State) : State :=
  let s1 := match recValue s.nvm.prov 0x0100 with
    | some v =>
      { s with
        boot := { s.boot with vfSplit := dn v 1 0, vfMsix := dn v 2 2, subVendor := dn v 4 3, subId := dn v 6 5, autoConfirm := dn v 10 10 == 1 },
        sb := s.sb.map (fun x => (x.1, { x.2 with
          addr := dn v (7 + x.1) (7 + x.1), speed := bits (dn v 9 9) (2 * x.1 + 1) (2 * x.1) })) }
    | none => { s with sb := s.sb.map (fun x => (x.1, { x.2 with addr := 0x1D + x.1, speed := 0 })) }
  match recValue s1.nvm.cfg 1 with
  | some [r] => if r = 0 then { s1 with vrs := { s1.vrs with hub := false } }
                else if r = 1 then { s1 with vrs := { s1.vrs with hub := true } } else s1
  | _ => s1

/-- The work of stage FLASH, whether or not a flash answers. -/
def flashStage (s : State) (b : BootIn) : State :=
  let s1 := { s with nvm := { s.nvm with mib := b.mib } }
  let s2 := saveLog (if b.mib = 0 then s1 else undoTorn s1) b
  if b.mib = 0 then s2 else readProv s2

/-- Events of the reference clock (R95) that come before the new boot can record them. -/
def refEvents (s : State) : List (Nat × List Byte) := s.boot.deferred.filter (fun e => e.1 == 0x1002 || e.1 == 0x1003)

/-- The boot ROM enters the lifeboat (R699, R701, R703); where stage FLASH has not been reached, its work on flash and log is
done then (log entry 53). It records what the reference clock did (R95); the latch of a hard trip stays for Odjan (R629). -/
def enterLifeboat (s0 : State) (b : BootIn) (reason : Nat) : State :=
  let s := if s0.boot.stage < 5 then flashStage s0 b else s0
  let s1 := { s with
    cmd := { s.cmd with fw := .lifeboat },
    boot := { s.boot with
      stage := 9, lbReason := reason, failed := b.failed % 32, presented := true,
      deferred := s.boot.deferred.filter (fun e => e.1 == 0x9015) } }
  let s2 := s1.post 0xA050 [BitVec.ofNat 8 reason, BitVec.ofNat 8 (b.failed % 32)]
  (refEvents s).foldl (fun s e => s.post e.1 e.2) s2

/-- The image that the boot ROM boots is chosen (R653 to R656): the boot header is rewritten where it must be, and what Odjan
is to record is noted. -/
def chooseImage (s0 : State) : Option State :=
  let h := s0.nvm.govern
  let revert := h.trial && decide (4 ≤ h.count + 1)
  let put (s : State) (h : BootHdr) : State :=
    let s1 := bootWrite s (.header h false)
    { s1 with nvm := s1.nvm.putHdr h }
  let s := if revert then put s0 (s0.nvm.nextHdr (1 - h.active) false 0)
    else if h.trial then put s0 (s0.nvm.nextHdr h.active true (h.count + 1)) else s0
  let n := s.nvm
  let k := n.govern.active
  let d1 : List (Nat × List Byte) := if revert then [(0xA012, leBytes 1 h.active)] else []
  match (n.img k).check n.floor with
  | none =>
    some { s with nvm := { n.mark k 2 with chosen := some k }, boot := { s.boot with deferred := s.boot.deferred ++ d1 } }
  | some r =>
    let n1 := n.mark k 0
    match (n1.img (1 - k)).check n1.floor with
    | none =>
      let s2 := put { s with nvm := n1 } (n1.nextHdr (1 - k) false 0)
      let n2 := s2.nvm.mark (1 - k) 2
      some { s2 with nvm := { n2 with chosen := some (1 - k) },
                     boot := { s.boot with deferred := s.boot.deferred ++ d1 ++ [(0xA011, leBytes 1 k ++ leBytes 1 r)] } }
    | some _ => none

/-- Odjan has been loaded from the chosen image. -/
def loadImage (s : State) : State :=
  match s.nvm.chosen with
  | none => s
  | some k =>
    let p := s.nvm.img k
    { s with nvm := { s.nvm with running := some (k, p.version, p.svn, p.read 0 168) } }

/-- BOOT_STAGE_DONE (R694 to R696, R699, R711): the stage in progress ends with what it found; the next begins, or the
lifeboat is entered. Where 115 °C was reached meanwhile, the boot stops there. -/
def execBootStageDone (b : BootIn) (s0 : State) : Host.Outcome State Fault Refusal :=
  if s0.boot.stopped || s0.cmd.fw != .boot then .next s0
  else if s0.boot.hot then .next { s0 with boot := { s0.boot with stage := 2, stopped := true } }
  else
    let s := setTemps s0 b.temps
    let go (s : State) (k : Nat) : State := { s with boot := { s.boot with stage := k } }
    .next (match s.boot.stage with
      | 1 =>
        if b.failed % 32 / 2 ≠ 0 then enterLifeboat s b 3
        else if s.boot.strapBoot then enterLifeboat s b 1
        else if s.boot.lbRequest then enterLifeboat s b 2
        else if 1520 ≤ s.pwr.temp then go s 2 else go s 3
      | 3 => go s 4
      | 4 => if bit b.failed 0 then enterLifeboat s b 3 else go s 5
      | 5 => let s1 := flashStage s b
             if b.mib = 0 then enterLifeboat s1 b 4 else go s1 6
      | 6 => (match chooseImage s with
              | some s1 => go { s1 with boot := { s1.boot with presented := true } } 7
              | none => enterLifeboat s b 5)
      | 7 =>
        let s1 := loadImage s
        { s1 with boot := { s1.boot with stage := 8, bootMs := min b.ms 0xFFFF } }
      | _ => s)

/-- TEMP_WAIT_RECHECK (R694, R711): below 95 °C the boot goes on; where 115 °C was reached it stops. -/
def execTempWaitRecheck (temps : List Int) (s : State) : Host.Outcome State Fault Refusal :=
  if s.boot.stopped || s.cmd.fw != .boot || s.boot.stage != 2 then .next s
  else
    let s1 := setTemps s temps
    .next (if s1.boot.hot then { s1 with boot := { s1.boot with stopped := true } }
      else if s1.pwr.temp < 1520 then { s1 with boot := { s1.boot with stage := 3 } } else s1)

-- Shutdowns for temperature.

/-- Core, management and lane domains stop; both host links go down; staged items and the state of commands are gone
(R626, R629, R640). -/
def haltCore (s0 : State) : State :=
  let s := linksDown s0 true
  { s with
    budget := Budget.reset,
    staging := { s.staging with items := [], barriers := [] },
    funcs := [], links := s.links.map (fun x => (x.1, { HostLink.fresh with perst := x.2.perst })),
    cmd := { CmdUnit.reset with fw := .boot },
    ln := LnUnit.reset, macs := [], tm := TmUnit.reset,
    vrs := Viras.reset s.vrs.hub s.vrs.node, tim := TimUnit.reset, tri := { TriUnit.reset with isoA := s.tri.isoA, isoB := s.tri.isoB },
    boot := { s.boot with stopped := true, presented := false } }

/-- QUENCH (R626, R711): the device temperature has reached 115 °C. -/
def execQuench (t : List Int) (s : State) : Host.Outcome State Fault Refusal :=
  let s1 := setTemps s t
  if s1.pwr.temp < 1840 ∨ s1.boot.stopped ∨ s1.pwr.quench ≠ 0 then .next s1
  else if s1.cmd.fw = .boot then .next { s1 with boot := { s1.boot with hot := true } }
  else
    let s2 := { s1 with pwr := { s1.pwr with quench := 1, quenched := true } }
    let s3 := (((s2.raise Reg.thmStatus 2 5).inc Ctr.thmQuench).post 0x9014 []).fireDev 5
    .next (setCeiling s3 3)

/-- QUENCH_HALT (R626 to R628): the lanes are down, and the page program in progress has finished, or 4 ms have passed. -/
def execQuenchHalt (flashDone : Bool) (s : State) : Host.Outcome State Fault Refusal :=
  if s.pwr.quench < 4 ∨ 6 ≤ s.pwr.quench ∨ !s.ln.power.isEmpty then .next s
  else
    let halt (s : State) : State := haltCore { s with pwr := { s.pwr with quench := 6 } }
    let s1 := { s with pwr := { s.pwr with quench := 5 } }
    .next (if !programming s1 then halt s1
      else if flashDone then halt (flashStep s1 true)
      else s1.atRef (s1.pwr.quenchAt + 4000000) halt)

/-- HARD_TRIP (R629, R639): a sensor has reached 125 °C; the core is held, whatever was in progress. -/
def execHardTrip (t : List Int) (s : State) : Host.Outcome State Fault Refusal :=
  let s1 := setTemps s t
  if s1.pwr.tripHold ∨ !s1.boot.standby then .next s1
  else
    let s2 := { s1 with
      pwr := { s1.pwr with tripped := true, tripHold := true },
      boot := { s1.boot with
        deferred := s1.boot.deferred.filter (fun (e : Nat × List Byte) => e.1 != 0x9015) ++ [(0x9015, [])] } }
    .next (haltCore (s2.inc Ctr.thmTrip))

end Sys2Proof.Machine
end

