-- ==== Sys2Proof/Machine/Sideband.lean ====
section
/-!
DEFINITION. Meanings of the sideband's messages and of the events of the SMBus ports (spec/16_identity_nvm_log.md, Table
16.8; R674 to R678, R687, R731, R732). `p` is the port, 0 SB0 and 1 SB1.
-/

namespace Sys2Proof.Machine

-- MCTP control.

/-- SET_ENDPOINT_ID (R674): operations 0 and 1 assign an EID; the device holds no static EID and no discovered flag. -/
def execSetEndpointId (p op eid : Nat) (s : State) : Host.Outcome State Fault Refusal :=
  .next (sbReceive s p (fun s =>
    if 1 < op ∨ eid < 8 ∨ 254 < eid then sbAnswer s p 0 1 Cc.invalidData []
    else sbAnswer (s.setSb p { s.sbPort p with eid := eid }) p 0 1 Cc.ok [0, BitVec.ofNat 8 eid, 0]))

/-- GET_ENDPOINT_ID. -/
def execGetEndpointId (p : Nat) (s : State) : Host.Outcome State Fault Refusal :=
  .next (sbReceive s p (fun s => sbAnswer s p 0 2 Cc.ok [BitVec.ofNat 8 (s.sbPort p).eid, 0, 0]))

/-- GET_ENDPOINT_UUID: a name-based UUID of the serial number. -/
def execGetEndpointUuid (p : Nat) (s : State) : Host.Outcome State Fault Refusal :=
  .next (sbReceive s p (fun s => sbAnswer s p 0 3 Cc.ok (padTo 16 (Config.sbData 3))))

/-- GET_MCTP_VERSION_SUPPORT of a message type: the base (0xFF), MCTP control and PLDM. -/
def execGetMctpVersionSupport (p mtype : Nat) (s : State) : Host.Outcome State Fault Refusal :=
  .next (sbReceive s p (fun s =>
    if [0xFF, 0, 1].contains mtype then sbAnswer s p 0 4 Cc.ok (Config.sbData (0x400 + mtype))
    else sbAnswer s p 0 4 Cc.versionUnsupported []))

/-- GET_MESSAGE_TYPE_SUPPORT: PLDM. -/
def execGetMessageTypeSupport (p : Nat) (s : State) : Host.Outcome State Fault Refusal :=
  .next (sbReceive s p (fun s => sbAnswer s p 0 5 Cc.ok [1, 1]))

-- PLDM type 0.

/-- SETTID. -/
def execSettid (p tid : Nat) (s : State) : Host.Outcome State Fault Refusal :=
  .next (sbReceive s p (fun s =>
    if tid = 0 ∨ 254 < tid then sbAnswer s p 1 1 Cc.invalidData []
    else sbAnswer (s.setSb p { s.sbPort p with tid := tid }) p 1 1 Cc.ok []))

/-- GETTID. -/
def execGettid (p : Nat) (s : State) : Host.Outcome State Fault Refusal :=
  .next (sbReceive s p (fun s => sbAnswer s p 1 2 Cc.ok [BitVec.ofNat 8 (s.sbPort p).tid]))

/-- GETPLDMVERSION of a type. -/
def execGetpldmversion (p ptype : Nat) (s : State) : Host.Outcome State Fault Refusal :=
  .next (sbReceive s p (fun s =>
    if pldmTypes.contains ptype then sbAnswer s p 1 3 Cc.ok (Config.sbData (0x10300 + ptype))
    else sbAnswer s p 1 3 Cc.badTypeInData []))

/-- GETPLDMTYPES. -/
def execGetpldmtypes (p : Nat) (s : State) : Host.Outcome State Fault Refusal :=
  .next (sbReceive s p (fun s => sbAnswer s p 1 4 Cc.ok (leBytes 8 (maskOf pldmTypes))))

/-- GETPLDMCOMMANDS of a type. -/
def execGetpldmcommands (p ptype : Nat) (s : State) : Host.Outcome State Fault Refusal :=
  .next (sbReceive s p (fun s =>
    if pldmTypes.contains ptype then sbAnswer s p 1 5 Cc.ok (leBytes 32 (maskOf (pldmCommands ptype)))
    else sbAnswer s p 1 5 Cc.badTypeInData []))

-- PLDM type 2.

/-- GETPDR: one record for each sensor (log entry 48). -/
def execGetpdr (p handle : Nat) (s : State) : Host.Outcome State Fault Refusal :=
  .next (sbReceive s p (fun s =>
    if handle ≤ 33 then sbAnswer s p 1 0x0251 Cc.ok (Config.pdr handle) else sbAnswer s p 1 0x0251 Cc.record []))

/-- GETSENSORREADING (R675, R676): the numeric sensors 1 to 16. -/
def execGetsensorreading (p sensor : Nat) (s : State) : Host.Outcome State Fault Refusal :=
  .next (sbReceive s p (fun s =>
    if sensor = 0 ∨ 16 < sensor then sbAnswer s p 1 0x0211 Cc.sensor []
    else
      let (s1, d) := sensorData s sensor
      sbAnswer s1 p 1 0x0211 Cc.ok d))

/-- GETSTATESENSORREADINGS (R675, R676): the state of each port, and the time state. -/
def execGetstatesensorreadings (p sensor : Nat) (s : State) : Host.Outcome State Fault Refusal :=
  .next (sbReceive s p (fun s =>
    if sensor < 17 ∨ 33 < sensor then sbAnswer s p 1 0x0221 Cc.sensor []
    else
      let (s1, d) := sensorData s sensor
      sbAnswer s1 p 1 0x0221 Cc.ok d))

/-- SETEVENTRECEIVER (R666): the port's event receiver, or none. -/
def execSeteventreceiver (p enable eid : Nat) (s : State) : Host.Outcome State Fault Refusal :=
  .next (sbReceive s p (fun s =>
    if 3 < enable then sbAnswer s p 1 0x0204 Cc.invalidData []
    else sbAnswer (s.setSb p { s.sbPort p with receiver := if enable = 0 then none else some eid }) p 1 0x0204 Cc.ok []))

-- PLDM type 5.

/-- QUERYDEVICEIDENTIFIERS: the serial number. -/
def execQuerydeviceidentifiers (p : Nat) (s : State) : Host.Outcome State Fault Refusal :=
  .next (sbReceive s p (fun s =>
    if !fdLive s then sbAnswer s p 1 0x0501 Cc.notReady []
    else sbAnswer s p 1 0x0501 Cc.ok (leBytes 16 Config.serial.toNat)))

/-- GETFIRMWAREPARAMETERS: VERSION of the running image, and of a VERIFIED inactive one. -/
def execGetfirmwareparameters (p : Nat) (s : State) : Host.Outcome State Fault Refusal :=
  .next (sbReceive s p (fun s =>
    if !fdLive s then sbAnswer s p 1 0x0502 Cc.notReady []
    else
      let other := s.nvm.img s.nvm.inactive
      sbAnswer s p 1 0x0502 Cc.ok
        (leBytes 4 (match s.nvm.running with | some r => r.2.1 | none => 0) ++
         leBytes 4 (if other.mark = 2 then other.version else 0))))

/-- REQUESTUPDATE (R658, R659): update mode begins, unless it has or another owner holds the session. -/
def execRequestupdate (p : Nat) (s : State) : Host.Outcome State Fault Refusal :=
  .next (sbReceive s p (fun s =>
    if !fdLive s then sbAnswer s p 1 0x0510 Cc.notReady []
    else if (s.sbPort p).fd != .idle || fdTaken s p then sbAnswer s p 1 0x0510 Cc.alreadyInUpdate []
    else sbAnswer (setFd s p .learn) p 1 0x0510 Cc.ok []))

/-- PASSCOMPONENTTABLE: the one component is the Odjan image. -/
def execPasscomponenttable (p : Nat) (s : State) : Host.Outcome State Fault Refusal :=
  .next (fdCommand s p 0x13 [.learn] (fun s => sbAnswer (setFd s p .ready) p 1 0x0513 Cc.ok []))

/-- UPDATECOMPONENT (R659): the session opens and the inactive partition is erased. -/
def execUpdatecomponent (p size : Nat) (s : State) : Host.Outcome State Fault Refusal :=
  .next (fdCommand s p 0x14 [.ready] (fun s =>
    if s.nvm.mib = 0 ∨ size = 0 ∨ 16777216 < size then sbAnswer s p 1 0x0514 Cc.invalidData []
    else if fdTaken s p then sbAnswer s p 1 0x0514 Cc.alreadyInUpdate []
    else
      let k := s.nvm.inactive
      let x : Session := { owner := .port p, img := k, nextOff := 0, stepAt := s.time.refNow }
      let s1 := (sbAnswer s p 1 0x0514 Cc.ok []).setSb p
        { (sbAnswer s p 1 0x0514 Cc.ok []).sbPort p with fd := .download, size := size, got := 0 }
      flashAsk { s1 with nvm := { s1.nvm.mark k 1 with session := some x } } (.eraseImage k) (.pldm p)))

/-- REQUESTFIRMWAREDATA (R659): the answer to the device's request: 2,048 bytes are programmed. -/
def execRequestfirmwaredata (p : Nat) (data : List Byte) (s : State) : Host.Outcome State Fault Refusal :=
  .next (sbReceive s p (fun s =>
    match s.nvm.session with
    | none => s
    | some x =>
      let busy := s.nvm.cur.isSome && (match s.nvm.cur with | some o => o.asker == .pldm p | none => false) ||
        s.nvm.waiting.any (fun o => o.asker == .pldm p)
      if !fdLive s || x.owner != .port p || (s.sbPort p).fd != .download || data.length != 2048 || busy ||
         decide (16777216 < x.nextOff + 2048) then s
      else flashAsk s (.image x.img x.nextOff data) (.pldm p)))

/-- ACTIVATEFIRMWARE (R659): accepted; a reset is required, at which the device activates the image. -/
def execActivatefirmware (p : Nat) (s : State) : Host.Outcome State Fault Refusal :=
  .next (fdCommand s p 0x1A [.activate] (fun s => sbAnswer (setFd s p .idle) p 1 0x051A Cc.ok [1]))

/-- GETSTATUS. -/
def execGetstatus (p : Nat) (s : State) : Host.Outcome State Fault Refusal :=
  .next (sbReceive s p (fun s =>
    if !fdLive s then sbAnswer s p 1 0x051B Cc.notReady []
    else sbAnswer s p 1 0x051B Cc.ok [BitVec.ofNat 8 (s.sbPort p).fd.code]))

/-- CANCELUPDATECOMPONENT: the transfer ends and the image is EMPTY. -/
def execCancelupdatecomponent (p : Nat) (s : State) : Host.Outcome State Fault Refusal :=
  .next (fdCommand s p 0x1C [.download, .verify] (fun s => sbAnswer (setFd (endPort s p) p .ready) p 1 0x051C Cc.ok []))

/-- CANCELUPDATE: update mode ends. -/
def execCancelupdate (p : Nat) (s : State) : Host.Outcome State Fault Refusal :=
  .next (fdCommand s p 0x1D [.learn, .ready, .download, .verify, .apply, .activate] (fun s =>
    sbAnswer (setFd (endPort s p) p .idle) p 1 0x051D Cc.ok []))

/-- UNSUPPORTED_MESSAGE (R675): the unsupported response of MCTP, or of PLDM for a type (its command is 256 × type +
command) or a command. -/
def execUnsupportedMessage (p kind cmd : Nat) (s : State) : Host.Outcome State Fault Refusal :=
  .next (sbReceive s p (fun s =>
    sbAnswer s p kind cmd (if kind = 1 ∧ !pldmTypes.contains (cmd / 256) then Cc.invalidType else Cc.unsupported) []))

-- Events of the bus.

/-- SMBUS_BAD_PEC (R687): the packet and its message are discarded. -/
def execSmbusBadPec (p party mtype : Nat) (s : State) : Host.Outcome State Fault Refusal :=
  if !sbLive s p then .next s
  else .next (sbPost (sbRaise (s.inc (sbCtr p 2)) p 0) (fun s => s.postB 0xB080 6 p party (mtype % 256) true))

/-- MCTP_BAD_PACKET (R687): header version, sequence or length. -/
def execMctpBadPacket (p party mtype : Nat) (s : State) : Host.Outcome State Fault Refusal :=
  if !sbLive s p then .next s
  else .next (sbPost (sbRaise (s.inc (sbCtr p 6)) p 3) (fun s => s.postB 0xB081 6 p party (mtype % 256) true))

/-- MCTP_FOREIGN_EID (R732): counted, once an EID is assigned. -/
def execMctpForeignEid (p : Nat) (s : State) : Host.Outcome State Fault Refusal :=
  if !sbLive s p || (s.sbPort p).eid == 0 then .next s else .next (s.inc (sbCtr p 6))

/-- ARBITRATION_LOST (R677): the packet being sent loses; the port releases the bus and waits. -/
def execArbitrationLost (p : Nat) (s : State) : Host.Outcome State Fault Refusal :=
  let x := s.sbPort p
  if !sbLive s p || x.tx.isEmpty || x.backoff then .next s
  else .next ((s.setSb p { x with backoff := true, retries := 0 }).inc (sbCtr p 3))

/-- ARBITRATION_RETRY (R677): the bus is free and the back-off has passed: the packet is sent again, and wins or loses. The
eighth retry that loses ends the message. -/
def execArbitrationRetry (p : Nat) (lost : Bool) (s : State) : Host.Outcome State Fault Refusal :=
  let x := s.sbPort p
  if !sbLive s p || !x.backoff then .next s
  else if lost then
    let s1 := (s.setSb p { x with retries := x.retries + 1 }).inc (sbCtr p 3)
    .next (if x.retries + 1 < 8 then s1 else sbTxFail s1 p)
  else .next (sbDrain (s.setSb p { x with backoff := false, retries := 0 }) p)

/-- SMBUS_SCL_TIMEOUT (R678): both lines are released, receive and transmit start afresh, the message is lost. -/
def execSmbusSclTimeout (p : Nat) (s : State) : Host.Outcome State Fault Refusal :=
  if !sbLive s p then .next s
  else
    let x := s.sbPort p
    .next (sbRaise ((s.setSb p { x with tx := x.tx.tail, retries := 0, backoff := false }).inc (sbCtr p 5)) p 2)

/-- SMBUS_SDA_STUCK (R731): SDA held low for 35 ms while the port waits for the bus. -/
def execSmbusSdaStuck (p ms : Nat) (s : State) : Host.Outcome State Fault Refusal :=
  let x := s.sbPort p
  if !sbLive s p || x.tx.isEmpty then .next s
  else
    let s1 := sbRaise (s.inc (sbCtr p 5)) p 2
    let s2 := sbPost s1 (fun s => s.postB 0xB082 6 p 0xFFFF (ms % 65536) true)
    .next (sbTxFail s2 p)

end Sys2Proof.Machine
end

