-- ==== Sys2Proof/Machine/Transmit.lean ====
section
/-!
DEFINITION. The way of a frame out of and into a host: transmit descriptors and their processing, the grant of a frame, its
end on the wire, its write to a host, and frames that grow stale (R245 to R248, R309 to R313, R385, R406, R407, R416, R427
to R430, R460, R723).
-/

namespace Sys2Proof.Machine

/-- FLAGS of a transmit descriptor (Table 5.16). -/
def txFlags (d : List Byte) : Nat := dn d 13 12

/-- The cipher block keeps Table 10.4. -/
def cipBlockOk (d : List Byte) : Bool :=
  decide (bits (dn d 34 32) 23 20 ≤ 3) && byteAt d 35 == 0 && dn d 47 46 == 0 && decide (dn d 45 44 ≤ 16661)

/-- The storage block keeps Table 11.2 and the longest RESEND prefix of Table 11.5. -/
def stoBlockOk (d : List Byte) : Bool :=
  decide (byteAt d 48 ≤ 2) && decide (byteAt d 49 ≤ 8) && dn d 51 50 == 0 &&
  (byteAt d 48 != 1 || byteAt d 49 == 0 || dn d 63 56 % 8 == 0) && (byteAt d 48 != 2 || decide (dn d 55 52 ≤ 65560))

/-- The number of placement records that a frame's storage block names (Table 11.2). -/
def recCount (d : List Byte) : Nat := if bit (txFlags d) 5 && byteAt d 48 == 1 then byteAt d 49 else 0

/-- A placement record keeps Table 11.3. -/
def recOk (r : Nat × List (Nat × Nat)) : Bool :=
  decide (1 ≤ r.2.length) && decide (r.2.length ≤ 16) && r.2.all (fun e => decide (1 ≤ e.2))

/-- The pieces of host memory that the records lie in (Table 11.3). -/
def recSpans (d : List Byte) (recs : List (Nat × List (Nat × Nat))) : List (Nat × Nat) :=
  spanOf (dn d 63 56) (recs.foldl (fun a r => a + 8 + 16 * r.2.length) 0)

/-- One descriptor of a frame keeps R245 and Table 5.16; `first` is the frame's first. -/
def txDescOk (d : List Byte) (first : Bool) : Bool :=
  let len := dn d 11 8
  decide (1 ≤ len) && decide (len ≤ 16380) && decide (txFlags d < 64) && dn d 15 14 == 0 && allZero ((d.drop 20).take 12) &&
  (if first then (!bit (txFlags d) 4 || cipBlockOk d) && (!bit (txFlags d) 5 || stoBlockOk d)
   else decide (txFlags d ≤ 1) && dn d 19 16 == 0 && allZero (d.drop 32))

/-- Prefixes that a resend places before the TCP payload: of the storage block, of the cipher block (R430, R469). -/
def stoPrefix (d : List Byte) : Nat := if bit (txFlags d) 5 && byteAt d 48 == 2 then dn d 55 52 else 0
def tlsPrefix (d : List Byte) : Nat := if bit (txFlags d) 4 && bits (dn d 34 32) 23 20 == 3 then dn d 45 44 else 0

/-- The descriptors of a frame keep R245: their number, MORE, fields and the total length. -/
def txChainOk (ds : List (List Byte)) : Bool :=
  let d0 := ds.headD []
  let total := ds.foldl (fun a d => a + dn d 11 8) 0 - stoPrefix d0 - tlsPrefix d0
  decide (ds.length ≤ 8) && !bit (txFlags (ds.getLastD [])) 0 && txDescOk d0 true && ds.tail.all (fun d => txDescOk d false) &&
  decide (14 ≤ total) && decide (total ≤ 16380)

/-- What processing a frame for transmission comes to: the bytes and the two statuses, or the reason it is not sent; `sat`
where the engine has no room. -/
inductive TxDone where
  | go (bytes cip sto : List Byte)
  | stop (cip sto : List Byte)
  | sat
deriving DecidableEq, Repr

/-- Start of the TCP payload of a frame, in the key layer of its source; none without one. -/
def tcpAt (s : State) (i : Nat) (b : List Byte) : Option Nat :=
  let l := (parse s.ports b).layer (s.srcCfg i).inner
  if (l.v4 || l.v6) && l.proto == 6 && l.offL4 != 0xFF && !l.frag then some (l.offL4 + byteAt b (l.offL4 + 12) / 16 * 4)
  else none

/-- End of the IP packet that carries it. -/
def tcpEnd (s : State) (i : Nat) (b : List Byte) : Nat := ipEnd ((parse s.ports b).layer (s.srcCfg i).inner) b

/-- A TLS_TX segment (R429, R430, R446): the payload as sent; a resend leaves the context as it was. -/
def tlsTx (s : State) (k : Nat) (resend : Option Nat) (prefix_ data : List Byte) : State × List Byte × Bool :=
  let c := s.ctx k
  match resend with
  | some rseq =>
    let r := tlsRun true { c with nextSeq := rseq, hdr := [], left := 0, nextKey := none } (prefix_ ++ data)
    (s.add Ctr.encBytes (r.crypt - min r.crypt prefix_.length), r.out.drop prefix_.length, r.recEnd)
  | none =>
    let r := tlsRun true c data
    ((tellMargin s k r.c).add Ctr.encBytes r.crypt, r.out, r.recEnd)

/-- The cipher engine's part (R415, R416, R427, R429, R430, R446, R451, R453). -/
def txCipher (s : State) (i : Nat) (d b sto : List Byte) (ecc : List EccHit) (sat : Bool) : State × TxDone :=
  let idx := dn d 34 32 % 2 ^ 20
  let op := bits (dn d 34 32) 23 20
  let k := ctxKey i idx
  let c := s.ctx k
  let code := if op = 1 then 2 else 3
  let bad (s : State) : State × TxDone := (countBadCtx s k ecc, .stop (cipStatus idx code 16 none) sto)
  if (s.insOf i).grants.getD 3 0 ≤ idx || retiring s i 3 idx || c.st != .ready || c.kind != (if op = 1 then 3 else 5) then bad s
  else if op ≠ 3 ∧ exhausted c then (exhaustDrop s k c, .stop (cipStatus idx code 32 none) sto)
  else if sat then ((s.inc Ctr.satDrop).raise Reg.cipStatus 5 0, .sat)
  else if op = 1 then
    if !(parse s.ports b).has 10 then bad s
    else
      let (s1, b1) := espOut s k b
      (s1, .go b1 (cipStatus idx 2 0 none) sto)
  else match tcpAt s i b with
    | none => bad s
    | some at_ =>
      let n := tlsPrefix d
      let pre := (b.drop at_).take n
      let b1 := b.take at_ ++ b.drop (at_ + n)
      let last := tcpEnd s i b1
      let (s1, out, ended) := tlsTx s k (if op = 3 then some (dn d 43 36) else none) pre ((b1.take last).drop at_)
      (s1, .go (fixL4Sum (putAt b1 at_ out)) (cipStatus idx 3 (4 * b2n ended) none) sto)

/-- The storage part (R460, R469 to R471, R490): a connection in FAULT sends nothing (log entry 33). -/
def txStorage (s : State) (i k : Nat) (d : List Byte) (recs : List (Nat × List (Nat × Nat))) (b : List Byte) (ecc : Bool) :
    State × TxDone :=
  let key := State.qpKey i k
  match s.conn? key, tcpAt s i b with
  | some c, some at_ =>
    if ecc || c.st == .fault then
      let s1 := if ecc then (((s.setConn key { c with st := .fault }).inc Ctr.connEcc).raise Reg.stoStatus 3 0).post 0x7005
          (leBytes 2 i ++ leBytes 2 k) else s
      (s1.inc Ctr.badCtx, .stop (cipStatus 0 0 16 none) (stoStatus 0 0 false 0 0 none 0 0))
    else
      let n := stoPrefix d
      let b1 := b.take at_ ++ b.drop (at_ + n)
      let last := tcpEnd s i b1
      match stoTx s key (byteAt d 48 == 2) recs ((b.drop at_).take n) ((b1.take last).drop at_) with
      | (s1, .ok (out, st)) => (s1, .go (putAt b1 at_ out) noCip st)
      | (s1, .error (st, bad)) => (s1, .stop (if bad then cipStatus 0 0 16 none else noCip) st)
  | _, _ => (s, .go b noCip noSto)

/-- Storage processing, then the cipher engine, then the check sums and the padding (R245, R429, R470, Table 5.16). -/
def txProcess (s : State) (t : TxFetch) (d : List Byte) : State × TxDone :=
  let fl := txFlags d
  let op := bits (dn d 34 32) 23 20
  let sto := if bit fl 5 && byteAt d 48 != 0 then
      txStorage s t.func t.qp d t.recs t.data (t.ecc.contains (.conn (State.qpKey t.func t.qp)))
    else (s, .go t.data noCip noSto)
  let cip := match sto with
    | (s1, .go b _ st) => if bit fl 4 && op != 0 then txCipher s1 t.func d b st t.ecc t.sat else (s1, .go b noCip st)
    | x => x
  match cip with
  | (s1, .go b c st) =>
    let b1 := if bit fl 2 then fixOuterIp b else b
    let b2 := if bit fl 3 then fixL4Sum b1 else b1
    (s1, .go (if b2.length < 60 then padTo 60 b2 else b2) c st)
  | x => x

/-- A transmit that was being fetched when Bus Master Enable fell is not sent, and is counted (R140). -/
def cutTransmit (s : State) (i k n : Nat) : State :=
  let q := s.qp i k
  ((s.setQp i k { q with txCons := (q.txCons + n) % 65536 }).modFunc i (fun x => { x with cut := x.cut.filter (· != k) })).inc
    (Ctr.notReady i)

/-- TX_DESCRIPTOR_FETCH_DONE (R30, R42, R140, R222, R245, R247, R248): the descriptors and data of one frame have come: every
descriptor but the last has MORE. -/
def execTxDescriptorFetchDone (t : TxFetch) (s : State) : Host.Outcome State Fault Refusal :=
  let i := t.func
  let q := s.qp i t.qp
  let n := t.descs.length
  let avail := (q.txProd + 65536 - q.txCons) % 65536
  let d0 := t.descs.headD []
  if n = 0 || avail < n || t.descs.any (fun d => d.length != 64) || t.descs.dropLast.any (fun d => !bit (txFlags d) 0) then .next s
  else if (s.func i).cut.contains t.qp then .next (cutTransmit s i t.qp n)
  else if !s.canDma i || q.st != .running || cqFull q || !q.held.isEmpty || decide (2 ≤ s.pwr.quench) || s.rul.dramDown then .next s
  else if !txChainOk t.descs || (t.recs.length == recCount d0 && !t.recs.all recOk) then
    if n < 8 ∧ bit (txFlags (t.descs.getLastD [])) 0 ∧ t.descs.tail.all (fun d => txDescOk d false) ∧ txDescOk d0 true then
      .next s
    else .next (descInvalid s i t.qp)
  else if t.data.length ≠ t.descs.foldl (fun a d => a + dn d 11 8) 0 ∨ t.recs.length ≠ recCount d0 then .next s
  else match readSpans (seeTables s t.mem) i (some t.qp)
      (ringSpans q.txAddr 64 (2 ^ q.logTx) q.txCons n ++ t.descs.flatMap (fun d => spanOf (dn d 7 0) (dn d 11 8)) ++
        recSpans d0 t.recs) with
    | (s1, false) => .next s1
    | (s1, true) =>
      let last := (q.txCons + n - 1) % 2 ^ q.logTx
      let s2 := s1.setQp i t.qp { q with txCons := (q.txCons + n) % 65536 }
      let info : TxInfo := { inst := i, qp := t.qp, index := last, ndesc := n, cookie := dn d0 19 16, ts := bit (txFlags d0) 1 }
      if t.overrun then .next (completeTx (overrunDrop s2 i) info 0 false none false noCip noSto)
      else match txProcess (meetEcc s2 t.ecc) t d0 with
        | (s3, .sat) => .next (completeTx (overrunDrop s3 i) info 0 false none false noCip noSto)
        | (s3, .stop c st) => .next (completeTx s3 info 0 true none false c st)
        | (s3, .go b c st) =>
          let p : Pkt :=
            { id := s3.tm.nextId, bytes := b, len := b.length + 4, edits := [], src := i, ing := none, tail := true,
              stamp := none, tx := some info, cip := c, sto := st, cls := 0, colour := 0, hash := 0, record := [],
              inner := false, copy := false, main := false, exc := 0, mir := none, hold := none, ecc := t.ecc, sat := t.sat,
              policed := 0, kept := none }
          .next (pipeline { s3 with tm := { s3.tm with nextId := s3.tm.nextId + 1 } } p)

-- Egress.

/-- A buffer cell is retired (R407). -/
def retireCell (s : State) (region cell : Nat) : State :=
  let s1 := { s with tm := { s.tm with retired := lSet s.tm.retired region (s.tm.retired.getD region 0 + 1) } }
  ((s1.inc Ctr.bufEcc).raise Reg.tmStatus 1 0).post 0x5001 (leBytes 4 cell)

/-- A frame begins on a root: it becomes what is being sent there; an interrupted frame keeps its place (R301, R385). -/
def startSend (s : State) (r : Nat) (f : Frame) : State :=
  let now := mGetD s.tm.sending r []
  let g : Grant := { frame := f, preemptable := decide (r < 16) && (s.mac r).preActive && !express s r f.cls,
                     cutShort := false, freeAt := 0, frags := 1, since := s.time.refNow, sent := 0 }
  let now' := if 16 ≤ r then now ++ [g] else g :: now.map (fun x => x.stop s r (x.out s r))
  { s with tm := { s.tm with sending := mPut s.tm.sending r now' } }

/-- The transmit timestamp of a frame that asks for one (R311, R313); `pend` requests are pending at the plane. -/
def txStamp (s : State) (p pend : Nat) (f : Frame) : State × Frame :=
  match f.tx with
  | none => (s, f)
  | some t =>
    if !t.ts then (s, f)
    else if pend < 64 then (s, { f with stamp := some s.stamp })
    else ((s.inc (macCtr p 0x170)).macRaise p 4, { f with stamp := some s.stamp, lateTs := true })

/-- A frame that MACsec could not protect is dropped; its completion says why (R416, R446). -/
def macsecDrop (s : State) (p : Nat) (f : Frame) : State :=
  match f.tx with
  | none => s
  | some t =>
    let y := s.secy p
    let st := match s.bound (.macTx p y.an) with
      | some k => cipStatus (k % 1048576) 1 (if (s.ctx k).st == .ready then 32 else 16) none
      | none => cipStatus 0 1 16 none
    completeTx s t 0 true none false st f.sto

/-- A granted frame starts on a port (R301, R309, R311, R352, R424). -/
def startWire (s : State) (p pend : Nat) (ecc : List EccHit) (f : Frame) : State :=
  let grown := f.edits.any (fun e => match e with | .encap .. => true | _ => false)
  if grown && decide ((s.mac p).cfg.maxFrame < f.sentLen) then
    reviewFrame (endFrame (s.inc Ctr.rulReencap) f 0 none) f
  else match macsecTx s p ecc f.sent with
    | (s1, none) => reviewFrame (macsecDrop s1 p f) f
    | (s1, some b) =>
      let (s2, f1) := txStamp s1 p pend { f with bytes := b, edits := [] }
      startSend s2 p f1

/-- FRAME_TX_START (R383 to R387, R398, R407): the root's decision, the charge and the start. -/
def execFrameTxStart (root tsPend : Nat) (badCell : Option Nat) (ecc : List EccHit) (s : State) :
    Host.Outcome State Fault Refusal :=
  if 17 < root ∨ s.rul.dramDown then .next s
  else match pickRoot s root with
    | none => .next s
    | some p =>
      match (mGetD s.tm.queues (queueKey root p.owner p.cls) { frames := [], since := 0 }).frames with
      | [] => .next s
      | f :: _ =>
        let s1 := popHead (commitPick s root p) root p.owner p.cls
        match badCell with
        | some cell => .next (reviewFrame (retireCell s1 f.region cell) f)
        | none =>
          let s2 := meetEcc (chargePath s1 root p) ecc
          .next (if root < 16 then startWire s2 root tsPend ecc f else startSend s2 root f)

/-- FRAME_TX_DONE (R247, R301, R304, R380): the frame's last byte has entered the MAC; its cells and its completion are due, and an
interrupted frame goes on. A frame that stands interrupted does not end. -/
def execFrameTxDone (root : Nat) (s : State) : Host.Outcome State Fault Refusal :=
  if 16 ≤ root || s.rul.dramDown then .next s
  else match mGetD s.tm.sending root [] with
    | [] => .next s
    | g :: t =>
      if g.cutShort then .next s
      else
        let f := g.frame
        let left := if t.isEmpty then mDel s.tm.sending root else mPut s.tm.sending root t
        let s1 := resumeTop { s with tm := { s.tm with sending := left } } root
        let s2 := (s1.emit (.frame root f.cls (f.bytes ++ fcs f.bytes))).inc (macCtr root 0x110)
        let s3 := s2.add (macCtr root 0x118) f.sentLen
        let s4 := if 1 < g.frags then s3.add (macCtr root 0x178) g.frags else s3
        .next (reviewFrame (endFrame s4 f f.sentLen f.stamp) f)

/-- The bytes at the offsets that placement leaves undefined are free values (R473, log entry 1). -/
def freeBytes : Nat → Nat → State → List Byte → State × List Byte
  | 0, _, s, b => (s, b)
  | n + 1, at_, s, b =>
    let (v, s1) := s.draw
    freeBytes n (at_ + 1) s1 (if at_ < b.length then putAt b at_ [BitVec.ofNat 8 v] else b)

/-- What is written to a receive buffer: the parse record ahead of a frame to an exception queue, the frame and its FCS
(R246, R289, R334). -/
def hostBytes (s : State) (f : Frame) (exc : Nat) : State × List Byte :=
  let (s1, b) := f.holes.foldl (fun (a : State × List Byte) h => freeBytes h.2 h.1 a.1 a.2) (s, f.sent)
  (s1, (if exc = 0 then [] else f.record) ++ b ++ fcs f.sent)

/-- A frame leaves a host root's writes. -/
def endHost (s : State) (r : Nat) : State :=
  match mGetD s.tm.sending r [] with
  | [] => s
  | _ :: t => { s with tm := { s.tm with sending := if t.isEmpty then mDel s.tm.sending r else mPut s.tm.sending r t } }

/-- HOST_WRITE_DONE (R140, R199, R216, R222, R246 to R248, R380, R473, R723): the oldest granted frame of a link is written
with its completion, or dropped. It waits while its completion queue is full or its receive ring has no descriptor. -/
def execHostWriteDone (l : LinkId) (d : RxDesc) (mem : TableMem) (s : State) : Host.Outcome State Fault Refusal :=
  let r := 16 + l
  if 1 < l || s.rul.dramDown then .next s
  else match mGetD s.tm.sending r [] with
    | [] => .next s
    | g :: _ =>
      let f := g.frame
      match f.dest with
      | .port _ => .next s
      | .queue i k exc =>
        let q := s.qp i k
        let gone (s : State) (c : Nat) : State := reviewFrame (endFrame ((endHost s r).inc c) f 0 none) f
        if (s.insOf i).st != .attached then .next (gone s (Ctr.insDrop i))
        else if q.st != .running || (s.func i).d3 || (s.func i).inFlr || !(s.func i).bme then .next (gone s (Ctr.notReady i))
        else if cqFull q || q.rxProd == q.rxCons then .next s
        else if !rxDescOk d then .next (gone (descInvalid s i k) (Ctr.notReady i))
        else
          let (s1, data) := hostBytes s f exc
          let short := decide (d.len < data.length)
          let ws := (d.addr, data.take d.len) :: f.placed
          match writeSpans (seeTables s1 mem) i (some k) (ws.flatMap (·.2)) (ws.flatMap (fun w => spanOf w.1 w.2.length)) with
          | (s2, false) => .next (gone s2 (Ctr.notReady i))
          | (s2, true) =>
            let q2 := s2.qp i k
            let s3 := s2.setQp i k { q2 with rxCons := (q2.rxCons + 1) % 65536 }
            let s4 := if short then s3.inc (Ctr.trunc i) else s3
            let s5 := cqIssue s4 i k
              (cqEntry 2 k (q2.rxCons % 2 ^ q2.logRx) (8 * b2n short + 16 * b2n (bit (dn f.record 2 2) 0)) f.sentLen f.hash
                f.stamp f.src f.cls f.colour (dn f.record 2 2) f.cip f.sto)
            .next (reviewFrame (endFrame (endHost s5 r) f f.sentLen none) f)

/-- STALE_DROP (R406): the head of a class queue has waited there for TM_STALE_MAX. -/
def execStaleDrop (root owner cls : Nat) (s : State) : Host.Outcome State Fault Refusal :=
  .next (s.atTimer (staleDue root owner cls) (staleAct root owner cls))

/-- REFILL_TICK (R387, R390, R401): reference time reaches the next tick of 8 ns, at which every bucket is refilled. -/
def execRefillTick (s : State) : Host.Outcome State Fault Refusal := .next (s.atRef ((s.time.refNow / 8 + 1) * 8) id)

end Sys2Proof.Machine
end

