-- ==== Sys2Proof/Machine/Dispatch.lean ====
section
/-!
DEFINITION. One arm per row of the opcode table: each calls the row's meaning.
-/

namespace Sys2Proof.Machine

def exec (i : Instr) (s : State) : Host.Outcome State Fault Refusal :=
  match i with
  | .strike x => Sys2Proof.Machine.execStrike x s
  | .timeJump x => Sys2Proof.Machine.execTimeJump x s
  | .sealPoint h => Sys2Proof.Machine.execSealPoint h s
  | .stkNsRead r => Sys2Proof.Machine.execStkNsRead r s
  | .counterLowRead r bank key => Sys2Proof.Machine.execCounterLowRead r bank key s
  | .registerWrite w => Sys2Proof.Machine.execRegisterWrite w s
  | .stkSharesWrite v => Sys2Proof.Machine.execStkSharesWrite v s
  | .strikeIoPulseEnd => Sys2Proof.Machine.execStrikeIoPulseEnd s
  | .mboxClaim l v => Sys2Proof.Machine.execMboxClaim l v s
  | .mboxRelease l => Sys2Proof.Machine.execMboxRelease l s
  | .queueEnable f => Sys2Proof.Machine.execQueueEnable f s
  | .queueDisable f => Sys2Proof.Machine.execQueueDisable f s
  | .queueIdle f => Sys2Proof.Machine.execQueueIdle f s
  | .doorbellProducer f slot rx idx => Sys2Proof.Machine.execDoorbellProducer f slot rx idx s
  | .doorbellConsumer f slot idx => Sys2Proof.Machine.execDoorbellConsumer f slot idx s
  | .arm f slot idx => Sys2Proof.Machine.execArm f slot idx s
  | .replyHeldWrite f => Sys2Proof.Machine.execReplyHeldWrite f s
  | .msixMessage f v => Sys2Proof.Machine.execMsixMessage f v s
  | .mmioAccess a write ecrc => Sys2Proof.Machine.execMmioAccess a write ecrc s
  | .mmioPoison f ecrc => Sys2Proof.Machine.execMmioPoison f ecrc s
  | .unsupportedRequest l ecrc => Sys2Proof.Machine.execUnsupportedRequest l ecrc s
  | .malformed l => Sys2Proof.Machine.execMalformed l s
  | .unexpectedCompletion l ecrc => Sys2Proof.Machine.execUnexpectedCompletion l ecrc s
  | .dmaReadCompletion d => Sys2Proof.Machine.execDmaReadCompletion d s
  | .dmaTimeout f qp => Sys2Proof.Machine.execDmaTimeout f qp s
  | .atsInvalidate f page count => Sys2Proof.Machine.execAtsInvalidate f page count s
  | .linkUp l width speed flit => Sys2Proof.Machine.execLinkUp l width speed flit s
  | .linkReset l kind => Sys2Proof.Machine.execLinkReset l kind s
  | .perstDeassert l => Sys2Proof.Machine.execPerstDeassert l s
  | .flr f => Sys2Proof.Machine.execFlr f s
  | .flrComplete f => Sys2Proof.Machine.execFlrComplete f s
  | .busMasterClear f => Sys2Proof.Machine.execBusMasterClear f s
  | .d3hotEntry f => Sys2Proof.Machine.execD3hotEntry f s
  | .d0Return f => Sys2Proof.Machine.execD0Return f s
  | .vfEnableSet l n => Sys2Proof.Machine.execVfEnableSet l n s
  | .vfEnableClear l => Sys2Proof.Machine.execVfEnableClear l s
  | .txDescriptorFetchDone t => Sys2Proof.Machine.execTxDescriptorFetchDone t s
  | .frameReceived x => Sys2Proof.Machine.execFrameReceived x s
  | .cutHandoff h => Sys2Proof.Machine.execCutHandoff h s
  | .frameTail t => Sys2Proof.Machine.execFrameTail t s
  | .ctrlFramePause p q => Sys2Proof.Machine.execCtrlFramePause p q s
  | .ctrlFramePfc p mask quanta => Sys2Proof.Machine.execCtrlFramePfc p mask quanta s
  | .ctrlMalformed p opcode => Sys2Proof.Machine.execCtrlMalformed p opcode s
  | .pauseExpiry p c => Sys2Proof.Machine.execPauseExpiry p c s
  | .pfcRepeat p c => Sys2Proof.Machine.execPfcRepeat p c s
  | .pauseCapHit p c => Sys2Proof.Machine.execPauseCapHit p c s
  | .pauseWindowEnd p => Sys2Proof.Machine.execPauseWindowEnd p s
  | .pauseStorm p c => Sys2Proof.Machine.execPauseStorm p c s
  | .recoveryEnd p c => Sys2Proof.Machine.execRecoveryEnd p c s
  | .verifyTimer p => Sys2Proof.Machine.execVerifyTimer p s
  | .respondMpacket p => Sys2Proof.Machine.execRespondMpacket p s
  | .verifyMpacket p => Sys2Proof.Machine.execVerifyMpacket p s
  | .holdAssert p => Sys2Proof.Machine.execHoldAssert p s
  | .holdRelease p => Sys2Proof.Machine.execHoldRelease p s
  | .gateEntryBoundary p => Sys2Proof.Machine.execGateEntryBoundary p s
  | .gateActive p => Sys2Proof.Machine.execGateActive p s
  | .frameTxStart root tsPend badCell ecc => Sys2Proof.Machine.execFrameTxStart root tsPend badCell ecc s
  | .frameTxDone root => Sys2Proof.Machine.execFrameTxDone root s
  | .hostWriteDone l d mem => Sys2Proof.Machine.execHostWriteDone l d mem s
  | .staleDrop root owner cls => Sys2Proof.Machine.execStaleDrop root owner cls s
  | .agingSlice n hits => Sys2Proof.Machine.execAgingSlice n hits s
  | .flushDone => Sys2Proof.Machine.execFlushDone s
  | .logFlushWork => Sys2Proof.Machine.execLogFlushWork s
  | .chainOpen f => Sys2Proof.Machine.execChainOpen f s
  | .fwRestart => Sys2Proof.Machine.execFwRestart s
  | .fwRun => Sys2Proof.Machine.execFwRun s
  | .nop c => Sys2Proof.Machine.execNop c s
  | .getDeviceInfo c => Sys2Proof.Machine.execGetDeviceInfo c s
  | .getSerial c => Sys2Proof.Machine.execGetSerial c s
  | .getQueueInfo c => Sys2Proof.Machine.execGetQueueInfo c s
  | .setHeatLength c => Sys2Proof.Machine.execSetHeatLength c s
  | .getTime c => Sys2Proof.Machine.execGetTime c s
  | .queryStaged c => Sys2Proof.Machine.execQueryStaged c s
  | .cancelStaged c => Sys2Proof.Machine.execCancelStaged c s
  | .barrier c => Sys2Proof.Machine.execBarrier c s
  | .commitOpen c => Sys2Proof.Machine.execCommitOpen c s
  | .commitCancel c => Sys2Proof.Machine.execCommitCancel c s
  | .commitQuery c => Sys2Proof.Machine.execCommitQuery c s
  | .insCreate c => Sys2Proof.Machine.execInsCreate c s
  | .insDestroy c => Sys2Proof.Machine.execInsDestroy c s
  | .insResize c => Sys2Proof.Machine.execInsResize c s
  | .insSetLimits c => Sys2Proof.Machine.execInsSetLimits c s
  | .insQuery c => Sys2Proof.Machine.execInsQuery c s
  | .poolQuery c => Sys2Proof.Machine.execPoolQuery c s
  | .qpConfig c => Sys2Proof.Machine.execQpConfig c s
  | .qpStart c => Sys2Proof.Machine.execQpStart c s
  | .qpStop c => Sys2Proof.Machine.execQpStop c s
  | .qpState c => Sys2Proof.Machine.execQpState c s
  | .ituSetRoot c => Sys2Proof.Machine.execItuSetRoot c s
  | .ituInvalidate c => Sys2Proof.Machine.execItuInvalidate c s
  | .ituProbe c mem => Sys2Proof.Machine.execItuProbe c mem s
  | .ituFaultRead c => Sys2Proof.Machine.execItuFaultRead c s
  | .portConfig c => Sys2Proof.Machine.execPortConfig c s
  | .portBank c => Sys2Proof.Machine.execPortBank c s
  | .portStatus c => Sys2Proof.Machine.execPortStatus c s
  | .lnSetEq c => Sys2Proof.Machine.execLnSetEq c s
  | .lnGetEq c => Sys2Proof.Machine.execLnGetEq c s
  | .portRestore c => Sys2Proof.Machine.execPortRestore c s
  | .lnDiag c => Sys2Proof.Machine.execLnDiag c s
  | .lnDiagResult c => Sys2Proof.Machine.execLnDiagResult c s
  | .macSetRx c => Sys2Proof.Machine.execMacSetRx c s
  | .macSetFc c => Sys2Proof.Machine.execMacSetFc c s
  | .macSetPreempt c => Sys2Proof.Machine.execMacSetPreempt c s
  | .gateSet c => Sys2Proof.Machine.execGateSet c s
  | .gateDisable c => Sys2Proof.Machine.execGateDisable c s
  | .gateStatus c => Sys2Proof.Machine.execGateStatus c s
  | .fcStatus c => Sys2Proof.Machine.execFcStatus c s
  | .fcWdRelease c => Sys2Proof.Machine.execFcWdRelease c s
  | .ruleWrite c => Sys2Proof.Machine.execRuleWrite c s
  | .ruleDelete c => Sys2Proof.Machine.execRuleDelete c s
  | .ruleRead c => Sys2Proof.Machine.execRuleRead c s
  | .ruleCount c => Sys2Proof.Machine.execRuleCount c s
  | .flowInsert c => Sys2Proof.Machine.execFlowInsert c s
  | .flowDelete c => Sys2Proof.Machine.execFlowDelete c s
  | .flowLookup c => Sys2Proof.Machine.execFlowLookup c s
  | .flowFlush c => Sys2Proof.Machine.execFlowFlush c s
  | .flowAgedRead c => Sys2Proof.Machine.execFlowAgedRead c s
  | .captureRead c => Sys2Proof.Machine.execCaptureRead c s
  | .srcConfig c => Sys2Proof.Machine.execSrcConfig c s
  | .bdConfig c => Sys2Proof.Machine.execBdConfig c s
  | .rewriteSet c => Sys2Proof.Machine.execRewriteSet c s
  | .tunnelSet c => Sys2Proof.Machine.execTunnelSet c s
  | .mirrorSet c => Sys2Proof.Machine.execMirrorSet c s
  | .parserPorts c => Sys2Proof.Machine.execParserPorts c s
  | .tmShaperSet c => Sys2Proof.Machine.execTmShaperSet c s
  | .tmGroupSet c => Sys2Proof.Machine.execTmGroupSet c s
  | .tmOwnerSet c => Sys2Proof.Machine.execTmOwnerSet c s
  | .tmClassSched c => Sys2Proof.Machine.execTmClassSched c s
  | .tmAdmitSet c => Sys2Proof.Machine.execTmAdmitSet c s
  | .tmQlimSet c => Sys2Proof.Machine.execTmQlimSet c s
  | .tmSrcClass c => Sys2Proof.Machine.execTmSrcClass c s
  | .tmPolicerSet c => Sys2Proof.Machine.execTmPolicerSet c s
  | .tmPolicerRead c => Sys2Proof.Machine.execTmPolicerRead c s
  | .tmShaperRead c => Sys2Proof.Machine.execTmShaperRead c s
  | .kekLoad c => Sys2Proof.Machine.execKekLoad c s
  | .kekErase c => Sys2Proof.Machine.execKekErase c s
  | .ctxSet c => Sys2Proof.Machine.execCtxSet c s
  | .ctxKey c => Sys2Proof.Machine.execCtxKey c s
  | .ctxBind c => Sys2Proof.Machine.execCtxBind c s
  | .ctxQuery c => Sys2Proof.Machine.execCtxQuery c s
  | .ctxSave c => Sys2Proof.Machine.execCtxSave c s
  | .ctxRestore c => Sys2Proof.Machine.execCtxRestore c s
  | .ctxClear c => Sys2Proof.Machine.execCtxClear c s
  | .tlsResync c => Sys2Proof.Machine.execTlsResync c s
  | .replaySet c => Sys2Proof.Machine.execReplaySet c s
  | .secySet c => Sys2Proof.Machine.execSecySet c s
  | .stoConnSet c => Sys2Proof.Machine.execStoConnSet c s
  | .stoConnClear c => Sys2Proof.Machine.execStoConnClear c s
  | .stoConnQuery c => Sys2Proof.Machine.execStoConnQuery c s
  | .stoResync c => Sys2Proof.Machine.execStoResync c s
  | .stoNsSet c => Sys2Proof.Machine.execStoNsSet c s
  | .stoNsQuota c => Sys2Proof.Machine.execStoNsQuota c s
  | .stoNsQuery c => Sys2Proof.Machine.execStoNsQuery c s
  | .schedLoad c => Sys2Proof.Machine.execSchedLoad c s
  | .timJoin c => Sys2Proof.Machine.execTimJoin c s
  | .timLeave c => Sys2Proof.Machine.execTimLeave c s
  | .timQuery c => Sys2Proof.Machine.execTimQuery c s
  | .timSteer c => Sys2Proof.Machine.execTimSteer c s
  | .timPtpMap c => Sys2Proof.Machine.execTimPtpMap c s
  | .triSet c => Sys2Proof.Machine.execTriSet c s
  | .triQuery c => Sys2Proof.Machine.execTriQuery c s
  | .triHandover c => Sys2Proof.Machine.execTriHandover c s
  | .triRearm c => Sys2Proof.Machine.execTriRearm c s
  | .triIsoClear c => Sys2Proof.Machine.execTriIsoClear c s
  | .triForce c => Sys2Proof.Machine.execTriForce c s
  | .pwrSet c => Sys2Proof.Machine.execPwrSet c s
  | .thmSet c => Sys2Proof.Machine.execThmSet c s
  | .pwrQuery c => Sys2Proof.Machine.execPwrQuery c s
  | .thmQuery c => Sys2Proof.Machine.execThmQuery c s
  | .pwrInject c => Sys2Proof.Machine.execPwrInject c s
  | .injectEnd src => Sys2Proof.Machine.execInjectEnd src s
  | .thmClearLatch c => Sys2Proof.Machine.execThmClearLatch c s
  | .nvmInfo c => Sys2Proof.Machine.execNvmInfo c s
  | .nvmCfgWrite c => Sys2Proof.Machine.execNvmCfgWrite c s
  | .nvmCfgRead c => Sys2Proof.Machine.execNvmCfgRead c s
  | .nvmProvWrite c => Sys2Proof.Machine.execNvmProvWrite c s
  | .fwBegin c => Sys2Proof.Machine.execFwBegin c s
  | .fwWrite c => Sys2Proof.Machine.execFwWrite c s
  | .fwEnd c => Sys2Proof.Machine.execFwEnd c s
  | .fwActivate c => Sys2Proof.Machine.execFwActivate c s
  | .fwConfirm c => Sys2Proof.Machine.execFwConfirm c s
  | .fwAbort c => Sys2Proof.Machine.execFwAbort c s
  | .svnCommit c => Sys2Proof.Machine.execSvnCommit c s
  | .logRead c => Sys2Proof.Machine.execLogRead c s
  | .logFlush c => Sys2Proof.Machine.execLogFlush c s
  | .logClearFail c => Sys2Proof.Machine.execLogClearFail c s
  | .logMark c => Sys2Proof.Machine.execLogMark c s
  | .idCertRead c => Sys2Proof.Machine.execIdCertRead c s
  | .idAttest c => Sys2Proof.Machine.execIdAttest c s
  | .echo c => Sys2Proof.Machine.execEcho c s
  | .burn c => Sys2Proof.Machine.execBurn c s
  | .flashOpDone ok => Sys2Proof.Machine.execFlashOpDone ok s
  | .sessionTimeout => Sys2Proof.Machine.execSessionTimeout s
  | .autoConfirm => Sys2Proof.Machine.execAutoConfirm s
  | .portUp p r => Sys2Proof.Machine.execPortUp p r s
  | .laneSignalLoss n reason => Sys2Proof.Machine.execLaneSignalLoss n reason s
  | .laneSignalReturn n => Sys2Proof.Machine.execLaneSignalReturn n s
  | .laneFailed ns => Sys2Proof.Machine.execLaneFailed ns s
  | .laneRecovered n => Sys2Proof.Machine.execLaneRecovered n s
  | .trainFail p => Sys2Proof.Machine.execTrainFail p s
  | .pllLockFail n => Sys2Proof.Machine.execPllLockFail n s
  | .lanePowerStep => Sys2Proof.Machine.execLanePowerStep s
  | .autoRestore p => Sys2Proof.Machine.execAutoRestore p s
  | .sweepStep anchor errors => Sys2Proof.Machine.execSweepStep anchor errors s
  | .anPage p page => Sys2Proof.Machine.execAnPage p page s
  | .coeffRequest n tap delta => Sys2Proof.Machine.execCoeffRequest n tap delta s
  | .refLost => Sys2Proof.Machine.execRefLost s
  | .refReturned => Sys2Proof.Machine.execRefReturned s
  | .virasFrameTx n lag => Sys2Proof.Machine.execVirasFrameTx n lag s
  | .guardWindowClose n c => Sys2Proof.Machine.execGuardWindowClose n c s
  | .virasCopyReceived x => Sys2Proof.Machine.execVirasCopyReceived x s
  | .slotViolation c b => Sys2Proof.Machine.execSlotViolation c b s
  | .branchShut c b => Sys2Proof.Machine.execBranchShut c b s
  | .branchRestart c b => Sys2Proof.Machine.execBranchRestart c b s
  | .slotEndVote n => Sys2Proof.Machine.execSlotEndVote n s
  | .lastSlotEnd => Sys2Proof.Machine.execLastSlotEnd s
  | .chanDown c => Sys2Proof.Machine.execChanDown c s
  | .chanUp c => Sys2Proof.Machine.execChanUp c s
  | .hello c b w0 w1 => Sys2Proof.Machine.execHello c b w0 w1 s
  | .helloAck c w0 w1 => Sys2Proof.Machine.execHelloAck c w0 w1 s
  | .rateReq c w0 => Sys2Proof.Machine.execRateReq c w0 s
  | .rateAck c b w0 => Sys2Proof.Machine.execRateAck c b w0 s
  | .rateSwitch k => Sys2Proof.Machine.execRateSwitch k s
  | .ping c => Sys2Proof.Machine.execPing c s
  | .pongSend c => Sys2Proof.Machine.execPongSend c s
  | .pong c b rt => Sys2Proof.Machine.execPong c b rt s
  | .ready c p => Sys2Proof.Machine.execReady c p s
  | .reject c reason => Sys2Proof.Machine.execReject c reason s
  | .ladderBad k msg => Sys2Proof.Machine.execLadderBad k msg s
  | .helloTimer c => Sys2Proof.Machine.execHelloTimer c s
  | .ladderTimeout k => Sys2Proof.Machine.execLadderTimeout k s
  | .ladderHoldEnd k => Sys2Proof.Machine.execLadderHoldEnd k s
  | .coldstart => Sys2Proof.Machine.execColdstart s
  | .syncLost => Sys2Proof.Machine.execSyncLost s
  | .holdoverEnd => Sys2Proof.Machine.execHoldoverEnd s
  | .isolateLevelChange b level => Sys2Proof.Machine.execIsolateLevelChange b level s
  | .isoDiscrepancy => Sys2Proof.Machine.execIsoDiscrepancy s
  | .announcement t => Sys2Proof.Machine.execAnnouncement t s
  | .droopSoft d => Sys2Proof.Machine.execDroopSoft d s
  | .droopSoftStep mask => Sys2Proof.Machine.execDroopSoftStep mask s
  | .droopHard d => Sys2Proof.Machine.execDroopHard d s
  | .hardEnd mask => Sys2Proof.Machine.execHardEnd mask s
  | .holdExpiry => Sys2Proof.Machine.execHoldExpiry s
  | .stepUp => Sys2Proof.Machine.execStepUp s
  | .brdAlert => Sys2Proof.Machine.execBrdAlert s
  | .brdAlertDeassert => Sys2Proof.Machine.execBrdAlertDeassert s
  | .hintLeadExpiry => Sys2Proof.Machine.execHintLeadExpiry s
  | .detectorFail d => Sys2Proof.Machine.execDetectorFail d s
  | .supplyLow => Sys2Proof.Machine.execSupplyLow s
  | .supplyHigh => Sys2Proof.Machine.execSupplyHigh s
  | .tempWarn t => Sys2Proof.Machine.execTempWarn t s
  | .throttle t => Sys2Proof.Machine.execThrottle t s
  | .thmStep t => Sys2Proof.Machine.execThmStep t s
  | .sensorFail k t => Sys2Proof.Machine.execSensorFail k t s
  | .quench t => Sys2Proof.Machine.execQuench t s
  | .quenchHalt flashDone => Sys2Proof.Machine.execQuenchHalt flashDone s
  | .hardTrip t => Sys2Proof.Machine.execHardTrip t s
  | .powerOnReset => Sys2Proof.Machine.execPowerOnReset s
  | .standbyRelease => Sys2Proof.Machine.execStandbyRelease s
  | .rstNAssert t => Sys2Proof.Machine.execRstNAssert t s
  | .railDrop => Sys2Proof.Machine.execRailDrop s
  | .rstNRelease straps refLost t => Sys2Proof.Machine.execRstNRelease straps refLost t s
  | .bootStageDone b => Sys2Proof.Machine.execBootStageDone b s
  | .tempWaitRecheck temps => Sys2Proof.Machine.execTempWaitRecheck temps s
  | .idResetWarm l pageDone => Sys2Proof.Machine.execIdResetWarm l pageDone s
  | .idResetLifeboat l pageDone => Sys2Proof.Machine.execIdResetLifeboat l pageDone s
  | .resetKey l => Sys2Proof.Machine.execResetKey l s
  | .setEndpointId p op eid => Sys2Proof.Machine.execSetEndpointId p op eid s
  | .getEndpointId p => Sys2Proof.Machine.execGetEndpointId p s
  | .getMctpVersionSupport p mtype => Sys2Proof.Machine.execGetMctpVersionSupport p mtype s
  | .getMessageTypeSupport p => Sys2Proof.Machine.execGetMessageTypeSupport p s
  | .getEndpointUuid p => Sys2Proof.Machine.execGetEndpointUuid p s
  | .gettid p => Sys2Proof.Machine.execGettid p s
  | .settid p tid => Sys2Proof.Machine.execSettid p tid s
  | .getpldmversion p ptype => Sys2Proof.Machine.execGetpldmversion p ptype s
  | .getpldmtypes p => Sys2Proof.Machine.execGetpldmtypes p s
  | .getpldmcommands p ptype => Sys2Proof.Machine.execGetpldmcommands p ptype s
  | .getpdr p handle => Sys2Proof.Machine.execGetpdr p handle s
  | .getsensorreading p sensor => Sys2Proof.Machine.execGetsensorreading p sensor s
  | .getstatesensorreadings p sensor => Sys2Proof.Machine.execGetstatesensorreadings p sensor s
  | .seteventreceiver p enable eid => Sys2Proof.Machine.execSeteventreceiver p enable eid s
  | .querydeviceidentifiers p => Sys2Proof.Machine.execQuerydeviceidentifiers p s
  | .getfirmwareparameters p => Sys2Proof.Machine.execGetfirmwareparameters p s
  | .requestupdate p => Sys2Proof.Machine.execRequestupdate p s
  | .passcomponenttable p => Sys2Proof.Machine.execPasscomponenttable p s
  | .updatecomponent p size => Sys2Proof.Machine.execUpdatecomponent p size s
  | .requestfirmwaredata p data => Sys2Proof.Machine.execRequestfirmwaredata p data s
  | .activatefirmware p => Sys2Proof.Machine.execActivatefirmware p s
  | .getstatus p => Sys2Proof.Machine.execGetstatus p s
  | .cancelupdatecomponent p => Sys2Proof.Machine.execCancelupdatecomponent p s
  | .cancelupdate p => Sys2Proof.Machine.execCancelupdate p s
  | .unsupportedMessage p kind cmd => Sys2Proof.Machine.execUnsupportedMessage p kind cmd s
  | .smbusBadPec p party mtype => Sys2Proof.Machine.execSmbusBadPec p party mtype s
  | .mctpBadPacket p party mtype => Sys2Proof.Machine.execMctpBadPacket p party mtype s
  | .mctpForeignEid p => Sys2Proof.Machine.execMctpForeignEid p s
  | .arbitrationLost p => Sys2Proof.Machine.execArbitrationLost p s
  | .arbitrationRetry p lost => Sys2Proof.Machine.execArbitrationRetry p lost s
  | .smbusSclTimeout p => Sys2Proof.Machine.execSmbusSclTimeout p s
  | .smbusSdaStuck p ms => Sys2Proof.Machine.execSmbusSdaStuck p ms s
  | .busMasterSet f => Sys2Proof.Machine.execBusMasterSet f s
  | .bankedExitTimeout p => Sys2Proof.Machine.execBankedExitTimeout p s
  | .refillTick => Sys2Proof.Machine.execRefillTick s
  | .governorTick demand => Sys2Proof.Machine.execGovernorTick demand s
  | .starLinkDown k => Sys2Proof.Machine.execStarLinkDown k s
  | .guardCrc => Sys2Proof.Machine.execGuardCrc s
  | .tempWarnEnd t => Sys2Proof.Machine.execTempWarnEnd t s
  | .railReturn refLost => Sys2Proof.Machine.execRailReturn refLost s
  | .dramUnavailable => Sys2Proof.Machine.execDramUnavailable s
  | .managementSramError ring romBank => Sys2Proof.Machine.execManagementSramError ring romBank s

end Sys2Proof.Machine
end

