-- ==== Sys2Proof/Machine/Idle.lean ====
section
/-!
DEFINITION. What the block does when no command waits: one cycle of the 1 GHz reference clock passes (R51; log entry 6).
-/

namespace Sys2Proof.Machine

/-- The adoption strike falls on the next cycle, and no strike of the device before it (R54). -/
def adoptionDue (s : State) : Option Heat :=
  match s.tim.adopt with
  | some (n, t) => if t ≤ s.time.refNow + 1 ∧ t - s.time.refNow ≤ s.toStrike then some n else none
  | none => none

/-- A function of a link has DMA under way or to issue: descriptors or commands that a doorbell has covered, or entries that
wait. -/
def dmaBusy (s : State) (l : Nat) : Bool :=
  s.funcs.any (fun x => s.linkOf x.1 == l && s.canDma x.1 && (State.backlog x.2.q != 0 || !x.2.q.held.isEmpty)) ||
  s.ins.qps.any (fun x => s.linkOf (x.1 / 65536) == l && s.canDma (x.1 / 65536) && x.2.st == .running &&
    (x.2.txProd != x.2.txCons || !x.2.held.isEmpty)) ||
  (mGet? s.tm.sending (16 + l)).isSome

/-- A link on which ASPM L1 is enabled goes to L1 in a cycle in which it has nothing to do (R133; log entry 78). -/
def restLink (s : State) (l : Nat) : State :=
  let k := s.link l
  if k.trained && k.aspm && !k.inL1 && !dmaBusy s l then s.setLink l { k with inL1 := true } else s

/-- In the lifeboat the boot ROM makes a flush as soon as it falls due (R703, R782). -/
def romFlush (s : State) : State :=
  if s.cmd.fw == .lifeboat && s.log.flushDue && s.nvm.mib != 0 && !s.logWriting then (flushBegin s .nobody).1 else s

/-- One reference cycle inside a heat: commands whose cycles have been served end; links rest; the boot ROM flushes the log; and
the governor acts every 8 ns with the demand it last saw (R61, R133, R613, R782). -/
def quietCycle (s0 : State) : State :=
  let s := romFlush (restLink (restLink (finishJobs s0.tick) 0) 1)
  if s.time.refNow % 8 = 0 then governor s s.pwr.demand else s

/-- One reference cycle with nothing commanded: messages that wait on the sideband ports go out; the strike comes with the
inputs as they were last seen; time stands still while the device is held in reset or halted. -/
def idleTick (s0 : State) : State :=
  let s := sbDrain (sbDrain s0 0) 1
  if s.boot.stopped then s
  else
    match adoptionDue s with
    | some n => jumpEdge (s.dueNow.advance (min 1 s.toStrike)) n s.tim.adoptLen s.env
    | none =>
      if s.toStrike ≤ 1 then (List.range 16).foldl autoRestore (strikeEdge s.toEnd (s.time.heat + 1) s.env) else quietCycle s

end Sys2Proof.Machine
end

