-- ==== Sys2Proof/Safety.lean ====
section
/-!
DEFINITION. The terms that statements use. What is always so of the machine's stores: the register file and the counters
are in their one canonical form, and the log's rings hold no more than their room (R664, R669, R671). And when a command
is taken, and what it comes to: the states in which a command is taken and passes steps 1 to 4 of R166, the state right
after the take, and the three ways in which an accepted command ends (R161, R166).
-/

namespace Sys2Proof.Machine

/-- The register file in canonical form: offsets rise strictly, and no word at its reset value is listed, so that equal
register files are equal lists. -/
def RegsOk (m : SMap Nat) : Prop := mWf m = true ∧ ∀ x ∈ m, x.2 ≠ resetWord x.1

/-- Registers and both banks of counters are in canonical form; the rings of the event log hold at most 4,096 and 16
entries (R14, R664, R671, R767). -/
def Canon (s : State) : Prop :=
  RegsOk s.regs ∧ mWf s.ctrs = true ∧ mWf s.snap.ctrs = true ∧ s.log.main.length ≤ 4096 ∧ s.log.fb.length ≤ 16

-- Commands.

/-- The context that a command names lies within its instance's grant and is not retiring (R218). -/
def HasCtx (c : Cmd) (s : State) : Prop :=
  ctxIdx c < (s.insOf c.id).grants.getD 3 0 ∧ retiring s c.id 3 (ctxIdx c) = false

/-- The state in which a command is taken: the commands in work that are finished have come to their end, and, of a queue, its slots
and its data have been fetched (R154, R160, R163). -/
def fetched (c : Cmd) (s : State) : State :=
  match c.src with
  | .queue f => (fetchCmd (finishJobs s) f c true).1
  | .mbox => finishJobs s

/-- The state right after a command is taken: of a queue, the choice has been accounted, the consumer index has moved and the cost is
charged; of the mailbox, the cost is charged under Odjan (R170 to R172, R181). -/
def takenFrom (op : Op) (c : Cmd) (s : State) : State :=
  match c.src with
  | .queue f =>
    charge (takeHead (chargeDeficit (fetched c s) f (headOf op c ((finishJobs s).func f).q (finishJobs s))) f c) (.queue f)
      (listedCost op c) (ownWork op c)
  | .mbox =>
    (if (fetched c s).cmd.fw == .run then charge (fetched c s) .mbox (listedCost op c) (ownWork op c) else fetched c s).inc Ctr.taken

/-- A command outside any open chain is taken next and passes steps 1 to 4 of R166. Of a queue: the device takes its head, no chain is
open or has failed, the ring has room for its replies, the choice of R172 falls on it, and no translation of its fetch faults (R160,
R164, R172). Of the mailbox: its registers hold this command, BUSY is 1, no operation of it is under way, and it is served now (R181,
R182, R185, R714). -/
def Takes (op : Op) (c : Cmd) (s : State) : Prop :=
  checkHeader op c (finishJobs s) true 0 = none ∧
  match c.src with
  | .queue f =>
    let s1 := finishJobs s
    let h := headOf op c (s1.func f).q s1
    queueReady s1 f c.slots = true ∧ (s1.func f).q.chain = none ∧ (s1.func f).q.loose = false ∧
    (if c.cluster then 2 else 1) ≤ State.replyRoom (s1.func f).q ∧ costFits s1 f (listedCost op c) = true ∧
    chosen s1 f h = true ∧ (fetchCmd s1 f c true).2 = true
  | .mbox =>
    let s1 := finishJobs s
    (mboxCmd s1).1 = op.code ∧ { (mboxCmd s1).2 with spare := c.spare } = c ∧ mboxServed s1 = true ∧
    s1.boot.romBankBad = false ∧ (s1.cmd.fw = .run → listedCost op c ≤ shareLeft s1) ∧
    (op.dma = true → s1.canDma (cmdFunc s1 c) = true)

/-- A command that may be taken and stands alone: it opens no chain, and its objects can be reached (R49). -/
def Admits (op : Op) (c : Cmd) (s : State) : Prop :=
  c.chain = false ∧ Takes op c s ∧ outOfReach (takenFrom op c s) op.code = false

/-- How a command taken in state `s0` ends that has come to state `st` (R73 to R75, R170, R194): at once where it is sure to be
finished before the seal point, else when its cycles have been served; what it leaves of its listed cost comes back. -/
def ends (op : Op) (c : Cmd) (s0 st : State) (fin : JobEnd) : State :=
  settle (assured s0) st c (ownWork op c) (spareOf op c) fin

/-- DONE with a result: the state after the effect, and the answer (R161). -/
def doneWith (op : Op) (c : Cmd) (s0 st : State) (r : Nat) : State := ends op c s0 st (.reply St.done 0 0 st.time.heat r)

/-- Another answer that comes with an effect (R358). -/
def otherWith (op : Op) (c : Cmd) (s0 st : State) (f : Fail) : State :=
  ends op c s0 st (.reply f.status f.field f.cause st.time.heat f.result)

/-- The items of a command that stands alone, written as one unit of their own; none where the staging store has no room (R64,
R88). -/
def stagedAs (op : Op) (c : Cmd) (st : State) (entries : List (List Byte)) (flow : Bool) (target : Heat) : Option State :=
  stageItems { st with staging := { st.staging with nextUnit := st.staging.nextUnit + 1 } } op c st.staging.nextUnit 0 target entries flow

/-- The command row answers DONE wherever it is taken, on time, and its own conditions hold in the state right after the
take: the next state is that state with the effect, and the answer. -/
def Replies (row : Cmd → Instr) (op : Op) (ok : Cmd → State → Prop) (effect : Cmd → State → State)
    (result : Cmd → State → Nat) : Prop :=
  ∀ c s target late, Admits op c s → checkLate c (takenFrom op c s) = .ok (target, late) → ok c (takenFrom op c s) →
    exec (row c) s = .next (doneWith op c (takenFrom op c s) (effect c (takenFrom op c s)) (result c (takenFrom op c s)))

/-- The command row stages wherever it is taken, on time, its own conditions hold in the state right after the take, and the staging
store has room: the next state holds what else it does (nothing, but for COMMIT_OPEN) and its items as one unit, which seals with
the target as the command ends (R62, R64, R66). -/
def Stages (row : Cmd → Instr) (op : Op) (ok : Cmd → State → Prop)
    (entries : Cmd → State → List (List Byte) := fun c _ => [c.data]) (flow : Bool := false)
    (result : Cmd → State → Nat := fun _ _ => 0)
    (effect : Cmd → State → State := fun _ s => s) : Prop :=
  ∀ c s target late st, Admits op c s → checkLate c (takenFrom op c s) = .ok (target, late) →
    ok c (takenFrom op c s) →
    stagedAs op c (effect c (takenFrom op c s)) (entries c (takenFrom op c s)) flow target = some st →
    exec (row c) s = .next (ends op c (takenFrom op c s) st
      (.seal (effect c (takenFrom op c s)).staging.nextUnit target late (result c (takenFrom op c s))))

/-- The command row writes its answer's data to the host address in parameter bytes 8 to 15, and answers DONE: where that
write does not fault (R197). -/
def RepliesAt (row : Cmd → Instr) (op : Op) (ok : Cmd → State → Prop) (data : Cmd → State → List Byte)
    (result : Cmd → State → Nat) : Prop :=
  Replies row op
    (fun c s => ok c s ∧ (hostWrite s (cmdFunc s c) none (pf c.params 15 8) (data c s)).2 = true)
    (fun c s => (hostWrite s (cmdFunc s c) none (pf c.params 15 8) (data c s)).1) result

/-- A command row of either class (R354, R480), whose opcode's entry depends on NOW: with NOW it acts at once and answers DONE with 0,
without it it stages. -/
def ActsOrStages (row : Cmd → Instr) (op : Cmd → Op) (now : Bool) (ok : Cmd → State → Prop) (effect : Cmd → State → State) :
    Prop :=
  ∀ o, if now then Replies row o (fun c s => o = op c ∧ isNow c = true ∧ ok c s) effect (fun _ _ => 0)
    else Stages row o (fun c s => o = op c ∧ isNow c = false ∧ ok c s)

/-- The command row begins a long operation: its effect, and no answer yet. -/
def Waits (row : Cmd → Instr) (op : Op) (ok : Cmd → State → Prop) (effect : Cmd → State → State) : Prop :=
  ∀ c s target late, Admits op c s → checkLate c (takenFrom op c s) = .ok (target, late) → ok c (takenFrom op c s) →
    exec (row c) s = .next (refund (effect c (takenFrom op c s)) c.src (spareOf op c))

end Sys2Proof.Machine
end

