-- ==== Sys2Proof/WellFormed.lean ====
section
/-!
DEFINITION. Which commands and events the world outside can hand to the device: the operands that name a link, a function,
a port, a lane, a channel, a branch, a detector or a sensor name one that exists, and the records have the shape that their
rules give them. The machine is total: the meanings answer for other operands too.
-/

namespace Sys2Proof

/-- A command comes from the queue of a function of the 4,096 or from the mailbox (R102, R153, R181). -/
def Src.wf : Src → Bool
  | .queue f => decide (f < 4096)
  | .mbox => true

/-- A command's data is as long as its header says (R154, R159): with DATA_PTR the pointer list has an entry for every 16 bytes of
LENGTH, each with a length of 32 bits, and the data is what they name; else it has LENGTH bytes. A length that R154 forbids carries
no data. -/
def Cmd.wf (c : Cmd) : Bool :=
  c.src.wf &&
  (if 4096 < c.length.toNat then c.data.isEmpty
   else if c.flags.toNat.testBit 5 then
     decide (c.ptrs.length = c.length.toNat / 16) && c.ptrs.all (fun e => decide (e.len < 2 ^ 32)) &&
     decide (c.data.length = c.ptrs.foldl (fun a e => a + e.len) 0)
   else decide (c.data.length = c.length.toNat))

/-- Twelve sensors, sixteen lanes and two host links report at a strike (R148, R258, R622). -/
def StrikeIn.wf (x : StrikeIn) : Bool :=
  decide (x.sensors.length = 12) && decide (x.lanes.length = 16) && decide (x.links.length = 2)

/-- An access to a BAR has a size that a TLP carries. -/
def BarAccess.wf (a : BarAccess) : Bool := decide (a.func < 4096) && decide (1 ≤ a.size) && decide (a.size ≤ 4096)

/-- A register write comes from a link, to a function, with a size that a TLP carries. -/
def RegWrite.wf (w : RegWrite) : Bool := decide (w.link < 2) && decide (w.func < 4096) && decide (1 ≤ w.size) && decide (w.size ≤ 64)

/-- A frame received has a port, one of the three kinds of start, and a fragment at least (R327). -/
def RxFrame.wf (x : RxFrame) : Bool := decide (x.port < 16) && decide (x.smd < 3) && decide (1 ≤ x.frags)

/-- The head of a frame in CUT mode is its first 256 bytes (R291). -/
def CutHead.wf (h : CutHead) : Bool := decide (h.port < 16) && decide (h.head.length = 256) && decide (h.smd < 3)

/-- A host frame names a function, and its descriptors have 64 bytes (Table 5.16). -/
def TxFetch.wf (t : TxFetch) : Bool := decide (t.func < 4096) && t.descs.all (fun d => decide (d.length = 64))

/-- A copy of a round frame arrives on one of three channels, from one of eight branches where it names one (R495). -/
def VirasRx.wf (x : VirasRx) : Bool :=
  decide (x.chan < 3) && (match x.branch with | some b => decide (b < 8) | none => true)

/-- A command or event is one that the world outside can hand to the device. -/
def Instr.wellFormed : Instr → Bool
  | .strike x | .timeJump x | .frameReceived x | .virasCopyReceived x => x.wf
  | .sealPoint _ | .stkSharesWrite _ | .strikeIoPulseEnd | .agingSlice _ _ | .flushDone | .logFlushWork | .fwRestart
  | .fwRun | .flashOpDone _ | .sessionTimeout | .autoConfirm | .lanePowerStep | .refLost | .refReturned
  | .virasFrameTx _ _ | .slotEndVote _ | .lastSlotEnd | .coldstart | .syncLost | .holdoverEnd
  | .isolateLevelChange _ _ | .isoDiscrepancy | .announcement _ | .droopSoftStep _ | .hardEnd _ | .holdExpiry
  | .stepUp | .brdAlert | .brdAlertDeassert | .hintLeadExpiry | .supplyLow | .supplyHigh | .quenchHalt _
  | .powerOnReset | .standbyRelease | .railDrop | .refillTick | .governorTick _ | .guardCrc | .railReturn _
  | .dramUnavailable | .managementSramError _ _ => true
  | .stkNsRead r | .counterLowRead r _ _ => decide (r < 2)
  | .registerWrite w => w.wf
  | .mmioAccess a _ _ => a.wf
  | .mboxClaim l v => decide (l < 2) && decide (v < 3)
  | .mboxRelease l | .unsupportedRequest l _ | .malformed l | .unexpectedCompletion l _ | .linkUp l _ _ _
  | .linkReset l _ | .perstDeassert l | .vfEnableSet l _ | .vfEnableClear l | .hostWriteDone l _ _ | .idResetWarm l _
  | .idResetLifeboat l _ | .resetKey l => decide (l < 2)
  | .queueEnable f | .queueDisable f | .queueIdle f | .doorbellProducer f _ _ _ | .doorbellConsumer f _ _
  | .arm f _ _ | .replyHeldWrite f | .msixMessage f _ | .mmioPoison f _ | .dmaTimeout f _
  | .atsInvalidate f _ _ | .flr f | .flrComplete f | .busMasterClear f | .d3hotEntry f | .d0Return f | .chainOpen f
  | .busMasterSet f => decide (f < 4096)
  | .dmaReadCompletion d => decide (d.func < 4096)
  | .txDescriptorFetchDone t => t.wf
  | .cutHandoff h => h.wf
  | .frameTail t => decide (t.port < 16)
  | .ctrlFramePause p _ | .ctrlMalformed p _ | .pauseWindowEnd p | .verifyTimer p | .respondMpacket p
  | .verifyMpacket p | .holdAssert p | .holdRelease p | .gateEntryBoundary p | .gateActive p | .portUp p _
  | .trainFail p | .autoRestore p | .anPage p _ | .bankedExitTimeout p => decide (p < 16)
  | .ctrlFramePfc p _ quanta => decide (p < 16) && decide (quanta.length = 8)
  | .pauseExpiry p c | .pfcRepeat p c | .pauseCapHit p c | .pauseStorm p c | .recoveryEnd p c =>
    decide (p < 16) && decide (c < 8)
  | .frameTxStart root _ _ _ | .frameTxDone root => decide (root < 18)
  | .staleDrop root _ cls => decide (root < 18) && decide (cls < 8)
  | .nop c | .getDeviceInfo c | .getSerial c | .getQueueInfo c | .setHeatLength c | .getTime c | .queryStaged c
  | .cancelStaged c | .barrier c | .commitOpen c | .commitCancel c | .commitQuery c | .insCreate c | .insDestroy c
  | .insResize c | .insSetLimits c | .insQuery c | .poolQuery c | .qpConfig c | .qpStart c | .qpStop c | .qpState c
  | .ituSetRoot c | .ituInvalidate c | .ituProbe c _ | .ituFaultRead c | .portConfig c | .portBank c | .portStatus c
  | .lnSetEq c | .lnGetEq c | .portRestore c | .lnDiag c | .lnDiagResult c | .macSetRx c | .macSetFc c
  | .macSetPreempt c | .gateSet c | .gateDisable c | .gateStatus c | .fcStatus c | .fcWdRelease c | .ruleWrite c
  | .ruleDelete c | .ruleRead c | .ruleCount c | .flowInsert c | .flowDelete c | .flowLookup c | .flowFlush c
  | .flowAgedRead c | .captureRead c | .srcConfig c | .bdConfig c | .rewriteSet c | .tunnelSet c | .mirrorSet c
  | .parserPorts c | .tmShaperSet c | .tmGroupSet c | .tmOwnerSet c | .tmClassSched c | .tmAdmitSet c | .tmQlimSet c
  | .tmSrcClass c | .tmPolicerSet c | .tmPolicerRead c | .tmShaperRead c | .kekLoad c | .kekErase c | .ctxSet c
  | .ctxKey c | .ctxBind c | .ctxQuery c | .ctxSave c | .ctxRestore c | .ctxClear c | .tlsResync c | .replaySet c
  | .secySet c | .stoConnSet c | .stoConnClear c | .stoConnQuery c | .stoResync c | .stoNsSet c | .stoNsQuota c
  | .stoNsQuery c | .schedLoad c | .timJoin c | .timLeave c | .timQuery c | .timSteer c | .timPtpMap c | .triSet c
  | .triQuery c | .triHandover c | .triRearm c | .triIsoClear c | .triForce c | .pwrSet c | .thmSet c | .pwrQuery c
  | .thmQuery c | .pwrInject c | .thmClearLatch c | .nvmInfo c | .nvmCfgWrite c | .nvmCfgRead c | .nvmProvWrite c
  | .fwBegin c | .fwWrite c | .fwEnd c | .fwActivate c | .fwConfirm c | .fwAbort c | .svnCommit c | .logRead c
  | .logFlush c | .logClearFail c | .logMark c | .idCertRead c | .idAttest c | .echo c | .burn c => c.wf
  | .injectEnd src => decide (1 ≤ src) && decide (src ≤ 3)
  | .laneSignalLoss n _ | .laneSignalReturn n | .laneRecovered n | .pllLockFail n | .coeffRequest n _ _ =>
    decide (n < 16)
  | .laneFailed ns => ns.all (fun x => decide (x.1 < 16))
  | .sweepStep anchor _ => decide (anchor < 16)
  | .guardWindowClose _ c | .chanDown c | .chanUp c | .helloAck c _ _ | .rateReq c _ | .ping c | .pongSend c
  | .ready c _ | .reject c _ | .helloTimer c => decide (c < 3)
  | .slotViolation c b | .branchShut c b | .branchRestart c b | .hello c b _ _ | .rateAck c b _ | .pong c b _ =>
    decide (c < 3) && decide (b < 8)
  | .rateSwitch k | .ladderBad k _ | .ladderTimeout k | .ladderHoldEnd k | .starLinkDown k => decide (k < 27)
  | .droopSoft d | .droopHard d | .detectorFail d => decide (d < 16)
  | .tempWarn t | .throttle t | .thmStep t | .quench t | .hardTrip t | .rstNAssert t | .rstNRelease _ _ t
  | .tempWarnEnd t => decide (t.length = 12)
  | .sensorFail k t => decide (t.length = 12) && decide (k < 12)
  | .bootStageDone b => decide (b.temps.length = 12)
  | .tempWaitRecheck temps => decide (temps.length = 12)
  | .setEndpointId p _ _ | .getEndpointId p | .getMctpVersionSupport p _ | .getMessageTypeSupport p
  | .getEndpointUuid p | .gettid p | .settid p _ | .getpldmversion p _ | .getpldmtypes p | .getpldmcommands p _
  | .getpdr p _ | .getsensorreading p _ | .getstatesensorreadings p _ | .seteventreceiver p _ _
  | .querydeviceidentifiers p | .getfirmwareparameters p | .requestupdate p | .passcomponenttable p
  | .updatecomponent p _ | .requestfirmwaredata p _ | .activatefirmware p | .getstatus p | .cancelupdatecomponent p
  | .cancelupdate p | .unsupportedMessage p _ _ | .smbusBadPec p _ _ | .mctpBadPacket p _ _ | .mctpForeignEid p
  | .arbitrationLost p | .arbitrationRetry p _ | .smbusSclTimeout p | .smbusSdaStuck p _ => decide (p < 2)

end Sys2Proof
end

