-- ==== Sys2Proof/Certificates/Slice0/Obligations.lean ====
section
/-! DEFINITION. The statements of this model for the provers: the completion of every row of the command table with its own
effect, what taking and answering a command does, the rules of the spec that fix a value, and the invariants of a step. -/

open Sys2Proof Sys2Proof.Machine

/-- A step with a command in front of the queue runs exactly that command, with the queue's rest. -/
def Obligations.StepRunsTheFrontCommand : Prop :=
  ∀ (s : State) c rest, s.pending = c :: rest → step s = exec c { s with pending := rest }

/-- The model's choice for an empty queue (log entry 6): one cycle of the reference clock passes. While the core is held in reset or
halted and no message waits on a sideband port, nothing changes; else a quiet cycle, or
the strike where the heat ends, or the adoption strike where it comes no later. -/
def Obligations.EmptyQueueIsOneReferenceCycle : Prop :=
  (∀ s : State, s.pending = [] → step s = .next (idleTick s)) ∧
  (∀ s : State, s.pending = [] → (s.sbPort 0).tx = [] → (s.sbPort 1).tx = [] → s.boot.stopped = true → step s = .next s) ∧
  (∀ s : State, s.pending = [] → (s.sbPort 0).tx = [] → (s.sbPort 1).tx = [] → s.boot.stopped = false → s.tim.adopt = none →
    1 < s.toStrike → step s = .next (quietCycle s)) ∧
  (∀ s : State, s.pending = [] → (s.sbPort 0).tx = [] → (s.sbPort 1).tx = [] → s.boot.stopped = false → s.tim.adopt = none →
    s.toStrike ≤ 1 →
    step s = .next ((List.range 16).foldl autoRestore (strikeEdge s.toEnd (s.time.heat + 1) s.env))) ∧
  (∀ (s : State) n t, s.pending = [] → (s.sbPort 0).tx = [] → (s.sbPort 1).tx = [] → s.boot.stopped = false →
    s.tim.adopt = some (n, t) → t ≤ s.time.refNow + 1 → t - s.time.refNow ≤ s.toStrike →
    step s = .next (jumpEdge (s.dueNow.advance (min 1 s.toStrike)) n s.tim.adoptLen s.env))

/-- R53: heat number, heat length and precision class after power-on reset, and the first strike, which comes 125,000 ns of the
device's own reference later and begins heat 1. -/
def Obligations.ResetTime : Prop :=
  State.reset.time.heat = 0 ∧ State.reset.time.heatLen = 125000 ∧ State.reset.time.cls = 3 ∧ State.reset.toStrike = 125000 ∧
  ∀ x, exec (.strike x) State.reset = .next (strikeEdge (State.reset.advance 125000) 1 x)

/-- The stores of the reset state are in canonical form, and nothing waits. -/
def Obligations.ResetIsCanonical : Prop := Canon State.reset ∧ State.reset.pending = []

/-- Every step keeps the stores in canonical form: registers and both banks of counters, with strictly rising keys and no register
at its reset value listed, and the rings of the log within their room (R14, R664, R671, R767). -/
def Obligations.EveryStepKeepsCanonicalForm : Prop := ∀ s t : State, Canon s → step s = .next t → Canon t

/-- What a command or an event does is its effect on everything but the queue of waiting commands. -/
def Obligations.ExecLeavesTheQueue : Prop := ∀ c (s t : State), exec c s = .next t → t.pending = s.pending

/-- No row of the table faults or is refused: in every state, each one answers a next state. -/
def Obligations.EveryRowAnswersANextState : Prop := ∀ c (s : State), ∃ t, exec c s = .next t

/-- Families 0x01 and 0x0F complete, each as an equation for what exec answers: NOP answers 0, the queries the values of Table 4.11,
ECHO parameter bytes 0 to 15, BURN its count (Table 4.12). Each holds wherever the command is taken and passes steps 1 to 5 of R166;
none changes anything but the accounting of its take. -/
def Obligations.DeviceCommandsComplete : Prop :=
  (∀ c s target late, let t := takenFrom Op.nop c s
    Admits Op.nop c s → checkLate c t = .ok (target, late) → exec (.nop c) s = .next (doneWith Op.nop c t t 0)) ∧
  (∀ c s target late, let t := takenFrom Op.getDeviceInfo c s
    Admits Op.getDeviceInfo c s → checkLate c t = .ok (target, late) →
    exec (.getDeviceInfo c) s = .next (doneWith Op.getDeviceInfo c t t
      (0x0160 + 0xB0 * 2 ^ 16 + (match t.nvm.running with | some r => r.2.1 | none => 0) * 2 ^ 32 +
        (match t.nvm.running with | some r => r.1 | none => 0) * 2 ^ 64 + b2n t.vrs.hub * 2 ^ 72 + t.vrs.node * 2 ^ 80))) ∧
  (∀ c s target late, let t := takenFrom Op.getSerial c s
    Admits Op.getSerial c s → checkLate c t = .ok (target, late) →
    exec (.getSerial c) s = .next (doneWith Op.getSerial c t t Config.serial.toNat)) ∧
  (∀ c s target late, let t := takenFrom Op.getQueueInfo c s
    Admits Op.getQueueInfo c s → checkLate c t = .ok (target, late) → (t.insOf c.id).st ≠ .free →
    exec (.getQueueInfo c) s = .next (doneWith Op.getQueueInfo c t t
      (State.backlog (t.func c.id).q + (t.insOf c.id).level * 2 ^ 32 + (t.insOf c.id).weight * 2 ^ 48 +
        (t.func c.id).q.lastCu * 2 ^ 64 + (t.insOf c.id).cap * 2 ^ 96))) ∧
  (∀ c s target late, let t := takenFrom Op.echo c s
    Admits Op.echo c s → checkLate c t = .ok (target, late) →
    exec (.echo c) s = .next (doneWith Op.echo c t t (pf c.params 15 0))) ∧
  (∀ c s target late n, let t := takenFrom (Op.burn c) c s
    Admits (Op.burn c) c s → checkLate c t = .ok (target, late) → pf c.params 3 0 = n → 1 ≤ n →
    exec (.burn c) s = .next (doneWith (Op.burn c) c t t n))

/-- Family 0x02 but for the cluster commit (Table 2.5): SET_HEAT_LENGTH stages a length of 20,000 to 16,000,000 ns that
leaves the image's idle time, BARRIER stages nothing; GET_TIME answers from one edge (R56); QUERY_STAGED and CANCEL_STAGED
see what the queue may see. -/
def Obligations.StrikeCommandsComplete : Prop :=
  Stages .setHeatLength Op.setHeatLength
    (fun c s => pf c.params 3 3 = 0 ∧ 20000 ≤ pf c.params 2 0 ∧ pf c.params 2 0 ≤ 16000000 ∧
      needsCluster c s = false ∧
      (∀ m, s.vrs.img = some m → s.tim.st = 0 ∨ m.lastEnd + idleMin (pf c.params 2 0) ≤ pf c.params 2 0)) ∧
  Replies .getTime Op.getTime (fun _ _ => True) (fun _ s => s)
    (fun _ s => s.time.heat.toNat + s.time.ns * 2 ^ 48 + s.time.cls * 2 ^ 80) ∧
  (∀ h : Heat, Replies .queryStaged Op.queryStaged
    (fun c s => h = BitVec.ofNat 48 (pf c.params 5 0) ∧
      ((∃ i ∈ seenItems s c, i.landing = h) ∨ (isManager c.src = true ∧ ∃ b ∈ s.staging.barriers, b.2 = h)))
    (fun _ s => s)
    (fun c s => ((seenItems s c).filter (fun i => i.landing == h)).length +
      ((seenItems s c).map (·.landing) ++
        (if isManager c.src then s.staging.barriers.map (·.2) else [])).eraseDups.length * 2 ^ 32)) ∧
  (∀ (h : Heat) (tag : BitVec 32), Replies .cancelStaged Op.cancelStaged
    (fun c s => h = BitVec.ofNat 48 (pf c.params 5 0) ∧ tag = BitVec.ofNat 32 (pf c.params 9 6) ∧
      (∃ i ∈ s.staging.items, i.isSealed = true ∧ i.landing = h ∧ i.tag = tag ∧ i.owner = c.src) ∧
      (∀ i ∈ s.staging.items, i.isSealed = true → i.landing = h → i.tag = tag → i.owner = c.src → i.commit = none) ∧
      (h ≠ s.time.heat + 1 ∨ s.pastSeal = false))
    (fun c s =>
      let rest := s.staging.items.filter (fun i => !(i.isSealed && i.landing == h && i.tag == tag && i.owner == c.src))
      { s with staging := { s.staging with items := rest } })
    (fun c s => (s.staging.items.filter (fun i => i.isSealed && i.landing == h && i.tag == tag && i.owner == c.src)).length)) ∧
  Stages .barrier Op.barrier
    (fun c _ => c.atStrike = true) (fun _ _ => [])

/-- The commit opcodes of family 0x02 (R548, R550, R556, R559): COMMIT_OPEN takes a unit number and a promise of a second
reply; COMMIT_CANCEL discards a unit two heats before its target at the latest; COMMIT_QUERY answers with phase and reports. -/
def Obligations.CommitCommandsComplete : Prop :=
  Stages .commitOpen Op.commitOpen
    (fun c s => pf c.params 0 0 ≠ 0 ∧
      bit (pf c.params 15 8) s.vrs.node = true ∧
      (∃ m, s.vrs.img = some m ∧ ∀ n ∈ bitList (pf c.params 15 8) 64, (m.node? n).isSome = true) ∧ s.tim.st ≠ 0 ∧
      s.tim.units.length < 4 ∧ ∀ u ∈ s.tim.units, u.target ≠ c.target)
    (fun _ _ => []) false (fun _ _ => 0)
    (fun c s =>
      let u : CUnit :=
        { cid := pf c.params 0 0, mask := pf c.params 15 8, target := c.target, unit := s.staging.nextUnit, owner := c.src,
          tag := c.tag, quiet := c.noReply, isSealed := false, phase := 0, armed := 0, go := 0, committed := 0, aborted := 0, lost := false,
          cause := 0, failing := 0xFF }
      let s1 := { s with tim := { s.tim with units := s.tim.units ++ [u] } }
      match c.src with
      | .queue f => s1.modQueue f (fun q => { q with promised := q.promised + 1 })
      | .mbox => s1) ∧
  (∀ u, Replies .commitCancel Op.commitCancel
    (fun c s => findUnit s (pf c.params 0 0) (BitVec.ofNat 48 (pf c.params 6 1)) = some u ∧
      s.time.heat.toNat + 2 < u.target.toNat)
    (fun _ s => abortUnit s u TimCause.cancelled) (fun _ _ => 0)) ∧
  (∀ u, Replies .commitQuery Op.commitQuery
    (fun c s => findUnit s (pf c.params 0 0) (BitVec.ofNat 48 (pf c.params 6 1)) = some u)
    (fun _ s => s) (fun _ _ => u.phase + phaseMask u * 2 ^ 64))

/-- Family 0x0B (Table 13.9): SCHED_LOAD, TIM_STEER and TIM_PTP_MAP stage where R553 asks for no cluster unit; TIM_JOIN enters
LISTEN with an image (R528), and is DONE without effect where the device has joined; TIM_LEAVE returns to OFF and aborts the
pending units; TIM_QUERY answers with state, class and corrections. -/
def Obligations.ClusterTimeCommandsComplete : Prop :=
  Stages .schedLoad Op.schedLoad
    (fun c s => needsCluster c s = false ∧ imgCheck s c.data = none) ∧
  Replies .timJoin Op.timJoin
    (fun _ s => s.vrs.img.isSome = true ∧ s.tim.st = 0)
    (fun c s => { enterTime s 1 with
      tim := { (enterTime s 1).tim with cold := pf c.params 0 0 == 1 && isSync s, adopt := none, txOn := false } })
    (fun _ _ => 0) ∧
  Replies .timJoin Op.timJoin
    (fun _ s => s.vrs.img.isSome = true ∧ s.tim.st ≠ 0)
    (fun _ s => s) (fun _ _ => 0) ∧
  Replies .timLeave Op.timLeave (fun _ _ => True)
    (fun _ s => s.tim.units.foldl (fun s u => abortUnit s u TimCause.syncLost)
      { enterTime s 0 with tim := { (enterTime s 0).tim with adopt := none } })
    (fun _ _ => 0) ∧
  Replies .timQuery Op.timQuery (fun _ _ => True) (fun _ s => s)
    (fun _ s => s.tim.st + s.time.cls * 2 ^ 8 + s.tim.usedCnt * 2 ^ 16 + sext32 (s.word 0x010114) * 2 ^ 32 +
      sext32 (s.word 0x010118) * 2 ^ 64 + sext32 (s.word 0x010110) * 2 ^ 96) ∧
  Stages .timSteer Op.timSteer
    (fun c s => -100000 ≤ toInt 32 (pf c.params 3 0) ∧ toInt 32 (pf c.params 3 0) ≤ 100000 ∧
      needsCluster c s = false) ∧
  Stages .timPtpMap Op.timPtpMap
    (fun c s => pf c.params 15 12 ≤ 999999999 ∧ needsCluster c s = false)

/-- Device time (R51, R54, R57, R61, R73, R74, R85, R538, R774, R775): the strike at the end of the heat, the adoption strike that comes
before it, the seal point with the work it finds unfinished, and the end of a pulse. -/
def Obligations.DeviceTimeEventsComplete : Prop :=
  (∀ x s, s.boot.stopped = false → s.tim.adopt = none → exec (.strike x) s = .next (strikeEdge s.toEnd (s.time.heat + 1) x)) ∧
  (∀ x s n t, s.boot.stopped = false → s.tim.adopt = some (n, t) → s.time.refNow + s.toStrike < t →
    exec (.strike x) s = .next (strikeEdge s.toEnd (s.time.heat + 1) x)) ∧
  (∀ x s s1 n t, s.boot.stopped = false → s.tim.adopt = some (n, t) → s1 = s.upTo t → t - s1.time.refNow ≤ s1.toStrike →
    exec (.timeJump x) s = .next (jumpEdge (s1.advance (t - s1.time.refNow)) n s.tim.adoptLen x)) ∧
  (∀ s, s.time.sealDone = false → s.boot.stopped = false →
    exec (.sealPoint s.time.heat) s = .next (s.atNs s.sealNs (fun u => finishJobs u.judge))) ∧
  (∀ (s : State) (w : Work) cause, s.time.sealDone = false → s.budget.full = true →
    w = s.budget.carried.foldl (fun (a : Work) x =>
      { svc := a.svc + x.svc, cmds := a.cmds + x.cmds, aging := a.aging + x.aging, log := a.log + x.log,
        telem := a.telem + x.telem }) s.budget.todo →
    cause = (if w.svc = 0 then 0 else 1) + (if w.cmds = 0 then 0 else 2) + (if w.aging = 0 then 0 else 4) +
      (if w.log = 0 then 0 else 8) + (if w.telem = 0 then 0 else 16) →
    s.judge = { s with
      time := { s.time with sealDone := true },
      budget := { s.budget with
        overrun := cause != 0, cause := cause, todo := Work.zero, credit := Work.zero,
        carried := if s.budget.todo.total = 0 then s.budget.carried else s.budget.carried ++ [s.budget.todo] } }) ∧
  (∀ s, s.io.pulsing ≠ 0 → s.boot.stopped = false →
    exec .strikeIoPulseEnd s = .next (s.atNs (min (s.fld Reg.ioPulse) (s.time.heatLen - 8)) (fun t =>
      { t with io := { t.io with drive := t.io.drive &&& ~~~t.io.pulsing, pulsing := 0 } })))

/-- Firmware and its surroundings (R49, R94, R95, R179, R195, R196, R200, R277, R285, R577, R656, R665, R671, R697, R714, R760, R775):
an open chain that is not closed in time, the watchdog's restart, reaching RUN, the reference clock's loss and return, and
memory failures. -/
def Obligations.FirmwareEventsComplete : Prop :=
  (∀ f ch s, (s.func f).q.chain = some ch → 64 ≤ ch.age →
    (∀ h, (s.func f).q.head = some h → State.backlog (s.func f).q < h.slots) →
    exec (.chainOpen f) s = .next ((ch.members.foldl (fun t m => t.issueReply f
      { tag := m.tag, status := St.aborted, detail := 16, heat := t.time.heat, phase := false, result := 0 } true)
      (dropChain s f)).post 0x2061 [])) ∧
  (∀ s t, s.cmd.fw = .run → s.boot.stopped = false → s.budget.stallFrom = some t →
    exec .fwRestart s = .next (s.atRef (t + 10000000) restart)) ∧
  (∀ s s1 s2 s3 s4, s1 = s.funcs.foldl (fun t x => dropChain t x.1) s →
    s2 = s1.cmd.jobs.foldl (fun t j => match j.fin with | .seal u _ _ _ => dropUnit t u | _ => t) s1 →
    s3 = { s2 with
      cmd := { s2.cmd with fw := .restart, undecided := s2.cmd.undecided ++ undecidedNow s, busyOps := [], jobs := [] },
      budget := { s2.budget with full := false, runHeat := false, cmdLeft := 0, carriedIn := 0, todo := Work.zero, carried := [],
                                 guardUsed := 0, stall := none, stallFrom := none },
      rul := { s2.rul with behind := 0, partDone := 0 } } →
    s4 = (((s3.inc Ctr.fwRestart).raise Reg.cmdStatus 0 0).fireDev 0).post 0x2060 [] →
    restart s = (if s4.nvm.govern.trial then
      flashAsk s4 (.header (s4.nvm.nextHdr s4.nvm.govern.active true (s4.nvm.govern.count + 1)) false) .nobody else s4)) ∧
  (∀ s, s.boot.stopped = false → s.cmd.fw = .restart →
    exec .fwRun s = .next (mboxUndefined (watchdogReplies (runBudget { s with
      cmd := { s.cmd with fw := .run }, nvm := { s.nvm with runFrom := s.time.refNow } })))) ∧
  (∀ s s1, s.boot.stopped = false → s.cmd.fw = .boot → s.boot.stage = 8 →
    s1 = bootIns (runBudget { s with
      cmd := { s.cmd with fw := .run }, nvm := { s.nvm with runFrom := s.time.refNow } }) 0 →
    exec .fwRun s = .next (mboxUndefined (portChain (recordBoot (if s1.enabledLinks.contains 1 then bootIns s1 2 else s1))))) ∧
  (∀ s s1 s2, s.time.refHold = false → s.boot.stopped = false →
    s1 = { s with time := { s.time with refHold := true, refLostAt := s.time.refNow } } →
    s2 = (if bit (s1.fld Reg.stkIntEn) 5 then s1.fireDev 1 else s1) →
    exec .refLost s = .next (timeRefLost (lanesRefLost (reclass (if s2.cmd.fw = .boot
      then { s2 with boot := { s2.boot with deferred := s2.boot.deferred ++ [(0x1002, [])] } } else s2.post 0x1002 []))))) ∧
  (∀ s, s.time.refHold = true → s.boot.stopped = false →
    exec .refReturned s = .next (s.atRef (s.time.refLostAt + 10000000) (fun u =>
      let data := leBytes 4 (min ((u.time.refNow - u.time.refLostAt) / 1000000) 0xFFFFFFFF)
      let u1 := { u with time := { u.time with refHold := false } }
      lanesRefBack (reclass (if u1.cmd.fw = .boot
        then { u1 with boot := { u1.boot with deferred := u1.boot.deferred ++ [(0x1003, data)] } } else u1.post 0x1003 data))))) ∧
  (∀ s, exec .dramUnavailable s =
    .next { s with rul := { s.rul with dramDown := true }, tri := { s.tri with mem := true } }) ∧
  (∀ ring rom s s1, s.boot.stopped = false → s1 = { s with
      tri := { s.tri with mem := true },
      boot := { s.boot with romBankBad := s.boot.romBankBad || (rom && s.cmd.fw == .lifeboat) } } →
    exec (.managementSramError ring rom) s = .next (match ring with | some bad => logFails s1 bad | none => s1))

/-- Power-up and the kinds of reset (R53, R94, R95, R629, R689 to R694, R698, R699, R707, R713, R746; Table 17.4): what each leaves,
under which cause, and when the boot begins. -/
def Obligations.ResetEventsComplete : Prop :=
  (∀ s, exec .powerOnReset s = .next { State.reset with
    io := { State.reset.io with pinIn := s.io.pinIn }, env := s.env, out := s.out, free := s.free, pending := s.pending,
    log := { Log.reset with page := s.log.page, pages := s.log.pages }, nvm := s.nvm.afterReset,
    tri := { TriUnit.reset with isoA := s.tri.isoA, isoB := s.tri.isoB },
    pwr := { PwrUnit.reset with alert := s.pwr.alert },
    boot := { Boot.reset with rstN := true, standby := false, stopped := true } }) ∧
  (∀ s, exec .standbyRelease s = .next { s with boot := { s.boot with standby := true } }) ∧
  (∀ t s s1, s.boot.rstN = false → s1 = warmClear (withCause s 2) →
    exec (.rstNAssert t) s = .next (endTrip (setTemps { s1 with boot := { s1.boot with rstN := true } } t))) ∧
  (∀ t s, s.boot.rstN = true → exec (.rstNAssert t) s = .next (endTrip (setTemps s t))) ∧
  (∀ s s1, s.boot.railHold = false → s1 = warmClear (withCause s 16) →
    exec .railDrop s = .next { s1 with boot := { s1.boot with railHold := true } }) ∧
  (∀ lost s, s.boot.railHold = true → exec (.railReturn lost) s = .next (startBoot { s with
    boot := { s.boot with railHold := false }, time := { s.time with refHold := lost } })) ∧
  (∀ straps lost t s s1, s.boot.rstN = true → s1 = endTrip (setTemps s t) →
    exec (.rstNRelease straps lost t) s = .next (startBoot { s1 with
      boot := { s1.boot with rstN := false, strapHub := bit straps 0, strapBoot := bit straps 1, strapLink := bit straps 2,
                             strapNode := bits straps 13 8 },
      vrs := Viras.reset (bit straps 0) (bits straps 13 8), time := { s1.time with refHold := lost } })) ∧
  (∀ l pageDone s s0 s1, idReset s l = true → s0 = (if programming s && pageDone then flashStep s true else s) →
    s1 = warmClear (withCause s0 4) →
    exec (.idResetWarm l pageDone) s = .next (startBoot { s1 with boot := { s1.boot with lbRequest := false } }) ∧
    exec (.idResetLifeboat l pageDone) s = .next (startBoot { s1 with boot := { s1.boot with lbRequest := true } })) ∧
  (∀ l s, idReset s l = true → exec (.resetKey l) s = .next (s.post 0x2091 []))

/-- The boot and the shutdowns for temperature (R626 to R629, R639, R640, R653 to R656, R694 to R696, R699, R711; Tables 15.5 and
17.3): each stage's end, the wait for a cooler die, the quench and its halt, and the hard trip. -/
def Obligations.BootAndShutdownEventsComplete : Prop :=
  (∀ (b : BootIn) s s1, s.boot.stopped = false → s.cmd.fw = .boot → s.boot.hot = false → s1 = setTemps s b.temps →
    (s1.boot.stage = 1 → b.failed % 32 / 2 = 0 → s1.boot.strapBoot = false → s1.boot.lbRequest = false →
      exec (.bootStageDone b) s = .next { s1 with boot := { s1.boot with stage := if 1520 ≤ s1.pwr.temp then 2 else 3 } }) ∧
    (s1.boot.stage = 3 → exec (.bootStageDone b) s = .next { s1 with boot := { s1.boot with stage := 4 } }) ∧
    (s1.boot.stage = 4 → exec (.bootStageDone b) s = .next (if bit b.failed 0 then enterLifeboat s1 b 3
      else { s1 with boot := { s1.boot with stage := 5 } })) ∧
    (s1.boot.stage = 5 → exec (.bootStageDone b) s = .next (if b.mib = 0 then enterLifeboat (flashStage s1 b) b 4
      else { flashStage s1 b with boot := { (flashStage s1 b).boot with stage := 6 } })) ∧
    (∀ s2, s1.boot.stage = 6 → chooseImage s1 = some s2 →
      exec (.bootStageDone b) s = .next { s2 with boot := { s2.boot with presented := true, stage := 7 } }) ∧
    (s1.boot.stage = 6 → chooseImage s1 = none → exec (.bootStageDone b) s = .next (enterLifeboat s1 b 5)) ∧
    (∀ s2, s1.boot.stage = 7 → s2 = loadImage s1 →
      exec (.bootStageDone b) s = .next { s2 with boot := { s2.boot with stage := 8, bootMs := min b.ms 0xFFFF } })) ∧
  (∀ (b : BootIn) s s1, s.boot.stopped = false → s.cmd.fw = .boot → s.boot.hot = false → s1 = setTemps s b.temps →
    s1.boot.stage = 1 → (b.failed % 32 / 2 ≠ 0 ∨ s1.boot.strapBoot = true ∨ s1.boot.lbRequest = true) →
    exec (.bootStageDone b) s = .next (enterLifeboat s1 b
      (if b.failed % 32 / 2 ≠ 0 then 3 else if s1.boot.strapBoot then 1 else 2))) ∧
  (∀ temps s s1, s.boot.stopped = false → s.cmd.fw = .boot → s.boot.stage = 2 → s1 = setTemps s temps →
    exec (.tempWaitRecheck temps) s = .next (
      if s1.boot.hot then { s1 with boot := { s1.boot with stopped := true } }
      else if s1.pwr.temp < 1520 then { s1 with boot := { s1.boot with stage := 3 } } else s1)) ∧
  (∀ t s s1, s1 = setTemps s t → 1840 ≤ s1.pwr.temp → s1.boot.stopped = false → s1.pwr.quench = 0 → s1.cmd.fw ≠ .boot →
    exec (.quench t) s = .next (setCeiling ((((State.raise { s1 with
      pwr := { s1.pwr with quench := 1, quenched := true } } Reg.thmStatus 2 5).inc Ctr.thmQuench).post 0x9014 []).fireDev 5)
      3)) ∧
  (∀ done s s1 halt, (s.pwr.quench = 4 ∨ s.pwr.quench = 5) → s.ln.power = [] →
    s1 = { s with pwr := { s.pwr with quench := 5 } } →
    halt = (fun (u : State) => haltCore { u with pwr := { u.pwr with quench := 6 } }) →
    exec (.quenchHalt done) s = .next (
      if programming s1 = false then halt s1
      else if done then halt (flashStep s1 true) else s1.atRef (s1.pwr.quenchAt + 4000000) halt)) ∧
  (∀ t s s1, s1 = setTemps s t → s1.pwr.tripHold = false → s1.boot.standby = true →
    exec (.hardTrip t) s = .next (haltCore (State.inc { s1 with
      pwr := { s1.pwr with tripped := true, tripHold := true },
      boot := { s1.boot with
        deferred := s1.boot.deferred.filter (fun (e : Nat × List Byte) => e.1 != 0x9015) ++ [(0x9015, [])] } } Ctr.thmTrip)))

/-- Family 0x03, instances and pools (R200, R201, R207 to R211, R217, R230 to R237), each as an equation for what exec answers: the
four staging rows stage within their ranges and end with the seal of their item; INS_QUERY and POOL_QUERY answer with grants, limits
and pool totals. -/
def Obligations.InstanceCommandsComplete : Prop :=
  (∀ c s target late st, let t := takenFrom Op.insCreate c s
    Admits Op.insCreate c s → checkLate c t = .ok (target, late) →
    (t.boot.strapLink = false ∨ (c.id ≠ 2 ∧ c.id ≠ 3)) → State.isPf0 c.id = false →
    (t.insOf c.id).st = .free → creating t c.id = false →
    1 ≤ pf c.params 1 1 → pf c.params 1 1 ≤ 3 →
    weightOk (pf c.params 3 2) = true → capOk (pf c.params 7 4) = true →
    grantTooBig c.params c.id false = none →
    stagedAs Op.insCreate c t [c.data] false target = some st →
    exec (.insCreate c) s = .next (ends Op.insCreate c t st (.seal t.staging.nextUnit target late 0))) ∧
  (∀ c s target late st, let t := takenFrom Op.insDestroy c s
    Admits Op.insDestroy c s → checkLate c t = .ok (target, late) →
    State.isPf0 c.id = false → destroying t c.id = false →
    stagedAs Op.insDestroy c t [c.data] false target = some st →
    exec (.insDestroy c) s = .next (ends Op.insDestroy c t st (.seal t.staging.nextUnit target late 0))) ∧
  (∀ c s target late st, let t := takenFrom Op.insResize c s
    Admits Op.insResize c s → checkLate c t = .ok (target, late) →
    destroying t c.id = false → (t.insOf c.id).elastic = true →
    grantTooBig c.params c.id true = none →
    stagedAs Op.insResize c t [c.data] false target = some st →
    exec (.insResize c) s = .next (ends Op.insResize c t st (.seal t.staging.nextUnit target late 0))) ∧
  (∀ c s target late st, let t := takenFrom Op.insSetLimits c s
    Admits Op.insSetLimits c s → checkLate c t = .ok (target, late) →
    destroying t c.id = false →
    (bit (pf c.params 24 24) 0 = true → pf c.params 3 0 ≤ 1600000 ∧ 1 ≤ pf c.params 11 8 ∧ pf c.params 11 8 ≤ 16384) →
    (bit (pf c.params 24 24) 1 = true → pf c.params 7 4 ≤ 1600000 ∧ 1 ≤ pf c.params 15 12 ∧ pf c.params 15 12 ≤ 16384) →
    (bit (pf c.params 24 24) 2 = true → weightOk (pf c.params 17 16) = true) →
    (bit (pf c.params 24 24) 3 = true → pf c.params 18 18 ≤ 3 ∧ (pf c.params 18 18 = 0 → State.isPf0 c.id = true)) →
    (bit (pf c.params 24 24) 4 = true → capOk (pf c.params 23 20) = true) →
    stagedAs Op.insSetLimits c t [c.data] false target = some st →
    exec (.insSetLimits c) s = .next (ends Op.insSetLimits c t st (.seal t.staging.nextUnit target late 0))) ∧
  (∀ c s target late, let t := takenFrom Op.insQuery c s
    Admits Op.insQuery c s → checkLate c t = .ok (target, late) →
    pf c.params 0 0 ≤ 2 →
    exec (.insQuery c) s = .next (doneWith Op.insQuery c t t 
      (let i := t.insOf c.id
       let g (p : Nat) := i.grants.getD p 0
       match pf c.params 0 0 with
       | 0 => words4 (g 0) (g 1) (g 2) (g 3)
       | 1 => words4 (g 4) (g 5) (g 6) (insWord i)
       | _ => words4 i.h2wRate i.w2hRate (65536 * i.weight + i.level) i.cap))) ∧
  (∀ c s target late, let t := takenFrom Op.poolQuery c s
    Admits Op.poolQuery c s → checkLate c t = .ok (target, late) →
    pf c.params 0 0 ≤ 6 →
    exec (.poolQuery c) s = .next (doneWith Op.poolQuery c t t 
      (words4 (poolTotal (pf c.params 0 0)) (granted t (pf c.params 0 0)) (reserved t (pf c.params 0 0)) (freeOf t (pf c.params 0 0)))))

/-- Families 0x03 and 0x04, queue pairs and translation (R213 to R216, R225 to R229, R242), each as an equation for what exec answers:
a queue pair is configured, started and stopped, where it waits for completion entries that have no room; a root is set and cached
translations go; a probe answers as a walk would; the oldest fault record is removed and returned. -/
def Obligations.QueuePairCommandsComplete : Prop :=
  (∀ c s target late, let t := takenFrom Op.qpConfig c s
    Admits Op.qpConfig c s → checkLate c t = .ok (target, late) →
    pf c.params 1 0 < (t.insOf c.id).grants.getD 0 0 → retiring t c.id 0 (pf c.params 1 0) = false →
    (t.qp c.id (pf c.params 1 0)).st ≠ .running → (t.qp c.id (pf c.params 1 0)).st ≠ .error →
    logOk (pf c.params 2 2) = true → logOk (pf c.params 3 3) = true → logOk (pf c.params 4 4) = true →
    pf c.params 7 6 < t.vecCount c.id →
    pf c.params 15 8 % 4096 = 0 → pf c.params 23 16 % 4096 = 0 → pf c.params 31 24 % 4096 = 0 →
    exec (.qpConfig c) s = .next (doneWith Op.qpConfig c t 
      (t.setQp c.id (pf c.params 1 0)
        { t.qp c.id (pf c.params 1 0) with
          st := .stopped, logTx := pf c.params 2 2, logRx := pf c.params 3 3, logCq := pf c.params 4 4, vec := pf c.params 7 6,
          txAddr := pf c.params 15 8, rxAddr := pf c.params 23 16, cqAddr := pf c.params 31 24 }) 0)) ∧
  (∀ c s target late, let t := takenFrom Op.qpStart c s
    Admits Op.qpStart c s → checkLate c t = .ok (target, late) →
    pf c.params 1 0 < (t.insOf c.id).grants.getD 0 0 → retiring t c.id 0 (pf c.params 1 0) = false →
    (t.qp c.id (pf c.params 1 0)).st = .stopped → (t.qp c.id (pf c.params 1 0)).held = [] →
    exec (.qpStart c) s = .next (doneWith Op.qpStart c t 
      (t.setQp c.id (pf c.params 1 0)
        { t.qp c.id (pf c.params 1 0) with
          st := .running, txProd := 0, txCons := 0, rxProd := 0, rxCons := 0, cqProd := 0, cqCons := 0, cqPhase := true,
          armed := false }) 0)) ∧
  (∀ c s target late, let t := takenFrom Op.qpStop c s
    Admits Op.qpStop c s → checkLate c t = .ok (target, late) →
    pf c.params 1 0 < (t.insOf c.id).grants.getD 0 0 → (t.qp c.id (pf c.params 1 0)).st ≠ .unconfigured →
    (t.qp c.id (pf c.params 1 0)).held = [] →
    exec (.qpStop c) s = .next (doneWith Op.qpStop c t 
      ((t.setQp c.id (pf c.params 1 0) { t.qp c.id (pf c.params 1 0) with st := .stopped }).freeSlots c.id (pf c.params 1 0)) 0)) ∧
  (∀ c s target late, let t := takenFrom Op.qpStop c s
    Admits Op.qpStop c s → checkLate c t = .ok (target, late) →
    pf c.params 1 0 < (t.insOf c.id).grants.getD 0 0 → (t.qp c.id (pf c.params 1 0)).st ≠ .unconfigured →
    (t.qp c.id (pf c.params 1 0)).held ≠ [] →
    exec (.qpStop c) s = .next (refund (qpWait
      ((t.setQp c.id (pf c.params 1 0) { t.qp c.id (pf c.params 1 0) with st := .stopped }).freeSlots c.id (pf c.params 1 0))
      (State.qpKey c.id (pf c.params 1 0)) c) c.src (spareOf Op.qpStop c))) ∧
  (∀ c s target late, let t := takenFrom Op.qpState c s
    Admits Op.qpState c s → checkLate c t = .ok (target, late) →
    pf c.params 1 0 < (t.insOf c.id).grants.getD 0 0 →
    exec (.qpState c) s = .next (doneWith Op.qpState c t t 
      (match (t.qp c.id (pf c.params 1 0)).st with
       | .unconfigured => 0
       | .stopped => 1
       | .running => 2
       | .error => 3))) ∧
  (∀ c s target late, let t := takenFrom Op.ituSetRoot c s
    Admits Op.ituSetRoot c s → checkLate c t = .ok (target, late) →
    (t.insOf c.id).prot = true → pf c.params 7 0 % 4096 = 0 →
    exec (.ituSetRoot c) s = .next (doneWith Op.ituSetRoot c t 
      (tlbDrop (t.modIns c.id (fun i => { i with root := pf c.params 7 0 })) (fun x => x.inst != c.id)) 0)) ∧
  (∀ c s target late, let t := takenFrom Op.ituInvalidate c s
    Admits Op.ituInvalidate c s → checkLate c t = .ok (target, late) →
    pf c.params 0 0 ≤ 2 →
    (pf c.params 0 0 = 0 → pf c.params 15 8 % 4096 = 0 ∧ 1 ≤ pf c.params 19 16 ∧ pf c.params 19 16 ≤ 1048576) →
    exec (.ituInvalidate c) s = .next (doneWith Op.ituInvalidate c t 
      ((tlbDrop t (fun x => match pf c.params 0 0 with
        | 0 => x.inst != c.id || tlbOutside (pf c.params 15 8) (pf c.params 19 16) x
        | 1 => x.inst != c.id
        | _ => false)).inc Ctr.ituInval) 0)) ∧
  (∀ c mem s target late, let t := takenFrom Op.ituProbe c s
    Admits Op.ituProbe c s → checkLate c t = .ok (target, late) →
    (t.insOf c.id).prot = true → pf c.params 8 8 ≤ 1 →
    exec (.ituProbe c mem) s = .next (doneWith Op.ituProbe c t (seeTables t mem) 
      (match translate (seeTables t mem) c.id (pf c.params 7 0) (pf c.params 8 8 == 1) with
       | .error w => w.reason * 2 ^ 64
       | .ok x => x.addr % 2 ^ 64 + x.leaf.size * 2 ^ 72 + b2n x.hit * 2 ^ 80))) ∧
  (∀ c s target late r rest, let t := takenFrom Op.ituFaultRead c s
    Admits Op.ituFaultRead c s → checkLate c t = .ok (target, late) →
    t.ins.faults = r :: rest →
    exec (.ituFaultRead c) s = .next (doneWith Op.ituFaultRead c t { t with ins := { t.ins with faults := rest } } 
      (r.addr % 2 ^ 64 + r.inst * 2 ^ 64 + r.reason * 2 ^ 80 + (b2n r.write + 2 * r.level) * 2 ^ 88 +
       r.heat.toNat % 2 ^ 32 * 2 ^ 96)))

/-- Family 0x05 (Table 6.6): PORT_CONFIG, PORT_BANK and PORT_RESTORE stage where R250 to R252 and R267 to R270 let them; the
port and equaliser queries answer; LN_SET_EQ sets the taps of a lane at once (R281); LN_DIAG starts and stops a diagnostic on
lanes that no port holds (R273), and LN_DIAG_RESULT answers with its count or rate (R274). -/
def Obligations.LaneCommandsComplete : Prop :=
  Stages .portConfig Op.portConfig
    (fun c s => pf c.params 0 0 ≤ 15 ∧ (bit (pf c.params 1 1) 3 = true ∨
        (1 ≤ pf c.params 2 2 ∧ pf c.params 2 2 ≤ 5 ∧ pf c.params 3 3 ≤ 3 ∧ pf c.params 4 4 ≤ 3 ∧ pf c.params 5 5 ≤ 3 ∧
          anchorOf (pf c.params 0 0) % 2 ^ pf c.params 3 3 = 0 ∧
          (∀ q < 16, q ≠ pf c.params 0 0 → ∀ x ∈ portShapes s q (targetOfCmd c s).toNat, ∀ n ∈ groupLanes (anchorOf q) x.2,
            n ∉ groupLanes (anchorOf (pf c.params 0 0)) (pf c.params 3 3)) ∧
          (∀ n ∈ groupLanes (anchorOf (pf c.params 0 0)) (pf c.params 3 3), inDiag s n = false) ∧
          (∀ x ∈ portShapes s (pf c.params 0 0) (targetOfCmd c s).toNat, x.2 = pf c.params 3 3) ∧
          (∀ q < 4, (quadRates s (pf c.params 0 0) (pf c.params 2 2)
            (groupLanes (anchorOf (pf c.params 0 0)) (pf c.params 3 3)) (targetOfCmd c s).toNat q).length ≤ 2) ∧
          (if bit (pf c.params 1 1) 0 then
            pf c.params 7 6 ≠ 0 ∧ ∀ sp ∈ bitList (pf c.params 7 6) 16,
              (resolveRate sp (pf c.params 2 2) (pf c.params 3 3)).isSome = true
           else speedOf (pf c.params 2 2) (pf c.params 3 3) ≠ 0)))) ∧
  Stages .portBank Op.portBank
    (fun c s => pf c.params 0 0 ≤ 15 ∧ pf c.params 1 1 ≤ 1 ∧
      (pf c.params 1 1 = 1 → (s.port (pf c.params 0 0)).st ≠ .disabled)) ∧
  Replies .portStatus Op.portStatus (fun c _ => pf c.params 0 0 ≤ 15) (fun _ s => s)
    (fun c s => portWord s (pf c.params 0 0) + portFailed s (pf c.params 0 0) * 2 ^ 32 +
      (s.port (pf c.params 0 0)).changeHeat.toNat * 2 ^ 64) ∧
  (∀ y : Lane, Replies .lnSetEq Op.lnSetEq
    (fun c s => pf c.params 0 0 ≤ 15 ∧ pf c.params 1 1 ≤ 1 ∧ (pf c.params 1 1 = 1 → tapsOk (pf c.params 5 2) = true) ∧
      y = if pf c.params 1 1 = 1
        then { s.lane (pf c.params 0 0) with fixed := true, eqTx := pf c.params 5 2, eqRx := pf c.params 9 6 }
        else { s.lane (pf c.params 0 0) with fixed := false })
    (fun c s => s.setLane (pf c.params 0 0)
      (if y ≠ s.lane (pf c.params 0 0) ∧ y.readapt.isSome then { y with readapt := none, restart := true } else y))
    (fun _ _ => 0)) ∧
  Replies .lnGetEq Op.lnGetEq (fun c _ => pf c.params 0 0 ≤ 15) (fun _ s => s)
    (fun c s => (s.lane (pf c.params 0 0)).eqTx + (s.lane (pf c.params 0 0)).eqRx * 2 ^ 32 +
      b2n (s.lane (pf c.params 0 0)).fixed * 2 ^ 64) ∧
  Stages .portRestore Op.portRestore
    (fun c s => pf c.params 0 0 ≤ 15 ∧ (s.port (pf c.params 0 0)).st = .degraded) ∧
  (∀ a w mode, Replies .lnDiag Op.lnDiag
    (fun c s => a = pf c.params 0 0 ∧ w = pf c.params 1 1 ∧ mode = pf c.params 2 2 ∧ a ≤ 15 ∧ w ≤ 3 ∧ a % 2 ^ w = 0 ∧ a + 2 ^ w ≤ 16 ∧
      mode ≤ 4 ∧ pf c.params 3 3 ≤ 5 ∧ (1 ≤ mode → mode ≤ 3 → 1 ≤ pf c.params 3 3) ∧ pf c.params 4 4 ≤ 4 ∧
      (∀ n ∈ groupLanes a w, portOfLane s n = none) ∧
      (∀ d ∈ s.ln.diags, d.anchor ≠ a → d.runs = true → ∀ n ∈ groupLanes d.anchor d.width, n ∉ groupLanes a w))
    (fun c s =>
      let rest := s.ln.diags.filter (fun d => d.anchor != a)
      let rate := if mode = 4 then 1 else pf c.params 3 3
      let d : Diag := { anchor := a, width := w, mode := mode, rate := rate,
                        pattern := if mode = 4 then sweepPattern 1 else pf c.params 4 4, best := 0, ended := false,
                        since := s.time.refNow }
      if mode = 0 then askPower { s with ln := { s.ln with diags := rest } } (groupLanes a w) false
      else askPower (rateLanes { s with ln := { s.ln with diags := d :: rest } } (groupLanes a w) rate) (groupLanes a w) true)
    (fun _ _ => 0)) ∧
  (∀ d, Replies .lnDiagResult Op.lnDiagResult
    (fun c s => pf c.params 0 0 ≤ 15 ∧ s.ln.diags.find? (fun d => d.anchor == pf c.params 0 0) = some d ∧ d.mode ≠ 3)
    (fun _ s => s) (fun _ _ => if d.mode = 4 then d.best else 0)) ∧
  (∀ d, Replies .lnDiagResult Op.lnDiagResult
    (fun c s => pf c.params 0 0 ≤ 15 ∧ s.ln.diags.find? (fun d => d.anchor == pf c.params 0 0) = some d ∧ d.mode = 3)
    (fun _ s => s.draw.2.draw.2) (fun _ s => s.draw.1 % 2 ^ 64 + s.draw.2.draw.1 % 2 ^ 64 * 2 ^ 64))

/-- Errors of requests and completions (R108, R113, R148, R149, R160, R222, R245, R246; Table 3.10): what the device makes of a
TLP that it must not serve, of the answer to a DMA read, of a read that times out and of an invalidation. -/
def Obligations.RequestErrorEventsComplete : Prop :=
  (∀ (a : BarAccess) write ecrc s, (s.present a.func = true ∨ lifeboatFunc s a.func = true) →
    (ecrc && ecrcOn s (s.linkOf a.func)) = false →
    let l := s.linkOf a.func
    (a.space = .cfg → write = false → exec (.mmioAccess a write ecrc) s = .next (s.emitLink l (.readData l (cfgRead s a.func a.offset)))) ∧
    (a.space ≠ .cfg → memOpen s a.func = false → (a.size = 4 ∨ a.size = 8) → a.offset % a.size = 0 →
      exec (.mmioAccess a write ecrc) s = .next (aer (if write then s else s.emitLink l (.cplAbort l false)) a.func Aer.unsupported)) ∧
    (a.space ≠ .cfg → ((a.size ≠ 4 ∧ a.size ≠ 8) ∨ a.offset % a.size ≠ 0) →
      exec (.mmioAccess a write ecrc) s = .next (((aer (if write then s else s.emitLink l (.cplAbort l true)) a.func
        Aer.completerAbort).inc (Ctr.mmioErr a.func)).post 0x2040 [])) ∧
    (a.space ≠ .cfg → memOpen s a.func = true → (a.size = 4 ∨ a.size = 8) → a.offset % a.size = 0 → write = false →
      exec (.mmioAccess a write ecrc) s = .next (
        let t := readEffect s l a.func a.space a.offset a.size
        t.emitLink l (.readData l (readValue t l a.func a.space a.offset a.size))))) ∧
  (∀ f ecrc s, s.present f = true → (ecrc && ecrcOn s (s.linkOf f)) = false →
    exec (.mmioPoison f ecrc) s = .next ((aer s f Aer.poisonedTlp).post 0x2041 [])) ∧
  (∀ l ecrc s, (ecrc && ecrcOn s l) = false →
    exec (.unsupportedRequest l ecrc) s = .next (aer (s.emitLink l (.cplAbort l false)) (2 * l) Aer.unsupported)) ∧
  (∀ l s, exec (.malformed l) s = .next ((aer s (2 * l) Aer.malformed).post 0x2034 [])) ∧
  (∀ l ecrc s, (ecrc && ecrcOn s l) = false →
    exec (.unexpectedCompletion l ecrc) s = .next (aer s (2 * l) Aer.unexpected)) ∧
  (∀ f s, s.present f = true → ecrcOn s (s.linkOf f) = true →
    (∀ (a : BarAccess) write, a.func = f → exec (.mmioAccess a write true) s = .next ((aer s f Aer.ecrc).post 0x2033 [])) ∧
    exec (.mmioPoison f true) s = .next ((aer s f Aer.ecrc).post 0x2033 [])) ∧
  (∀ l s, ecrcOn s l = true →
    exec (.unsupportedRequest l true) s = .next ((aer s (2 * l) Aer.ecrc).post 0x2033 []) ∧
    exec (.unexpectedCompletion l true) s = .next ((aer s (2 * l) Aer.ecrc).post 0x2033 [])) ∧
  (∀ (d : DmaRead) s s1 x, s.present d.func = true → s.canDma d.func = true → queueLive s d.func d.qp = true →
    readCovered s d = true → access (seeTables s d.mem) d.func d.qp d.addr false = (s1, some x) → d.fate = none →
    (d.got = .data → exec (.dmaReadCompletion d) s = .next s1) ∧
    (∀ slot ptrs, d.got = .header slot ptrs →
      exec (.dmaReadCompletion d) s = .next (headerRead (finishJobs s1) d.func slot ptrs)) ∧
    (∀ r k, d.got = .rx r → d.qp = some k → exec (.dmaReadCompletion d) s = .next (
      if 64 ≤ r.len ∧ r.len ≤ 65536 ∧ r.resv = 0 then s1
      else (((stopQueue s1 d.func (some k)).flagFunc d.func 0).fire d.func 0).post 0x2072 []))) ∧
  (∀ (d : DmaRead) s s1, s.present d.func = true → s.canDma d.func = true → queueLive s d.func d.qp = true →
    readCovered s d = true → access (seeTables s d.mem) d.func d.qp d.addr false = (s1, none) →
    exec (.dmaReadCompletion d) s = .next s1) ∧
  (∀ (d : DmaRead) s s1 x r, s.present d.func = true → s.canDma d.func = true → queueLive s d.func d.qp = true →
    readCovered s d = true → access (seeTables s d.mem) d.func d.qp d.addr false = (s1, some x) → d.fate = some r →
    (r = .ecrc → ecrcOn s1 (s1.linkOf d.func) = true) →
    exec (.dmaReadCompletion d) s = .next (dmaFails s1 d.func d.qp
      (if r = .timeout then Aer.timeout else if r = .poisoned then Aer.poisonedTlp else if r = .ecrc then Aer.ecrc
        else Aer.completionErr)
      (if r = .timeout then 0x2031 else if r = .poisoned then 0x2032 else if r = .ecrc then 0x2033 else 0x2030))) ∧
  (∀ f k s, s.present f = true → queueLive s f k = true → (s.func f).cplOff = false →
    exec (.dmaTimeout f k) s = .next (((aer (((stopQueue s f k).flagFunc f 2).inc
      (Ctr.dmaErr f)) f Aer.timeout).post 0x2031 []).fire f 0)) ∧
  (∀ f page count s, s.present f = true →
    exec (.atsInvalidate f page count) s = .next ((s.setLink (s.linkOf f) { s.link (s.linkOf f) with
      atc := (s.link (s.linkOf f)).atc.filter (fun (e : Nat × Nat × Nat) =>
        e.1 != f || decide (e.2.1 < page) || decide (page + count ≤ e.2.1)) }).emit (.atsInvalidated f)))

/-- Links, functions and their resets (R99, R101, R132, R139 to R146, R150, R184, R202, R238, R691): a trained link, what each kind
of reset of Table 3.9 clears, bus mastering, power states and VF Enable. -/
def Obligations.LinkAndFunctionEventsComplete : Prop :=
  (∀ l width speed flit s, s.enabledLinks.contains l = true → (s.link l).trained = false → (s.link l).perst = false →
    s.boot.rstN = false → s.boot.railHold = false → 1000000 ≤ s.time.refNow → (width = 1 ∨ width = 4 ∨ width = 8 ∨ width = 15) →
    1 ≤ speed → speed ≤ 6 → (speed = 6 → flit = true) →
    exec (.linkUp l width speed flit) s = .next (
      let up := (s.setLink l { s.link l with trained := true, width := width, speed := speed, flit := flit }).post 0x2001 []
      if width = 15 ∧ speed = 6 then up else up.post 0x2003 [])) ∧
  (∀ l kind s s1 s2 s3 s4, s.enabledLinks.contains l = true →
    s1 = (if (s.link l).trained then (s.inc (Ctr.linkDown (2 * l))).post 0x2002 [] else s) →
    s2 = (if kind == .linkDown && (s.link l).trained then aer s1 (2 * l) Aer.surpriseDown else s1) →
    s3 = mboxReset (clearFunc (clearFunc (removeVfs s2 l) (2 * l)) (2 * l + 1)) l →
    s4 = s3.setLink l { s3.link l with ecrc := false, ecrcGen := false, aspm := false, inL1 := false } →
    exec (.linkReset l kind) s = .next (s4.setLink l { s4.link l with
      trained := false, width := 0, speed := 0, flit := false, vfMse := false, pageSize := 1,
      perst := (s.link l).perst || kind == .perst })) ∧
  (∀ l s, exec (.perstDeassert l) s = .next (s.setLink l { s.link l with perst := false })) ∧
  (∀ f s s1 s2, s.present f = true → f ≠ 2 * s.linkOf f + 1 → s1 = clearFunc s f →
    s2 = (if State.isPf0 f then clearLinkCfg (mboxReset s1 (s.linkOf f)) (s.linkOf f) else s1) →
    exec (.flr f) s = .next (s2.modFunc f (fun x => { x with inFlr := true }))) ∧
  (∀ f l s s1, s.present f = true → s.linkOf f = l → f = 2 * l + 1 → State.isPf0 f = false → s1 = removeVfs s l →
    exec (.flr f) s = .next ((clearFunc (s1.setLink l { s1.link l with vfMse := false, pageSize := 1 }) f).modFunc f
      (fun x => { x with inFlr := true }))) ∧
  (∀ f s, (s.func f).inFlr = true →
    exec (.flrComplete f) s = .next ((s.modFunc f (fun x => { x with inFlr := false })).post 0x2010 [])) ∧
  (∀ f s, s.present f = true → (s.func f).bme = true →
    exec (.busMasterClear f) s = .next (s.modFunc f (fun x => { x with bme := false, cut := fetching s f }))) ∧
  (∀ f s, s.present f = true →
    exec (.busMasterSet f) s = .next (drainFunc (s.modFunc f (fun x => { x with bme := true, cut := [] })) f) ∧
    exec (.d3hotEntry f) s = .next (s.modFunc f (fun x => { x with d3 := true })) ∧
    exec (.d0Return f) s = .next (drainFunc (s.modFunc f (fun x => { x with d3 := false })) f)) ∧
  (∀ l n s s1, l ≤ 1 → s.present (2 * l + 1) = true → (s.link l).vfEnable = false → n ≤ totalVfs s l →
    s1 = s.setLink l { s.link l with vfEnable := true, numVfs := n } →
    exec (.vfEnableSet l n) s = .next ((vfIds s1 l).foldl (fun t f =>
      if (t.insOf f).st == .detached then t.modIns f (fun i => { i with st := .attached }) else t) s1)) ∧
  (∀ l s, (s.link l).vfEnable = true → exec (.vfEnableClear l) s = .next (removeVfs s l))

/-- Doorbells, queues, vectors, shadows and the mailbox's owner (R22, R55, R110 to R113, R128 to R131, R140, R180, R183, R186,
R187, R778, R779, R780). -/
def Obligations.QueueEventsComplete : Prop :=
  (∀ r s, r ≤ 1 → lifeboatFunc s (2 * r) = false → exec (.stkNsRead r) s =
    .next (State.emitLink { s with shadows := mMod s.shadows r Shadow.fresh (fun x => { x with heat := some s.time.heat }) }
      r (.readData r (s.time.ns + s.time.cls * 2 ^ 24)))) ∧
  (∀ r key s, exec (.counterLowRead r false key) s = .next (State.emitLink { s with
      shadows := mMod s.shadows r Shadow.fresh (fun x =>
        { x with ctr := some key, hi := BitVec.ofNat 32 ((s.ctr key).toNat / 2 ^ 32) }) }
      r (.readData r ((s.ctr key).toNat % 2 ^ 32))) ∧
    exec (.counterLowRead r true key) s = .next (State.emitLink { s with
      shadows := mMod s.shadows r Shadow.fresh (fun x =>
        { x with ctr := some (key + 2 ^ 40), hi := BitVec.ofNat 32 ((mGetD s.snap.ctrs key 0).toNat / 2 ^ 32) }) }
      r (.readData r ((mGetD s.snap.ctrs key 0).toNat % 2 ^ 32)))) ∧
  (∀ f s, s.present f = true → memOpen s f = true → (s.func f).q.enable = false →
    exec (.queueEnable f) s = .next (if (s.func f).q.st = .idle then enableNow s f
      else s.modQueue f (fun q => { q with enable := true, again := true }))) ∧
  (∀ f s, s.present f = true → memOpen s f = true → (s.func f).q.enable = true →
    exec (.queueDisable f) s = .next ((muteUnits (dropUndecided (dropChain s f) f false) f).modQueue f (fun q =>
      { q with enable := false, again := false, loose := false, held := q.held.filter (fun r => !r.2), promised := 0 }))) ∧
  (∀ f s, (s.func f).q.st ≠ .idle → ((s.func f).q.enable = false ∨ (s.func f).q.again = true) →
    inWork s (.queue f) = false → (s.func f).q.held = [] →
    exec (.queueIdle f) s = .next (if (s.func f).q.again = true then enableNow s f
      else s.modQueue f (fun q => { q with st := .idle }))) ∧
  (∀ f idx s, bellsLive s f = true → memOpen s f = true → (s.func f).q.enable = true → (s.func f).q.again = false →
    (s.func f).q.st = .run → bellSpan (s.func f).q.producer (s.func f).q.consumer idx ≤ 2 ^ (s.func f).q.logSlots - 1 →
    exec (.doorbellProducer f 0 false idx) s = .next (s.modQueue f (fun q => { q with producer := idx.toNat }))) ∧
  (∀ f k idx s, bellsLive s f = true → memOpen s f = true → k < (s.insOf f).grants.getD 0 0 → (s.qp f k).st = .running →
    s.rul.dramDown = false →
    (bellSpan (s.qp f k).rxProd (s.qp f k).rxCons idx ≤ 2 ^ (s.qp f k).logRx - 1 →
      exec (.doorbellProducer f (k + 1) true idx) s = .next (s.setQp f k { s.qp f k with rxProd := idx.toNat })) ∧
    (bellSpan (s.qp f k).txProd (s.qp f k).txCons idx ≤ 2 ^ (s.qp f k).logTx - 1 →
      exec (.doorbellProducer f (k + 1) false idx) s = .next (s.setQp f k { s.qp f k with txProd := idx.toNat }))) ∧
  (∀ f k rx idx s, bellsLive s f = true → memOpen s f = true → k < (s.insOf f).grants.getD 0 0 → (s.qp f k).st = .running →
    s.rul.dramDown = false →
    (if rx then 2 ^ (s.qp f k).logRx - 1 < bellSpan (s.qp f k).rxProd (s.qp f k).rxCons idx
      else 2 ^ (s.qp f k).logTx - 1 < bellSpan (s.qp f k).txProd (s.qp f k).txCons idx) →
    exec (.doorbellProducer f (k + 1) rx idx) s = .next (((((stopQueue s f (some k)).flagFunc f 0).inc (Ctr.dbErr f)).post 0x2020 []).fire f 0)) ∧
  (∀ f idx s, bellsLive s f = true → memOpen s f = true → (s.func f).q.enable = true → (s.func f).q.again = false →
    (s.func f).q.st = .run → (idx.toNat + 65536 - (s.func f).q.replyCons) % 65536 ≤ State.replyUsed (s.func f).q →
    exec (.doorbellConsumer f 0 idx) s = .next (s.modQueue f (fun q => { q with replyCons := idx.toNat })) ∧
    exec (.arm f 0 idx) s = .next (
      let left := decide (State.replyUsed { (s.func f).q with replyCons := idx.toNat } ≠ 0)
      let s1 := s.modQueue f (fun q => { q with replyCons := idx.toNat, armed := !left })
      if left then s1.fire f (State.replyVec f) else s1)) ∧
  (∀ f k idx s, bellsLive s f = true → memOpen s f = true → k < (s.insOf f).grants.getD 0 0 → (s.qp f k).st = .running →
    s.rul.dramDown = false →
    (idx.toNat + 65536 - (s.qp f k).cqCons) % 65536 ≤ cqUsed (s.qp f k) →
    exec (.doorbellConsumer f (k + 1) idx) s = .next (finishStops (cqDrain (s.setQp f k { s.qp f k with cqCons := idx.toNat }) f k
      (s.qp f k).held.length)) ∧
    exec (.arm f (k + 1) idx) s = .next (
      let left := decide (cqUsed { s.qp f k with cqCons := idx.toNat } ≠ 0)
      let s1 := s.setQp f k { s.qp f k with cqCons := idx.toNat, armed := !left }
      finishStops (cqDrain (if left then s1.fire f (s.qp f k).vec else s1) f k (s.qp f k).held.length))) ∧
  (∀ f r t s, (s.func f).q.held = r :: t → s.canDma f = true →
    State.replyUsed (s.func f).q < 2 ^ (s.func f).q.logReplies - 1 →
    exec (.replyHeldWrite f) s = .next ((s.modQueue f (fun q => { q with held := t })).putReply f r.1)) ∧
  (∀ f v w s, mGetD (s.func f).vecs v Vec.fresh = w → vecOpen s f w = true → pastHoldoff s w = true →
    (w.maxPerHeat = 0 ∨ w.sentInHeat < w.maxPerHeat) →
    exec (.msixMessage f v) s = .next (((s.modFunc f (fun g => { g with vecs := mPut g.vecs v { w with
      pending := false, lastSent := some s.time.refNow, sentInHeat := w.sentInHeat + 1, counted := false } })).emitLink
        (s.linkOf f) (.msix f v (reqOf f w.addr.toNat false) w.data)).inc (Ctr.msg f))) ∧
  (∀ f v w s, mGetD (s.func f).vecs v Vec.fresh = w → vecOpen s f w = true → pastHoldoff s w = true →
    w.maxPerHeat ≠ 0 → w.maxPerHeat ≤ w.sentInHeat → w.counted = false →
    exec (.msixMessage f v) s = .next ((s.modFunc f (fun g =>
      { g with vecs := mPut g.vecs v { w with counted := true } })).inc (Ctr.hold f))) ∧
  (∀ l s, l ≤ 1 → memOpen s (2 * l) = true →
    (s.cmd.mbox.owner = 0 → exec (.mboxClaim l (l + 1)) s =
      .next { s with cmd := { s.cmd with mbox := { s.cmd.mbox with owner := l + 1 } } }) ∧
    (s.cmd.mbox.owner = l + 1 → s.cmd.mbox.busy = false → exec (.mboxRelease l) s = .next (releaseMbox s)))

/-- Register writes (R10, R13, R18, R87, R108, R148): a write of 4 or 8 bytes acts word by word, lower first; one of another size or
alignment is ignored, counted and recorded; STK_SHARES is refused whole above 90. -/
def Obligations.RegisterWriteEventsComplete : Prop :=
  (∀ (w : RegWrite) s, (s.present w.func = true ∨ lifeboatFunc s w.func = true) → s.linkOf w.func = w.link →
    (w.space = .cfg → exec (.registerWrite w) s = .next (cfgWrite s w.func w.offset (w.value.toNat % 2 ^ 32))) ∧
    (w.space ≠ .cfg → memOpen s w.func = true → w.size = 4 → w.offset % 4 = 0 →
      exec (.registerWrite w) s = .next (wordWrite s w w.offset (w.value.toNat % 2 ^ 32))) ∧
    (w.space ≠ .cfg → memOpen s w.func = true → w.size = 8 → w.offset % 8 = 0 →
      exec (.registerWrite w) s = .next (wordWrite (wordWrite s w w.offset (w.value.toNat % 2 ^ 32)) w (w.offset + 4)
        (w.value.toNat / 2 ^ 32))) ∧
    (w.space ≠ .cfg → ((w.size ≠ 4 ∧ w.size ≠ 8) ∨ w.offset % w.size ≠ 0) →
      exec (.registerWrite w) s = .next (((aer s w.func Aer.completerAbort).inc (Ctr.mmioErr w.func)).post 0x2040 [])) ∧
    (w.space ≠ .cfg → memOpen s w.func = false → (w.size = 4 ∨ w.size = 8) → w.offset % w.size = 0 →
      exec (.registerWrite w) s = .next (aer s w.func Aer.unsupported))) ∧
  (∀ (v : Word) s, exec (.stkSharesWrite v) s = .next (
    if 90 < bits v.toNat 7 0 + bits v.toNat 15 8 + bits v.toNat 23 16 then regEvent s 0x2051 0x010028 v.toNat
    else fieldWrite (fieldWrite (fieldWrite s 0x010028 0x010028 v.toNat Reg.shAging) 0x010028 0x010028 v.toNat Reg.shLog)
      0x010028 0x010028 v.toNat Reg.shTelem))

/-- Family 0x06: each staging row of spec/07_mac.md stages its parameters within the ranges of Tables 7.3 and 7.4, and each
query answers with its result; FC_WD_RELEASE ends RECOVERY of the named classes at once (R300). -/
def Obligations.MacCommandsComplete : Prop :=
  Stages .macSetRx Op.macSetRx
    (fun c _ => pf c.params 0 0 ≤ 15 ∧ pf c.params 1 1 ≤ 1 ∧ 1518 ≤ pf c.params 3 2 ∧ pf c.params 3 2 ≤ 16384) ∧
  Stages .macSetFc Op.macSetFc
    (fun c _ => pf c.params 0 0 ≤ 15 ∧ pf c.params 1 1 ≤ 2 ∧ 1 ≤ pf c.params 5 4 ∧ 1 ≤ pf c.params 7 6 ∧
      pf c.params 7 6 ≤ 1000 ∧ 1 ≤ pf c.params 9 8 ∧ pf c.params 9 8 ≤ 10000) ∧
  Stages .macSetPreempt Op.macSetPreempt
    (fun c _ => pf c.params 0 0 ≤ 15 ∧ pf c.params 2 2 ≤ 3 ∧ 1 ≤ pf c.params 4 4 ∧
      pf c.params 4 4 ≤ 128 ∧ pf c.params 7 6 ≤ 10000 ∧ pf c.params 9 8 ≤ 10000) ∧
  Stages .gateSet Op.gateSet
    (fun c s => pf c.params 0 0 ≤ 15 ∧ 1 ≤ pf c.params 3 2 ∧ pf c.params 3 2 ≤ 1024 ∧
      c.data.length = 8 * pf c.params 3 2 ∧
      (bit (pf c.params 1 1) 0 = true ∨ (pf c.params 12 10 < s.time.heatLen ∧ 64 ≤ pf c.params 15 13)) ∧
      (∀ k < pf c.params 3 2, gateEntryOk c.data k = true)) ∧
  Stages .gateDisable Op.gateDisable (fun c _ => pf c.params 0 0 ≤ 15) ∧
  Replies .gateStatus Op.gateStatus (fun c _ => pf c.params 0 0 ≤ 15) (fun _ s => s)
    (fun c s =>
      let m := s.mac (pf c.params 0 0)
      let pend := b2n m.next.isSome * 4 + gatesNow m * 256
      match m.gate with
      | none => pend
      | some g => 1 + 2 * b2n g.locked + pend + m.gateIdx * 2 ^ 16 + cycleOf s g % 2 ^ 24 * 2 ^ 32 +
          g.startNs % 2 ^ 24 * 2 ^ 56 + g.startHeat.toNat * 2 ^ 80) ∧
  Replies .fcStatus Op.fcStatus (fun c _ => pf c.params 0 0 ≤ 15) (fun _ s => s)
    (fun c s =>
      let n := pf c.params 0 0
      classMask s n (·.pausedTo.isSome) + classMask s n (·.recoverTo.isSome) * 2 ^ 8 +
        classMask s n (·.xoff) * 2 ^ 16 + classMask s n (·.capped) * 2 ^ 24 + (s.mac n).verify * 2 ^ 32 +
        b2n (s.mac n).preActive * 2 ^ 40) ∧
  Replies .fcWdRelease Op.fcWdRelease (fun c _ => pf c.params 0 0 ≤ 15)
    (fun c s => (bitList (pf c.params 1 1) 8).foldl (fun s k =>
      let i := pauseIdx s (pf c.params 0 0) k
      s.setPc (pf c.params 0 0) i { s.pc (pf c.params 0 0) i with recoverTo := none }) s)
    (fun _ _ => 0)

/-- Reception (R290 to R296, R325, R327): a good frame passes its filters and enters a pipeline, whole or by its head; a bad one
is discarded under its counter; the tail of a CUT frame ends it well or marks it slag; control frames pause classes or are
counted. -/
def Obligations.ReceptionEventsComplete : Prop :=
  (∀ (x : RxFrame) s s0 s1 b cip, x.port ≤ 15 → s.portLive x.port = true → s.rul.dramDown = false →
    s0 = (if x.smd = 1 ∨ 1 < x.frags then s.add (macCtr x.port 0x180) x.frags else s) →
    smdBad s0 x.port x.smd = false → x.assyErr = false → netAt x.bytes 12 2 ≠ 0x8808 → rxDiscard s0 x = none →
    (cutMode s0 x.port = false ∨ x.bytes.length + 4 ≤ 256) → x.overrun = false →
    (x.sat = false ∨ (s0.secy x.port).enable = false ∨ netAt x.bytes 12 2 ≠ 0x88E5) →
    macsecRx (meetEcc s0 x.ecc) x.port x.ecc x.bytes = (s1, some (b, cip)) →
    exec (.frameReceived x) s = .next (pipeline (nextId (rxCount s1 x.port (b.length + 4)))
      (wirePkt s1 x.port b (b.length + 4) true cip x.ecc x.sat))) ∧
  (∀ (x : RxFrame) s s0 n, x.port ≤ 15 → (s.portLive x.port = true ∨ (x.abort = true ∧ (s.port x.port).st = .down)) →
    s.rul.dramDown = false →
    s0 = (if x.smd = 1 ∨ 1 < x.frags then s.add (macCtr x.port 0x180) x.frags else s) →
    smdBad s0 x.port x.smd = false → x.assyErr = false → rxDiscard s0 x = some n →
    exec (.frameReceived x) s = .next (s0.inc (macCtr x.port n))) ∧
  (∀ (x : RxFrame) s s0, x.port ≤ 15 → s.portLive x.port = true → s.rul.dramDown = false →
    s0 = (if x.smd = 1 ∨ 1 < x.frags then s.add (macCtr x.port 0x180) x.frags else s) →
    smdBad s0 x.port x.smd = false → x.assyErr = false → rxDiscard s0 x = none → netAt x.bytes 12 2 = 0x8808 →
    exec (.frameReceived x) s = .next (controlFrame s0 x.port x.bytes)) ∧
  (∀ (h : CutHead) s, h.port ≤ 15 → s.portLive h.port = true → s.rul.dramDown = false → cutMode s h.port = true →
    256 < h.len → h.head.length = 256 → mGet? s.tm.cuts h.port = none → netAt h.head 12 2 ≠ 0x8808 →
    smdBad s h.port h.smd = false → h.overrun = false →
    exec (.cutHandoff h) s = .next (
      let c : CutFrame :=
        { id := s.tm.nextId, head := h.head, len := h.len, maxFrame := (s.mac h.port).cfg.maxFrame,
          ports := [s.rul.vxlan, s.rul.geneve, s.rul.nvme], old := { bds := [], ctxs := [], conns := [], nss := [] } }
      let s1 := { s with tm := { s.tm with cuts := mPut s.tm.cuts h.port c } }
      pipeline (nextId (rxCount s1 h.port h.len)) (wirePkt s1 h.port h.head h.len false noCip h.ecc false))) ∧
  (∀ (t : CutTail) s s0 c, mGet? s.tm.cuts t.port = some c → s.rul.dramDown = false →
    s0 = (if t.frags = 0 then s else s.add (macCtr t.port 0x180) t.frags) → (c.head ++ t.rest).length + 4 = c.len →
    exec (.frameTail t) s = .next (
      if !t.fcsOk then slagCut s0 t.port c.id 0x140
      else if c.maxFrame < c.len then slagCut s0 t.port c.id 0x148
      else if t.abort then slagCut s0 t.port c.id 0x150
      else underOld s0 c (fun u => goodCut u t.port c.id (c.head ++ t.rest) t.ecc t.sat))) ∧
  (∀ p q s, p ≤ 15 → s.portLive p = true → (s.mac p).cfg.fcMode = 1 → bit (s.mac p).cfg.honour 0 = true →
    exec (.ctrlFramePause p q) s = .next (pauseClass (s.inc (macCtr p 0x200)) p 0 (q % 65536))) ∧
  (∀ p mask quanta s, p ≤ 15 → s.portLive p = true → (s.mac p).cfg.fcMode = 2 →
    exec (.ctrlFramePfc p mask quanta) s = .next ((bitList mask 8).foldl (fun s c =>
      if bit (s.mac p).cfg.honour c then pauseClass (s.inc (macCtr p (0x200 + 8 * c))) p c (quanta.getD c 0 % 65536)
      else s.inc (macCtr p (0x200 + 8 * c))) s)) ∧
  (∀ p opcode s, p ≤ 15 → s.portLive p = true →
    exec (.ctrlMalformed p opcode) s =
      .next (((s.inc (macCtr p 0x158)).macRaise p 5).postB 0xB030 2 p 0xFFFF (opcode % 65536) true))

/-- Pause and recovery, preemption and gates (R296 to R309): each timer acts at its own instant, where that lies in the heat;
verification, the hold signal, and the entries of the gate list. -/
def Obligations.PauseAndGateEventsComplete : Prop :=
  (∀ p c s t t1 s1, (s.pc p c).pausedTo = some t → s.toRef t = some s1 → (s1.pc p c).pausedTo = some t1 → t1 ≤ s1.time.refNow →
    exec (.pauseExpiry p c) s = .next (s1.setPc p c { s1.pc p c with pausedTo := none, heldFrom := none })) ∧
  (∀ p c s s1, (s.pc p (pauseIdx s p c)).xoff = true → presses s p c = true →
    s.toRef (s.pc p (pauseIdx s p c)).repeatAt = some s1 → (s1.pc p (pauseIdx s1 p c)).xoff = true → presses s1 p c = true →
    (s1.pc p (pauseIdx s1 p c)).repeatAt ≤ s1.time.refNow →
    exec (.pfcRepeat p c) s = .next (xoffSend s1 p c)) ∧
  (∀ p c s s1 s2, (s.pc p (pauseIdx s p c)).xoff = true → (s.pc p (pauseIdx s p c)).capped = false →
    s.toRef (s.time.refNow + (500000 - pauseTime s (s.pc p (pauseIdx s p c)))) = some s1 →
    (s1.pc p (pauseIdx s1 p c)).xoff = true → (s1.pc p (pauseIdx s1 p c)).capped = false →
    500000 ≤ pauseTime s1 (s1.pc p (pauseIdx s1 p c)) → s2 = xonSend s1 p c →
    exec (.pauseCapHit p c) s = .next (((s2.setPc p (pauseIdx s1 p c)
      { s2.pc p (pauseIdx s1 p c) with capped := true }).inc (macCtr p (0x2C0 + 8 * pauseIdx s1 p c))).macRaise p 1)) ∧
  (∀ p s s1, s.portLive p = true → s.toRef ((s.mac p).winFrom + 1000000) = some s1 → s1.portLive p = true →
    (s1.mac p).winFrom + 1000000 ≤ s1.time.refNow →
    exec (.pauseWindowEnd p) s = .next (pressAgain (s1.modMac p (fun m => { m with
      winFrom := m.winFrom + 1000000,
      pause := m.pause.map (fun (x : Nat × PauseClass) =>
        (x.1, { x.2 with xoffAccum := 0, xoffFrom := s1.time.refNow, capped := false })) })) p)) ∧
  (∀ p c s t u s1 s2, (s.pc p c).heldFrom = some t → (s.pc p c).pausedTo = some u →
    t + (s.mac p).cfg.wdLimit * 1000000 < u → s.toRef (t + (s.mac p).cfg.wdLimit * 1000000) = some s1 →
    (∃ t1 u1, (s1.pc p c).heldFrom = some t1 ∧ (s1.pc p c).pausedTo = some u1 ∧
      t1 + (s1.mac p).cfg.wdLimit * 1000000 < u1 ∧ t1 + (s1.mac p).cfg.wdLimit * 1000000 ≤ s1.time.refNow) →
    s2 = dropQueued s1 (fun k _ => keyRoot k == p && ((s1.mac p).cfg.fcMode == 1 || keyClass k == c))
        (fun s _ => s.inc (macCtr p (0x280 + 8 * c))) →
    exec (.pauseStorm p c) s = .next ((((s2.setPc p c { s2.pc p c with
        pausedTo := none, heldFrom := none, recoverTo := some (s1.time.refNow + (s1.mac p).cfg.recovery * 1000000) }).inc
      (macCtr p (0x300 + 8 * c))).macRaise p 0).postB 0xB032 2 p c (s1.mac p).cfg.wdLimit false)) ∧
  (∀ p c s t t1 s1, (s.pc p c).recoverTo = some t → s.toRef t = some s1 → (s1.pc p c).recoverTo = some t1 →
    t1 ≤ s1.time.refNow →
    exec (.recoveryEnd p c) s = .next (s1.setPc p c { s1.pc p c with recoverTo := none })) ∧
  (∀ p s s1, (s.mac p).verify = 2 → s.portLive p = true → s.toRef (s.mac p).verifyAt = some s1 →
    (s1.mac p).verify = 2 → s1.portLive p = true → (s1.mac p).verifyAt ≤ s1.time.refNow → (s1.mac p).verifySent < 3 →
    exec (.verifyTimer p) s = .next ((s1.modMac p (fun m => { m with
      verifySent := m.verifySent + 1, verifyAt := m.verifyAt + m.cfg.verifyTime * 1000000 })).emit (.mpacket p false))) ∧
  (∀ p s s1, (s.mac p).verify = 2 → s.portLive p = true → s.toRef (s.mac p).verifyAt = some s1 →
    (s1.mac p).verify = 2 → s1.portLive p = true → (s1.mac p).verifyAt ≤ s1.time.refNow → 3 ≤ (s1.mac p).verifySent →
    exec (.verifyTimer p) s = .next ((((s1.modMac p (fun m => { m with verify := 4 })).inc (macCtr p 0x198)).macRaise p 2).postB
      0xB031 2 p 0xFFFF (s1.mac p).verifySent false)) ∧
  (∀ p s, (s.mac p).verify = 2 → s.portLive p = true →
    exec (.respondMpacket p) s = .next (s.modMac p (fun m => { m with verify := 3, preActive := true }))) ∧
  (∀ p s, (s.mac p).cfg.preEn = true → s.portLive p = true →
    exec (.verifyMpacket p) s = .next (s.emit (.mpacket p true))) ∧
  (∀ p s t e, holdAhead s p = some (t, e) →
    exec (.holdAssert p) s = .next (s.atDev t (fun u => match holdAhead u p with
      | some (v, d) => if v ≤ u.devNow then
          holdCuts (u.modMac p (fun m => { m with hold := true, holdTo := max m.holdTo (d + 1) })) p else u
      | none => u))) ∧
  (∀ p s t e, releaseAhead s p = some (t, e) →
    exec (.holdRelease p) s = .next (s.atDev t (fun u => match releaseAhead u p with
      | some (v, d) => if v ≤ u.devNow then
          resumeTop (u.modMac p (fun m => { m with hold := false, relTo := max m.relTo (d + 1) })) p else u
      | none => u))) ∧
  (∀ p s g, (s.mac p).gate = some g →
    exec (.gateEntryBoundary p) s = .next (s.atDev (nextBoundary s (s.mac p) g).1 (fun u => match (u.mac p).gate with
      | some h =>
        let b := nextBoundary u (u.mac p) h
        if b.1 ≤ u.devNow then beginEntry u p b.2 (b.1 - entryStart h b.2) (gatesNow (u.mac p)) else u
      | none => u))) ∧
  (∀ p s g, (s.mac p).next = some g →
    exec (.gateActive p) s = .next (s.atDev g.startRef (fun u => match (u.mac p).next with
      | some h => if h.startRef ≤ u.devNow then gateStart u p h else u
      | none => u)))

/-- Family 0x07: the ordered table. RULE_WRITE and RULE_DELETE act at once with NOW and stage without it, each
entry judged as though those before it had been written (R354 to R358, R362), and
the two reads answer from the entry (Table 8.10). -/
def Obligations.OrderedRuleCommandsComplete : Prop :=
  (∀ op, Replies .ruleWrite op
    (fun c s => op = Op.ruleWrite c ∧ isNow c = true ∧ 1 ≤ pf c.params 5 4 ∧ c.data.length = 176 * pf c.params 5 4 ∧
      (eachEntry (fun s i b => checkRule s c.id (pf c.params 3 2 + i) b) (fun s i b => putRule s c.id (pf c.params 3 2 + i) b)
        s 0 (chunks 176 (pf c.params 5 4) c.data)).2.2 = none)
    (fun c s => (eachEntry (fun s i b => checkRule s c.id (pf c.params 3 2 + i) b)
      (fun s i b => putRule s c.id (pf c.params 3 2 + i) b) s 0 (chunks 176 (pf c.params 5 4) c.data)).1)
    (fun c _ => pf c.params 5 4)) ∧
  (∀ op, Stages .ruleWrite op
    (fun c s => op = Op.ruleWrite c ∧ isNow c = false ∧ 1 ≤ pf c.params 5 4 ∧ c.data.length = 176 * pf c.params 5 4 ∧
      (eachEntry (fun s i b => checkRule s c.id (pf c.params 3 2 + i) b) (fun s i b => putRule s c.id (pf c.params 3 2 + i) b)
        s 0 (chunks 176 (pf c.params 5 4) c.data)).2.2 = none)
    (fun c _ => chunks 176 (pf c.params 5 4) c.data) false (fun c _ => pf c.params 5 4)) ∧
  (∀ op, Replies .ruleDelete op
    (fun c s => op = Op.ruleDelete c ∧ isNow c = true ∧ 1 ≤ pf c.params 5 4 ∧ pf c.params 3 2 + pf c.params 5 4 ≤ (s.insOf c.id).grants.getD 1 0)
    (fun c s => (List.range (pf c.params 5 4)).foldl (fun s i => s.delRule (c.id * 65536 + pf c.params 3 2 + i)) s)
    (fun c s => ((List.range (pf c.params 5 4)).filter
      (fun i => (mGet? s.rul.rules (c.id * 65536 + pf c.params 3 2 + i)).isSome)).length)) ∧
  (∀ op, Stages .ruleDelete op
    (fun c s => op = Op.ruleDelete c ∧ isNow c = false ∧ 1 ≤ pf c.params 5 4 ∧ pf c.params 3 2 + pf c.params 5 4 ≤ (s.insOf c.id).grants.getD 1 0)
    (fun c _ => List.replicate (pf c.params 5 4) []) false (fun c _ => pf c.params 5 4)) ∧
  RepliesAt .ruleRead Op.ruleRead
    (fun c s => pf c.params 3 2 < (s.insOf c.id).grants.getD 1 0)
    (fun c s => match mGet? s.rul.rules (c.id * 65536 + pf c.params 3 2) with
      | some r => r.image
      | none => leBytes 176 0)
    (fun c s => b2n (mGet? s.rul.rules (c.id * 65536 + pf c.params 3 2)).isSome) ∧
  Replies .ruleCount Op.ruleCount
    (fun c s => pf c.params 3 2 < (s.insOf c.id).grants.getD 1 0 ∧
      pf c.params 4 4 ≤ 1)
    (fun _ s => s)
    (fun c s => match mGet? s.rul.rules (c.id * 65536 + pf c.params 3 2) with
      | some r => if pf c.params 4 4 = 0 then r.frames.toNat + r.bytes.toNat * 2 ^ 64
          else r.sframes.toNat + r.sbytes.toNat * 2 ^ 64
      | none => 0)

/-- Family 0x07: the flow table. FLOW_INSERT and FLOW_DELETE with NOW write their entries one by one, without it they stage
them (R354 to R358); FLOW_LOOKUP answers with the counts; FLOW_FLUSH begins in the aging engine (R370); the oldest aged
notice and the oldest captured frame leave their rings (R350, R360). -/
def Obligations.FlowCommandsComplete : Prop :=
  (∀ op, Replies .flowInsert op
    (fun c s => op = Op.flowInsert c ∧ isNow c = true ∧ c.data ≠ [] ∧ c.data.length % 64 = 0 ∧
      (eachEntry (fun s _ b => checkFlow c s b) (fun s _ b => putFlow s b) s 0
        (chunks 64 (c.data.length / 64) c.data)).2.2 = none)
    (fun c s => (eachEntry (fun s _ b => checkFlow c s b) (fun s _ b => putFlow s b) s 0
      (chunks 64 (c.data.length / 64) c.data)).1)
    (fun c _ => c.data.length / 64)) ∧
  (∀ op, Stages .flowInsert op
    (fun c s => op = Op.flowInsert c ∧ isNow c = false ∧ c.data ≠ [] ∧ c.data.length % 64 = 0 ∧
      (eachEntry (fun s _ b => checkFlow c s b) (fun s _ b => putFlow s b) s 0
        (chunks 64 (c.data.length / 64) c.data)).2.2 = none)
    (fun c _ => chunks 64 (c.data.length / 64) c.data) true (fun c _ => c.data.length / 64)) ∧
  (∀ op, Replies .flowDelete op
    (fun c s => op = Op.flowDelete c ∧ isNow c = true ∧ c.data ≠ [] ∧ c.data.length % 64 = 0 ∧
      (eachEntry (fun s _ b => checkDelete c s b)
        (fun s _ b => dropFlow c s b) s 0
        (chunks 64 (c.data.length / 64) c.data)).2.2 = none)
    (fun c s => (eachEntry (fun s _ b => checkDelete c s b)
      (fun s _ b => dropFlow c s b) s 0
      (chunks 64 (c.data.length / 64) c.data)).1)
    (fun c _ => c.data.length / 64)) ∧
  (∀ op, Stages .flowDelete op
    (fun c s => op = Op.flowDelete c ∧ isNow c = false ∧ c.data ≠ [] ∧ c.data.length % 64 = 0 ∧
      (eachEntry (fun s _ b => checkDelete c s b) (fun s _ b => dropFlow c s b) s 0
        (chunks 64 (c.data.length / 64) c.data)).2.2 = none)
    (fun c _ => chunks 64 (c.data.length / 64) c.data) true (fun c _ => c.data.length / 64)) ∧
  (∀ pos f, Replies .flowLookup Op.flowLookup
    (fun c s => c.data.length = 64 ∧
      pf c.params 15 8 = 0 ∧ flowOf s c c.data = some (pos, f))
    (fun _ s => s) (fun _ _ => f.frames.toNat + f.bytes.toNat * 2 ^ 64)) ∧
  (∀ pos f, RepliesAt .flowLookup Op.flowLookup
    (fun c s => c.data.length = 64 ∧
      pf c.params 15 8 ≠ 0 ∧ flowOf s c c.data = some (pos, f))
    (fun _ _ => f.image ++ leBytes 8 f.frames.toNat ++ leBytes 8 f.bytes.toNat)
    (fun _ _ => f.frames.toNat + f.bytes.toNat * 2 ^ 64)) ∧
  Waits .flowFlush Op.flowFlush
    (fun _ s => s.rul.flush = none)
    (fun c s => { s with
      rul := { s.rul with flush := some (
        { flags := pf c.params 0 0, bd := pf c.params 3 2, ttype := pf c.params 6 6, target := pf c.params 5 4 } : Flush) },
      cmd := { s.cmd with busyOps := s.cmd.busyOps ++ [(0x0714, c)] } }) ∧
  (∀ n t, Replies .flowAgedRead Op.flowAgedRead
    (fun c s => s.rul.aged = n :: t ∧
      (hostWrite { s with rul := { s.rul with aged := t } } (cmdFunc s c) none (pf c.params 15 8) n).2 = true)
    (fun c s => (hostWrite { s with rul := { s.rul with aged := t } } (cmdFunc s c) none (pf c.params 15 8) n).1)
    (fun _ _ => t.length)) ∧
  (∀ r b t, Replies .captureRead Op.captureRead
    (fun c s => s.rul.capture = (r, b) :: t ∧
      (hostWrite { s with rul := { s.rul with capture := t } } (cmdFunc s c) none (pf c.params 15 8) (r ++ b)).2 = true)
    (fun c s =>
      (hostWrite { s with rul := { s.rul with capture := t } } (cmdFunc s c) none (pf c.params 15 8) (r ++ b)).1)
    (fun _ _ => b.length))

/-- Family 0x07: the staged tables of sources, bridge domains, rewrites, tunnels, mirrors and parser ports, within the ranges of
Tables 8.10 to 8.12. -/
def Obligations.PipelineTableCommandsComplete : Prop :=
  Stages .srcConfig Op.srcConfig
    (fun c _ => sourceOk (pf c.params 3 2) = true ∧ 1 ≤ pf c.params 5 4 ∧
      pf c.params 5 4 ≤ 4095 ∧ pf c.params 7 7 ≤ 2 ∧ pf c.params 8 8 ≤ 8) ∧
  Stages .bdConfig Op.bdConfig
    (fun c _ => pf c.params 3 2 ≤ 4095 ∧ pf c.params 4 4 ≤ 2 ∧ 
      (pf c.params 12 12 = 0 ∨ pf c.params 12 12 = 2) ∧ pf c.params 13 13 ≤ 64 ∧ c.data.length = 4 * pf c.params 13 13 ∧ (chunks 4 (pf c.params 13 13) c.data).all memberOk = true) ∧
  Stages .rewriteSet Op.rewriteSet
    (fun c _ => pf c.params 3 2 ≤ 4095 ∧ c.data.length = 32 ∧
      rewriteOk c.data = true) ∧
  Stages .tunnelSet Op.tunnelSet
    (fun c _ => pf c.params 3 2 ≤ 4095 ∧ c.data.length = 64 ∧
      tunnelOk c.data = true) ∧
  Stages .mirrorSet Op.mirrorSet
    (fun c _ => pf c.params 2 2 ≤ 63 ∧ 1 ≤ pf c.params 3 3 ∧ pf c.params 3 3 ≤ 3 ∧
      pf c.params 5 4 ≤ 4095 ∧ (pf c.params 3 3 = 1 → pf c.params 5 4 ≤ 15) ∧
      (pf c.params 9 8 = 0 ∨ (64 ≤ pf c.params 9 8 ∧ pf c.params 9 8 ≤ 16384)) ∧ 1 ≤ pf c.params 13 10 ∧
      pf c.params 13 10 ≤ 65536) ∧
  Stages .parserPorts Op.parserPorts
    (fun _ _ => True)

/-- Family 0x08: each staging row of spec/09_traffic.md stages its parameters within the ranges of Tables 9.4 and 9.5 where
its objects are the caller's, and the two reads answer with the counts and the tokens (R391, R410). -/
def Obligations.TrafficCommandsComplete : Prop :=
  Stages .tmShaperSet Op.tmShaperSet
    (fun c s => shaperRange c.params = none ∧ match pf c.params 0 0 with
      | 0 => rootOk (pf c.params 3 2) = true
      | 1 => rootOk (pf c.params 3 2) = true ∧ 1 ≤ pf c.params 5 4 ∧ pf c.params 5 4 ≤ 1023 ∧
          groupHere s (pf c.params 3 2) (pf c.params 5 4) = true
      | 2 => rootOk (pf c.params 3 2) = true ∧ sourceOk (pf c.params 5 4) = true ∧ pf c.params 6 6 ≤ 7 ∧
          nodeOwner c.id (pf c.params 5 4) = true ∧
          (nodeCheck s c.id (pf c.params 9 8) (.cls (pf c.params 3 2) (pf c.params 5 4) (pf c.params 6 6))).isNone = true ∧
          (bit (pf c.params 1 1) 0 = true →
            (s.node c.id (pf c.params 9 8)).use = some (.cls (pf c.params 3 2) (pf c.params 5 4) (pf c.params 6 6)))
      | 3 => pf c.params 5 4 < 4096 ∧ (s.insOf (pf c.params 5 4)).st ≠ .free ∧ pf c.params 6 6 ≤ 1 ∧
          pf c.params 18 18 = 0 ∧ pf c.params 19 19 = 0
      | _ => False) ∧
  Stages .tmGroupSet Op.tmGroupSet
    (fun c s => rootOk (pf c.params 1 0) = true ∧ 1 ≤ pf c.params 3 2 ∧ pf c.params 3 2 ≤ 1023 ∧
      (if bit (pf c.params 7 7) 0 = true then groupHere s (pf c.params 1 0) (pf c.params 3 2) = true
       else 1 ≤ pf c.params 5 4 ∧ pf c.params 5 4 ≤ 1024 ∧ pf c.params 6 6 ≤ 7 ∧ mgrOwner c.id = true ∧
         (nodeCheck s c.id (pf c.params 9 8) (.group (pf c.params 1 0) (pf c.params 3 2))).isNone = true)) ∧
  Stages .tmOwnerSet Op.tmOwnerSet
    (fun c s => rootOk (pf c.params 1 0) = true ∧ sourceOk (pf c.params 3 2) = true ∧ pf c.params 5 4 ≤ 1023 ∧
      (pf c.params 3 2 < 4096 ∨ (1 ≤ pf c.params 7 6 ∧ pf c.params 7 6 ≤ 1024)) ∧ groupHere s (pf c.params 1 0) (pf c.params 5 4) = true) ∧
  Stages .tmClassSched Op.tmClassSched
    (fun c _ => rootOk (pf c.params 1 0) = true ∧ (∀ k < 8, pf c.params (3 + k) (3 + k) ≠ 0)) ∧
  Stages .tmAdmitSet Op.tmAdmitSet
    (fun c _ => pf c.params 0 0 ≤ 15 ∧ pf c.params 5 2 ≤ pf c.params 9 6 ∧
      pf c.params 9 6 ≤ pf c.params 13 10 ∧ pf c.params 13 10 ≤ pf c.params 17 14 ∧ pf c.params 17 14 ≤ 131072) ∧
  Stages .tmQlimSet Op.tmQlimSet
    (fun c _ => rootOk (pf c.params 1 0) = true ∧ pf c.params 7 4 ≤ 131072) ∧
  Stages .tmSrcClass Op.tmSrcClass
    (fun c _ => sourceOk (pf c.params 1 0) = true ∧ pf c.params 2 2 ≤ 2 ∧ pf c.params 3 3 ≤ 7) ∧
  Stages .tmPolicerSet Op.tmPolicerSet
    (fun c s => (policerCheck s c.id (pf c.params 3 0)).isNone = true ∧ policerRange c.params = none) ∧
  RepliesAt .tmPolicerRead Op.tmPolicerRead
    (fun c s => (policerCheck s c.id (pf c.params 3 0)).isNone = true ∧ pf c.params 4 4 ≤ 1)
    (fun c s =>
      let x := mGetD s.tm.policers (policerKey c.id (pf c.params 3 0)) Policer.fresh
      padTo 64 ((if pf c.params 4 4 = 0 then x.counts else x.scounts).flatMap (leBytes 8)))
    (fun _ _ => 0) ∧
  Replies .tmShaperRead Op.tmShaperRead
    (fun c s => pf c.params 10 10 ≤ 1 ∧ match pf c.params 0 0 with
      | 0 => rootOk (pf c.params 3 2) = true ∧ isManager c.src = true
      | 1 => rootOk (pf c.params 3 2) = true ∧ isManager c.src = true ∧ pf c.params 5 4 ≠ 0 ∧
          groupHere s (pf c.params 3 2) (pf c.params 5 4) = true
      | 2 => rootOk (pf c.params 3 2) = true ∧ (isManager c.src = true ∨ pf c.params 5 4 = ownOf c.src) ∧
          pf c.params 9 8 < (s.insOf c.id).grants.getD 4 0 ∧ retiring s c.id 4 (pf c.params 9 8) = false ∧
          (s.node c.id (pf c.params 9 8)).use = some (.cls (pf c.params 3 2) (pf c.params 5 4) (pf c.params 6 6))
      | 3 => (isManager c.src = true ∨ pf c.params 5 4 = ownOf c.src) ∧ pf c.params 5 4 < 4096 ∧
          (s.insOf (pf c.params 5 4)).st ≠ .free ∧ pf c.params 6 6 ≤ 1
      | _ => False)
    (fun _ s => s)
    (fun c s =>
      let g := groupAt s (pf c.params 3 2) (pf c.params 5 4)
      shaperResult (match pf c.params 0 0 with
        | 0 => s.rootSh (pf c.params 3 2)
        | 1 => (s.node g.nodeInst g.node).sh
        | 2 => (s.node c.id (pf c.params 9 8)).sh
        | _ => s.limiter (pf c.params 5 4) (pf c.params 6 6)) (pf c.params 10 10 == 1))

/-- Cluster time and triads (R532 to R535, R539, R543, R550 to R552, R572 to R575, R583, R586, R588, R589, R626): the cold start, the loss
of sync, the end of HOLDOVER, the end of the last slot and what the device does there, the isolate inputs and the announcements of a new owner. -/
def Obligations.ClusterTimeEventsComplete : Prop :=
  (∀ s m s1, s.vrs.img = some m → s.tim.st = 1 → s.tim.cold = true → isSync s = true → s.tim.adopt = none →
    3 + (m.syncs.filter (fun n => n < s.vrs.node)).length ≤ s.tim.heats → s.onStrike = true → s1 = enterTime s 2 →
    exec .coldstart s = .next ((State.inc { s1 with tim := { s1.tim with txOn := true } } Ctr.timColdstart).post 0x1014 [])) ∧
  (∀ s, s.tim.st = 4 → 8 ≤ s.tim.bad → s.onStrike = true → exec .syncLost s = .next (enterHoldover s true)) ∧
  (∀ s, s.tim.st = 5 → exec .holdoverEnd s = .next (s.atRef (s.tim.holdFrom + 1000000000) (fun t =>
    let s1 := enterTime t 1
    ({ s1 with tim := { s1.tim with adopt := none } }.timRaise 2).post 0x1013 []))) ∧
  (∀ s, s.boot.stopped = false → exec .lastSlotEnd s = .next (busThrough s (fun a => a == .last))) ∧
  (∀ s m t v, s.vrs.img = some m → nextBus s = some (t, .last) → s.tim.closed = false →
    v = { s with vrs := { s.vrs with pos := s.vrs.pos + 1 } } →
    doBus s = quenchLanes ((List.range 8).foldl triHeatEnd
      ((rateStep (offsetStep v m) m).tim.units.foldl unitHeatEnd (rateStep (offsetStep v m) m)))) ∧
  (∀ level s, exec (.isolateLevelChange false level) s = .next { s with tri := { s.tri with
      isoA := level,
      disagreeFrom := if level ≠ s.tri.isoB ∧ s.tri.isoA = s.tri.isoB then s.time.refNow else s.tri.disagreeFrom } } ∧
    exec (.isolateLevelChange true level) s = .next { s with tri := { s.tri with
      isoB := level,
      disagreeFrom := if s.tri.isoA ≠ level ∧ s.tri.isoA = s.tri.isoB then s.time.refNow else s.tri.disagreeFrom } }) ∧
  (∀ s, s.tri.isoA ≠ s.tri.isoB → s.tri.latched = false → s.tri.isoEn = true → s.boot.stopped = false →
    exec .isoDiscrepancy s = .next (s.atRef (s.tri.disagreeFrom + s.fld Reg.discMs * 1000000) (fun t =>
      ((State.inc { t with tri := { t.tri with latched := true } } 0x101018).triRaise 6).post 0x8017 []))) ∧
  (∀ n x s, s.triad n = some x → x.announceLeft ≠ 0 → x.st = .owner → x.cfg.ssp = true →
    exec (.announcement n) s = .next (s.atRef x.announceAt (fun t =>
      announceOnce (t.setTriad n { x with announceLeft := x.announceLeft - 1, announceAt := t.time.refNow + 1000000 }) x.cfg)))

/-- Flash, log, and the scans of the flow table (R77, R359, R364, R370, R658 to R660, R667, R686, R782): work that goes on by itself and
what its end brings. -/
def Obligations.BackgroundEventsComplete : Prop :=
  (∀ ok s, s.boot.stopped = false → exec (.flashOpDone ok) s = .next (flashStep s ok)) ∧
  (∀ s x, s.nvm.session = some x → exec .sessionTimeout s = .next (s.atRef (x.stepAt + 60000000000) (fun t =>
    let s1 := (endSession t).post 0xA014 []
    match x.owner with
    | .port p => s1.setSb p { s1.sbPort p with fd := .idle }
    | .command _ => s1))) ∧
  (∀ s, s.boot.autoConfirm = true → s.cmd.fw = .run → s.nvm.govern.trial = true → s.nvm.session = none → s.nvm.mib ≠ 0 →
    exec .autoConfirm s = .next (s.atRef (s.nvm.runFrom + 60000000000) (fun t =>
      flashAsk t (.header (t.nvm.nextHdr s.nvm.govern.active false s.nvm.govern.count) false) .nobody))) ∧
  (∀ s, s.log.flushDue = true → s.nvm.mib ≠ 0 → s.boot.stopped = false →
    s.logWriting = false →
    (s.cmd.fw = .lifeboat → exec .logFlushWork s = .next (flushBegin s .nobody).1) ∧
    (∀ t n, s.cmd.fw = .run → s.budget.full = true → s.budget.open_.log = 0 → s.budget.logBooked ≠ 0 →
      flushBegin s .nobody = (t, n) →
      exec .logFlushWork s = .next { t with budget := { t.budget with
        logBooked := 0, todo := { t.budget.todo with log := t.budget.todo.log + 200 * (n - s.budget.logBooked) } } })) ∧
  (∀ s u, s.rul.flush = some u → s.rul.dramDown = true →
    exec .flushDone s = .next (endBusy { s with rul := { s.rul with flush := none } } 0x0714 St.fault 0)) ∧
  (∀ s u, s.rul.flush = some u → s.rul.dramDown = false →
    exec .flushDone s = .next (endBusy (State.post { s with rul := { s.rul with
      flush := none, flows := s.rul.flows.filter (fun f => !u.takes f.2) } } 0x4005)
      0x0714 St.done (s.rul.flows.filter (fun f => u.takes f.2)).length)) ∧
  (∀ n hits s k size total done s1, size = sliceSize s → k = min n (agingPaid s - s.rul.partDone) →
    total = size * s.rul.period → done = s.rul.partDone + k →
    s1 = (s.rul.flows.filter (fun f => (decide (s.rul.scanPos ≤ f.1) && decide (f.1 < s.rul.scanPos + k)) ||
      decide (f.1 + total < s.rul.scanPos + k))).foldl (fun t f => visit t f.1 f.2 (hits.contains f.1)) s →
    exec (.agingSlice n hits) s = .next { s1 with
      rul := { s1.rul with
        scanPos := (s.rul.scanPos + k) % total, behind := s.rul.behind - done / size, partDone := done % size } })

/-- Frames of the host and frames sent (R245, R247, R380, R383 to R387, R406, R407): a fetched frame enters a pipeline, a root grants
and sends, a frame that has left is completed, a stale head is dropped, and a received frame is written to its queue. -/
def Obligations.TransmitEventsComplete : Prop :=
  (∀ (t : TxFetch) s q s1 s2 s3 b c st d0 info, q = s.qp t.func t.qp → d0 = t.descs.headD [] → t.descs ≠ [] →
    (s.func t.func).cut.contains t.qp = false →
    s.canDma t.func = true → q.st = .running → cqFull q = false → q.held = [] → s.pwr.quench < 2 → s.rul.dramDown = false →
    t.descs.length ≤ (q.txProd + 65536 - q.txCons) % 65536 → (∀ d ∈ t.descs, d.length = 64) →
    (∀ d ∈ t.descs.dropLast, bit (txFlags d) 0 = true) → txChainOk t.descs = true →
    t.recs.length = recCount d0 → t.recs.all recOk = true →
    t.data.length = t.descs.foldl (fun a d => a + dn d 11 8) 0 →
    readSpans (seeTables s t.mem) t.func (some t.qp)
      (ringSpans q.txAddr 64 (2 ^ q.logTx) q.txCons t.descs.length ++
        t.descs.flatMap (fun d => spanOf (dn d 7 0) (dn d 11 8)) ++ recSpans d0 t.recs) = (s1, true) →
    s2 = s1.setQp t.func t.qp { q with txCons := (q.txCons + t.descs.length) % 65536 } → t.overrun = false →
    txProcess (meetEcc s2 t.ecc) t d0 = (s3, .go b c st) →
    info = { inst := t.func, qp := t.qp, index := (q.txCons + t.descs.length - 1) % 2 ^ q.logTx, ndesc := t.descs.length,
             cookie := dn d0 19 16, ts := bit (txFlags d0) 1 } →
    exec (.txDescriptorFetchDone t) s = .next (pipeline { s3 with tm := { s3.tm with nextId := s3.tm.nextId + 1 } }
      { id := s3.tm.nextId, bytes := b, len := b.length + 4, edits := [], src := t.func, ing := none, tail := true,
        stamp := none, tx := some info, cip := c, sto := st, cls := 0, colour := 0, hash := 0, record := [],
        inner := false, copy := false, main := false, exc := 0, mir := none, hold := none, ecc := t.ecc, sat := t.sat,
        policed := 0, kept := none })) ∧
  (∀ (t : TxFetch) s q, q = s.qp t.func t.qp → t.descs ≠ [] → (s.func t.func).cut.contains t.qp = true →
    t.descs.length ≤ (q.txProd + 65536 - q.txCons) % 65536 → (∀ d ∈ t.descs, d.length = 64) →
    (∀ d ∈ t.descs.dropLast, bit (txFlags d) 0 = true) →
    exec (.txDescriptorFetchDone t) s = .next (cutTransmit s t.func t.qp t.descs.length)) ∧
  (∀ root pend ecc s p f rest s2, root ≤ 17 → s.rul.dramDown = false → pickRoot s root = some p →
    (mGetD s.tm.queues (queueKey root p.owner p.cls) { frames := [], since := 0 }).frames = f :: rest →
    s2 = meetEcc (chargePath (popHead (commitPick s root p) root p.owner p.cls) root p) ecc →
    exec (.frameTxStart root pend none ecc) s =
      .next (if root < 16 then startWire s2 root pend ecc f else startSend s2 root f)) ∧
  (∀ root g rest left s s1 s2, root < 16 → s.rul.dramDown = false → mGetD s.tm.sending root [] = g :: rest →
    g.cutShort = false →
    left = (if rest.isEmpty then mDel s.tm.sending root else mPut s.tm.sending root rest) →
    s1 = resumeTop { s with tm := { s.tm with sending := left } } root →
    s2 = (((s1.emit (.frame root g.frame.cls (g.frame.bytes ++ fcs g.frame.bytes))).inc (macCtr root 0x110)).add
      (macCtr root 0x118) g.frame.sentLen) →
    exec (.frameTxDone root) s = .next (reviewFrame (endFrame
      (if 1 < g.frags then s2.add (macCtr root 0x178) g.frags else s2) g.frame g.frame.sentLen g.frame.stamp) g.frame)) ∧
  (∀ l d mem g rest s i k exc q s1 data s2 q2, l ≤ 1 → s.rul.dramDown = false →
    mGetD s.tm.sending (16 + l) [] = g :: rest →
    g.frame.dest = .queue i k exc → q = s.qp i k → (s.insOf i).st = .attached → q.st = .running → (s.func i).d3 = false →
    (s.func i).inFlr = false → (s.func i).bme = true → cqFull q = false → q.rxProd ≠ q.rxCons → rxDescOk d = true →
    hostBytes s g.frame exc = (s1, data) → data.length ≤ d.len →
    writeSpans (seeTables s1 mem) i (some k) (((d.addr, data.take d.len) :: g.frame.placed).flatMap (·.2))
      (((d.addr, data.take d.len) :: g.frame.placed).flatMap (fun w => spanOf w.1 w.2.length)) = (s2, true) →
    q2 = s2.qp i k →
    exec (.hostWriteDone l d mem) s = .next (reviewFrame (endFrame (endHost (cqIssue
      (s2.setQp i k { q2 with rxCons := (q2.rxCons + 1) % 65536 }) i k
      (cqEntry 2 k (q2.rxCons % 2 ^ q2.logRx) (16 * b2n (bit (dn g.frame.record 2 2) 0)) g.frame.sentLen g.frame.hash
        g.frame.stamp g.frame.src g.frame.cls g.frame.colour (dn g.frame.record 2 2) g.frame.cip g.frame.sto)) (16 + l))
      g.frame g.frame.sentLen none) g.frame)) ∧
  (∀ root owner cls q q1 f rest s s1 s2 s3, mGet? s.tm.queues (queueKey root owner cls) = some q → s.rul.dramDown = false →
    s.toRef (q.since + s.tm.stale * 1000000) = some s1 → mGet? s1.tm.queues (queueKey root owner cls) = some q1 →
    s1.rul.dramDown = false → q1.since + s1.tm.stale * 1000000 ≤ s1.time.refNow → q1.frames = f :: rest →
    s2 = (popHead s1 root owner cls).inc Ctr.staleDrop → s3 = s2.raise Reg.tmStatus 2 0 →
    exec (.staleDrop root owner cls) s =
      .next (reviewFrame (endFrame (if bit (s2.word Reg.tmStatus.addr) 2 then s3 else s3.post 0x5003) f 0 none) f))

/-- Family 0x09, keys and contexts (R414 to R422, R436 to R438, R443, R444): key slots are loaded and erased; a context is set,
re-keyed and bound, at once with NOW and staged without it. -/
def Obligations.CipherKeyCommandsComplete : Prop :=
  (∀ key under, Replies .kekLoad Op.kekLoad
    (fun c s => 1 ≤ pf c.params 5 4 ∧ pf c.params 5 4 ≤ 4095 ∧
      pf c.params 7 6 ≤ 4095 ∧ (s.insOf (pf c.params 7 6)).st ≠ .free ∧ pf c.params 8 8 ≤ 1 ∧
      c.data.length = (if pf c.params 8 8 = 0 then 32 else 60) ∧
      mGet? s.cip.slots (pf c.params 5 4) = none ∧
      (if pf c.params 8 8 = 0 then key = c.data ∧ under = none
       else slotOk s (pf c.params 7 6) (pf c.params 11 10) = true ∧ under = some (pf c.params 11 10) ∧
         unwrapKey s (pf c.params 11 10) (leBytes 2 (pf c.params 5 4) ++ leBytes 2 (pf c.params 7 6)) c.data = some key))
    (fun c s =>
      let x : KeySlot := { owner := pf c.params 7 6, key := key, under := under }
      { s with cip := { s.cip with slots := mPut s.cip.slots (pf c.params 5 4) x } })
    (fun _ _ => 0)) ∧
  Replies .kekErase Op.kekErase
    (fun c s => pf c.params 5 4 ≠ 0 ∧
      (mGet? s.cip.slots (pf c.params 5 4)).isSome = true ∧ slotUsed s (pf c.params 5 4) = false)
    (fun c s => { s with cip := { s.cip with slots := mDel s.cip.slots (pf c.params 5 4) } }) (fun _ _ => 0) ∧
  (∀ now, ActsOrStages .ctxSet Op.ctxSet now
    (fun c s => HasCtx c s ∧ 1 ≤ pf c.params 4 4 ∧ pf c.params 4 4 ≤ 7 ∧ algOk (pf c.params 4 4) (pf c.params 5 5) = true ∧
      (pf c.params 4 4 = 4 → 31 ≤ pf c.params 7 7) ∧ pf c.params 10 10 ≤ 1 ∧ slotOk s c.id (pf c.params 9 8) = true ∧
      c.data.length = 24 + keysLen (pf c.params 10 10) ∧
      (takeKeys s c.id (ctxIdx c) (pf c.params 9 8) (pf c.params 10 10 == 1) (pf c.params 4 4 == 7)
        (c.data.drop 24)).isSome = true ∧ (now = true → (s.ctx (ctxOf c)).binding = none))
    (fun c s => bodyCtxSet.put c.id c.params c.data s)) ∧
  (∀ c s target late k1 k2, let op := Op.ctxKey c s; let t := takenFrom op c s; let x := t.ctx (ctxOf c)
    Admits op c s → checkLate c t = .ok (target, late) → HasCtx c t → pf c.params 16 16 ≤ 1 → x.st ≠ .unset → x.kind = 6 →
    c.data.length = 12 + keysLen (pf c.params 16 16) →
    takeKeys t c.id (ctxIdx c) x.slot (pf c.params 16 16 == 1) false (c.data.drop 12) = some (k1, k2) →
    x.nextSeq ≤ pf c.params 11 4 →
    exec (.ctxKey c) s = .next (doneWith op c t
      (t.setCtx (ctxOf c) { x with nextKey := some (c.data.take 12, k1.take (keyLen x.alg)), firstRec := pf c.params 11 4 }) 0)) ∧
  (∀ c s target late st, let op := Op.ctxKey c s; let t := takenFrom op c s; let x := t.ctx (ctxOf c)
    Admits op c s → checkLate c t = .ok (target, late) → HasCtx c t → pf c.params 16 16 ≤ 1 → x.st ≠ .unset →
    (x.kind = 3 ∨ x.kind = 5 ∨ (x.kind = 7 ∧ oldKeyKept t c.id (ctxIdx c) = false)) →
    c.data.length = 12 + keysLen (pf c.params 16 16) →
    (takeKeys t c.id (ctxIdx c) x.slot (pf c.params 16 16 == 1) (x.kind == 7) (c.data.drop 12)).isSome = true →
    stagedAs op c t [c.data] false target = some st →
    exec (.ctxKey c) s = .next (ends op c t st (.seal t.staging.nextUnit target late 0))) ∧
  (∀ now b, ActsOrStages .ctxBind Op.ctxBind now
    (fun c s => bit (pf c.params 0 0) 1 = false ∧ HasCtx c s ∧
      (isManager c.src = true ∨ (s.ctx (ctxOf c)).kind = 4 ∨ (s.ctx (ctxOf c)).kind = 6) ∧ (s.ctx (ctxOf c)).kind ∈ [1, 2, 4, 6] ∧
      bindingOf (s.ctx (ctxOf c)).kind c.data = some b ∧ (s.ctx (ctxOf c)).binding = none ∧ keyTaken s b = false ∧
      scFull s b = false)
    (fun c s => s.setCtx (ctxOf c) { s.ctx (ctxOf c) with binding := some b })) ∧
  (∀ now, ActsOrStages .ctxBind Op.ctxBind now
    (fun c s => bit (pf c.params 0 0) 1 = true ∧ HasCtx c s ∧
      (isManager c.src = true ∨ (s.ctx (ctxOf c)).kind = 4 ∨ (s.ctx (ctxOf c)).kind = 6) ∧ (s.ctx (ctxOf c)).kind ∈ [1, 2, 4, 6] ∧
      (s.ctx (ctxOf c)).binding ≠ none)
    (fun c s => s.setCtx (ctxOf c) { s.ctx (ctxOf c) with binding := none }))

/-- Family 0x09, queries, images and the rest (R205, R423, R434, R439 to R443): CTX_QUERY answers; CTX_SAVE writes an image and
counts it, in clear where the instance may export so and wrapped under its slot otherwise; CTX_RESTORE takes an image whose
checks pass; CTX_CLEAR, TLS_RESYNC and REPLAY_SET act at once; SECY_SET stages. -/
def Obligations.CipherContextCommandsComplete : Prop :=
  Replies .ctxQuery Op.ctxQuery
    (fun c s => ctxIdx c < (s.insOf c.id).grants.getD 3 0 ∧ pf c.params 4 4 ≤ 1)
    (fun _ s => s)
    (fun c s =>
      let v := if pf c.params 4 4 = 0 then (s.ctx (ctxOf c)).view else (s.ctx (ctxOf c)).snap
      v.getD 0 0 + v.getD 1 0 * 2 ^ 8 + v.getD 2 0 * 2 ^ 16 + v.getD 3 0 * 2 ^ 64 + v.getD 4 0 * 2 ^ 96) ∧
  (∀ n s2 d, Replies .ctxSave Op.ctxSave
    (fun c s => HasCtx c s ∧ pf c.params 4 4 = 1 ∧ (s.insOf c.id).clearExp = true ∧ (s.ctx (ctxOf c)).st ≠ .unset ∧ (s.ctx (ctxOf c)).st ≠ .fault ∧
      n = ((countsOf s c.id).1 + 1) % 2 ^ 48 ∧
      s2 = { s with cip := { s.cip with counts := mPut s.cip.counts c.id (n, (countsOf s c.id).2) } } ∧
      d = [0x50, 0x4B, 0x43, 0x49, 1] ++ leBytes 1 0 ++ leBytes 2 0 ++ leBytes 2 c.id ++ leBytes 4 (ctxIdx c) ++
        leBytes 6 n ++ leBytes 12 0 ++ (s.ctx (ctxOf c)).image ++ leBytes 16 0 ++ leBytes 16 0 ∧
      (hostWrite s2 (cmdFunc s2 c) none (pf c.params 15 8) d).2 = true)
    (fun c _ => (hostWrite s2 (cmdFunc s2 c) none (pf c.params 15 8) d).1) (fun _ _ => n)) ∧
  (∀ n s2 head d, Replies .ctxSave Op.ctxSave
    (fun c s => HasCtx c s ∧ pf c.params 4 4 = 0 ∧ slotOk s c.id (pf c.params 7 6) = true ∧ (s.ctx (ctxOf c)).st ≠ .unset ∧ (s.ctx (ctxOf c)).st ≠ .fault ∧
      n = ((countsOf s c.id).1 + 1) % 2 ^ 48 ∧
      s2 = { s.draw.2 with cip := { s.cip with counts := mPut s.cip.counts c.id (n, (countsOf s c.id).2) } } ∧
      head = [0x50, 0x4B, 0x43, 0x49, 1] ++ leBytes 1 1 ++ leBytes 2 (pf c.params 7 6) ++ leBytes 2 c.id ++
        leBytes 4 (ctxIdx c) ++ leBytes 6 n ++ leBytes 12 s.draw.1 ∧
      d = head ++
        (gcmSeal (((mGet? s.cip.slots (pf c.params 7 6)).map (·.key)).getD []) (leBytes 12 s.draw.1) head
          (s.ctx (ctxOf c)).image).1 ++
        (gcmSeal (((mGet? s.cip.slots (pf c.params 7 6)).map (·.key)).getD []) (leBytes 12 s.draw.1) head
          (s.ctx (ctxOf c)).image).2 ++ leBytes 16 0 ∧
      (hostWrite s2 (cmdFunc s2 c) none (pf c.params 15 8) d).2 = true)
    (fun c _ => (hostWrite s2 (cmdFunc s2 c) none (pf c.params 15 8) d).1) (fun _ _ => n)) ∧
  (∀ b x, Replies .ctxRestore Op.ctxRestore
    (fun c s => HasCtx c s ∧ c.data.length = 320 ∧
      (s.ctx (ctxOf c)).binding = none ∧ dn c.data 3 0 = 0x49434B50 ∧ byteAt c.data 4 = 1 ∧ byteAt c.data 5 ≤ 1 ∧
      dn c.data 9 8 < 4096 ∧ allZero (c.data.drop 304) = true ∧
      (if byteAt c.data 5 = 0 then
        dn c.data 7 6 = 0 ∧ dn c.data 31 20 = 0 ∧ dn c.data 303 288 = 0 ∧ (s.insOf c.id).clearExp = true ∧
          b = (c.data.drop 32).take 256
       else slotOk s c.id (dn c.data 7 6) = true ∧
        gcmOpen (((mGet? s.cip.slots (dn c.data 7 6)).map (·.key)).getD []) ((c.data.drop 20).take 12) (c.data.take 32)
          ((c.data.drop 32).take 256) ((c.data.drop 288).take 16) = some b) ∧
      (dn c.data 9 8 = c.id ∨ (isManager c.src = true ∧ pf c.params 4 4 = 1)) ∧
      (countsOf s (dn c.data 9 8)).2 ≤ dn c.data 19 14 ∧ ctxOfImage b (dn c.data 7 6) s.draw.1 = some x)
    (fun c s =>
      let n := dn c.data 19 14
      let o := dn c.data 9 8
      let counts := mPut s.cip.counts o (max (countsOf s o).1 n, (n + 1) % 2 ^ 48)
      placeCtx { s.draw.2 with cip := { s.cip with counts := counts } } (ctxOf c) x)
    (fun c _ => dn c.data 19 14)) ∧
  Replies .ctxClear Op.ctxClear
    (fun c s => HasCtx c s ∧ (s.ctx (ctxOf c)).binding = none)
    (fun c s => { s with cip := { s.cip with ctxs := mDel s.cip.ctxs (ctxOf c) } }) (fun _ _ => 0) ∧
  Replies .tlsResync Op.tlsResync
    (fun c s => HasCtx c s ∧ (s.ctx (ctxOf c)).st = .resync)
    (fun c s => s.setCtx (ctxOf c) { s.ctx (ctxOf c) with resume := some (pf c.params 7 4, pf c.params 15 8) })
    (fun _ _ => 0) ∧
  Replies .replaySet Op.replaySet (fun _ _ => True)
    (fun c s => { s with cip := { s.cip with counts := mPut s.cip.counts c.id (pf c.params 7 2, pf c.params 13 8) } })
    (fun _ _ => 0) ∧
  Stages .secySet Op.secySet
    (fun c _ => pf c.params 1 1 ≤ 15 ∧ 1 ≤ pf c.params 3 3 ∧
      pf c.params 3 3 ≤ 4 ∧ pf c.params 4 4 ≤ 2 ∧ pf c.params 5 5 ∈ [0, 30, 50] ∧ pf c.params 6 6 ≤ 3)

/-- Family 0x0A, connections (R458, R459, R464, R479, R480, R482, R487): set and cleared at once with NOW while the queue pair is
STOPPED or UNCONFIGURED, staged without it; queried; resumed after RESYNC. -/
def Obligations.ConnectionCommandsComplete : Prop :=
  (∀ now, ActsOrStages .stoConnSet Op.stoConnSet now
    (fun c s => pf c.params 3 2 < (s.insOf c.id).grants.getD 0 0 ∧
      retiring s c.id 0 (pf c.params 3 2) = false ∧ pf c.params 5 5 ≤ 31 ∧ 4 ≤ pf c.params 6 6 ∧
      pf c.params 6 6 ≤ 10 ∧ c.data.length = 37 ∧
      (byteAt c.data 0 = 4 ∨ byteAt c.data 0 = 6) ∧ (now = true → connIdle s c = true) ∧
      connTaken s (connOf c) (connBinding c.data) = false ∧
      slotsBut s (connOf c) + 2 ^ pf c.params 6 6 ≤ 2097152)
    (fun c s => setConnAs s (connOf c) c.params c.data)) ∧
  (∀ now, ActsOrStages .stoConnClear Op.stoConnClear now
    (fun c s => (s.conn? (connOf c)).isSome = true ∧ (now = true → connIdle s c = true))
    (fun c s => { s with sto := { s.sto with conns := mDel s.sto.conns (connOf c) } })) ∧
  (∀ x v, Replies .stoConnQuery Op.stoConnQuery
    (fun c s => pf c.params 4 4 ≤ 1 ∧ s.conn? (connOf c) = some x ∧
      v = (if pf c.params 4 4 = 0 then x.view else x.snap))
    (fun _ s => if v.getD 1 0 < 256 then s else s.draw.2)
    (fun _ s => v.getD 0 0 + (if v.getD 1 0 < 256 then v.getD 1 0 else s.draw.1) % 256 * 2 ^ 8 + v.getD 2 0 * 2 ^ 16 +
      v.getD 3 0 * 2 ^ 48 + v.getD 4 0 * 2 ^ 80)) ∧
  (∀ x, Replies .stoResync Op.stoResync
    (fun c s => s.conn? (connOf c) = some x ∧ x.st = .resync)
    (fun c s => s.setConn (connOf c) { x with resume := some (pf c.params 7 4) }) (fun _ _ => 0))

/-- Family 0x0A, namespaces (R462, R463, R480): STO_NS_SET sets or removes an entry within the quota, at once or staged;
STO_NS_QUOTA stages a quota within the 65,536 entries of the table; STO_NS_QUERY answers from the entry. -/
def Obligations.NamespaceCommandsComplete : Prop :=
  (∀ now, ActsOrStages .stoNsSet Op.stoNsSet now
    (fun c s => bit (pf c.params 0 0) 1 = false ∧ pf c.params 3 2 < nsQuota s c.id ∧
      (pf c.params 10 10 = 9 ∨ pf c.params 10 10 = 12) ∧ (nsOf c.params).pi ≤ 2 ∧
      ((nsOf c.params).pi = 0 ∨ (1 ≤ (nsOf c.params).piType ∧ (nsOf c.params).piType ≤ 3)) ∧
      (nsOf c.params).txAct ≤ 2 ∧ (nsOf c.params).rxAct ≤ 1 ∧ xtsOk s c.id (nsOf c.params).xts = true ∧
      (∀ k, (nsOf c.params).xts = some k → retiring s c.id 3 k = false) ∧
      nsTaken s c.id (pf c.params 3 2) (nsOf c.params) = false)
    (fun c s => setNs s c.id (pf c.params 3 2) (some (nsOf c.params)))) ∧
  (∀ now, ActsOrStages .stoNsSet Op.stoNsSet now
    (fun c s => bit (pf c.params 0 0) 1 = true ∧ pf c.params 3 2 < nsQuota s c.id ∧
      (mGet? s.sto.nss (nsKey c.id (pf c.params 3 2))).isSome = true)
    (fun c s => setNs s c.id (pf c.params 3 2) none)) ∧
  Stages .stoNsQuota Op.stoNsQuota
    (fun c s => claimedBut s s.sto.quotas 0x0A11 c.id (·.inst) (fun it => pf it.params 3 0) + pf c.params 3 0 ≤ 65536) ∧
  (∀ n, Replies .stoNsQuery Op.stoNsQuery
    (fun c s => mGet? s.sto.nss (nsKey c.id (pf c.params 3 2)) = some n)
    (fun _ s => s)
    (fun _ _ => n.nsid % 2 ^ 32 + n.ctrl % 2 ^ 16 * 2 ^ 32 + n.pi * 2 ^ 48 + n.piType * 2 ^ 56 +
      n.xts.getD 0xFFFFFF % 2 ^ 24 * 2 ^ 64))

/-- Frames, windows, copies and votes of the bus (R494, R503 to R506, R511 to R515, R520, R521, R523 to R525, R529, R538, R540): each
event at its own instant of the heat. -/
def Obligations.BusFrameEventsComplete : Prop :=
  (∀ i lag s, mayTransmit s = true → planOpen s (isSend i) = true →
    exec (.virasFrameTx i lag) s =
      .next (busThrough { s with vrs := { s.vrs with lags := mPut s.vrs.lags i lag } } (isSend i))) ∧
  (∀ i c s, exec (.guardWindowClose i c) s = .next (busThrough s (fun a => a == .close i c))) ∧
  (∀ i s, exec (.slotEndVote i) s = .next (busThrough s (fun a => a == .vote i))) ∧
  (∀ p s k t, planLast p (busPlan s) = some (k, t) →
    (s.vrs.pos ≤ k → busThrough s p = s.atFine t (fun u => busUpTo k (k + 1) u)) ∧
    (k < s.vrs.pos → busThrough s p = s)) ∧
  (∀ i c s m x t ws s1 lag, s.vrs.img = some m → nextBus s = some (t, .send i c) → m.slots[i]? = some x → mayTransmit s = true →
    (s.vchan c).txUp = true → lag = mGetD s.vrs.lags i 0 → 256 * lag ≤ frameTime (m.rate c) x.pmax + 256 * m.gw →
    (mGet? s.vrs.sent i = some ws ∨
      (mGet? s.vrs.sent i = none ∧ ws = frameWords { s with vrs := { s.vrs with pos := s.vrs.pos + 1 } } m i)) →
    s1 = { s with vrs := { s.vrs with
      pos := s.vrs.pos + 1, sent := mPut s.vrs.sent i ws,
      driving := s.vrs.driving ++ [(c, i, s.time.refNow + ceilDiv (frameTime (m.rate c) (fPlen ws)) 256)] } } →
    doBus s = (s1.inc (vrsCtr c 0x30)).emit (.viras c i (ws ++ [crc24 ws]))) ∧
  (∀ i c s m t cut, s.vrs.img = some m → nextBus s = some (t, .close i c) →
    cut = { s with vrs := { s.vrs with
      pos := s.vrs.pos + 1, driving := s.vrs.driving.filter (fun d => !(d.1 == c && d.2.1 == i)) } } →
    doBus s = (if s.vrs.driving.any (fun d => d.1 == c && d.2.1 == i && decide (s.time.refNow < d.2.2))
      then cut.emit (.cutFrame c i) else cut)) ∧
  (∀ i s m x t l s0 s1 s2, s.vrs.img = some m → nextBus s = some (t, .vote i) → m.slots[i]? = some x →
    l = s.vrs.copies.filter (fun k => fSlot k.words == i) →
    s0 = { s with vrs := { s.vrs with pos := s.vrs.pos + 1, copies := [] } } →
    (∀ ws, (voteOf l).1 = some ws →
      s1 = consume (match (voteOf l).2 with
        | some c => (if l.length = 1 then (s0.inc 0x100308).vrsRaise 2 else s0.inc 0x100300).inc (vrsCtr c 0x28)
        | none => if l.length = 1 then (s0.inc 0x100308).vrsRaise 2 else s0.inc 0x100300) ws (decide (l.length = 1)) ∧
      s2 = (match deviationOf ((l.filter (fun k => k.words == ws)).map (·.dev)) with
        | some d => if x.sync ∧ x.owner ≠ s.vrs.node then
            { s1 with tim := { s1.tim with devs := mPut s1.tim.devs x.owner d } } else s1
        | none => s1)) →
    ((voteOf l).1 = none → s2 = if l.isEmpty then s0 else (s0.inc 0x100310).vrsRaise 3) →
    doBus s = (match mGet? s.vrs.sent i with
      | some ws => if (voteOf l).1 = some ws then s2 else s2.vrsRaise 6
      | none => s2)) ∧
  (∀ s m s0 s1, s.vrs.img = some m → s.vrs.guardCrc = false → s0 = driversOff s →
    s1 = { s0 with vrs := { s0.vrs with guardCrc := true } } →
    exec .guardCrc s = .next (if bit (s1.word Reg.vrsIntEn.addr) 7 then s1.fireDev 3 else s1)) ∧
  (∀ (x : VirasRx) s m t, s.vrs.img = some m → x.chan < 3 → s.boot.stopped = false → x.branch = none →
    (∀ f, s.atNs (x.at_ / 256) f = f t) → chanCarries t m x.chan x.at_ = true →
    exec (.virasCopyReceived x) s = .next (
      receiveCopy (if t.hubOn x.chan then
        (upBranches t x.chan).foldl (fun u b => u.emit (.relay x.chan b x.words)) t else t) m x)) ∧
  (∀ (x : VirasRx) s m b t from_, s.vrs.img = some m → x.chan < 3 → s.boot.stopped = false → x.branch = some b → b < 8 →
    (∀ f, s.atNs (x.at_ / 256) f = f t) → t.hubOn x.chan = true → linkCarries t m (brKey x.chan b) x.at_ = true →
    from_ = x.at_ - groupsTime m.starRate 2 →
    (relayUntil t m x.chan b from_ = none → exec (.virasCopyReceived x) s = .next (hubCut t x.chan b)) ∧
    (∀ close, relayUntil t m x.chan b from_ = some close → from_ + groupsTime m.starRate (3 * x.words.length + 4) ≤ close →
      exec (.virasCopyReceived x) s = .next (
        if t.topOn x.chan then
          receiveCopy ((upBranches t x.chan).foldl (fun u d => u.emit (.relay x.chan d x.words))
            (t.inc (brCtr x.chan b 0x10))) m { x with at_ := x.at_ + latOf m.starRate }
        else (t.inc (brCtr x.chan b 0x10)).emit (.relay x.chan 255 x.words))) ∧
    (∀ close, relayUntil t m x.chan b from_ = some close → close < from_ + groupsTime m.starRate (3 * x.words.length + 4) →
      exec (.virasCopyReceived x) s = .next (
        hubCut (relayFrom t m x b (wordsIn m.starRate (close - from_) x.words) false) x.chan b))) ∧
  (∀ c b s, s.hubOn c = true → b < 8 → (s.vlink (brKey c b)).st = 2 → exec (.slotViolation c b) s = .next (hubCut s c b)) ∧
  (∀ c b s x, s.hubOn c = true → s.vlink (brKey c b) = x → x.shut = false → 16 ≤ x.cutRun + b2n x.cutNow →
    exec (.branchShut c b) s = .next ((s.setVlink (brKey c b)
      { x with st := 0, step := .idle, shut := true, since := s.time.refNow }).postB 0xB061 3 (brKey c b)
      (if x.idValid then x.node else 0xFFFF) 16 false)) ∧
  (∀ c b s x, s.hubOn c = true → s.vlink (brKey c b) = x → x.shut = true →
    exec (.branchRestart c b) s = .next (s.atRef (x.since + 1000000000) (fun t =>
      ladderStart (t.setVlink (brKey c b) { t.vlink (brKey c b) with cutRun := 0, cutNow := false }) (brKey c b)))) ∧
  (∀ c s, s.vmode c ≠ 0 → (s.vchan c).down = false → 8 ≤ (s.vchan c).miss → s.onStrike = true →
    exec (.chanDown c) s = .next (reclass (((s.setVchan c { s.vchan c with down := true }).vrsRaise 1).post 0x8001
      [BitVec.ofNat 8 c]))) ∧
  (∀ c s, (s.vchan c).down = true → 2 ≤ (s.vchan c).run → s.onStrike = true →
    exec (.chanUp c) s = .next (reclass (((s.setVchan c { s.vchan c with down := false }).vrsRaise 1).post 0x8002
      [BitVec.ofNat 8 c])))

/-- The ladder of a star link (R507 to R510, R520, R526, R763; Table 12.5): each message in its step, the changes of rate, the
pings and their sum, the waits that run out, and the link's loss. -/
def Obligations.LadderEventsComplete : Prop :=
  (∀ c b w0 w1 s m x, s.vrs.img = some m → s.hubOn c = true → b < 8 → s.vlink (brKey c b) = x → atHello x = true →
    exec (.hello c b w0 w1) s = .next (match helloReject s m c b (bits w0 19 14) (bits w0 13 12) w1 with
      | some r => ladderHold (sendLadder s (brKey c b) 8 r) (brKey c b)
      | none => ladderNext (sendLadder (s.setVlink (brKey c b)
          { x with idValid := true, node := bits w0 19 14, step := .hello false, since := s.time.refNow }) (brKey c b) 2
            (schedLow s)) (brKey c b))) ∧
  (∀ c w0 w1 s m x, s.vrs.img = some m → s.vmode c = 2 → s.vlink (upKey c) = x → atHello x = true →
    exec (.helloAck c w0 w1) s = .next (s.setVlink (upKey c)
      { x with step := if x.rate < m.starRate then .rate else .ping, since := s.time.refNow })) ∧
  (∀ c w0 s x, s.vmode c = 2 → s.vlink (upKey c) = x → x.st = 1 → x.step = .rate → bits w0 11 8 = x.rate + 1 →
    exec (.rateReq c w0) s = .next (sendLadder (s.setVlink (upKey c)
      { x with step := .switching, since := s.time.refNow + ceilDiv (groupsTime x.rate 13) 256 }) (upKey c) 4 0)) ∧
  (∀ c b w0 s x, s.hubOn c = true → b < 8 → s.vlink (brKey c b) = x → x.st = 1 → x.step = .rate → bits w0 11 8 = x.rate + 1 →
    exec (.rateAck c b w0) s = .next (s.setVlink (brKey c b) { x with step := .switching, since := s.time.refNow })) ∧
  (∀ k s x, s.vlink k = x → x.st = 1 → x.step = .switching →
    exec (.rateSwitch k) s = .next (s.atRef (x.since + 10000) (fun t =>
      t.setVlink k { x with rate := x.rate + 1, step := .hello true, since := t.time.refNow, helloAt := none }))) ∧
  (∀ c s x, s.vmode c = 2 → s.vlink (upKey c) = x → x.st = 1 → x.step = .ping →
    exec (.ping c) s = .next (s.setVlink (upKey c)
      { x with pongAt := some (s.time.refNow + 2000), since := s.time.refNow })) ∧
  (∀ c s t, (s.vlink (upKey c)).pongAt = some t →
    exec (.pongSend c) s = .next (s.atRef t (fun u =>
      sendLadder (u.setVlink (upKey c) { u.vlink (upKey c) with pongAt := none }) (upKey c) 6 0))) ∧
  (∀ c b rt s x, s.hubOn c = true → b < 8 → s.vlink (brKey c b) = x → x.st = 1 → x.step = .ping → x.pongs < 15 →
    exec (.pong c b rt) s = .next (sendLadder (s.setVlink (brKey c b)
      { x with pongs := x.pongs + 1, repeats := 0, total := x.total + rt, since := s.time.refNow }) (brKey c b) 5 0)) ∧
  (∀ c b rt s x d, s.hubOn c = true → b < 8 → s.vlink (brKey c b) = x → x.st = 1 → x.step = .ping → 15 ≤ x.pongs →
    d = (x.total + rt) / 32 - 256000 →
    exec (.pong c b rt) s = .next (
      let y : VLink := { x with pongs := x.pongs + 1, repeats := 0, total := x.total + rt, since := s.time.refNow }
      let s1 := (s.setVlink (brKey c b) { y with delay := d, step := .ready }).setWord (brCtr c b 0x04) (d % 2 ^ 24)
      sendLadder s1 (brKey c b) 7 (branchPath s1 c d))) ∧
  (∀ c p s x, s.vmode c = 2 → s.vlink (upKey c) = x → x.st = 1 → x.step = .ping →
    exec (.ready c p) s = .next ((s.setVlink (upKey c) { x with delay := p % 2 ^ 24, step := .ready, pongAt := none }).setWord
      (vrsCtr c 0x48) (p % 2 ^ 24))) ∧
  (∀ c reason s, s.vmode c = 2 → (s.vlink (upKey c)).st ≠ 0 → (s.vlink (upKey c)).step ≠ .hold →
    exec (.reject c reason) s = .next (ladderHold s (upKey c))) ∧
  (∀ k msg s, k < 27 → (s.vlink k).st ≠ 0 → exec (.ladderBad k msg) s = .next (Sys2Proof.Machine.ladderBad s k msg)) ∧
  (∀ c s x, s.vmode c = 2 → s.vlink (upKey c) = x → atHello x = true →
    (x.helloAt = none → exec (.helloTimer c) s = .next (sendLadder (s.setVlink (upKey c) { (if x.step = .lock
      then { x with step := .hello false, since := s.time.refNow } else x) with helloAt := some s.time.refNow })
      (upKey c) 1 (schedLow s))) ∧
    (∀ t, x.helloAt = some t → exec (.helloTimer c) s = .next (s.atRef (t + 1000000) (fun u => sendHello (upKey c) u)))) ∧
  (∀ k s x, k < 27 → s.vlink k = x → x.st = 1 →
    (x.step = .lock → exec (.ladderTimeout k) s = .next (s.atRef (x.since + 200000) (fun t => ladderStart t k))) ∧
    (x.step = .hello false → 24 ≤ k → exec (.ladderTimeout k) s = .next (s.atRef (x.since + 50000000) (fun t => ladderStart t k))) ∧
    (x.step = .hello true → exec (.ladderTimeout k) s = .next (s.atRef (x.since + 2000000) (fun t =>
      t.setVlink k { x with st := 3, rate := x.rate - 1, step := .idle, since := t.time.refNow }))) ∧
    (x.step = .ping → k < 24 → exec (.ladderTimeout k) s = .next (s.atRef (x.since + 100000) (fun t =>
      if x.repeats = 64 then ladderStart t k
      else sendLadder (t.setVlink k { x with repeats := x.repeats + 1, since := t.time.refNow }) k 5 0)))) ∧
  (∀ k s x, k < 27 → s.vlink k = x → ((x.st = 1 ∧ x.step = .hold) ∨ x.st = 3) →
    exec (.ladderHoldEnd k) s = .next (s.atRef (x.since + 1000000000) (fun t => ladderStart t k))) ∧
  (∀ k s, k < 27 → s.vmode (if 24 ≤ k then k - 24 else k / 8) = 2 → (s.vlink k).st ≠ 0 →
    exec (.starLinkDown k) s = .next (reclass ((ladderStart s k).setVlink k { (ladderStart s k).vlink k with
      lostAt := if (s.vlink k).st = 2 then some (256 * s.time.ns + s.time.frac) else none })))

/-- Family 0x0C (Table 14.6): TRI_SET and TRI_HANDOVER stage where R567, R568, R590 and R593 let them; TRI_QUERY answers with
the word, the causes and the owner; TRI_REARM, TRI_ISO_CLEAR and TRI_FORCE act at once (R577, R588, R594). -/
def Obligations.TriadCommandsComplete : Prop :=
  Stages .triSet Op.triSet
    (fun c s => pf c.params 0 0 < 8 ∧ needsCluster c s = false ∧
      (bit (pf c.params 5 5) 0 = true ∨
        ((c.data.length = 0 ∨ c.data.length = 16) ∧ pf c.params 1 1 ≠ 0 ∧
          (∀ x ∈ s.tri.slots, x.1 ≠ pf c.params 0 0 → x.2.cfg.triad ≠ pf c.params 1 1) ∧
          membersOk s [pf c.params 2 2, pf c.params 3 3, pf c.params 4 4] = true ∧ pf c.params 6 6 ≤ 8 ∧
          pf c.params 7 7 ≤ 15))) ∧
  (∀ x, Replies .triQuery Op.triQuery
    (fun c s => pf c.params 0 0 < 8 ∧ s.triad (pf c.params 0 0) = some x) (fun _ s => s)
    (fun _ s => x.word + causesOf s x * 2 ^ 24 + (if x.owner < 3 then x.ownerHeat.toNat else 0) * 2 ^ 32 +
      nodeOf x x.owner * 2 ^ 80)) ∧
  (∀ x, Stages .triHandover Op.triHandover
    (fun c s => pf c.params 0 0 < 8 ∧ pf c.params 1 1 ≤ 3 ∧ s.triad (pf c.params 0 0) = some x ∧
      x.st = .owner)) ∧
  Replies .triRearm Op.triRearm (fun _ _ => True)
    (fun _ s => { s with tri := { s.tri with mem := s.rul.dramDown } }) (fun _ _ => 0) ∧
  Replies .triIsoClear Op.triIsoClear (fun c s => s.tri.isoA = false ∧ s.tri.isoB = false)
    (fun _ s => { s with tri := { s.tri with latched := false } }) (fun _ _ => 0) ∧
  (∀ x, Replies .triForce Op.triForce
    (fun c s => pf c.params 0 0 < 8 ∧ s.triad (pf c.params 0 0) = some x ∧ fit s x = true)
    (fun c s => s.setTriad (pf c.params 0 0) { x with forced := true }) (fun _ _ => 0))

/-- Family 0x0D (Table 15.7): PWR_SET and THM_SET stage within the ranges and the orders of Tables 15.6 and 15.8 (R630, R631);
the queries answer; PWR_INJECT injects a SOFT sag, a HARD sag or an alert for its duration (R641); THM_CLEAR_LATCH clears the
trip latches. -/
def Obligations.PowerCommandsComplete : Prop :=
  Stages .pwrSet Op.pwrSet
    (fun c _ => (bit (pf c.params 0 0) 1 = true → 1 ≤ pf c.params 2 2 ∧ pf c.params 2 2 ≤ 40 ∧ pf c.params 3 3 ≤ 100) ∧
      (bit (pf c.params 0 0) 2 = true →
        500 ≤ pf c.params 6 5 ∧ pf c.params 6 5 ≤ 10000 ∧ 5 ≤ pf c.params 7 7 ∧ pf c.params 7 7 ≤ 31) ∧
      (bit (pf c.params 0 0) 3 = true →
        10 ≤ pf c.params 9 9 ∧ pf c.params 9 9 ≤ 100 ∧ pf c.params 10 10 ≤ 150 ∧ 100 ≤ pf c.params 13 11 ∧
          pf c.params 13 11 ≤ 50000 ∧ 100 ≤ pf c.params 15 14 ∧ pf c.params 15 14 ≤ 10000 ∧
          pf c.params 9 9 + 10 ≤ pf c.params 10 10)) ∧
  Stages .thmSet Op.thmSet
    (fun c _ => (bit (pf c.params 0 0) 0 = true → 60 ≤ pf c.params 1 1 ∧ pf c.params 1 1 ≤ 100 ∧ 70 ≤ pf c.params 2 2 ∧
        pf c.params 2 2 ≤ 105 ∧ pf c.params 1 1 ≤ pf c.params 2 2) ∧
      (bit (pf c.params 0 0) 1 = true → 10 ≤ pf c.params 4 3 ∧ pf c.params 4 3 ≤ 1000)) ∧
  Replies .pwrQuery Op.pwrQuery (fun _ _ => True) (fun _ s => s)
    (fun _ s => ratioCode s + s.pwr.ceiling * 2 ^ 8 + (if s.pwr.blind then 0 else s.fld Reg.clkFloor) * 2 ^ 16 + hintPins s * 2 ^ 24 +
      s.pwr.target * 2 ^ 32 + iEst s % 2 ^ 24 * 2 ^ 40 + s.fld Reg.minMv * 2 ^ 64) ∧
  Replies .thmQuery Op.thmQuery (fun _ _ => True) (fun _ s => s)
    (fun _ s => ofInt 16 s.pwr.temp + s.pwr.hottest * 2 ^ 16 + s.pwr.ceiling * 2 ^ 24 + maskOf (goodSensors s) * 2 ^ 32 +
      b2n s.pwr.warn * 2 ^ 48 + b2n (s.pwr.ceiling != 0) * 2 ^ 49) ∧
  Replies .pwrInject Op.pwrInject
    (fun c _ => 1 ≤ pf c.params 0 0 ∧ pf c.params 0 0 ≤ 3 ∧ 10 ≤ pf c.params 4 1 ∧ pf c.params 4 1 ≤ 100000)
    (fun c s =>
      let src := pf c.params 0 0
      let inject := mPut s.pwr.inject src (max (mGetD s.pwr.inject src 0) (s.time.refNow + pf c.params 4 1))
      let s1 := State.inc { s with pwr := { s.pwr with inject := inject } } Ctr.pwrInject
      if src = 1 then (if softNow s then softBegin s1 true else softStep (softBegin s1 true))
      else if src = 2 then withRatio (hardBegin s1 true)
      else alertBegin s1 true)
    (fun _ _ => 0) ∧
  Replies .thmClearLatch Op.thmClearLatch (fun _ _ => True)
    (fun _ s => { s with pwr := { s.pwr with quenched := false, tripped := false } }) (fun _ _ => 0)

/-- Sags and the board's alert (R607, R609 to R613, R618, R633, R641 to R643, R645, R762): what each event of the supply makes of the
clock ratio and its timers. -/
def Obligations.SupplyEventsComplete : Prop :=
  (∀ d s s1, watched s d = true →
    s1 = setSoft { s with pwr := { s.pwr with stepAt := none } } (setBits s.pwr.belowSoft d d 1) →
    exec (.droopSoft d) s = .next (if softNow s then s1 else softStep (softBegin s1 false))) ∧
  (∀ mask s, softNow s = true →
    exec (.droopSoftStep mask) s = .next (s.atRef (s.pwr.softAt + 20) (fun u =>
      let s1 := setSoft u (maskOf ((bitList mask 16).filter (watched u)))
      if softNow s1 then softStep s1 else s1))) ∧
  (∀ d s s1 s2, watched s d = true →
    s1 = setSoft { s with pwr := { s.pwr with
      stepAt := none, hardFrom := if s.pwr.belowHard = 0 then s.time.refNow else s.pwr.hardFrom,
      lowTold := s.pwr.belowHard != 0 && s.pwr.lowTold } } (setBits s.pwr.belowSoft d d 1) →
    s2 = (if softNow s then softBegin s1 false else softStep (softBegin s1 false)) →
    exec (.droopHard d) s = .next (withRatio (hardBegin { s2 with pwr := { s2.pwr with
      belowHard := setBits s2.pwr.belowHard d d 1 } } false))) ∧
  (∀ mask s, exec (.hardEnd mask) s = .next (setSoft { s with pwr := { s.pwr with
    belowHard := 0, hardSag := (mGet? s.pwr.inject 2).isSome } } (maskOf ((bitList mask 16).filter (watched s))))) ∧
  (∀ s, s.pwr.stepAt = none → alertNow s = false → hardNow s = false → mGet? s.pwr.inject 1 = none →
    exec .holdExpiry s = .next (s.atRef (s.pwr.sagAt + s.fld Reg.hold) (fun u =>
      stepUp { u with pwr := { u.pwr with belowSoft := 0, belowFrom := [], softSag := false } }))) ∧
  (∀ s t, s.pwr.stepAt = some t → exec .stepUp s = .next (s.atRef t (fun u =>
    let code := min u.pwr.sag (floorCap u) - 1
    let sag := if code ≤ unbound u then 0 else code
    { u with pwr := { u.pwr with
      sag := sag, steppedAt := if u.pwr.sag = 0 then none else some u.time.refNow,
      stepAt := if sag = 0 then none else some (u.time.refNow + u.fld Reg.stepUp) } }))) ∧
  (∀ s s1, s.pwr.alert = false → s1 = { s with pwr := { s.pwr with alert := true } } →
    exec .brdAlert s = .next (if s.fld Reg.alertEn = 1 then alertBegin s1 false else s1)) ∧
  (∀ s, s.pwr.alert = true → exec .brdAlertDeassert s = .next { s with pwr := { s.pwr with
    alert := false, sagAt := s.time.refNow,
    sag := if alertNow s then max s.pwr.sag (min (alertCode s) (floorCap s)) else s.pwr.sag } }) ∧
  (∀ s t b, s.pwr.wait = some (t, b) →
    exec .hintLeadExpiry s = .next (s.atRef t (fun u => { u with pwr := { u.pwr with wait := none } }))) ∧
  (∀ demand s, exec (.governorTick demand) s =
    .next (s.atRef ((s.time.refNow / 8 + 1) * 8) (fun u => governor u demand))) ∧
  (∀ s, exec .refillTick s = .next (s.atRef ((s.time.refNow / 8 + 1) * 8) (fun u => u))) ∧
  (∀ d s s1 s2, watched s d = true →
    s1 = setSoft { s with pwr := { s.pwr with
      failed := setBits s.pwr.failed d d 1, belowHard := setBits s.pwr.belowHard d d 0 } } (setBits s.pwr.belowSoft d d 0) →
    s2 = State.post { s1 with pwr := { s1.pwr with hardSag := hardNow s1 && s1.pwr.hardSag } } 0x9005 [] →
    ((bitList s2.pwr.failed 16).length ≤ 8 → excludeDetector d s = s2) ∧
    (8 < (bitList s2.pwr.failed 16).length → s2.pwr.blind = false →
      excludeDetector d s = (
        let s3 : State := { s2.setFld Reg.clkFloor 0 with pwr := { s2.pwr with blind := true } }
        if s3.pwr.ceiling < 2 then setCeiling s3 2 else s3)) ∧
    ((s.cmd.fw == .boot) = true → exec (.detectorFail d) s = .next (excludeDetector d s)) ∧
    ((s.cmd.fw == .boot) = false → bit s.pwr.belowSoft d = true →
      8 ≤ ((List.range 16).filter (fun k => k != d && watched s k && !bit s.pwr.belowSoft k)).length →
      exec (.detectorFail d) s = .next (s.atRef (mGetD s.pwr.belowFrom d 0 + 10000000) (fun u =>
        if selfTestFails d u then excludeDetector d u else u)))) ∧
  (∀ s, s.pwr.belowHard ≠ 0 → s.pwr.lowTold = false →
    exec .supplyLow s = .next (s.atRef (s.pwr.hardFrom + 1000000) (fun u =>
      State.post { u with pwr := { u.pwr with lowTold := true } } 0x9007 []))) ∧
  (∀ s, s.boot.stopped = false → exec .supplyHigh s = .next (s.post 0x9006 [])) ∧
  (∀ src s t, mGet? s.pwr.inject src = some t →
    exec (.injectEnd src) s = .next (s.atRef t (fun u =>
      let s1 := { u with pwr := { u.pwr with
        inject := mDel u.pwr.inject src, sagAt := if src = 2 then u.pwr.sagAt else u.time.refNow,
        sag := if src = 3 then max u.pwr.sag (min (alertCode u) (floorCap u)) else u.pwr.sag } }
      if src = 2 then { s1 with pwr := { s1.pwr with hardSag := s1.pwr.belowHard != 0 } } else s1)))

/-- Temperature and lane power (R271, R618, R623, R624, R644): the warning and its end, the throttle and its steps, a sensor's
failure, and the lanes powered one after another. -/
def Obligations.TemperatureEventsComplete : Prop :=
  (∀ t s s1, s1 = setTemps s t → s1.pwr.warn = false → warnAt s1 ≤ warnTemp s1 →
    exec (.tempWarn t) s = .next ((((State.raise { s1 with pwr := { s1.pwr with warn := true } } Reg.thmStatus 0 5).inc
      Ctr.thmWarn).post 0x9010 []).fireDev 5)) ∧
  (∀ t s s1, s1 = setTemps s t → (s1.pwr.warn = true ∨ warnTemp s1 < warnAt s1) → exec (.tempWarn t) s = .next s1) ∧
  (∀ t s s1, s1 = setTemps s t → exec (.tempWarnEnd t) s = .next (
    if warnTemp s1 < warnAt s1 - 80 then { s1 with pwr := { s1.pwr with warn := false } } else s1)) ∧
  (∀ t s s1, s1 = setTemps s t → s1.pwr.throttled = false → throttleAt s1 ≤ throttleTemp s1 →
    exec (.throttle t) s = .next ((((setCeiling { s1 with pwr := { s1.pwr with
      throttled := true, thmAt := s1.time.refNow } } (max 1 s1.pwr.ceiling)).raise Reg.thmStatus 1 5).inc Ctr.thmThrottle).post
        0x9011 [])) ∧
  (∀ t s, s.pwr.throttled = false → exec (.thmStep t) s = .next (setTemps s t)) ∧
  (∀ t s, s.pwr.throttled = true →
    exec (.thmStep t) s = .next (s.atRef (s.pwr.thmAt + s.fld Reg.stepMs * 1000000) (fun u =>
      let s1 := setTemps u t
      let keep := { s1 with pwr := { s1.pwr with thmAt := s1.time.refNow } }
      let code := max (s1.pwr.ceiling - 1) (ceilingMin s1)
      let lower := setCeiling { s1 with pwr := { s1.pwr with throttled := code != ceilingMin s1 } } code
      if s1.pwr.region ≠ u.pwr.region then s1
      else if s1.pwr.region = 2 then (if s1.pwr.ceiling < 3 then setCeiling s1 (s1.pwr.ceiling + 1) else keep)
      else if s1.pwr.region = 0 then (if code = 0 then lower.post 0x9012 [] else lower)
      else keep))) ∧
  (∀ k t s, k < 12 → sensorBad s k = false → readsBad s t k = true →
    exec (.sensorFail k t) s = .next (((State.raise (setTemps { s with pwr := { s.pwr with
      badSensors := setBits s.pwr.badSensors k k 1 } } t) Reg.thmStatus 3 5).inc Ctr.thmSensorFail).post 0x9016 [])) ∧
  (∀ s t n on rest, (∀ f, s.atRef s.ln.powerAt f = f t) → t.ln.power = (n, on) :: rest →
    ((on = false ∧ sendsOn t n = false) ∨ (on = true ∧ t.pwr.wait = none ∧ bandOf t (targetMa t) ≤ t.pwr.pins) →
      exec .lanePowerStep s = .next (
        let s1 := powerLane t n on
        let s2 := { s1 with ln := { s1.ln with power := rest, powerAt := s1.time.refNow + 20000 } }
        if rest.isEmpty then { s2 with pwr := { s2.pwr with quenchAt := s2.time.refNow } } else s2)) ∧
    (on = true → t.pwr.wait = none → t.pwr.pins < bandOf t (targetMa t) →
      exec .lanePowerStep s = .next (announce t (targetMa t))))

/-- Lanes and ports (R255 to R257, R262 to R267, R270, R274, R279, R286, R287, R729, R730): training that completes or fails, losses and
failures of lanes and their return, pages and coefficient requests of the peer, the device's own restore and sweep. -/
def Obligations.LaneEventsComplete : Prop :=
  (∀ p c up r w fec speed rs x s, s.port p = x → x.cfg = some c → x.st = .training → s.time.refHold = false → speed ≠ 0 →
    s.time.refNow ≤ (if x.fromStore then x.exitAt + 5000000 else x.trainAt + 500000000) →
    (if x.fromStore then ∃ y, x.stored = some y ∧ y.speed = speed ∧ up = y.up ∧ r = y.rate ∧ w = y.width ∧ fec = y.fec
      else fec = fecOf c r w rs ∧
        (if x.reduced then speedOf x.rate x.width = speed ∧ up = false ∧ r = x.rate ∧ w = x.width
         else if c.an then bit c.adv speed = true ∧ up = true ∧ resolveRate speed c.rate c.width = some (r, w)
         else speedOf c.rate c.width = speed ∧ up = true ∧ r = c.rate ∧ w = c.width)) →
    (∀ n ∈ groupLanes x.base w, (s.lane n).failed = false ∧ (s.lane n).powered = true) →
    exec (.portUp p { speed := speed, rs := rs }) s = .next (
      let s1 := s.movePort p (fun y =>
        { y with st := if up then .up else .degraded, rate := r, width := w, speed := speed, fec := fec, exiting := false,
                 fromStore := false, stored := none })
      let s2 := (groupLanes x.base w).foldl (fun t n =>
        t.setLane n { t.lane n with sig := true, cdr := true, align := true, lossAt := none }) s1
      let s3 := trimLanes (rateLanes s2 (groupLanes x.base w) r) p x.base w
      let s4 := if up then s3.post 0x3001 []
        else (if x.fromStore then s3 else s3.inc (lnPortCtr p 0x18)).post 0x3003 []
      reviewHealth (if x.exiting then s4.post 0x3007 [] else s4) p)) ∧
  (∀ n reason s s1, n ≤ 15 → (s.lane n).powered = true → s1 = s.setLane n { s.lane n with
      sig := (s.lane n).sig && reason != 1, cdr := (s.lane n).cdr && reason == 3, align := false, backAt := none,
      lossAt := some ((s.lane n).lossAt.getD s.time.refNow) } →
    (portOfLane s n = none → exec (.laneSignalLoss n reason) s = .next s1) ∧
    (∀ p, portOfLane s n = some p → exec (.laneSignalLoss n reason) s = .next (
      if ((s.port p).st = .up ∨ (s.port p).st = .degraded) ∧ n ∈ groupLanes (s.port p).base (s.port p).width
      then portDown s1 p (some (s.port p).st) else s1))) ∧
  (∀ n s t s1, n ≤ 15 → (s.lane n).powered = true → s.time.refHold = false →
    t = (if lossDue s n then failLanes s [(n, (s.lane n).lossReason)] else s) →
    s1 = t.setLane n { t.lane n with
      sig := true, cdr := true, align := true, lossAt := none,
      backAt := if (t.lane n).failed then some ((t.lane n).backAt.getD t.time.refNow) else none } →
    (portOfLane t n = none → exec (.laneSignalReturn n) s = .next s1) ∧
    (∀ p, portOfLane t n = some p → (s1.port p).lossFrom = none → exec (.laneSignalReturn n) s = .next s1) ∧
    (∀ p st, portOfLane t n = some p → (s1.port p).lossFrom = some st →
      exec (.laneSignalReturn n) s = .next (
        if (groupLanes (s1.port p).base (s1.port p).width).all (fun k => (s1.lane k).align && !(s1.lane k).failed) then
          (s1.movePort p (fun z => { z with st := st, speed := speedOf z.rate z.width, fec := z.lossFec, lossFrom := none })).post
            (if st == .up then 0x3001 else 0x3003) []
        else s1))) ∧
  (∀ n p s, portOfLane s n = some p → (s.port p).st = .training →
    exec (.laneFailed [(n, 5)]) s = .next (failLanes s [(n, 5)])) ∧
  (∀ ns t s, ns ≠ [] → (∀ n ∈ ns, (s.lane n).failed = false ∧ (s.lane n).lossAt = some t) →
    exec (.laneFailed (ns.map (fun n => (n, 1)))) s = .next (s.atRef (t + 1000000) (fun u =>
      failLanes u ((ns.filter (lossDue u)).map (fun n => (n, (u.lane n).lossReason)))))) ∧
  (∀ n t s, n ≤ 15 → (s.lane n).failed = true → 1 ≤ (s.lane n).reason → (s.lane n).reason ≤ 3 → (s.lane n).backAt = some t →
    exec (.laneRecovered n) s = .next (s.atRef (t + 100000000) (fun u =>
      let s1 := u.setLane n { u.lane n with failed := false, reason := 0, backAt := none }
      match portOfLane s1 n with | some p => retryPort (reviewHealth s1 p) p | none => s1))) ∧
  (∀ p s, (s.port p).st = .training → (s.port p).fromStore = false →
    exec (.trainFail p) s = .next (s.atRef ((s.port p).trainAt + 500000000) (fun u =>
      ((u.setPort p { u.port p with trainAt := u.time.refNow }).inc (lnPortCtr p 0x28)).post 0x3009 []))) ∧
  (∀ n t s, (s.lane n).upAt = some t → s.time.refNow ≤ t + 500000 →
    exec (.pllLockFail n) s = .next (s.atRef (t + 500000) (fun u => if (u.lane n).powered then failLanes u [(n, 6)] else u))) ∧
  (∀ p c t s, (s.port p).cfg = some c → (s.port p).st = .degraded → c.autoRestore = true → s.onStrike = true →
    (s.port p).healthyFrom = some t → t + 1000000000 ≤ s.time.refNow →
    (∀ it ∈ s.staging.items, it.op = 0x0506 → pf it.params 0 0 ≠ p) →
    exec (.autoRestore p) s = .next (stageOwn s 0x0506 (BitVec.ofNat 320 p) (s.time.heat + 1))) ∧
  (∀ a errors d s, s.ln.diags.find? (fun d => d.anchor == a && d.mode == 4 && d.runs) = some d →
    exec (.sweepStep a errors) s = .next (s.atRef (d.since + 11000000) (fun u =>
      let d1 : Diag := if errors = 0 then
          (if d.rate = 5 then { d with best := 5, ended := true }
           else { d with best := d.rate, rate := d.rate + 1, pattern := sweepPattern (d.rate + 1), since := u.time.refNow,
                         ended := false })
        else { d with ended := true }
      let s1 := { u with ln := { u.ln with diags := u.ln.diags.map (fun x => if x == d then d1 else x) } }
      if d1.ended then askPower s1 (groupLanes d.anchor d.width) false
      else rateLanes s1 (groupLanes d.anchor d.width) d1.rate))) ∧
  (∀ p c (g : AnPage) s, (s.port p).cfg = some c → (s.port p).st = .training → (s.port p).fromStore = false → c.an = true →
    (g.selector = 1 → g.reservedBit = false → g.earlyAck = false → exec (.anPage p g) s = .next (s.emit (.anPage p
      (if (s.port p).reduced then 2 ^ speedOf (s.port p).rate (s.port p).width else c.adv)))) ∧
    ((g.selector ≠ 1 ∨ g.reservedBit = true ∨ g.earlyAck = true) →
      exec (.anPage p g) s = .next ((s.inc (lnPortCtr p 0x30)).postB 0xB033 2 p 0xFFFF
        (if g.selector ≠ 1 then 1 else if g.reservedBit then 2 else 3) true))) ∧
  (∀ n tap delta p x lo mn mx v s, n ≤ 15 → tap ≤ 3 → portOfLane s n = some p → s.lane n = x → x.fixed = false →
    (s.port p).st = .training → tapField tap = (lo, mn, mx) →
    v = (if tap = 2 then (bits x.eqTx (lo + 5) lo : Int) else toInt 6 (bits x.eqTx (lo + 5) lo)) →
    exec (.coeffRequest n tap delta) s = .next (
      let w := clampInt mn mx (v + delta)
      let s1 := s.setLane n { x with eqTx := setBits x.eqTx (lo + 5) lo (ofInt 6 w) }
      if w = v + delta then s1 else (s1.inc (lnPortCtr p 0x38)).postB 0xB034 2 p 0xFFFF (n + 256 * tap) true)) ∧
  (∀ p c s, (s.port p).cfg = some c → (s.port p).st = .training → (s.port p).fromStore = true →
    exec (.bankedExitTimeout p) s = .next (s.atRef ((s.port p).exitAt + 5000000) (fun u =>
      attempt (u.setPort p { u.port p with stored := none }) p c.rate c)))

/-- Family 0x0E, flash and firmware (R656 to R663, R684): a record or provisioning write, FW_BEGIN, FW_WRITE, FW_ACTIVATE and
FW_CONFIRM begin a flash operation and answer when it ends; NVM_INFO and NVM_CFG_READ answer at once; FW_END closes the session
with a VERIFIED image; FW_ABORT closes it; SVN_COMMIT raises the floor and records it. -/
def Obligations.FlashCommandsComplete : Prop :=
  Replies .nvmInfo Op.nvmInfo (fun _ _ => True) (fun _ s => s)
    (fun _ s => s.nvm.mib * 1048576 + s.nvm.govern.active * 2 ^ 32 + b2n s.nvm.govern.trial * 2 ^ 40 +
      s.nvm.govern.count * 2 ^ 48 + (s.nvm.img s.nvm.inactive).mark * 2 ^ 56 + s.nvm.floor * 2 ^ 64 +
      (match s.nvm.running with | some r => r.2.2.1 | none => 0) * 2 ^ 80) ∧
  Waits .nvmCfgWrite Op.nvmCfgWrite
    (fun c s => pf c.params 1 0 ≠ 0 ∧ (pf c.params 1 0 < 3 ∨ 0x8000 ≤ pf c.params 1 0) ∧ c.data.length ≤ 4096 ∧ s.nvm.mib ≠ 0)
    (fun c s => flashAsk (flashWait s c).1 (.record false (pf c.params 1 0) c.data false) (.command (flashWait s c).2)) ∧
  (∀ v, RepliesAt .nvmCfgRead Op.nvmCfgRead
    (fun c s => recValue s.nvm.cfg (pf c.params 1 0) = some v)
    (fun _ _ => v) (fun _ _ => v.length)) ∧
  Waits .nvmProvWrite Op.nvmProvWrite
    (fun c s => c.data.length = 16 ∧ provOk c.data = true ∧ s.nvm.mib ≠ 0 ∧
      s.nvm.provUsed + nvmLen 16 ≤ provSize)
    (fun c s => flashAsk (flashWait s c).1 (.record true 0x0100 c.data false) (.command (flashWait s c).2)) ∧
  Waits .fwBegin Op.fwBegin
    (fun c s => s.nvm.mib ≠ 0 ∧ lockedOut s c = false)
    (fun c s =>
      let x : Session := { owner := .command c.src, img := s.nvm.inactive, nextOff := 0, stepAt := s.time.refNow }
      let s0 := { s with nvm := { s.nvm.mark s.nvm.inactive 1 with session := some x } }
      flashAsk (flashWait s0 c).1 (.eraseImage s.nvm.inactive) (.command (flashWait s0 c).2)) ∧
  (∀ x, Waits .fwWrite Op.fwWrite
    (fun c s => s.nvm.mib ≠ 0 ∧ s.nvm.session = some x ∧ x.owner = .command c.src ∧ 256 ≤ c.data.length ∧
      c.data.length ≤ 4096 ∧ c.data.length % 256 = 0 ∧ pf c.params 3 0 % 256 = 0 ∧ x.nextOff ≤ pf c.params 3 0 ∧
      pf c.params 3 0 + c.data.length ≤ 16777216)
    (fun c s =>
      let s0 := sessionStep s x.nextOff
      flashAsk (flashWait s0 c).1 (.image x.img (pf c.params 3 0) c.data) (.command (flashWait s0 c).2))) ∧
  (∀ x, Replies .fwEnd Op.fwEnd
    (fun c s => s.nvm.mib ≠ 0 ∧ s.nvm.session = some x ∧ x.owner = .command c.src ∧
      (s.nvm.img x.img).check s.nvm.floor = none)
    (fun _ s => endSession { s with nvm := s.nvm.mark x.img 2 })
    (fun _ s => (s.nvm.img x.img).svn + (s.nvm.img x.img).version * 2 ^ 16)) ∧
  Waits .fwActivate Op.fwActivate
    (fun c s => s.nvm.mib ≠ 0 ∧ lockedOut s c = false ∧ (s.nvm.img s.nvm.inactive).mark = 2)
    (fun c s => flashAsk (flashWait s c).1 (.header ((flashWait s c).1.nvm.nextHdr s.nvm.inactive true 0) true)
      (.command (flashWait s c).2)) ∧
  Waits .fwConfirm Op.fwConfirm
    (fun _ s => s.nvm.mib ≠ 0 ∧ s.nvm.session = none ∧ s.nvm.govern.trial = true)
    (fun c s => flashAsk (flashWait s c).1
      (.header ((flashWait s c).1.nvm.nextHdr s.nvm.govern.active false s.nvm.govern.count) false) (.command (flashWait s c).2)) ∧
  (∀ x, Replies .fwAbort Op.fwAbort
    (fun c s => s.nvm.mib ≠ 0 ∧ s.nvm.session = some x ∧ x.owner = .command c.src)
    (fun _ s => endSession s) (fun _ _ => 0)) ∧
  (∀ r, Replies .svnCommit Op.svnCommit
    (fun c s => s.nvm.session = none ∧ s.nvm.running = some r ∧
      r.1 = s.nvm.govern.active ∧ s.nvm.govern.trial = false ∧
      (pf c.params 0 0 = 1 ∨ (s.nvm.img (1 - r.1)).check s.nvm.floor ≠ none ∨ r.2.2.1 ≤ (s.nvm.img (1 - r.1)).svn))
    (fun _ s => State.post { s with nvm := { s.nvm with floor := max s.nvm.floor (min 64 r.2.2.1) } } 0xA015 [])
    (fun _ s => max s.nvm.floor (min 64 r.2.2.1)))

/-- Family 0x0E, log and identity (R649, R650, R667, R672, R673, R783): LOG_READ copies entries from the ring in use, DEGRADED
while it is the fallback ring; LOG_FLUSH begins a flush; LOG_CLEAR_FAIL clears the failure with the main ring in use; LOG_MARK
posts an entry of its parameters; the certificate and the attestation record go to host memory. -/
def Obligations.LogAndIdentityCommandsComplete : Prop :=
  RepliesAt .logRead Op.logRead
    (fun c s => 1 ≤ pf c.params 5 4 ∧
      pf c.params 5 4 ≤ 4096 ∧ s.log.fallback = false)
    (fun c s => (logFrom s (BitVec.ofNat 32 (pf c.params 3 0)) (pf c.params 5 4)).flatMap LogEntry.bytes)
    (fun c s =>
      let l := logFrom s (BitVec.ofNat 32 (pf c.params 3 0)) (pf c.params 5 4)
      (match l with | e :: _ => e.seq.toNat | [] => pf c.params 3 0) + l.length * 2 ^ 32 + s.log.seqNext.toNat * 2 ^ 48) ∧
  (∀ c s target late, let t := takenFrom Op.logRead c s
    let l := logFrom t (BitVec.ofNat 32 (pf c.params 3 0)) (pf c.params 5 4)
    let w := hostWrite t (cmdFunc t c) none (pf c.params 15 8) (l.flatMap LogEntry.bytes)
    Admits Op.logRead c s → checkLate c t = .ok (target, late) → 1 ≤ pf c.params 5 4 → pf c.params 5 4 ≤ 4096 →
    t.log.fallback = true → w.2 = true →
    exec (.logRead c) s = .next (otherWith Op.logRead c t w.1
      { status := St.degraded, result :=
        (match l with | e :: _ => e.seq.toNat | [] => pf c.params 3 0) + l.length * 2 ^ 32 + t.log.seqNext.toNat * 2 ^ 48 })) ∧
  Waits .logFlush Op.logFlush (fun _ s => s.nvm.mib ≠ 0)
    (fun c s => (flushBegin (flashWait s c).1 (.command (flashWait s c).2)).1) ∧
  Replies .logClearFail Op.logClearFail (fun _ s => s.log.fallback = false)
    (fun _ s => { s with log := { s.log with memFail := false } }) (fun _ _ => 0) ∧
  Replies .logMark Op.logMark (fun _ _ => True)
    (fun c s => s.post 0xA0F0 (leBytes 12 (pf c.params 11 0))) (fun _ s => s.log.seqNext.toNat) ∧
  (∀ d, RepliesAt .idCertRead Op.idCertRead
    (fun _ s => s.nvm.cert = some d)
    (fun _ _ => d) (fun _ _ => d.length)) ∧
  RepliesAt .idAttest Op.idAttest
    (fun c _ => c.data.length = 32)
    (fun c s => attestBody s c.data ++ padTo 96 (Config.ecdsaSign (attestBody s c.data))) (fun _ _ => 0)

/-- MCTP control and PLDM types 0 and 2 (R666, R674, R675, R676, R687; Table 16.8): a whole message received on a port that serves is
counted, what waited before it is sent, and it is answered. Payloads that only the standards lay out are constants (log entries
47 and 48). -/
def Obligations.SidebandMessagesComplete : Prop :=
  ∀ p s t, p ≤ 1 → s.boot.standby = true → t = (sbDrain s p).inc (sbCtr p 0) →
  (∀ op eid, op ≤ 1 → 8 ≤ eid → eid ≤ 254 → exec (.setEndpointId p op eid) s =
    .next (sbAnswer (t.setSb p { t.sbPort p with eid := eid }) p 0 1 0 [0, BitVec.ofNat 8 eid, 0])) ∧
  (∀ op eid, (1 < op ∨ eid < 8 ∨ 254 < eid) → exec (.setEndpointId p op eid) s = .next (sbAnswer t p 0 1 2 [])) ∧
  exec (.getEndpointId p) s = .next (sbAnswer t p 0 2 0 [BitVec.ofNat 8 (t.sbPort p).eid, 0, 0]) ∧
  exec (.getEndpointUuid p) s = .next (sbAnswer t p 0 3 0 (padTo 16 (Config.sbData 3))) ∧
  (∀ mtype, exec (.getMctpVersionSupport p mtype) s = .next (
    if mtype = 0xFF ∨ mtype = 0 ∨ mtype = 1 then sbAnswer t p 0 4 0 (Config.sbData (0x400 + mtype)) else sbAnswer t p 0 4 0x80 [])) ∧
  exec (.getMessageTypeSupport p) s = .next (sbAnswer t p 0 5 0 [1, 1]) ∧
  (∀ tid, 1 ≤ tid → tid ≤ 254 →
    exec (.settid p tid) s = .next (sbAnswer (t.setSb p { t.sbPort p with tid := tid }) p 1 1 0 [])) ∧
  (∀ tid, (tid = 0 ∨ 254 < tid) → exec (.settid p tid) s = .next (sbAnswer t p 1 1 2 [])) ∧
  exec (.gettid p) s = .next (sbAnswer t p 1 2 0 [BitVec.ofNat 8 (t.sbPort p).tid]) ∧
  (∀ ptype, exec (.getpldmversion p ptype) s = .next (if ptype = 0 ∨ ptype = 2 ∨ ptype = 5 then
    sbAnswer t p 1 3 0 (Config.sbData (0x10300 + ptype)) else sbAnswer t p 1 3 0x83 [])) ∧
  exec (.getpldmtypes p) s = .next (sbAnswer t p 1 4 0 (leBytes 8 0x25)) ∧
  (∀ ptype, exec (.getpldmcommands p ptype) s = .next (if ptype = 0 ∨ ptype = 2 ∨ ptype = 5 then
    sbAnswer t p 1 5 0 (leBytes 32 (maskOf (pldmCommands ptype))) else sbAnswer t p 1 5 0x83 [])) ∧
  (∀ handle, exec (.getpdr p handle) s = .next (if handle ≤ 33 then sbAnswer t p 1 0x0251 0 (Config.pdr handle)
    else sbAnswer t p 1 0x0251 0x82 [])) ∧
  (∀ k, 1 ≤ k → k ≤ 16 →
    exec (.getsensorreading p k) s = .next (sbAnswer (sensorData t k).1 p 1 0x0211 0 (sensorData t k).2)) ∧
  (∀ k, 17 ≤ k → k ≤ 33 →
    exec (.getstatesensorreadings p k) s = .next (sbAnswer (sensorData t k).1 p 1 0x0221 0 (sensorData t k).2)) ∧
  (∀ enable eid, enable ≤ 3 → exec (.seteventreceiver p enable eid) s = .next (sbAnswer (t.setSb p { t.sbPort p with
    receiver := if enable = 0 then none else some eid }) p 1 0x0204 0 [])) ∧
  (∀ kind cmd, exec (.unsupportedMessage p kind cmd) s = .next (sbAnswer t p kind cmd
    (if kind = 1 ∧ cmd / 256 ≠ 0 ∧ cmd / 256 ≠ 2 ∧ cmd / 256 ≠ 5 then 0x20 else 5) []))

/-- PLDM type 5 (R656, R658, R659, R676; Table 16.8): the commands of a firmware update over a sideband port, each in the state that
admits it. -/
def Obligations.UpdateMessagesComplete : Prop :=
  ∀ p s t, p ≤ 1 → s.boot.standby = true → t = (sbDrain s p).inc (sbCtr p 0) → fdLive t = true →
  exec (.querydeviceidentifiers p) s = .next (sbAnswer t p 1 0x0501 0 (leBytes 16 Config.serial.toNat)) ∧
  exec (.getfirmwareparameters p) s = .next (sbAnswer t p 1 0x0502 0
    (leBytes 4 (match t.nvm.running with | some r => r.2.1 | none => 0) ++
     leBytes 4 (if (t.nvm.img t.nvm.inactive).mark = 2 then (t.nvm.img t.nvm.inactive).version else 0))) ∧
  exec (.getstatus p) s = .next (sbAnswer t p 1 0x051B 0 [BitVec.ofNat 8 (t.sbPort p).fd.code]) ∧
  ((t.sbPort p).fd = .idle → fdTaken t p = false →
    exec (.requestupdate p) s = .next (sbAnswer (setFd t p .learn) p 1 0x0510 0 [])) ∧
  (((t.sbPort p).fd ≠ .idle ∨ fdTaken t p = true) → exec (.requestupdate p) s = .next (sbAnswer t p 1 0x0510 0x81 [])) ∧
  (heldByOther t p = false → (t.sbPort p).fd = .learn →
    exec (.passcomponenttable p) s = .next (sbAnswer (setFd t p .ready) p 1 0x0513 0 [])) ∧
  (∀ size u, (t.sbPort p).fd = .ready → t.nvm.mib ≠ 0 → 1 ≤ size → size ≤ 16777216 → fdTaken t p = false →
    u = (sbAnswer t p 1 0x0514 0 []).setSb p
      { (sbAnswer t p 1 0x0514 0 []).sbPort p with fd := .download, size := size, got := 0 } →
    exec (.updatecomponent p size) s = .next (
      let x : Session := { owner := .port p, img := t.nvm.inactive, nextOff := 0, stepAt := t.time.refNow }
      flashAsk { u with nvm := { u.nvm.mark t.nvm.inactive 1 with session := some x } } (.eraseImage t.nvm.inactive) (.pldm p))) ∧
  (∀ (x : Session) data, t.nvm.session = some x → x.owner = .port p → (t.sbPort p).fd = .download → data.length = 2048 →
    t.nvm.cur = none → t.nvm.waiting = [] → x.nextOff + 2048 ≤ 16777216 →
    exec (.requestfirmwaredata p data) s = .next (flashAsk t (.image x.img x.nextOff data) (.pldm p))) ∧
  (heldByOther t p = false → (t.sbPort p).fd = .activate →
    exec (.activatefirmware p) s = .next (sbAnswer (setFd t p .idle) p 1 0x051A 0 [1])) ∧
  (heldByOther t p = false → ((t.sbPort p).fd = .download ∨ (t.sbPort p).fd = .verify) →
    exec (.cancelupdatecomponent p) s = .next (sbAnswer (setFd (endPort t p) p .ready) p 1 0x051C 0 [])) ∧
  (heldByOther t p = false → (t.sbPort p).fd ≠ .idle →
    exec (.cancelupdate p) s = .next (sbAnswer (setFd (endPort t p) p .idle) p 1 0x051D 0 [])) ∧
  (heldByOther t p = false → (t.sbPort p).fd = .idle →
    exec (.cancelupdate p) s = .next (sbAnswer t p 1 0x051D 0x80 [])) ∧
  (heldByOther t p = true →
    exec (.passcomponenttable p) s = .next (sbAnswer t p 1 0x0513 0x81 []) ∧
    (∀ size, exec (.updatecomponent p size) s = .next (sbAnswer t p 1 0x0514 0x81 [])) ∧
    exec (.activatefirmware p) s = .next (sbAnswer t p 1 0x051A 0x81 []) ∧
    exec (.cancelupdatecomponent p) s = .next (sbAnswer t p 1 0x051C 0x81 []) ∧
    exec (.cancelupdate p) s = .next (sbAnswer t p 1 0x051D 0x81 []))

/-- The SMBus ports (R677, R678, R687, R731, R732): packets discarded, arbitration lost and retried, and the two time-outs. -/
def Obligations.SmbusEventsComplete : Prop :=
  ∀ p s, p ≤ 1 → s.boot.standby = true →
  (∀ party mtype, exec (.smbusBadPec p party mtype) s = .next (sbPost (sbRaise (s.inc (sbCtr p 2)) p 0) (fun t =>
    t.postB 0xB080 6 p party (mtype % 256) true))) ∧
  (∀ party mtype, exec (.mctpBadPacket p party mtype) s = .next (sbPost (sbRaise (s.inc (sbCtr p 6)) p 3) (fun t =>
    t.postB 0xB081 6 p party (mtype % 256) true))) ∧
  ((s.sbPort p).eid ≠ 0 → exec (.mctpForeignEid p) s = .next (s.inc (sbCtr p 6))) ∧
  ((s.sbPort p).tx ≠ [] → (s.sbPort p).backoff = false → exec (.arbitrationLost p) s = .next ((s.setSb p
    { s.sbPort p with backoff := true, retries := 0 }).inc (sbCtr p 3))) ∧
  ((s.sbPort p).backoff = true →
    exec (.arbitrationRetry p false) s = .next (sbDrain (s.setSb p { s.sbPort p with backoff := false, retries := 0 }) p)) ∧
  ((s.sbPort p).backoff = true → (s.sbPort p).retries < 7 →
    exec (.arbitrationRetry p true) s = .next ((s.setSb p
      { s.sbPort p with retries := (s.sbPort p).retries + 1 }).inc (sbCtr p 3))) ∧
  ((s.sbPort p).backoff = true → 7 ≤ (s.sbPort p).retries →
    exec (.arbitrationRetry p true) s = .next (sbTxFail ((s.setSb p
      { s.sbPort p with retries := (s.sbPort p).retries + 1 }).inc (sbCtr p 3)) p)) ∧
  exec (.smbusSclTimeout p) s = .next (sbRaise ((s.setSb p { s.sbPort p with
    tx := (s.sbPort p).tx.tail, retries := 0, backoff := false }).inc (sbCtr p 5)) p 2) ∧
  (∀ ms, (s.sbPort p).tx ≠ [] → exec (.smbusSdaStuck p ms) s = .next (sbTxFail (sbPost (sbRaise (s.inc (sbCtr p 5)) p 2)
    (fun t => t.postB 0xB082 6 p 0xFFFF (ms % 65536) true)) p))

/-- R15: a counter at 2^64 − 1 that advances wraps to 0. An advance of any counter changes no other one. -/
def Obligations.CountersWrap : Prop :=
  ∀ (s : State) k, (s.inc k).ctr k = s.ctr k + 1 ∧ (s.ctr k = BitVec.ofNat 64 (2 ^ 64 - 1) → (s.inc k).ctr k = 0) ∧
    (∀ j n, j ≠ k → (s.add k n).ctr j = s.ctr j) ∧ { s.inc k with ctrs := s.ctrs } = s

/-- R79, R81 and R82: a command of any row, alone or the first of a chain, once it is taken and has passed the checks before them,
that is late, or with CLUSTER comes less than three heats ahead, is answered LATE with the present heat, is counted and changes
nothing; one more than 1,048,576 heats ahead is answered BAD_PARAM. What it leaves of its listed cost comes back (R170), and the rest
of the chain that it would have opened is taken as separate commands (R178). -/
def Obligations.LateCommandsChangeNothing : Prop :=
  ∀ (row : Cmd → Instr) op body, (∀ c s, exec (row c) s = runCmd op c body s) →
  ∀ c s s0 u, Takes op c s → s0 = takenFrom op c s → c.atStrike = true →
  u = (match c.src with
    | .queue f => if c.chain then s0.modQueue f (fun q => { q with loose := true }) else s0
    | .mbox => s0) →
  (((c.cluster = true ∧ c.target.toNat < s0.time.heat.toNat + 3) ∨
      (c.cluster = false ∧ c.ifLateRun = false ∧ c.target.toNat ≤ s0.time.heat.toNat)) →
    exec (row c) s = .next (refund (answer ((u.inc Ctr.late).raise Reg.stkStatus 3 1) c St.late 0 { status := St.late }
      s0.time.heat 0) c.src (spareOf op c))) ∧
  (s0.time.heat.toNat + 1048576 < c.target.toNat →
    exec (row c) s = .next (refund (answer u c St.badParam 0 { status := St.badParam, field := 12 } s0.time.heat 0)
      c.src (spareOf op c)))

/-- Which commands of a queue wait, and which fail whole (R155, R160, R164, R166, R167, R172, R178, R182): an unready queue keeps its
head; one without room for the reply does too, and is shown stalled once; so does one whose head is not the choice of R172, or costs
more than remains of the command share; a head that fails a check of its header is taken and answered, and does nothing else; where
a translation of its fetch faults, only that is seen. A member of a failed chain is a separate command. -/
def Obligations.QueuedCommandsWaitOrFailWhole : Prop :=
  ∀ (row : Cmd → Instr) op body, (∀ c s, exec (row c) s = runCmd op c body s) → ∀ c0 s0 f s q c h, c0.src = .queue f →
  s = finishJobs s0 → q = (s.func f).q → c = asTaken q c0 → h = headOf op c q s →
  (queueReady s f c.slots = false → exec (row c0) s0 = .next s) ∧
  (queueReady s f c.slots = true → q.chain = none → State.replyRoom q < (if c.cluster then 2 else 1) →
    exec (row c0) s0 = .next (if q.stalled then s
      else (s.modQueue f (fun q => { q with stalled := true })).raise Reg.cmdStatus 1 0)) ∧
  (∀ fl t, queueReady s f c.slots = true → q.chain = none → (if c.cluster then 2 else 1) ≤ State.replyRoom q →
    checkHeader op c s true 0 = some fl → fetchCmd s f c false = (t, true) →
    exec (row c0) s0 = .next (answer (if c0.chain then (takeHead t f c0).modQueue f (fun q => { q with loose := true })
      else takeHead t f c0) c0 fl.status 0 fl t.time.heat fl.result)) ∧
  (∀ fl t, queueReady s f c.slots = true → q.chain = none → (if c.cluster then 2 else 1) ≤ State.replyRoom q →
    checkHeader op c s true 0 = some fl → fetchCmd s f c false = (t, false) → exec (row c0) s0 = .next t) ∧
  (queueReady s f c.slots = true → q.chain = none → (if c.cluster then 2 else 1) ≤ State.replyRoom q →
    checkHeader op c s true 0 = none → (costFits s f (listedCost op c) = false ∨ chosen s f h = false) →
    exec (row c0) s0 = .next s) ∧
  (∀ t, queueReady s f c.slots = true → q.chain = none → (if c.cluster then 2 else 1) ≤ State.replyRoom q →
    checkHeader op c s true 0 = none → costFits s f (listedCost op c) = true → chosen s f h = true →
    fetchCmd s f c true = (t, false) → exec (row c0) s0 = .next t)

/-- R62: the landing heat that a seal fixes: the larger of the target and H + 1 before the seal point of heat H, of the target and
H + 2 at or after it; a command that ends seals by the moment of its end. And what a seal does: the unit's items, in their order and
with what they hold, are sealed with that landing heat, behind the other items, which are untouched; nothing else changes but the unit
of a COMMIT_OPEN. -/
def Obligations.SealingFixesTheLandingHeat : Prop :=
  (∀ st past unit target t land, sealUnit st past unit target = .ok (t, land) →
    (past = false → land.toNat = max target.toNat (st.time.heat + 1).toNat) ∧
    (past = true → land.toNat = max target.toNat (st.time.heat + 2).toNat) ∧
    (∃ new, t.staging.items = st.staging.items.filter (fun i => i.unit != unit) ++ new ∧
      new.map (fun i => { i with resv := [], isSealed := false, landing := 0, commit := none }) =
        (st.staging.items.filter (fun i => i.unit == unit)).map
          (fun i => { i with resv := [], isSealed := false, landing := 0, commit := none }) ∧
      ∀ i ∈ new, i.isSealed = true ∧ i.landing = land) ∧
    { t with staging := { st.staging with barriers := t.staging.barriers, items := t.staging.items }
             tim := { st.tim with units := t.tim.units } } = t ∧
    { t with staging := st.staging, tim := st.tim } = st) ∧
  (∀ st c own spare unit target late r,
    settle true st c own spare (.seal unit target late r) =
      refund (endCmd st c (st.time.sealDone || decide (st.sealNs ≤ st.time.ns)) (.seal unit target late r)) c.src spare) ∧
  (∀ st c past unit target late r t land, sealUnit st past unit target = .ok (t, land) →
    endCmd st c past (.seal unit target late r) =
      answer t c St.queued (b2n (decide (target.toNat < land.toNat)) + 2 * b2n late) { status := 0 } land r)

/-- The order of landing (R63, R276): each item that lands on a strike lands exactly once, and within a unit the removals of
ports come before the rest. -/
def Obligations.LandingOrderIsComplete : Prop :=
  ∀ l : List Item, (landingOrder l).Perm l ∧
    (landingOrder l).Pairwise (fun a b => a.unit = b.unit → removesPort b = true → removesPort a = true)

/-- R18, as far as a field is concerned, R10 and R20: a write within a field's range is stored and leaves every other bit and every
other register as they were; outside it the nearest limit is stored and REG_CLAMP recorded with the offset in its BAR and the value;
a W1C field loses exactly the bits written as 1 that no event has set in the same cycle. -/
def Obligations.RegisterFieldsTakeTheirRange : Prop :=
  ∀ s off bo x (f : Fld), f.lo ≤ f.hi →
  (f.w1c = false → f.mn ≤ bits x f.hi f.lo → bits x f.hi f.lo ≤ fldMax s f →
    bits ((fieldWrite s off bo x f).word off) f.hi f.lo = bits x f.hi f.lo ∧
    (∀ h l, l ≤ h → (h < f.lo ∨ f.hi < l) → bits ((fieldWrite s off bo x f).word off) h l = bits (s.word off) h l) ∧
    (∀ o, o ≠ off → (fieldWrite s off bo x f).word o = s.word o) ∧ { fieldWrite s off bo x f with regs := s.regs } = s) ∧
  (f.w1c = false → f.mn ≤ fldMax s f → (bits x f.hi f.lo < f.mn ∨ fldMax s f < bits x f.hi f.lo) →
    fieldWrite s off bo x f = (s.setWord off (setBits (s.word off) f.hi f.lo
      (if bits x f.hi f.lo < f.mn then f.mn else fldMax s f))).post 0x2050 (leBytes 4 bo ++ leBytes 4 x)) ∧
  (f.w1c = true → (∀ i, i ≤ f.hi - f.lo → bit (bits ((fieldWrite s off bo x f).word off) f.hi f.lo) i =
      (bit (bits (s.word off) f.hi f.lo) i &&
        !(bit (bits x f.hi f.lo) i && !bit (bits (s.justSet off) f.hi f.lo) i))) ∧
    (∀ o, o ≠ off → (fieldWrite s off bo x f).word o = s.word o) ∧ { fieldWrite s off bo x f with regs := s.regs } = s)

/-- The vote of a slot (R513, Table 12.6): a content is accepted exactly where more than half of the good copies carry it, and the
minority is the channel of the one copy of three that differs from it. -/
def Obligations.VoteAcceptsTheMajority : Prop :=
  ∀ l : List VCopy, 1 ≤ l.length → l.length ≤ 3 →
  (∀ ws, (voteOf l).1 = some ws ↔ l.length < 2 * (l.filter (fun k => k.words == ws)).length) ∧
  (∀ c, (voteOf l).2 = some c ↔
    ∃ ws k, (voteOf l).1 = some ws ∧ k ∈ l ∧ k.words ≠ ws ∧ k.chan = c)

/-- The event log (R664, R680, R725): a posted event becomes the newest entry of the main ring, with the next SEQ and the device time of
the posting; the other entries stay, but for the oldest of a full ring. Where the newest entry stands at the same edge and the order of
codes puts the posted one before it, the two change places, SEQ numbers staying where they are. -/
def Obligations.PostedEventIsTheNewestEntry : Prop :=
  (∀ (s : State) code data t kept, s.log.fallback = false → s.log.main.length ≤ 4096 → t = s.post code data →
    kept = (if s.log.main.length < 4096 then s.log.main else s.log.main.tail) →
    t.log.seqNext = s.log.seqNext + 1 ∧ t.log.main.length = kept.length + 1 ∧
    (∃ e : LogEntry, t.log.main = intoRing e kept ∧ e.seq = s.log.seqNext ∧ e.code = code ∧
      (s.time.edge = none → e.heat = s.time.heat ∧ e.ns = s.time.ns) ∧
      (∀ n, s.time.edge = some n → e.heat = n ∧ e.ns = 0) ∧
      e.cls = s.time.cls ∧ e.data = padTo 12 data ∧ bit e.flags 0 = severeCodes.contains code) ∧
    t.log.fb = s.log.fb ∧ t.log.pages = s.log.pages ∧ t.time = s.time ∧ t.staging = s.staging ∧ t.ins = s.ins ∧
    t.pending = s.pending) ∧
  (∀ (e : LogEntry) kept, (∀ p ∈ kept.getLast?, e.sameEdge p = false ∨ p.rank ≤ e.rank) → intoRing e kept = kept ++ [e]) ∧
  (∀ (e p : LogEntry) kept, e.sameEdge p = true → e.rank < p.rank → p.settled = false → e.settled = false →
    intoRing e (kept ++ [p]) = intoRing { e with seq := p.seq } kept ++ [{ p with seq := e.seq }])

/-- The frame of a command apart from its own effect. Taking it, once the commands in work that were finished have ended, changes only
the functions, the counters, the budget, the choice's pointers, the CU that instances have used, and what the translation of its fetch
keeps. Answering it changes only the functions, the counters, the registers, the mailbox, the budget's command share, what the
translation of the reply's address keeps, and what was sent. A command that is not finished at once waits among those in work, and
nothing else changes until its end. -/
def Obligations.TakingAndAnsweringFrame : Prop :=
  (∀ op c (s t u : State), t = takenFrom op c s → u = finishJobs s →
    (∀ f, c.src = .queue f → (fetchCmd u f c true).2 = true) →
    t = { u with
      funcs := t.funcs, ctrs := t.ctrs, budget := t.budget, links := t.links,
      cmd := { u.cmd with ptrs := t.cmd.ptrs, visits := t.cmd.visits },
      ins := { u.ins with ins := t.ins.ins, tlb := t.ins.tlb, tables := t.ins.tables } } ∧
    (∀ i, u.insOf i = { t.insOf i with heatCu := (u.insOf i).heatCu })) ∧
  (∀ op c (s0 st t : State) r, assured s0 = true → t = doneWith op c s0 st r →
    (∀ f, c.src = .queue f → (access st f none ((st.func f).q.replyBase +
      32 * ((st.func f).q.replyProd % 2 ^ (st.func f).q.logReplies)) true).2.isSome = true) →
    t = { st with
      funcs := t.funcs, ctrs := t.ctrs, regs := t.regs, links := t.links, out := t.out, setAt := t.setAt, setNow := t.setNow,
      budget := { st.budget with cmdLeft := t.budget.cmdLeft }, cmd := { st.cmd with mbox := t.cmd.mbox },
      ins := { st.ins with tlb := t.ins.tlb } }) ∧
  (∀ op c (s0 st : State) r, assured s0 = false → doneWith op c s0 st r = { st with cmd := { st.cmd with jobs := st.cmd.jobs ++
    [{ cmd := c, spare := spareOf op c, left := cmdWork st, own := ownWork op c, early := false,
       fin := .reply St.done 0 0 st.time.heat r }] } })

/-- Replies (R161, R162, R165, R181): a queue's answer is written to the slot that the ring's producer index names, with the phase of
the pass, which turns over with the ring's last slot; NO_REPLY keeps DONE and QUEUED back, and no other; the mailbox's answer stands in
its registers, with BUSY 0 and DONE 1. -/
def Obligations.RepliesReachTheirSender : Prop :=
  (∀ c (st s0 s1 : State) status low fl heat r f n x, c.src = .queue f → f < 4096 → (c.noReply = false ∨ 1 < status) →
    s0 = (if status ≤ 1 then st else st.inc Ctr.err) →
    st.canDma f = true → (st.func f).q.held = [] →
    n = 2 ^ (st.func f).q.logReplies → State.replyUsed (st.func f).q < n - 1 →
    access s0 f none ((st.func f).q.replyBase + 32 * ((st.func f).q.replyProd % n)) true = (s1, some x) →
    (answer st c status low fl heat r).out = .reply f ((st.func f).q.replyProd % n) x
      { tag := c.tag, status := status, detail := mkDetail low fl, heat := heat, phase := (st.func f).q.phase,
        result := BitVec.ofNat 128 r } :: st.out ∧
    ((answer st c status low fl heat r).func f).q.replyProd = ((st.func f).q.replyProd + 1) % 65536 ∧
    ((answer st c status low fl heat r).func f).q.phase =
      (if (st.func f).q.replyProd % n + 1 = n then !(st.func f).q.phase else (st.func f).q.phase)) ∧
  (∀ c (st : State) status low fl heat r f, c.src = .queue f → c.noReply = true → status ≤ 1 →
    answer st c status low fl heat r = st) ∧
  (∀ c (st : State) status low fl heat r, c.src = .mbox →
    (answer st c status low fl heat r).cmd.mbox.busy = false ∧ (answer st c status low fl heat r).cmd.mbox.done = true ∧
    ((c.noReply = false ∨ 1 < status) → (answer st c status low fl heat r).cmd.mbox.reply = some
      { tag := c.tag, status := status, detail := mkDetail low fl, heat := heat, phase := false,
        result := BitVec.ofNat 128 r }))

/-- A warm reset for a rail (R11, R12, R690, R698, R713; Table 17.4): registers, functions, instances, staged items and device time are
as after power-on; the STICKY counters, the flash records, the stored log pages and the rings that are still to be saved, and
the straps are kept. -/
def Obligations.WarmResetKeepsOnlySticky : Prop :=
  ∀ s t : State, s.boot.railHold = false → exec .railDrop s = .next t →
  t.regs = [] ∧ t.funcs = [] ∧ t.ins = State.reset.ins ∧ t.staging = State.reset.staging ∧ t.rul = RulUnit.reset ∧
  t.tm = TmUnit.reset ∧ t.cip = State.reset.cip ∧ t.sto = State.reset.sto ∧ t.ln = LnUnit.reset ∧ t.tim = TimUnit.reset ∧
  t.time.heat = 0 ∧ t.time.heatLen = 125000 ∧ t.time.cls = 3 ∧ t.boot.stopped = true ∧ t.boot.railHold = true ∧
  bit t.boot.cause 4 = true ∧
  (∀ k, k ≠ Ctr.linkDown 0 → k ≠ Ctr.linkDown 2 → t.ctr k = if stickyCtrs.contains k then s.ctr k else 0) ∧
  (∀ l, l ≤ 1 → t.ctr (Ctr.linkDown (2 * l)) = s.ctr (Ctr.linkDown (2 * l)) + (if (s.link l).trained then 1 else 0)) ∧
  t.nvm.cfg = s.nvm.cfg ∧ t.nvm.prov = s.nvm.prov ∧ t.nvm.journal = s.nvm.journal ∧ t.nvm.session = none ∧
  t.log.main = s.log.main ∧ t.log.fb = s.log.fb ∧ t.log.pages = s.log.pages ∧ t.boot.strapNode = s.boot.strapNode ∧
  t.pending = s.pending

/-- Chains (R64, R165, R175 to R178): the first member opens a chain and stages its items unsealed; each further member joins it; the
last one seals all of them as one unit, at its own end, and every member without NO_REPLY is answered QUEUED with the one landing heat
and its own result; a member that fails, or a seal that fails, takes the chain with it. -/
def Obligations.ChainMembersSealTogether : Prop :=
  ∀ (row : Cmd → Instr) op body, (∀ c s, exec (row c) s = runCmd op c body s) →
  ∀ c s f k, c.src = .queue f → k = takenFrom op c s →
  (∀ target late st entries flow r s1, Takes op c s → c.chain = true → checkLate c k = .ok (target, late) →
    reach op body c k = .stage st entries flow r →
    stageItems { st with staging := { st.staging with nextUnit := st.staging.nextUnit + 1 } } op c st.staging.nextUnit 0 target
      entries flow = some s1 →
    exec (row c) s = .next (refund (s1.modQueue f (fun q => { q with
      chain := some { members := [memberOf op c r], flags := c.flags, target := target, lateRun := late, unit := st.staging.nextUnit,
                      age := 0, cluster := c.cluster } })) c.src (spareOf op c))) ∧
  (∀ u ch, u = finishJobs s → (u.func f).q.chain = some ch → (u.func f).q.loose = false → queueReady u f c.slots = true →
    checkHeader op c u false ch.members.length = none → costFits u f (listedCost op c) = true →
    chosen u f (headOf op c (u.func f).q u) = true → (fetchCmd u f c true).2 = true →
    (∀ fl, reach op body c k = .fail fl →
      exec (row c) s = .next (refund (failChain k f ch (ch.members ++ [memberOf op c 0]) (ch.members.length, fl) c.chain) c.src
        (spareOf op c))) ∧
    (∀ st entries flow r s1 all ch2 s2, reach op body c k = .stage st entries flow r →
      stageItems st op c ch.unit ch.members.length ch.target entries flow = some s1 →
      all = ch.members ++ [memberOf op c r] → ch2 = { ch with members := all, age := 0 } →
      s2 = s1.modQueue f (fun q => { q with chain := some ch2 }) →
      (c.chain = true → exec (row c) s = .next (refund s2 c.src (spareOf op c))) ∧
      (c.chain = false → assured k = false → exec (row c) s = .next { s2 with cmd := { s2.cmd with jobs := s2.cmd.jobs ++
        [{ cmd := c, spare := spareOf op c, left := cmdWork s2, own := ownWork op c, early := false, fin := .chain }] } }) ∧
      (∀ s3 land, c.chain = false → assured k = true → sealUnit s2 s2.pastSeal ch.unit ch.target = .ok (s3, land) →
        exec (row c) s = .next (refund ((all.filter (fun x => !x.quiet)).foldl (fun t x => t.issueReply f
          { tag := x.tag, status := St.queued, detail := BitVec.ofNat 24 (lowBits land ch.target ch.lateRun),
            heat := land, phase := false, result := BitVec.ofNat 128 x.result } true)
          (s3.modQueue f (fun q => { q with chain := none }))) c.src (spareOf op c))) ∧
      (∀ t p, c.chain = false → assured k = true → sealUnit s2 s2.pastSeal ch.unit ch.target = .error (t, p) →
        exec (row c) s = .next (refund (failChain s2 f ch2 all (t.getD ch.members.length, p) false) c.src (spareOf op c)))))
end

