-- ==== Sys2Proof/Laws/Commands.lean ====
section
/-!
SUPPORT. What a taken command comes to, once for all rows: an admitted command runs alone in the state right after its take,
and its own part decides which of the three answers follows.
-/

namespace Sys2Proof.Machine

variable {op : Op} {c : Cmd} {s : State} {body : Cmd → State → Body} {row : Cmd → Instr} {ok : Cmd → State → Prop}
  {effect : Cmd → State → State} {result : Cmd → State → Nat}

/-- A command that is taken next runs in the state right after its take: alone, or as the first member of a chain. -/
theorem runCmd_taken (h : Takes op c s) :
    runCmd op c body s = .next (match c.src with
      | .queue f =>
        if c.chain then refund (openChain op c f (reach op body) (takenFrom op c s)) c.src (spareOf op c)
        else runAlone op c (reach op body) (takenFrom op c s)
      | .mbox => runAlone op c (reach op body) (takenFrom op c s)) := by
  obtain ⟨hh, h⟩ := h
  unfold runCmd takenFrom fetched
  cases hs : c.src with
  | queue f =>
    rw [hs] at h
    obtain ⟨hq, hc, hl, hr, hf, hw, ht⟩ := h
    have hroom : roomFor ((finishJobs s).func f).q c.cluster = true := by
      unfold roomFor
      rw [hc]
      simpa using hr
    rcases hx : fetchCmd (finishJobs s) f c true with ⟨s1, b⟩
    rw [hx] at ht
    cases (show b = true from ht)
    simp only [headOf, hc, openCount, Option.isNone, hh, Option.isSome, Bool.false_eq_true, if_false] at hw
    cases c
    cases hs
    simp [runQueue, asTaken, headOf, openCount, hq, hc, hl, hroom, hh, hf, hx, hw]
  | mbox =>
    rw [hs] at h
    obtain ⟨hm, hb, hv, ho, hl, hd⟩ := h
    have h2 : ((finishJobs s).cmd.fw == .run && decide (shareLeft (finishJobs s) < listedCost op c) ||
        op.dma && !(finishJobs s).canDma (cmdFunc (finishJobs s) c)) = false := by
      have h3 : ((finishJobs s).cmd.fw == .run && decide (shareLeft (finishJobs s) < listedCost op c)) = false := by
        by_cases hx : (finishJobs s).cmd.fw = .run
        · have := hl hx
          simp [hx]; omega
        · simp [hx]
      cases hop : op.dma
      · simp [h3]
      · simp [h3, hd hop]
    simp only [runMbox]
    rcases hx : mboxCmd (finishJobs s) with ⟨k, d⟩
    rw [hx] at hm hb
    dsimp only at hm hb ⊢
    rw [hb]
    simp [hm, hv, ho, hh, h2]

/-- An admitted command runs alone in the state right after its take. -/
theorem runCmd_admitted (h : Admits op c s) :
    runCmd op c body s = .next (runAlone op c (reach op body) (takenFrom op c s)) := by
  rw [runCmd_taken h.2.1]
  cases hs : c.src <;> simp [h.1]

/-- The objects of an admitted command can be reached: its own part runs. -/
theorem reach_admitted (h : Admits op c s) : reach op body c (takenFrom op c s) = body c (takenFrom op c s) := by
  simp [reach, h.2.2]

/-- A row whose own part answers DONE. -/
theorem replies_of (hx : ∀ c s s', ok c s' → exec (row c) s = runCmd op c body s)
    (hb : ∀ c s, ok c s → body c s = .done (effect c s) (result c s)) : Replies row op ok effect result := by
  intro c s target late ha hl hk
  rw [hx _ _ _ hk, runCmd_admitted ha]
  simp [runAlone, hl, reach_admitted ha, hb _ _ hk, doneWith, ends]

/-- A row whose own part stages items. -/
theorem stages_of {entries : Cmd → State → List (List Byte)} {flow : Bool}
    (hx : ∀ c s s', ok c s' → exec (row c) s = runCmd op c body s)
    (hb : ∀ c s, ok c s → body c s = .stage (effect c s) (entries c s) flow (result c s)) :
    Stages row op ok entries flow result effect := by
  intro c s target late st ha hl hk hs
  rw [hx _ _ _ hk, runCmd_admitted ha]
  simp only [runAlone, hl, reach_admitted ha, hb _ _ hk]
  simp only [stagedAs] at hs
  rw [hs]
  rfl

/-- A row whose own part begins a long operation. -/
theorem waits_of (hx : ∀ c s s', ok c s' → exec (row c) s = runCmd op c body s)
    (hb : ∀ c s, ok c s → body c s = .wait (effect c s)) : Waits row op ok effect := by
  intro c s target late ha hl hk
  rw [hx _ _ _ hk, runCmd_admitted ha]
  simp [runAlone, hl, reach_admitted ha, hb _ _ hk]

end Sys2Proof.Machine
end

