-- ==== Sys2Proof/Laws/Keep.lean ====
section
/-!
SUPPORT. What every operation over the state keeps: the queue of waiting commands, and the canonical form of the stores.
The lemmas about single operations stand in the files Keep<Module>.lean, one for each module of the machine.
-/

namespace Sys2Proof.Machine

/-- The commands that wait are `p`; and, where `b` holds, the stores are in canonical form. -/
def Keep (p : List Instr) (b : Prop) (s : State) : Prop := s.pending = p ∧ (b → Canon s)

/-- Keep of the state that a body answers with. -/
def KeepB (p : List Instr) (b : Prop) : Body → Prop
  | .done st _ => Keep p b st
  | .other st _ => Keep p b st
  | .stage st _ _ _ => Keep p b st
  | .wait st => Keep p b st
  | .fail _ => True

/-- Keep of the next state of an outcome. -/
def KeepO (p : List Instr) (b : Prop) : Host.Outcome State Fault Refusal → Prop
  | .next t => Keep p b t
  | _ => True

theorem mWf_pairwise {α : Type} (m : SMap α) : mWf m = true ↔ (m.map Prod.fst).Pairwise (· < ·) := by
  induction m with
  | nil => simp [mWf]
  | cons a t ih =>
    cases t with
    | nil => simp [mWf]
    | cons c u =>
      rw [mWf, Bool.and_eq_true, decide_eq_true_eq, ih]
      simp only [List.map_cons, List.pairwise_cons]
      constructor
      · rintro ⟨h, h1, h2⟩
        refine ⟨?_, h1, h2⟩
        intro x hx
        rcases List.mem_cons.mp hx with rfl | hx
        · exact h
        · exact Nat.lt_trans h (h1 x hx)
      · rintro ⟨h0, h1, h2⟩
        exact ⟨h0 _ (by simp), h1, h2⟩

theorem mWf_filter {α : Type} (m : SMap α) (f : Nat × α → Bool) (h : mWf m = true) : mWf (m.filter f) = true := by
  rw [mWf_pairwise] at *
  exact h.sublist (List.Sublist.map _ List.filter_sublist)

theorem mem_mPut {α : Type} {m : SMap α} {q : Nat} {x : α} {e : Nat × α} (h : e ∈ mPut m q x) : e = (q, x) ∨ e ∈ m := by
  induction m with
  | nil => simpa [mPut] using h
  | cons a t ih =>
    obtain ⟨k, v⟩ := a
    simp only [mPut] at h
    split at h
    · simpa using h
    · split at h
      · rcases List.mem_cons.mp h with h | h
        · exact .inl h
        · exact .inr (List.mem_cons_of_mem _ h)
      · rcases List.mem_cons.mp h with h | h
        · exact .inr (by simp [h])
        · rcases ih h with h | h
          · exact .inl h
          · exact .inr (List.mem_cons_of_mem _ h)

theorem mWf_mPut {α : Type} (m : SMap α) (q : Nat) (x : α) (h : mWf m = true) : mWf (mPut m q x) = true := by
  rw [mWf_pairwise] at *
  induction m with
  | nil => simp [mPut]
  | cons a t ih =>
    obtain ⟨k, v⟩ := a
    simp only [List.map_cons, List.pairwise_cons] at h
    simp only [mPut]
    split
    · rename_i hq
      simp only [List.map_cons, List.pairwise_cons]
      refine ⟨?_, h.1, h.2⟩
      intro y hy
      rcases List.mem_cons.mp hy with rfl | hy
      · exact hq
      · exact Nat.lt_trans hq (h.1 y hy)
    · split
      · rename_i h1 h2
        subst h2
        exact List.pairwise_cons.mpr ⟨h.1, h.2⟩
      · rename_i h1 h2
        simp only [List.map_cons, List.pairwise_cons]
        refine ⟨?_, ih h.2⟩
        intro y hy
        obtain ⟨e, he, rfl⟩ := List.mem_map.mp hy
        rcases mem_mPut he with rfl | he
        · simp only; omega
        · exact h.1 _ (List.mem_map_of_mem he)

theorem regsOk_filter (m : SMap Nat) (f : Nat × Nat → Bool) (h : RegsOk m) : RegsOk (m.filter f) :=
  ⟨mWf_filter m f h.1, fun x hx => h.2 x (List.mem_filter.mp hx).1⟩

theorem regsOk_setWord (m : SMap Nat) (a v : Nat) (h : RegsOk m) :
    RegsOk (if v = resetWord a then mDel m a else mPut m a v) := by
  split
  · exact regsOk_filter m _ h
  · rename_i hv
    refine ⟨mWf_mPut m a v h.1, ?_⟩
    intro x hx
    rcases mem_mPut hx with rfl | hx
    · exact hv
    · exact h.2 x hx

namespace Keep

variable {p : List Instr} {b : Prop}

/-- A state with the same queue, registers, counters and rings. -/
theorem of {s t : State} (h0 : t.pending = s.pending) (h1 : t.regs = s.regs) (h2 : t.ctrs = s.ctrs)
    (h3 : t.snap = s.snap) (h4 : t.log.main = s.log.main) (h5 : t.log.fb = s.log.fb) (h : Keep p b s) : Keep p b t := by
  refine ⟨h0.trans h.1, fun hb => ?_⟩
  have := h.2 hb
  simp only [Canon] at *
  rw [h1, h2, h3, h4, h5]
  exact this

/-- A mark on a state that is written out field by field. -/
def written (_ : State) : Prop := True

theorem mkF {time io budget staging regs ctrs snap setAt setNow shadows links funcs cmd ins log viol ln macs rul tm cip sto pwr tri vrs tim nvm sb sbSeen boot env out free pending} :
    Keep p b (State.mk time io budget staging regs ctrs snap setAt setNow shadows links funcs cmd ins log viol ln macs rul tm cip sto pwr tri vrs tim nvm sb sbSeen boot env out free pending) ↔
      written (State.mk time io budget staging regs ctrs snap setAt setNow shadows links funcs cmd ins log viol ln macs rul tm cip sto pwr tri vrs tim nvm sb sbSeen boot env out free pending) ∧
      (State.mk time io budget staging regs ctrs snap setAt setNow shadows links funcs cmd ins log viol ln macs rul tm cip sto pwr tri vrs tim nvm sb sbSeen boot env out free pending).pending = p ∧
      (b → Canon (State.mk time io budget staging regs ctrs snap setAt setNow shadows links funcs cmd ins log viol ln macs rul tm cip sto pwr tri vrs tim nvm sb sbSeen boot env out free pending)) :=
  ⟨fun h => ⟨True.intro, h.1, h.2⟩, fun h => ⟨h.2.1, h.2.2⟩⟩

/-- A state written out field by field over one with the same queue, registers, counters and rings. -/
theorem mk {time io budget staging regs ctrs snap setAt setNow shadows links funcs cmd ins log viol ln macs rul tm cip sto pwr tri vrs tim nvm sb sbSeen boot env out free pending}
    {s : State} (h0 : pending = s.pending) (h1 : regs = s.regs) (h2 : ctrs = s.ctrs) (h3 : snap = s.snap)
    (h4 : log.main = s.log.main) (h5 : log.fb = s.log.fb) (h : Keep p b s) :
    Keep p b (State.mk time io budget staging regs ctrs snap setAt setNow shadows links funcs cmd ins log viol ln macs rul tm cip sto pwr tri vrs tim nvm sb sbSeen boot env out free pending) :=
  of h0 h1 h2 h3 h4 h5 h

theorem foldl {α : Type} {f : State → α → State} {s : State} (l : List α) (h : Keep p b s)
    (hf : ∀ s x, Keep p b s → Keep p b (f s x)) : Keep p b (l.foldl f s) := by
  induction l generalizing s with
  | nil => exact h
  | cons a t ih => exact ih (hf s a h)

/-- The first part of what a fold over pairs leaves. -/
theorem foldl_fst {α β : Type} {f : State × β → α → State × β} {z : State × β} (l : List α) (h : Keep p b z.1)
    (hf : ∀ s x, Keep p b s.1 → Keep p b (f s x).1) : Keep p b (l.foldl f z).1 := by
  induction l generalizing z with
  | nil => exact h
  | cons a t ih => exact ih (hf z a h)

theorem ite {c : Prop} [Decidable c] {s t : State} (h1 : Keep p b s) (h2 : Keep p b t) : Keep p b (if c then s else t) := by
  split <;> assumption

theorem pair {α : Type} {s : State} {y : α} (h : Keep p b s) : Keep p b (s, y).1 := h

theorem ite_fst {α : Type} {c : Prop} [Decidable c] {s t : State × α} (h1 : Keep p b s.1) (h2 : Keep p b t.1) :
    Keep p b (if c then s else t).1 := by
  split <;> assumption

end Keep

variable {p : List Instr} {b : Prop}

theorem KeepO.next {s : State} (h : Keep p b s) : KeepO p b (.next s) := h
theorem KeepB.done {s : State} {r : Nat} (h : Keep p b s) : KeepB p b (.done s r) := h
theorem KeepB.other {s : State} {f : Fail} (h : Keep p b s) : KeepB p b (.other s f) := h
theorem KeepB.stage {s : State} {e : List (List Byte)} {w : Bool} {r : Nat} (h : Keep p b s) : KeepB p b (.stage s e w r) := h
theorem KeepB.wait {s : State} (h : Keep p b s) : KeepB p b (.wait s) := h
theorem KeepB.fail {f : Fail} : KeepB p b (.fail f) := True.intro
theorem KeepB.bad {c f : Nat} : KeepB p b (.bad c f) := True.intro
theorem KeepB.deny {c : Nat} : KeepB p b (.deny c) := True.intro
theorem KeepB.lock {c : Nat} : KeepB p b (.lock c) := True.intro
theorem KeepB.missing {c : Nat} : KeepB p b (.missing c) := True.intro
theorem KeepB.full {c : Nat} : KeepB p b (.full c) := True.intro

theorem KeepB.ite {c : Prop} [Decidable c] {x y : Body} (h1 : KeepB p b x) (h2 : KeepB p b y) :
    KeepB p b (if c then x else y) := by
  split <;> assumption

end Sys2Proof.Machine
end

