-- ==== Sys2Proof/Laws/KeepRegs.lean ====
section
/-!
SUPPORT. What the operations of Machine/Regs.lean keep of the queue and the stores.
-/

set_option linter.all false

namespace Sys2Proof.Machine

variable {p : List Instr} {b : Prop}

theorem State.setWord_keep {s x2 x3} (h : Keep p b s) : Keep p b (State.setWord s x2 x3) := by
  refine ⟨h.1, fun hb => ?_⟩
  obtain ⟨h1, h2⟩ := h.2 hb
  exact ⟨regsOk_setWord _ _ _ h1, h2⟩

theorem State.setFld_keep {s x2 x3 x4} (h : Keep p b s) :
    Keep p b (State.setFld s x2 x3 x4) := by
  unfold State.setFld
  try extract_lets
  repeat' (first | with_reducible assumption | intro _ | with_reducible apply State.setWord_keep | with_reducible apply Keep.ite | with_reducible apply Keep.foldl | with_reducible apply Keep.foldl_fst | with_reducible apply Keep.ite_fst | ((fail_if_success (simp only [Keep.mkF]; with_reducible apply And.intro)); split) | dsimp only | (with_reducible apply Keep.mk; iterate 6 exact rfl))

theorem State.add_keep {s x2 x3} (h : Keep p b s) : Keep p b (State.add s x2 x3) := by
  refine ⟨h.1, fun hb => ?_⟩
  obtain ⟨h1, h2, h3⟩ := h.2 hb
  exact ⟨h1, mWf_mPut _ _ _ h2, h3⟩

theorem State.inc_keep {s x2} (h : Keep p b s) :
    Keep p b (State.inc s x2) := by
  unfold State.inc
  try extract_lets
  repeat' (first | with_reducible assumption | intro _ | with_reducible apply State.add_keep | with_reducible apply Keep.ite | with_reducible apply Keep.foldl | with_reducible apply Keep.foldl_fst | with_reducible apply Keep.ite_fst | ((fail_if_success (simp only [Keep.mkF]; with_reducible apply And.intro)); split) | dsimp only | (with_reducible apply Keep.mk; iterate 6 exact rfl))

end Sys2Proof.Machine
end

