-- ==== Sys2Proof/Laws/KeepOps.lean ====
section
/-!
SUPPORT. What the operations of Machine/Ops.lean keep of the queue and the stores.
-/

set_option linter.all false

namespace Sys2Proof.Machine

variable {p : List Instr} {b : Prop}

theorem State.setLink_keep {s x2 x3} (h : Keep p b s) :
    Keep p b (State.setLink s x2 x3) := by
  unfold State.setLink
  try extract_lets
  repeat' (first | with_reducible assumption | intro _ | with_reducible apply Keep.ite | with_reducible apply Keep.foldl | with_reducible apply Keep.foldl_fst | with_reducible apply Keep.ite_fst | ((fail_if_success (simp only [Keep.mkF]; with_reducible apply And.intro)); split) | dsimp only | (with_reducible apply Keep.mk; iterate 6 exact rfl))

theorem State.setFunc_keep {s x2 x3} (h : Keep p b s) :
    Keep p b (State.setFunc s x2 x3) := by
  unfold State.setFunc
  try extract_lets
  repeat' (first | with_reducible assumption | intro _ | with_reducible apply Keep.ite | with_reducible apply Keep.foldl | with_reducible apply Keep.foldl_fst | with_reducible apply Keep.ite_fst | ((fail_if_success (simp only [Keep.mkF]; with_reducible apply And.intro)); split) | dsimp only | (with_reducible apply Keep.mk; iterate 6 exact rfl))

theorem State.modFunc_keep {s x2 x3} (h : Keep p b s) :
    Keep p b (State.modFunc s x2 x3) := by
  unfold State.modFunc
  try extract_lets
  repeat' (first | with_reducible assumption | intro _ | with_reducible apply State.setFunc_keep | with_reducible apply Keep.ite | with_reducible apply Keep.foldl | with_reducible apply Keep.foldl_fst | with_reducible apply Keep.ite_fst | ((fail_if_success (simp only [Keep.mkF]; with_reducible apply And.intro)); split) | dsimp only | (with_reducible apply Keep.mk; iterate 6 exact rfl))

theorem State.modQueue_keep {s x2 x3} (h : Keep p b s) :
    Keep p b (State.modQueue s x2 x3) := by
  unfold State.modQueue
  try extract_lets
  repeat' (first | with_reducible assumption | intro _ | with_reducible apply State.modFunc_keep | with_reducible apply Keep.ite | with_reducible apply Keep.foldl | with_reducible apply Keep.foldl_fst | with_reducible apply Keep.ite_fst | ((fail_if_success (simp only [Keep.mkF]; with_reducible apply And.intro)); split) | dsimp only | (with_reducible apply Keep.mk; iterate 6 exact rfl))

theorem State.setIns_keep {s x2 x3} (h : Keep p b s) :
    Keep p b (State.setIns s x2 x3) := by
  unfold State.setIns
  try extract_lets
  repeat' (first | with_reducible assumption | intro _ | with_reducible apply Keep.ite | with_reducible apply Keep.foldl | with_reducible apply Keep.foldl_fst | with_reducible apply Keep.ite_fst | ((fail_if_success (simp only [Keep.mkF]; with_reducible apply And.intro)); split) | dsimp only | (with_reducible apply Keep.mk; iterate 6 exact rfl))

theorem State.modIns_keep {s x2 x3} (h : Keep p b s) :
    Keep p b (State.modIns s x2 x3) := by
  unfold State.modIns
  try extract_lets
  repeat' (first | with_reducible assumption | intro _ | with_reducible apply State.setIns_keep | with_reducible apply Keep.ite | with_reducible apply Keep.foldl | with_reducible apply Keep.foldl_fst | with_reducible apply Keep.ite_fst | ((fail_if_success (simp only [Keep.mkF]; with_reducible apply And.intro)); split) | dsimp only | (with_reducible apply Keep.mk; iterate 6 exact rfl))

theorem State.setQp_keep {s x2 x3 x4} (h : Keep p b s) :
    Keep p b (State.setQp s x2 x3 x4) := by
  unfold State.setQp
  try extract_lets
  repeat' (first | with_reducible assumption | intro _ | with_reducible apply Keep.ite | with_reducible apply Keep.foldl | with_reducible apply Keep.foldl_fst | with_reducible apply Keep.ite_fst | ((fail_if_success (simp only [Keep.mkF]; with_reducible apply And.intro)); split) | dsimp only | (with_reducible apply Keep.mk; iterate 6 exact rfl))

theorem State.setConn_keep {s x2 x3} (h : Keep p b s) :
    Keep p b (State.setConn s x2 x3) := by
  unfold State.setConn
  try extract_lets
  repeat' (first | with_reducible assumption | intro _ | with_reducible apply Keep.ite | with_reducible apply Keep.foldl | with_reducible apply Keep.foldl_fst | with_reducible apply Keep.ite_fst | ((fail_if_success (simp only [Keep.mkF]; with_reducible apply And.intro)); split) | dsimp only | (with_reducible apply Keep.mk; iterate 6 exact rfl))

theorem State.freeSlots_keep {s x2 x3} (h : Keep p b s) :
    Keep p b (State.freeSlots s x2 x3) := by
  unfold State.freeSlots
  try extract_lets
  repeat' (first | with_reducible assumption | intro _ | with_reducible apply State.setConn_keep | with_reducible apply Keep.ite | with_reducible apply Keep.foldl | with_reducible apply Keep.foldl_fst | with_reducible apply Keep.ite_fst | ((fail_if_success (simp only [Keep.mkF]; with_reducible apply And.intro)); split) | dsimp only | (with_reducible apply Keep.mk; iterate 6 exact rfl))

theorem State.emit_keep {s x2} (h : Keep p b s) :
    Keep p b (State.emit s x2) := by
  unfold State.emit
  try extract_lets
  repeat' (first | with_reducible assumption | intro _ | with_reducible apply Keep.ite | with_reducible apply Keep.foldl | with_reducible apply Keep.foldl_fst | with_reducible apply Keep.ite_fst | ((fail_if_success (simp only [Keep.mkF]; with_reducible apply And.intro)); split) | dsimp only | (with_reducible apply Keep.mk; iterate 6 exact rfl))

theorem State.emitLink_keep {s x2 x3} (h : Keep p b s) :
    Keep p b (State.emitLink s x2 x3) := by
  unfold State.emitLink
  try extract_lets
  repeat' (first | with_reducible assumption | intro _ | with_reducible apply State.setLink_keep | with_reducible apply State.emit_keep | with_reducible apply Keep.ite | with_reducible apply Keep.foldl | with_reducible apply Keep.foldl_fst | with_reducible apply Keep.ite_fst | ((fail_if_success (simp only [Keep.mkF]; with_reducible apply And.intro)); split) | dsimp only | (with_reducible apply Keep.mk; iterate 6 exact rfl))

theorem State.draw_keep {s} (h : Keep p b s) :
    Keep p b (State.draw s).2 := by
  unfold State.draw
  try extract_lets
  repeat' (first | with_reducible assumption | intro _ | with_reducible apply Keep.ite | with_reducible apply Keep.foldl | with_reducible apply Keep.foldl_fst | with_reducible apply Keep.ite_fst | ((fail_if_success (simp only [Keep.mkF]; with_reducible apply And.intro)); split) | dsimp only | (with_reducible apply Keep.mk; iterate 6 exact rfl))

theorem State.draw_keep' {s t y} (h : Keep p b s) (e : State.draw s = (y, t)) : Keep p b t := by
  have := @State.draw_keep p b s h
  rw [e] at this
  exact this

theorem State.fire_keep {s x2 x3} (h : Keep p b s) :
    Keep p b (State.fire s x2 x3) := by
  unfold State.fire
  try extract_lets
  repeat' (first | with_reducible assumption | intro _ | with_reducible apply State.modFunc_keep | with_reducible apply Keep.ite | with_reducible apply Keep.foldl | with_reducible apply Keep.foldl_fst | with_reducible apply Keep.ite_fst | ((fail_if_success (simp only [Keep.mkF]; with_reducible apply And.intro)); split) | dsimp only | (with_reducible apply Keep.mk; iterate 6 exact rfl))

theorem State.fireDev_keep {s x2} (h : Keep p b s) :
    Keep p b (State.fireDev s x2) := by
  unfold State.fireDev
  try extract_lets
  repeat' (first | with_reducible assumption | intro _ | with_reducible apply State.fire_keep | with_reducible apply Keep.ite | with_reducible apply Keep.foldl | with_reducible apply Keep.foldl_fst | with_reducible apply Keep.ite_fst | ((fail_if_success (simp only [Keep.mkF]; with_reducible apply And.intro)); split) | dsimp only | (with_reducible apply Keep.mk; iterate 6 exact rfl))

theorem State.mark_keep {s x2 x3} (h : Keep p b s) :
    Keep p b (State.mark s x2 x3) := by
  unfold State.mark
  try extract_lets
  repeat' (first | with_reducible assumption | intro _ | with_reducible apply Keep.ite | with_reducible apply Keep.foldl | with_reducible apply Keep.foldl_fst | with_reducible apply Keep.ite_fst | ((fail_if_success (simp only [Keep.mkF]; with_reducible apply And.intro)); split) | dsimp only | (with_reducible apply Keep.mk; iterate 6 exact rfl))

theorem State.raise_keep {s x2 x3 x4 x5} (h : Keep p b s) :
    Keep p b (State.raise s x2 x3 x4 x5) := by
  unfold State.raise
  try extract_lets
  repeat' (first | with_reducible assumption | intro _ | with_reducible apply State.mark_keep | with_reducible apply State.setWord_keep | with_reducible apply State.fireDev_keep | with_reducible apply Keep.ite | with_reducible apply Keep.foldl | with_reducible apply Keep.foldl_fst | with_reducible apply Keep.ite_fst | ((fail_if_success (simp only [Keep.mkF]; with_reducible apply And.intro)); split) | dsimp only | (with_reducible apply Keep.mk; iterate 6 exact rfl))

theorem State.flagFunc_keep {s x2 x3} (h : Keep p b s) :
    Keep p b (State.flagFunc s x2 x3) := by
  unfold State.flagFunc
  try extract_lets
  repeat' (first | with_reducible assumption | intro _ | with_reducible apply State.modFunc_keep | with_reducible apply State.mark_keep | with_reducible apply Keep.ite | with_reducible apply Keep.foldl | with_reducible apply Keep.foldl_fst | with_reducible apply Keep.ite_fst | ((fail_if_success (simp only [Keep.mkF]; with_reducible apply And.intro)); split) | dsimp only | (with_reducible apply Keep.mk; iterate 6 exact rfl))

theorem State.flagIns_keep {s x2 x3} (h : Keep p b s) :
    Keep p b (State.flagIns s x2 x3) := by
  unfold State.flagIns
  try extract_lets
  repeat' (first | with_reducible assumption | intro _ | with_reducible apply State.modIns_keep | with_reducible apply State.mark_keep | with_reducible apply Keep.ite | with_reducible apply Keep.foldl | with_reducible apply Keep.foldl_fst | with_reducible apply Keep.ite_fst | ((fail_if_success (simp only [Keep.mkF]; with_reducible apply And.intro)); split) | dsimp only | (with_reducible apply Keep.mk; iterate 6 exact rfl))

theorem State.overwrite_keep {s x2 x3} (h : Keep p b s) :
    Keep p b (State.overwrite s x2 x3).1 := by
  unfold State.overwrite
  try extract_lets
  repeat' (first | with_reducible assumption | intro _ | with_reducible apply State.raise_keep | with_reducible apply State.inc_keep | with_reducible apply Keep.ite | with_reducible apply Keep.foldl | with_reducible apply Keep.foldl_fst | with_reducible apply Keep.ite_fst | ((fail_if_success (simp only [Keep.mkF]; with_reducible apply And.intro)); split) | dsimp only | (with_reducible apply Keep.mk; iterate 6 exact rfl))

theorem State.overwrite_keep' {s x2 x3 t y} (h : Keep p b s) (e : State.overwrite s x2 x3 = (t, y)) : Keep p b t := by
  have := @State.overwrite_keep p b s x2 x3 h
  rw [e] at this
  exact this

theorem State.sbSend_keep {s x2 x3} (h : Keep p b s) :
    Keep p b (State.sbSend s x2 x3) := by
  unfold State.sbSend
  try extract_lets
  repeat' (first | with_reducible assumption | intro _ | with_reducible apply Keep.ite | with_reducible apply Keep.foldl | with_reducible apply Keep.foldl_fst | with_reducible apply Keep.ite_fst | ((fail_if_success (simp only [Keep.mkF]; with_reducible apply And.intro)); split) | dsimp only | (with_reducible apply Keep.mk; iterate 6 exact rfl))

theorem State.sbEvent_keep {s x2} (h : Keep p b s) :
    Keep p b (State.sbEvent s x2) := by
  unfold State.sbEvent
  try extract_lets
  repeat' (first | with_reducible assumption | intro _ | with_reducible apply Keep.ite | with_reducible apply Keep.foldl | with_reducible apply Keep.foldl_fst | with_reducible apply Keep.ite_fst | ((fail_if_success (simp only [Keep.mkF]; with_reducible apply And.intro)); split) | dsimp only | (with_reducible apply Keep.mk; iterate 6 exact rfl))

theorem State.renumber_keep {s x2 x3 x4} (h : Keep p b s) :
    Keep p b (State.renumber s x2 x3 x4) := by
  unfold State.renumber
  try extract_lets
  repeat' (first | with_reducible assumption | intro _ | with_reducible apply Keep.ite | with_reducible apply Keep.foldl | with_reducible apply Keep.foldl_fst | with_reducible apply Keep.ite_fst | ((fail_if_success (simp only [Keep.mkF]; with_reducible apply And.intro)); split) | dsimp only | (with_reducible apply Keep.mk; iterate 6 exact rfl))

/-- What `overwrite` leaves of a ring within its room has room for one more. -/
theorem State.overwrite_length {s : State} {ring : List LogEntry} {cap : Nat} (hc : 0 < cap) (h : ring.length ≤ cap) :
    (s.overwrite ring cap).2.length + 1 ≤ cap := by
  unfold State.overwrite
  cases ring with
  | nil => exact hc
  | cons e t =>
    simp only [List.length_cons] at h
    dsimp only
    split
    · simp only [List.length_cons]; omega
    · split
      · exact h
      · exact h

/-- `overwrite` leaves the rings as they are. -/
theorem State.overwrite_log {s : State} {ring : List LogEntry} {cap : Nat} :
    (s.overwrite ring cap).1.log.main = s.log.main ∧ (s.overwrite ring cap).1.log.fb = s.log.fb := by
  have hfire : ∀ (s : State) f v, (s.fire f v).log = s.log := by
    intro s f v; unfold State.fire; repeat' (first | rfl | split | dsimp only)
  have hdev : ∀ (l : List Nat) (s : State) v, (l.foldl (fun s l => s.fire (2 * l) v) s).log = s.log := by
    intro l
    induction l with
    | nil => intros; rfl
    | cons a t ih => intro s v; rw [List.foldl_cons, ih, hfire]
  have hraise : ∀ (s : State) f x v i, (s.raise f x v i).log = s.log := by
    intro s f x v i
    unfold State.raise
    dsimp only
    split
    · rfl
    · split
      · unfold State.fireDev; rw [hdev]; rfl
      · rfl
  unfold State.overwrite
  split
  · exact ⟨rfl, rfl⟩
  · split
    · exact ⟨rfl, rfl⟩
    · split
      · dsimp only; rw [hraise]; exact ⟨rfl, rfl⟩
      · exact ⟨rfl, rfl⟩

/-- An entry in its place makes the list one longer. -/
theorem placeEntry_length (e : LogEntry) (l : List LogEntry) : (placeEntry e l).length = l.length + 1 := by
  induction l generalizing e with
  | nil => rfl
  | cons a t ih =>
    unfold placeEntry
    split
    · simp only [List.length_cons, ih]
    · rfl

/-- A ring with one more entry is one longer. -/
theorem intoRing_length (e : LogEntry) (l : List LogEntry) : (intoRing e l).length = l.length + 1 := by
  simp [intoRing, placeEntry_length]

/-- What `overwrite` keeps, with any rings that keep to their room put in their place. -/
theorem Keep.push {s : State} {ring m f : List LogEntry} {n : Word} {cap : Nat} (h : Keep p b s)
    (hm : b → m.length ≤ 4096) (hf : b → f.length ≤ 16) :
    Keep p b { (s.overwrite ring cap).1 with log := { (s.overwrite ring cap).1.log with fb := f, main := m, seqNext := n } } := by
  have h1 := @State.overwrite_keep p b s ring cap h
  refine ⟨h1.1, fun hb => ?_⟩
  obtain ⟨a1, a2, a3, _, _⟩ := h1.2 hb
  exact ⟨a1, a2, a3, hm hb, hf hb⟩

theorem State.postF_keep {s x2 x3 x4} (h : Keep p b s) : Keep p b (State.postF s x2 x3 x4) := by
  unfold State.postF
  have h0 : Keep p b (if memCause x2 = true then { s with tri := { s.tri with mem := true } } else s) :=
    Keep.ite (Keep.of rfl rfl rfl rfl rfl rfl h) h
  generalize (if memCause x2 = true then { s with tri := { s.tri with mem := true } } else s) = s' at h0
  dsimp only
  generalize LogEntry.mk _ _ _ _ _ _ _ = e
  have key : Keep p b (if s'.log.fallback then s'.overwrite s'.log.fb 16 else s'.overwrite s'.log.main 4096).1 :=
    Keep.ite_fst (State.overwrite_keep h0) (State.overwrite_keep h0)
  have hlog : (if s'.log.fallback then s'.overwrite s'.log.fb 16 else s'.overwrite s'.log.main 4096).1.log.main = s'.log.main ∧
      (if s'.log.fallback then s'.overwrite s'.log.fb 16 else s'.overwrite s'.log.main 4096).1.log.fb = s'.log.fb := by
    split <;> exact State.overwrite_log
  have hlen : b → (if s'.log.fallback then s'.overwrite s'.log.fb 16 else s'.overwrite s'.log.main 4096).2.length + 1 ≤
      (if s'.log.fallback then 16 else 4096) := by
    intro hb
    obtain ⟨_, _, _, h4, h5⟩ := h0.2 hb
    split
    · exact State.overwrite_length (by omega) h5
    · exact State.overwrite_length (by omega) h4
  generalize (if s'.log.fallback then s'.overwrite s'.log.fb 16 else s'.overwrite s'.log.main 4096) = w at key hlog hlen
  obtain ⟨w1, t⟩ := w
  dsimp only at key hlog hlen ⊢
  have hring : b → (intoRing e t).length ≤ (if s'.log.fallback then 16 else 4096) := by
    intro hb; rw [intoRing_length]; exact hlen hb
  generalize intoRing e t = ring at hring
  have h1 : Keep p b { w1 with log := { w1.log with
      fb := if s'.log.fallback then ring else w1.log.fb, main := if s'.log.fallback then w1.log.main else ring,
      seqNext := s'.log.seqNext + 1 } } := by
    refine ⟨key.1, fun hb => ?_⟩
    obtain ⟨a1, a2, a3, a4, a5⟩ := key.2 hb
    have hr := hring hb
    refine ⟨a1, a2, a3, ?_, ?_⟩
    · show (if s'.log.fallback then w1.log.main else ring).length ≤ 4096
      split
      · exact a4
      · rename_i hc; simpa [hc] using hr
    · show (if s'.log.fallback then ring else w1.log.fb).length ≤ 16
      split
      · rename_i hc; simpa [hc] using hr
      · exact a5
  have h2 := State.inc_keep (x2 := Ctr.logEntry) (State.renumber_keep (x2 := e) (x3 := t) (x4 := ring) h1)
  split
  · refine State.sbEvent_keep (State.fireDev_keep (State.raise_keep (State.inc_keep ?_)))
    exact Keep.of rfl rfl rfl rfl rfl rfl h2
  · exact Keep.of rfl rfl rfl rfl rfl rfl h2

theorem State.post_keep {s x2 x3} (h : Keep p b s) :
    Keep p b (State.post s x2 x3) := by
  unfold State.post
  try extract_lets
  repeat' (first | with_reducible assumption | intro _ | with_reducible apply State.postF_keep | with_reducible apply Keep.ite | with_reducible apply Keep.foldl | with_reducible apply Keep.foldl_fst | with_reducible apply Keep.ite_fst | ((fail_if_success (simp only [Keep.mkF]; with_reducible apply And.intro)); split) | dsimp only | (with_reducible apply Keep.mk; iterate 6 exact rfl))

theorem State.postB_keep {s x2 x3 x4 x5 x6 x7} (h : Keep p b s) :
    Keep p b (State.postB s x2 x3 x4 x5 x6 x7) := by
  unfold State.postB
  try extract_lets
  repeat' (first | with_reducible assumption | intro _ | with_reducible apply State.post_keep | with_reducible apply Keep.ite | with_reducible apply Keep.foldl | with_reducible apply Keep.foldl_fst | with_reducible apply Keep.ite_fst | ((fail_if_success (simp only [Keep.mkF]; with_reducible apply And.intro)); split) | dsimp only | (with_reducible apply Keep.mk; iterate 6 exact rfl))

theorem aer_keep {s x2 x3} (h : Keep p b s) :
    Keep p b (aer s x2 x3) := by
  unfold aer
  try extract_lets
  repeat' (first | with_reducible assumption | intro _ | with_reducible apply State.emitLink_keep | with_reducible apply Keep.ite | with_reducible apply Keep.foldl | with_reducible apply Keep.foldl_fst | with_reducible apply Keep.ite_fst | ((fail_if_success (simp only [Keep.mkF]; with_reducible apply And.intro)); split) | dsimp only | (with_reducible apply Keep.mk; iterate 6 exact rfl))

end Sys2Proof.Machine
end

