-- ==== Sys2Proof/Laws/KeepTranslate.lean ====
section
/-!
SUPPORT. What the operations of Machine/Translate.lean keep of the queue and the stores.
-/

set_option linter.all false

namespace Sys2Proof.Machine

variable {p : List Instr} {b : Prop}

theorem tlbPut_keep {s x2} (h : Keep p b s) :
    Keep p b (tlbPut s x2) := by
  unfold tlbPut
  try extract_lets
  repeat' (first | with_reducible assumption | intro _ | with_reducible apply Keep.ite | with_reducible apply Keep.foldl | with_reducible apply Keep.foldl_fst | with_reducible apply Keep.ite_fst | ((fail_if_success (simp only [Keep.mkF]; with_reducible apply And.intro)); split) | dsimp only | (with_reducible apply Keep.mk; iterate 6 exact rfl))

theorem unpromise_keep {s x2} (h : Keep p b s) :
    Keep p b (unpromise s x2) := by
  unfold unpromise
  try extract_lets
  repeat' (first | with_reducible assumption | intro _ | with_reducible apply State.modQueue_keep | with_reducible apply Keep.ite | with_reducible apply Keep.foldl | with_reducible apply Keep.foldl_fst | with_reducible apply Keep.ite_fst | ((fail_if_success (simp only [Keep.mkF]; with_reducible apply And.intro)); split) | dsimp only | (with_reducible apply Keep.mk; iterate 6 exact rfl))

theorem dropUnit_keep {s x2} (h : Keep p b s) :
    Keep p b (dropUnit s x2) := by
  unfold dropUnit
  try extract_lets
  repeat' (first | with_reducible assumption | intro _ | with_reducible apply unpromise_keep | with_reducible apply Keep.ite | with_reducible apply Keep.foldl | with_reducible apply Keep.foldl_fst | with_reducible apply Keep.ite_fst | ((fail_if_success (simp only [Keep.mkF]; with_reducible apply And.intro)); split) | dsimp only | (with_reducible apply Keep.mk; iterate 6 exact rfl))

theorem dropChain_keep {s x2} (h : Keep p b s) :
    Keep p b (dropChain s x2) := by
  unfold dropChain
  try extract_lets
  repeat' (first | with_reducible assumption | intro _ | with_reducible apply State.modQueue_keep | with_reducible apply dropUnit_keep | with_reducible apply Keep.ite | with_reducible apply Keep.foldl | with_reducible apply Keep.foldl_fst | with_reducible apply Keep.ite_fst | ((fail_if_success (simp only [Keep.mkF]; with_reducible apply And.intro)); split) | dsimp only | (with_reducible apply Keep.mk; iterate 6 exact rfl))

theorem stopQueue_keep {s x2 x3} (h : Keep p b s) :
    Keep p b (stopQueue s x2 x3) := by
  unfold stopQueue
  try extract_lets
  repeat' (first | with_reducible assumption | intro _ | with_reducible apply State.freeSlots_keep | with_reducible apply State.setQp_keep | with_reducible apply State.modQueue_keep | with_reducible apply dropChain_keep | with_reducible apply Keep.ite | with_reducible apply Keep.foldl | with_reducible apply Keep.foldl_fst | with_reducible apply Keep.ite_fst | ((fail_if_success (simp only [Keep.mkF]; with_reducible apply And.intro)); split) | dsimp only | (with_reducible apply Keep.mk; iterate 6 exact rfl))

theorem ituFault_keep {s x2 x3 x4 x5 x6} (h : Keep p b s) :
    Keep p b (ituFault s x2 x3 x4 x5 x6) := by
  unfold ituFault
  try extract_lets
  repeat' (first | with_reducible assumption | intro _ | with_reducible apply stopQueue_keep | with_reducible apply State.fire_keep | with_reducible apply State.flagIns_keep | with_reducible apply State.flagFunc_keep | with_reducible apply State.raise_keep | with_reducible apply State.inc_keep | with_reducible apply State.post_keep | with_reducible apply State.fireDev_keep | with_reducible apply aer_keep | with_reducible apply Keep.ite | with_reducible apply Keep.foldl | with_reducible apply Keep.foldl_fst | with_reducible apply Keep.ite_fst | ((fail_if_success (simp only [Keep.mkF]; with_reducible apply And.intro)); split) | dsimp only | (with_reducible apply Keep.mk; iterate 6 exact rfl))

theorem passReq_keep {s x2 x3} (h : Keep p b s) :
    Keep p b (passReq s x2 x3).1 := by
  unfold passReq
  try extract_lets
  repeat' (first | with_reducible assumption | intro _ | with_reducible apply State.setLink_keep | with_reducible apply Keep.ite | with_reducible apply Keep.foldl | with_reducible apply Keep.foldl_fst | with_reducible apply Keep.ite_fst | ((fail_if_success (simp only [Keep.mkF]; with_reducible apply And.intro)); split) | dsimp only | (with_reducible apply Keep.mk; iterate 6 exact rfl))

theorem passReq_keep' {s x2 x3 t y} (h : Keep p b s) (e : passReq s x2 x3 = (t, y)) : Keep p b t := by
  have := @passReq_keep p b s x2 x3 h
  rw [e] at this
  exact this

theorem access_keep {s x2 x3 x4 x5} (h : Keep p b s) :
    Keep p b (access s x2 x3 x4 x5).1 := by
  unfold access
  try extract_lets
  repeat' (first | with_reducible assumption | intro _ | (with_reducible refine passReq_keep' ?_ (by assumption)) | with_reducible apply passReq_keep | with_reducible apply State.inc_keep | with_reducible apply ituFault_keep | with_reducible apply tlbPut_keep | with_reducible apply Keep.ite | with_reducible apply Keep.foldl | with_reducible apply Keep.foldl_fst | with_reducible apply Keep.ite_fst | ((fail_if_success (simp only [Keep.mkF]; with_reducible apply And.intro)); split) | dsimp only | (with_reducible apply Keep.mk; iterate 6 exact rfl))

theorem access_keep' {s x2 x3 x4 x5 t y} (h : Keep p b s) (e : access s x2 x3 x4 x5 = (t, y)) : Keep p b t := by
  have := @access_keep p b s x2 x3 x4 x5 h
  rw [e] at this
  exact this

theorem seeTables_keep {s x2} (h : Keep p b s) :
    Keep p b (seeTables s x2) := by
  unfold seeTables
  try extract_lets
  repeat' (first | with_reducible assumption | intro _ | with_reducible apply Keep.ite | with_reducible apply Keep.foldl | with_reducible apply Keep.foldl_fst | with_reducible apply Keep.ite_fst | ((fail_if_success (simp only [Keep.mkF]; with_reducible apply And.intro)); split) | dsimp only | (with_reducible apply Keep.mk; iterate 6 exact rfl))

theorem readSpans_keep {s x2 x3 x4} (h : Keep p b s) : Keep p b (readSpans s x2 x3 x4).1 := by
  induction x4 generalizing s with
  | nil => exact h
  | cons a u ih =>
    unfold readSpans
    split
    · exact access_keep' h (by assumption)
    · exact ih (access_keep' h (by assumption))

theorem readSpans_keep' {s x2 x3 x4 t y} (h : Keep p b s) (e : readSpans s x2 x3 x4 = (t, y)) : Keep p b t := by
  have := @readSpans_keep p b s x2 x3 x4 h
  rw [e] at this
  exact this

theorem writeSpans_keep {s x2 x3 x4 x5} (h : Keep p b s) : Keep p b (writeSpans s x2 x3 x4 x5).1 := by
  induction x5 generalizing s x4 with
  | nil => exact h
  | cons a u ih =>
    unfold writeSpans
    split
    · exact access_keep' h (by assumption)
    · refine ih (Keep.foldl _ (access_keep' h (by assumption)) ?_)
      intro s r hs
      exact State.emitLink_keep hs

theorem writeSpans_keep' {s x2 x3 x4 x5 t y} (h : Keep p b s) (e : writeSpans s x2 x3 x4 x5 = (t, y)) :
    Keep p b t := by
  have := @writeSpans_keep p b s x2 x3 x4 x5 h
  rw [e] at this
  exact this

theorem hostWrite_keep {s x2 x3 x4 x5} (h : Keep p b s) :
    Keep p b (hostWrite s x2 x3 x4 x5).1 := by
  unfold hostWrite
  try extract_lets
  repeat' (first | with_reducible assumption | intro _ | (with_reducible refine writeSpans_keep' ?_ (by assumption)) | with_reducible apply writeSpans_keep | with_reducible apply Keep.ite | with_reducible apply Keep.foldl | with_reducible apply Keep.foldl_fst | with_reducible apply Keep.ite_fst | ((fail_if_success (simp only [Keep.mkF]; with_reducible apply And.intro)); split) | dsimp only | (with_reducible apply Keep.mk; iterate 6 exact rfl))

theorem hostWrite_keep' {s x2 x3 x4 x5 t y} (h : Keep p b s) (e : hostWrite s x2 x3 x4 x5 = (t, y)) : Keep p b t := by
  have := @hostWrite_keep p b s x2 x3 x4 x5 h
  rw [e] at this
  exact this

end Sys2Proof.Machine
end

