-- ==== Sys2Proof/Laws/KeepReplies.lean ====
section
/-!
SUPPORT. What the operations of Machine/Replies.lean keep of the queue and the stores.
-/

set_option linter.all false

namespace Sys2Proof.Machine

variable {p : List Instr} {b : Prop}

theorem State.putReply_keep {s x2 x3} (h : Keep p b s) :
    Keep p b (State.putReply s x2 x3) := by
  unfold State.putReply
  try extract_lets
  repeat' (first | with_reducible assumption | intro _ | (with_reducible refine access_keep' ?_ (by assumption)) | with_reducible apply access_keep | with_reducible apply State.emitLink_keep | with_reducible apply State.modQueue_keep | with_reducible apply State.fire_keep | with_reducible apply Keep.ite | with_reducible apply Keep.foldl | with_reducible apply Keep.foldl_fst | with_reducible apply Keep.ite_fst | ((fail_if_success (simp only [Keep.mkF]; with_reducible apply And.intro)); split) | dsimp only | (with_reducible apply Keep.mk; iterate 6 exact rfl))

theorem State.issueReply_keep {s x2 x3 x4} (h : Keep p b s) :
    Keep p b (State.issueReply s x2 x3 x4) := by
  unfold State.issueReply
  try extract_lets
  repeat' (first | with_reducible assumption | intro _ | with_reducible apply State.inc_keep | with_reducible apply State.putReply_keep | with_reducible apply State.modQueue_keep | with_reducible apply State.raise_keep | with_reducible apply Keep.ite | with_reducible apply Keep.foldl | with_reducible apply Keep.foldl_fst | with_reducible apply Keep.ite_fst | ((fail_if_success (simp only [Keep.mkF]; with_reducible apply And.intro)); split) | dsimp only | (with_reducible apply Keep.mk; iterate 6 exact rfl))

end Sys2Proof.Machine
end

