-- ==== Sys2Proof/Laws/KeepPools.lean ====
section
/-!
SUPPORT. What the operations of Machine/Pools.lean keep of the queue and the stores.
-/

set_option linter.all false

namespace Sys2Proof.Machine

variable {p : List Instr} {b : Prop}

theorem topUp_keep {s x2 x3 x4} (h : Keep p b s) :
    Keep p b (topUp s x2 x3 x4) := by
  unfold topUp
  try extract_lets
  repeat' (first | with_reducible assumption | intro _ | with_reducible apply Keep.ite | with_reducible apply Keep.foldl | with_reducible apply Keep.foldl_fst | with_reducible apply Keep.ite_fst | ((fail_if_success (simp only [Keep.mkF]; with_reducible apply And.intro)); split) | dsimp only | (with_reducible apply Keep.mk; iterate 6 exact rfl))

end Sys2Proof.Machine
end

