-- ==== Sys2Proof/Laws/KeepClock.lean ====
section
/-!
SUPPORT. What the operations of Machine/Clock.lean keep of the queue and the stores.
-/

set_option linter.all false

namespace Sys2Proof.Machine

variable {p : List Instr} {b : Prop}

theorem refillAll_keep {s x2} (h : Keep p b s) :
    Keep p b (refillAll s x2) := by
  unfold refillAll
  try extract_lets
  repeat' (first | with_reducible assumption | intro _ | with_reducible apply Keep.ite | with_reducible apply Keep.foldl | with_reducible apply Keep.foldl_fst | with_reducible apply Keep.ite_fst | ((fail_if_success (simp only [Keep.mkF]; with_reducible apply And.intro)); split) | dsimp only | (with_reducible apply Keep.mk; iterate 6 exact rfl))

theorem State.spend_keep {s x2 x3} (h : Keep p b s) :
    Keep p b (State.spend s x2 x3) := by
  unfold State.spend
  try extract_lets
  repeat' (first | with_reducible assumption | intro _ | with_reducible apply Keep.ite | with_reducible apply Keep.foldl | with_reducible apply Keep.foldl_fst | with_reducible apply Keep.ite_fst | ((fail_if_success (simp only [Keep.mkF]; with_reducible apply And.intro)); split) | dsimp only | (with_reducible apply Keep.mk; iterate 6 exact rfl))

theorem State.bookFlush_keep {s} (h : Keep p b s) :
    Keep p b (State.bookFlush s) := by
  unfold State.bookFlush
  try extract_lets
  repeat' (first | with_reducible assumption | intro _ | with_reducible apply Keep.ite | with_reducible apply Keep.foldl | with_reducible apply Keep.foldl_fst | with_reducible apply Keep.ite_fst | ((fail_if_success (simp only [Keep.mkF]; with_reducible apply And.intro)); split) | dsimp only | (with_reducible apply Keep.mk; iterate 6 exact rfl))

theorem State.judge_keep {s} (h : Keep p b s) :
    Keep p b (State.judge s) := by
  unfold State.judge
  try extract_lets
  repeat' (first | with_reducible assumption | intro _ | with_reducible apply Keep.ite | with_reducible apply Keep.foldl | with_reducible apply Keep.foldl_fst | with_reducible apply Keep.ite_fst | ((fail_if_success (simp only [Keep.mkF]; with_reducible apply And.intro)); split) | dsimp only | (with_reducible apply Keep.mk; iterate 6 exact rfl))

theorem State.ledger_keep {s x2} (h : Keep p b s) :
    Keep p b (State.ledger s x2) := by
  unfold State.ledger
  try extract_lets
  repeat' (first | with_reducible assumption | intro _ | with_reducible apply State.bookFlush_keep | with_reducible apply State.spend_keep | with_reducible apply State.judge_keep | with_reducible apply Keep.ite | with_reducible apply Keep.foldl | with_reducible apply Keep.foldl_fst | with_reducible apply Keep.ite_fst | ((fail_if_success (simp only [Keep.mkF]; with_reducible apply And.intro)); split) | dsimp only | (with_reducible apply Keep.mk; iterate 6 exact rfl))

theorem State.endPulse_keep {s} (h : Keep p b s) :
    Keep p b (State.endPulse s) := by
  unfold State.endPulse
  try extract_lets
  repeat' (first | with_reducible assumption | intro _ | with_reducible apply Keep.ite | with_reducible apply Keep.foldl | with_reducible apply Keep.foldl_fst | with_reducible apply Keep.ite_fst | ((fail_if_success (simp only [Keep.mkF]; with_reducible apply And.intro)); split) | dsimp only | (with_reducible apply Keep.mk; iterate 6 exact rfl))

theorem State.pulseDue_keep {s} (h : Keep p b s) :
    Keep p b (State.pulseDue s) := by
  unfold State.pulseDue
  try extract_lets
  repeat' (first | with_reducible assumption | intro _ | with_reducible apply State.endPulse_keep | with_reducible apply Keep.ite | with_reducible apply Keep.foldl | with_reducible apply Keep.foldl_fst | with_reducible apply Keep.ite_fst | ((fail_if_success (simp only [Keep.mkF]; with_reducible apply And.intro)); split) | dsimp only | (with_reducible apply Keep.mk; iterate 6 exact rfl))

theorem State.advance_keep {s x2} (h : Keep p b s) :
    Keep p b (State.advance s x2) := by
  unfold State.advance
  try extract_lets
  repeat' (first | with_reducible assumption | intro _ | with_reducible apply State.ledger_keep | with_reducible apply State.pulseDue_keep | with_reducible apply refillAll_keep | with_reducible apply State.add_keep | with_reducible apply Keep.ite | with_reducible apply Keep.foldl | with_reducible apply Keep.foldl_fst | with_reducible apply Keep.ite_fst | ((fail_if_success (simp only [Keep.mkF]; with_reducible apply And.intro)); split) | dsimp only | (with_reducible apply Keep.mk; iterate 6 exact rfl))

end Sys2Proof.Machine
end

