-- ==== Sys2Proof/Laws/KeepComplete.lean ====
section
/-!
SUPPORT. What the operations of Machine/Complete.lean keep of the queue and the stores.
-/

set_option linter.all false

namespace Sys2Proof.Machine

variable {p : List Instr} {b : Prop}

theorem cqWrite_keep {s x2 x3 x4} (h : Keep p b s) :
    Keep p b (cqWrite s x2 x3 x4) := by
  unfold cqWrite
  try extract_lets
  repeat' (first | with_reducible assumption | intro _ | (with_reducible refine access_keep' ?_ (by assumption)) | with_reducible apply access_keep | with_reducible apply State.setQp_keep | with_reducible apply State.emitLink_keep | with_reducible apply State.fire_keep | with_reducible apply Keep.ite | with_reducible apply Keep.foldl | with_reducible apply Keep.foldl_fst | with_reducible apply Keep.ite_fst | ((fail_if_success (simp only [Keep.mkF]; with_reducible apply And.intro)); split) | dsimp only | (with_reducible apply Keep.mk; iterate 6 exact rfl))

theorem cqIssue_keep {s x2 x3 x4} (h : Keep p b s) :
    Keep p b (cqIssue s x2 x3 x4) := by
  unfold cqIssue
  try extract_lets
  repeat' (first | with_reducible assumption | intro _ | with_reducible apply cqWrite_keep | with_reducible apply State.setQp_keep | with_reducible apply Keep.ite | with_reducible apply Keep.foldl | with_reducible apply Keep.foldl_fst | with_reducible apply Keep.ite_fst | ((fail_if_success (simp only [Keep.mkF]; with_reducible apply And.intro)); split) | dsimp only | (with_reducible apply Keep.mk; iterate 6 exact rfl))

theorem cqDrain_keep {s x2 x3 x4} (h : Keep p b s) : Keep p b (cqDrain s x2 x3 x4) := by
  induction x4 generalizing s with
  | zero => exact h
  | succ n ih =>
    unfold cqDrain
    dsimp only
    split
    · exact h
    · split
      · exact ih (cqWrite_keep (State.setQp_keep h))
      · exact h

theorem completeTx_keep {s x2 x3 x4 x5 x6 x7 x8} (h : Keep p b s) :
    Keep p b (completeTx s x2 x3 x4 x5 x6 x7 x8) := by
  unfold completeTx
  try extract_lets
  repeat' (first | with_reducible assumption | intro _ | with_reducible apply cqIssue_keep | with_reducible apply Keep.ite | with_reducible apply Keep.foldl | with_reducible apply Keep.foldl_fst | with_reducible apply Keep.ite_fst | ((fail_if_success (simp only [Keep.mkF]; with_reducible apply And.intro)); split) | dsimp only | (with_reducible apply Keep.mk; iterate 6 exact rfl))

end Sys2Proof.Machine
end

