-- ==== Sys2Proof/Laws/KeepPause.lean ====
section
/-!
SUPPORT. What the operations of Machine/Pause.lean keep of the queue and the stores.
-/

set_option linter.all false

namespace Sys2Proof.Machine

variable {p : List Instr} {b : Prop}

theorem State.setMac_keep {s x2 x3} (h : Keep p b s) :
    Keep p b (State.setMac s x2 x3) := by
  unfold State.setMac
  try extract_lets
  repeat' (first | with_reducible assumption | intro _ | with_reducible apply Keep.ite | with_reducible apply Keep.foldl | with_reducible apply Keep.foldl_fst | with_reducible apply Keep.ite_fst | ((fail_if_success (simp only [Keep.mkF]; with_reducible apply And.intro)); split) | dsimp only | (with_reducible apply Keep.mk; iterate 6 exact rfl))

theorem State.modMac_keep {s x2 x3} (h : Keep p b s) :
    Keep p b (State.modMac s x2 x3) := by
  unfold State.modMac
  try extract_lets
  repeat' (first | with_reducible assumption | intro _ | with_reducible apply State.setMac_keep | with_reducible apply Keep.ite | with_reducible apply Keep.foldl | with_reducible apply Keep.foldl_fst | with_reducible apply Keep.ite_fst | ((fail_if_success (simp only [Keep.mkF]; with_reducible apply And.intro)); split) | dsimp only | (with_reducible apply Keep.mk; iterate 6 exact rfl))

theorem State.setPc_keep {s x2 x3 x4} (h : Keep p b s) :
    Keep p b (State.setPc s x2 x3 x4) := by
  unfold State.setPc
  try extract_lets
  repeat' (first | with_reducible assumption | intro _ | with_reducible apply State.modMac_keep | with_reducible apply Keep.ite | with_reducible apply Keep.foldl | with_reducible apply Keep.foldl_fst | with_reducible apply Keep.ite_fst | ((fail_if_success (simp only [Keep.mkF]; with_reducible apply And.intro)); split) | dsimp only | (with_reducible apply Keep.mk; iterate 6 exact rfl))

theorem State.macRaise_keep {s x2 x3} (h : Keep p b s) :
    Keep p b (State.macRaise s x2 x3) := by
  unfold State.macRaise
  try extract_lets
  repeat' (first | with_reducible assumption | intro _ | with_reducible apply State.raise_keep | with_reducible apply Keep.ite | with_reducible apply Keep.foldl | with_reducible apply Keep.foldl_fst | with_reducible apply Keep.ite_fst | ((fail_if_success (simp only [Keep.mkF]; with_reducible apply And.intro)); split) | dsimp only | (with_reducible apply Keep.mk; iterate 6 exact rfl))

theorem sendPause_keep {s x2 x3 x4} (h : Keep p b s) :
    Keep p b (sendPause s x2 x3 x4) := by
  unfold sendPause
  try extract_lets
  repeat' (first | with_reducible assumption | intro _ | with_reducible apply State.inc_keep | with_reducible apply State.emit_keep | with_reducible apply Keep.ite | with_reducible apply Keep.foldl | with_reducible apply Keep.foldl_fst | with_reducible apply Keep.ite_fst | ((fail_if_success (simp only [Keep.mkF]; with_reducible apply And.intro)); split) | dsimp only | (with_reducible apply Keep.mk; iterate 6 exact rfl))

theorem xoffSend_keep {s x2 x3} (h : Keep p b s) :
    Keep p b (xoffSend s x2 x3) := by
  unfold xoffSend
  try extract_lets
  repeat' (first | with_reducible assumption | intro _ | with_reducible apply State.setPc_keep | with_reducible apply sendPause_keep | with_reducible apply Keep.ite | with_reducible apply Keep.foldl | with_reducible apply Keep.foldl_fst | with_reducible apply Keep.ite_fst | ((fail_if_success (simp only [Keep.mkF]; with_reducible apply And.intro)); split) | dsimp only | (with_reducible apply Keep.mk; iterate 6 exact rfl))

theorem xonSend_keep {s x2 x3} (h : Keep p b s) :
    Keep p b (xonSend s x2 x3) := by
  unfold xonSend
  try extract_lets
  repeat' (first | with_reducible assumption | intro _ | with_reducible apply State.setPc_keep | with_reducible apply sendPause_keep | with_reducible apply Keep.ite | with_reducible apply Keep.foldl | with_reducible apply Keep.foldl_fst | with_reducible apply Keep.ite_fst | ((fail_if_success (simp only [Keep.mkF]; with_reducible apply And.intro)); split) | dsimp only | (with_reducible apply Keep.mk; iterate 6 exact rfl))

theorem reportClass_keep {s x2 x3 x4} (h : Keep p b s) :
    Keep p b (reportClass s x2 x3 x4) := by
  unfold reportClass
  try extract_lets
  repeat' (first | with_reducible assumption | intro _ | with_reducible apply xoffSend_keep | with_reducible apply xonSend_keep | with_reducible apply Keep.ite | with_reducible apply Keep.foldl | with_reducible apply Keep.foldl_fst | with_reducible apply Keep.ite_fst | ((fail_if_success (simp only [Keep.mkF]; with_reducible apply And.intro)); split) | dsimp only | (with_reducible apply Keep.mk; iterate 6 exact rfl))

end Sys2Proof.Machine
end

