-- ==== Sys2Proof/Laws/KeepTm.lean ====
section
/-!
SUPPORT. What the operations of Machine/Tm.lean keep of the queue and the stores.
-/

set_option linter.all false

namespace Sys2Proof.Machine

variable {p : List Instr} {b : Prop}

theorem reviewIng_keep {s x2 x3} (h : Keep p b s) :
    Keep p b (reviewIng s x2 x3) := by
  unfold reviewIng
  try extract_lets
  repeat' (first | with_reducible assumption | intro _ | with_reducible apply reportClass_keep | with_reducible apply Keep.ite | with_reducible apply Keep.foldl | with_reducible apply Keep.foldl_fst | with_reducible apply Keep.ite_fst | ((fail_if_success (simp only [Keep.mkF]; with_reducible apply And.intro)); split) | dsimp only | (with_reducible apply Keep.mk; iterate 6 exact rfl))

theorem reviewFrame_keep {s x2} (h : Keep p b s) :
    Keep p b (reviewFrame s x2) := by
  unfold reviewFrame
  try extract_lets
  repeat' (first | with_reducible assumption | intro _ | with_reducible apply reviewIng_keep | with_reducible apply Keep.ite | with_reducible apply Keep.foldl | with_reducible apply Keep.foldl_fst | with_reducible apply Keep.ite_fst | ((fail_if_success (simp only [Keep.mkF]; with_reducible apply And.intro)); split) | dsimp only | (with_reducible apply Keep.mk; iterate 6 exact rfl))

theorem endFrame_keep {s x2 x3 x4} (h : Keep p b s) :
    Keep p b (endFrame s x2 x3 x4) := by
  unfold endFrame
  try extract_lets
  repeat' (first | with_reducible assumption | intro _ | with_reducible apply completeTx_keep | with_reducible apply Keep.ite | with_reducible apply Keep.foldl | with_reducible apply Keep.foldl_fst | with_reducible apply Keep.ite_fst | ((fail_if_success (simp only [Keep.mkF]; with_reducible apply And.intro)); split) | dsimp only | (with_reducible apply Keep.mk; iterate 6 exact rfl))

theorem admDrop_keep {s x2} (h : Keep p b s) :
    Keep p b (admDrop s x2) := by
  unfold admDrop
  try extract_lets
  repeat' (first | with_reducible assumption | intro _ | with_reducible apply endFrame_keep | with_reducible apply State.inc_keep | with_reducible apply Keep.ite | with_reducible apply Keep.foldl | with_reducible apply Keep.foldl_fst | with_reducible apply Keep.ite_fst | ((fail_if_success (simp only [Keep.mkF]; with_reducible apply And.intro)); split) | dsimp only | (with_reducible apply Keep.mk; iterate 6 exact rfl))

theorem enqueue_keep {s x2} (h : Keep p b s) :
    Keep p b (enqueue s x2) := by
  unfold enqueue
  try extract_lets
  repeat' (first | with_reducible assumption | intro _ | with_reducible apply Keep.ite | with_reducible apply Keep.foldl | with_reducible apply Keep.foldl_fst | with_reducible apply Keep.ite_fst | ((fail_if_success (simp only [Keep.mkF]; with_reducible apply And.intro)); split) | dsimp only | (with_reducible apply Keep.mk; iterate 6 exact rfl))

theorem admitFrame_keep {s x2} (h : Keep p b s) :
    Keep p b (admitFrame s x2) := by
  unfold admitFrame
  try extract_lets
  repeat' (first | with_reducible assumption | intro _ | with_reducible apply admDrop_keep | with_reducible apply State.inc_keep | with_reducible apply enqueue_keep | with_reducible apply reviewFrame_keep | with_reducible apply State.raise_keep | with_reducible apply State.post_keep | with_reducible apply Keep.ite | with_reducible apply Keep.foldl | with_reducible apply Keep.foldl_fst | with_reducible apply Keep.ite_fst | ((fail_if_success (simp only [Keep.mkF]; with_reducible apply And.intro)); split) | dsimp only | (with_reducible apply Keep.mk; iterate 6 exact rfl))

theorem dropQueued_keep {s x2 g3} (h : Keep p b s) (k3 : ∀ y0 y1, Keep p b y0 → Keep p b (g3 y0 y1)) :
    Keep p b (dropQueued s x2 g3) := by
  unfold dropQueued
  try extract_lets
  repeat' (first | with_reducible assumption | intro _ | with_reducible apply k3 | with_reducible apply reviewFrame_keep | with_reducible apply endFrame_keep | with_reducible apply Keep.ite | with_reducible apply Keep.foldl | with_reducible apply Keep.foldl_fst | with_reducible apply Keep.ite_fst | ((fail_if_success (simp only [Keep.mkF]; with_reducible apply And.intro)); split) | dsimp only | (with_reducible apply Keep.mk; iterate 6 exact rfl))

theorem dropPortFrames_keep {s x2} (h : Keep p b s) :
    Keep p b (dropPortFrames s x2) := by
  unfold dropPortFrames
  try extract_lets
  repeat' (first | with_reducible assumption | intro _ | with_reducible apply dropQueued_keep | with_reducible apply State.inc_keep | with_reducible apply Keep.ite | with_reducible apply Keep.foldl | with_reducible apply Keep.foldl_fst | with_reducible apply Keep.ite_fst | ((fail_if_success (simp only [Keep.mkF]; with_reducible apply And.intro)); split) | dsimp only | (with_reducible apply Keep.mk; iterate 6 exact rfl))

theorem State.setNode_keep {s x2 x3 x4} (h : Keep p b s) :
    Keep p b (State.setNode s x2 x3 x4) := by
  unfold State.setNode
  try extract_lets
  repeat' (first | with_reducible assumption | intro _ | with_reducible apply Keep.ite | with_reducible apply Keep.foldl | with_reducible apply Keep.foldl_fst | with_reducible apply Keep.ite_fst | ((fail_if_success (simp only [Keep.mkF]; with_reducible apply And.intro)); split) | dsimp only | (with_reducible apply Keep.mk; iterate 6 exact rfl))

theorem police_keep {s x2 x3 x4} (h : Keep p b s) :
    Keep p b (police s x2 x3 x4).1 := by
  unfold police
  try extract_lets
  repeat' (first | with_reducible assumption | intro _ | with_reducible apply State.inc_keep | (with_reducible refine State.draw_keep' ?_ (by assumption)) | with_reducible apply State.draw_keep | with_reducible apply Keep.ite | with_reducible apply Keep.foldl | with_reducible apply Keep.foldl_fst | with_reducible apply Keep.ite_fst | ((fail_if_success (simp only [Keep.mkF]; with_reducible apply And.intro)); split) | dsimp only | (with_reducible apply Keep.mk; iterate 6 exact rfl))

theorem police_keep' {s x2 x3 x4 t y} (h : Keep p b s) (e : police s x2 x3 x4 = (t, y)) : Keep p b t := by
  have := @police_keep p b s x2 x3 x4 h
  rw [e] at this
  exact this

end Sys2Proof.Machine
end

