-- ==== Sys2Proof/Laws/KeepCipherOps.lean ====
section
/-!
SUPPORT. What the operations of Machine/CipherOps.lean keep of the queue and the stores.
-/

set_option linter.all false

namespace Sys2Proof.Machine

variable {p : List Instr} {b : Prop}

theorem State.setCtx_keep {s x2 x3} (h : Keep p b s) :
    Keep p b (State.setCtx s x2 x3) := by
  unfold State.setCtx
  try extract_lets
  repeat' (first | with_reducible assumption | intro _ | with_reducible apply Keep.ite | with_reducible apply Keep.foldl | with_reducible apply Keep.foldl_fst | with_reducible apply Keep.ite_fst | ((fail_if_success (simp only [Keep.mkF]; with_reducible apply And.intro)); split) | dsimp only | (with_reducible apply Keep.mk; iterate 6 exact rfl))

theorem tellMargin_keep {s x2 x3} (h : Keep p b s) :
    Keep p b (tellMargin s x2 x3) := by
  unfold tellMargin
  try extract_lets
  repeat' (first | with_reducible assumption | intro _ | with_reducible apply State.post_keep | with_reducible apply State.raise_keep | with_reducible apply State.setCtx_keep | with_reducible apply Keep.ite | with_reducible apply Keep.foldl | with_reducible apply Keep.foldl_fst | with_reducible apply Keep.ite_fst | ((fail_if_success (simp only [Keep.mkF]; with_reducible apply And.intro)); split) | dsimp only | (with_reducible apply Keep.mk; iterate 6 exact rfl))

theorem seqUsed_keep {s x2 x3} (h : Keep p b s) :
    Keep p b (seqUsed s x2 x3) := by
  unfold seqUsed
  try extract_lets
  repeat' (first | with_reducible assumption | intro _ | with_reducible apply tellMargin_keep | with_reducible apply Keep.ite | with_reducible apply Keep.foldl | with_reducible apply Keep.foldl_fst | with_reducible apply Keep.ite_fst | ((fail_if_success (simp only [Keep.mkF]; with_reducible apply And.intro)); split) | dsimp only | (with_reducible apply Keep.mk; iterate 6 exact rfl))

theorem placeCtx_keep {s x2 x3} (h : Keep p b s) :
    Keep p b (placeCtx s x2 x3) := by
  unfold placeCtx
  try extract_lets
  repeat' (first | with_reducible assumption | intro _ | with_reducible apply tellMargin_keep | with_reducible apply State.setCtx_keep | with_reducible apply Keep.ite | with_reducible apply Keep.foldl | with_reducible apply Keep.foldl_fst | with_reducible apply Keep.ite_fst | ((fail_if_success (simp only [Keep.mkF]; with_reducible apply And.intro)); split) | dsimp only | (with_reducible apply Keep.mk; iterate 6 exact rfl))

theorem countBadCtx_keep {s x2 x3} (h : Keep p b s) :
    Keep p b (countBadCtx s x2 x3) := by
  unfold countBadCtx
  try extract_lets
  repeat' (first | with_reducible assumption | intro _ | with_reducible apply State.inc_keep | with_reducible apply Keep.ite | with_reducible apply Keep.foldl | with_reducible apply Keep.foldl_fst | with_reducible apply Keep.ite_fst | ((fail_if_success (simp only [Keep.mkF]; with_reducible apply And.intro)); split) | dsimp only | (with_reducible apply Keep.mk; iterate 6 exact rfl))

theorem exhaustDrop_keep {s x2 x3} (h : Keep p b s) :
    Keep p b (exhaustDrop s x2 x3) := by
  unfold exhaustDrop
  try extract_lets
  repeat' (first | with_reducible assumption | intro _ | with_reducible apply State.inc_keep | with_reducible apply State.post_keep | with_reducible apply State.setCtx_keep | with_reducible apply Keep.ite | with_reducible apply Keep.foldl | with_reducible apply Keep.foldl_fst | with_reducible apply Keep.ite_fst | ((fail_if_success (simp only [Keep.mkF]; with_reducible apply And.intro)); split) | dsimp only | (with_reducible apply Keep.mk; iterate 6 exact rfl))

theorem macsecTx_keep {s x2 x3 x4} (h : Keep p b s) :
    Keep p b (macsecTx s x2 x3 x4).1 := by
  unfold macsecTx
  try extract_lets
  repeat' (first | with_reducible assumption | intro _ | with_reducible apply State.inc_keep | with_reducible apply countBadCtx_keep | with_reducible apply exhaustDrop_keep | with_reducible apply State.add_keep | with_reducible apply seqUsed_keep | with_reducible apply Keep.ite | with_reducible apply Keep.foldl | with_reducible apply Keep.foldl_fst | with_reducible apply Keep.ite_fst | ((fail_if_success (simp only [Keep.mkF]; with_reducible apply And.intro)); split) | dsimp only | (with_reducible apply Keep.mk; iterate 6 exact rfl))

theorem macsecTx_keep' {s x2 x3 x4 t y} (h : Keep p b s) (e : macsecTx s x2 x3 x4 = (t, y)) : Keep p b t := by
  have := @macsecTx_keep p b s x2 x3 x4 h
  rw [e] at this
  exact this

theorem macsecRx_keep {s x2 x3 x4} (h : Keep p b s) :
    Keep p b (macsecRx s x2 x3 x4).1 := by
  unfold macsecRx
  try extract_lets
  repeat' (first | with_reducible assumption | intro _ | with_reducible apply State.inc_keep | with_reducible apply countBadCtx_keep | with_reducible apply State.setCtx_keep | with_reducible apply State.add_keep | with_reducible apply Keep.ite | with_reducible apply Keep.foldl | with_reducible apply Keep.foldl_fst | with_reducible apply Keep.ite_fst | ((fail_if_success (simp only [Keep.mkF]; with_reducible apply And.intro)); split) | dsimp only | (with_reducible apply Keep.mk; iterate 6 exact rfl))

theorem macsecRx_keep' {s x2 x3 x4 t y} (h : Keep p b s) (e : macsecRx s x2 x3 x4 = (t, y)) : Keep p b t := by
  have := @macsecRx_keep p b s x2 x3 x4 h
  rw [e] at this
  exact this

theorem espOut_keep {s x2 x3} (h : Keep p b s) :
    Keep p b (espOut s x2 x3).1 := by
  unfold espOut
  try extract_lets
  repeat' (first | with_reducible assumption | intro _ | with_reducible apply State.add_keep | with_reducible apply seqUsed_keep | with_reducible apply Keep.ite | with_reducible apply Keep.foldl | with_reducible apply Keep.foldl_fst | with_reducible apply Keep.ite_fst | ((fail_if_success (simp only [Keep.mkF]; with_reducible apply And.intro)); split) | dsimp only | (with_reducible apply Keep.mk; iterate 6 exact rfl))

theorem espOut_keep' {s x2 x3 t y} (h : Keep p b s) (e : espOut s x2 x3 = (t, y)) : Keep p b t := by
  have := @espOut_keep p b s x2 x3 h
  rw [e] at this
  exact this

theorem espIn_keep {s x2 x3 x4 x5} (h : Keep p b s) :
    Keep p b (espIn s x2 x3 x4 x5).1 := by
  unfold espIn
  try extract_lets
  repeat' (first | with_reducible assumption | intro _ | with_reducible apply State.inc_keep | with_reducible apply State.setCtx_keep | with_reducible apply State.add_keep | with_reducible apply Keep.ite | with_reducible apply Keep.foldl | with_reducible apply Keep.foldl_fst | with_reducible apply Keep.ite_fst | ((fail_if_success (simp only [Keep.mkF]; with_reducible apply And.intro)); split) | dsimp only | (with_reducible apply Keep.mk; iterate 6 exact rfl))

theorem espIn_keep' {s x2 x3 x4 x5 t y} (h : Keep p b s) (e : espIn s x2 x3 x4 x5 = (t, y)) : Keep p b t := by
  have := @espIn_keep p b s x2 x3 x4 x5 h
  rw [e] at this
  exact this

theorem tlsRx_keep {s x2 x3 x4} (h : Keep p b s) :
    Keep p b (tlsRx s x2 x3 x4).1 := by
  unfold tlsRx
  try extract_lets
  repeat' (first | with_reducible assumption | intro _ | with_reducible apply State.inc_keep | with_reducible apply State.post_keep | with_reducible apply State.setCtx_keep | with_reducible apply State.add_keep | with_reducible apply State.postB_keep | with_reducible apply Keep.ite | with_reducible apply Keep.foldl | with_reducible apply Keep.foldl_fst | with_reducible apply Keep.ite_fst | ((fail_if_success (simp only [Keep.mkF]; with_reducible apply And.intro)); split) | dsimp only | (with_reducible apply Keep.mk; iterate 6 exact rfl))

theorem tlsRx_keep' {s x2 x3 x4 t y} (h : Keep p b s) (e : tlsRx s x2 x3 x4 = (t, y)) : Keep p b t := by
  have := @tlsRx_keep p b s x2 x3 x4 h
  rw [e] at this
  exact this

end Sys2Proof.Machine
end

