-- ==== Sys2Proof/Laws/KeepStorageOps.lean ====
section
/-!
SUPPORT. What the operations of Machine/StorageOps.lean keep of the queue and the stores.
-/

set_option linter.all false

namespace Sys2Proof.Machine

variable {p : List Instr} {b : Prop}

theorem stoRxRun_keep {s x2 x3 x4 x5} (h : Keep p b s) :
    Keep p b (stoRxRun s x2 x3 x4 x5).1 := by
  unfold stoRxRun
  try extract_lets
  repeat' (first | with_reducible assumption | intro _ | with_reducible apply State.inc_keep | with_reducible apply State.add_keep | with_reducible apply State.setConn_keep | with_reducible apply State.raise_keep | with_reducible apply State.post_keep | with_reducible apply State.postB_keep | with_reducible apply Keep.ite | with_reducible apply Keep.foldl | with_reducible apply Keep.foldl_fst | with_reducible apply Keep.ite_fst | ((fail_if_success (simp only [Keep.mkF]; with_reducible apply And.intro)); split) | dsimp only | (with_reducible apply Keep.mk; iterate 6 exact rfl))

theorem stoRxRun_keep' {s x2 x3 x4 x5 t y} (h : Keep p b s) (e : stoRxRun s x2 x3 x4 x5 = (t, y)) : Keep p b t := by
  have := @stoRxRun_keep p b s x2 x3 x4 x5 h
  rw [e] at this
  exact this

theorem stoRx_keep {s x2 x3 x4 x5} (h : Keep p b s) :
    Keep p b (stoRx s x2 x3 x4 x5).1 := by
  unfold stoRx
  try extract_lets
  repeat' (first | with_reducible assumption | intro _ | with_reducible apply State.inc_keep | with_reducible apply State.post_keep | with_reducible apply State.raise_keep | with_reducible apply State.setConn_keep | (with_reducible refine stoRxRun_keep' ?_ (by assumption)) | with_reducible apply stoRxRun_keep | with_reducible apply Keep.ite | with_reducible apply Keep.foldl | with_reducible apply Keep.foldl_fst | with_reducible apply Keep.ite_fst | ((fail_if_success (simp only [Keep.mkF]; with_reducible apply And.intro)); split) | dsimp only | (with_reducible apply Keep.mk; iterate 6 exact rfl))

theorem stoRx_keep' {s x2 x3 x4 x5 t y} (h : Keep p b s) (e : stoRx s x2 x3 x4 x5 = (t, y)) : Keep p b t := by
  have := @stoRx_keep p b s x2 x3 x4 x5 h
  rw [e] at this
  exact this

theorem stoTx_keep {s x2 x3 x4 x5 x6} (h : Keep p b s) :
    Keep p b (stoTx s x2 x3 x4 x5 x6).1 := by
  unfold stoTx
  try extract_lets
  repeat' (first | with_reducible assumption | intro _ | with_reducible apply State.inc_keep | with_reducible apply State.raise_keep | with_reducible apply State.setConn_keep | with_reducible apply Keep.ite | with_reducible apply Keep.foldl | with_reducible apply Keep.foldl_fst | with_reducible apply Keep.ite_fst | ((fail_if_success (simp only [Keep.mkF]; with_reducible apply And.intro)); split) | dsimp only | (with_reducible apply Keep.mk; iterate 6 exact rfl))

theorem stoTx_keep' {s x2 x3 x4 x5 x6 t y} (h : Keep p b s) (e : stoTx s x2 x3 x4 x5 x6 = (t, y)) : Keep p b t := by
  have := @stoTx_keep p b s x2 x3 x4 x5 x6 h
  rw [e] at this
  exact this

end Sys2Proof.Machine
end

