-- ==== Sys2Proof/Laws/KeepRuleOps.lean ====
section
/-!
SUPPORT. What the operations of Machine/RuleOps.lean keep of the queue and the stores.
-/

set_option linter.all false

namespace Sys2Proof.Machine

variable {p : List Instr} {b : Prop}

theorem State.setRule_keep {s x2 x3} (h : Keep p b s) :
    Keep p b (State.setRule s x2 x3) := by
  unfold State.setRule
  try extract_lets
  repeat' (first | with_reducible assumption | intro _ | with_reducible apply Keep.ite | with_reducible apply Keep.foldl | with_reducible apply Keep.foldl_fst | with_reducible apply Keep.ite_fst | ((fail_if_success (simp only [Keep.mkF]; with_reducible apply And.intro)); split) | dsimp only | (with_reducible apply Keep.mk; iterate 6 exact rfl))

theorem State.delRule_keep {s x2} (h : Keep p b s) :
    Keep p b (State.delRule s x2) := by
  unfold State.delRule
  try extract_lets
  repeat' (first | with_reducible assumption | intro _ | with_reducible apply Keep.ite | with_reducible apply Keep.foldl | with_reducible apply Keep.foldl_fst | with_reducible apply Keep.ite_fst | ((fail_if_success (simp only [Keep.mkF]; with_reducible apply And.intro)); split) | dsimp only | (with_reducible apply Keep.mk; iterate 6 exact rfl))

theorem State.setFlow_keep {s x2 x3} (h : Keep p b s) :
    Keep p b (State.setFlow s x2 x3) := by
  unfold State.setFlow
  try extract_lets
  repeat' (first | with_reducible assumption | intro _ | with_reducible apply Keep.ite | with_reducible apply Keep.foldl | with_reducible apply Keep.foldl_fst | with_reducible apply Keep.ite_fst | ((fail_if_success (simp only [Keep.mkF]; with_reducible apply And.intro)); split) | dsimp only | (with_reducible apply Keep.mk; iterate 6 exact rfl))

theorem State.delFlow_keep {s x2} (h : Keep p b s) :
    Keep p b (State.delFlow s x2) := by
  unfold State.delFlow
  try extract_lets
  repeat' (first | with_reducible assumption | intro _ | with_reducible apply Keep.ite | with_reducible apply Keep.foldl | with_reducible apply Keep.foldl_fst | with_reducible apply Keep.ite_fst | ((fail_if_success (simp only [Keep.mkF]; with_reducible apply And.intro)); split) | dsimp only | (with_reducible apply Keep.mk; iterate 6 exact rfl))

theorem flowEcc_keep {s x2} (h : Keep p b s) :
    Keep p b (flowEcc s x2) := by
  unfold flowEcc
  try extract_lets
  repeat' (first | with_reducible assumption | intro _ | with_reducible apply State.post_keep | with_reducible apply State.raise_keep | with_reducible apply State.inc_keep | with_reducible apply State.delFlow_keep | with_reducible apply Keep.ite | with_reducible apply Keep.foldl | with_reducible apply Keep.foldl_fst | with_reducible apply Keep.ite_fst | ((fail_if_success (simp only [Keep.mkF]; with_reducible apply And.intro)); split) | dsimp only | (with_reducible apply Keep.mk; iterate 6 exact rfl))

theorem ruleEcc_keep {s x2} (h : Keep p b s) :
    Keep p b (ruleEcc s x2) := by
  unfold ruleEcc
  try extract_lets
  repeat' (first | with_reducible assumption | intro _ | with_reducible apply State.post_keep | with_reducible apply State.raise_keep | with_reducible apply State.inc_keep | with_reducible apply State.delRule_keep | with_reducible apply Keep.ite | with_reducible apply Keep.foldl | with_reducible apply Keep.foldl_fst | with_reducible apply Keep.ite_fst | ((fail_if_success (simp only [Keep.mkF]; with_reducible apply And.intro)); split) | dsimp only | (with_reducible apply Keep.mk; iterate 6 exact rfl))

theorem ctxEcc_keep {s x2} (h : Keep p b s) :
    Keep p b (ctxEcc s x2) := by
  unfold ctxEcc
  try extract_lets
  repeat' (first | with_reducible assumption | intro _ | with_reducible apply State.post_keep | with_reducible apply State.raise_keep | with_reducible apply State.inc_keep | with_reducible apply State.setCtx_keep | with_reducible apply Keep.ite | with_reducible apply Keep.foldl | with_reducible apply Keep.foldl_fst | with_reducible apply Keep.ite_fst | ((fail_if_success (simp only [Keep.mkF]; with_reducible apply And.intro)); split) | dsimp only | (with_reducible apply Keep.mk; iterate 6 exact rfl))

theorem slotEcc_keep {s x2} (h : Keep p b s) :
    Keep p b (slotEcc s x2) := by
  unfold slotEcc
  try extract_lets
  repeat' (first | with_reducible assumption | intro _ | with_reducible apply State.post_keep | with_reducible apply State.raise_keep | with_reducible apply Keep.ite | with_reducible apply Keep.foldl | with_reducible apply Keep.foldl_fst | with_reducible apply Keep.ite_fst | ((fail_if_success (simp only [Keep.mkF]; with_reducible apply And.intro)); split) | dsimp only | (with_reducible apply Keep.mk; iterate 6 exact rfl))

theorem meetEcc_keep {s x2} (h : Keep p b s) :
    Keep p b (meetEcc s x2) := by
  unfold meetEcc
  try extract_lets
  repeat' (first | with_reducible assumption | intro _ | with_reducible apply flowEcc_keep | with_reducible apply ruleEcc_keep | with_reducible apply ctxEcc_keep | with_reducible apply slotEcc_keep | with_reducible apply Keep.ite | with_reducible apply Keep.foldl | with_reducible apply Keep.foldl_fst | with_reducible apply Keep.ite_fst | ((fail_if_success (simp only [Keep.mkF]; with_reducible apply And.intro)); split) | dsimp only | (with_reducible apply Keep.mk; iterate 6 exact rfl))

theorem learnFail_keep {s} (h : Keep p b s) :
    Keep p b (learnFail s) := by
  unfold learnFail
  try extract_lets
  repeat' (first | with_reducible assumption | intro _ | with_reducible apply State.inc_keep | with_reducible apply Keep.ite | with_reducible apply Keep.foldl | with_reducible apply Keep.foldl_fst | with_reducible apply Keep.ite_fst | ((fail_if_success (simp only [Keep.mkF]; with_reducible apply And.intro)); split) | dsimp only | (with_reducible apply Keep.mk; iterate 6 exact rfl))

theorem bookLearn_keep {s} (h : Keep p b s) :
    Keep p b (bookLearn s) := by
  unfold bookLearn
  try extract_lets
  repeat' (first | with_reducible assumption | intro _ | with_reducible apply Keep.ite | with_reducible apply Keep.foldl | with_reducible apply Keep.foldl_fst | with_reducible apply Keep.ite_fst | ((fail_if_success (simp only [Keep.mkF]; with_reducible apply And.intro)); split) | dsimp only | (with_reducible apply Keep.mk; iterate 6 exact rfl))

theorem learn_keep {s x2 x3 x4} (h : Keep p b s) :
    Keep p b (learn s x2 x3 x4) := by
  unfold learn
  try extract_lets
  repeat' (first | with_reducible assumption | intro _ | with_reducible apply learnFail_keep | with_reducible apply State.inc_keep | with_reducible apply State.setFlow_keep | with_reducible apply bookLearn_keep | with_reducible apply State.raise_keep | with_reducible apply State.post_keep | with_reducible apply Keep.ite | with_reducible apply Keep.foldl | with_reducible apply Keep.foldl_fst | with_reducible apply Keep.ite_fst | ((fail_if_success (simp only [Keep.mkF]; with_reducible apply And.intro)); split) | dsimp only | (with_reducible apply Keep.mk; iterate 6 exact rfl))

theorem flowHit_keep {s x2} (h : Keep p b s) :
    Keep p b (flowHit s x2) := by
  unfold flowHit
  try extract_lets
  repeat' (first | with_reducible assumption | intro _ | with_reducible apply State.setFlow_keep | with_reducible apply Keep.ite | with_reducible apply Keep.foldl | with_reducible apply Keep.foldl_fst | with_reducible apply Keep.ite_fst | ((fail_if_success (simp only [Keep.mkF]; with_reducible apply And.intro)); split) | dsimp only | (with_reducible apply Keep.mk; iterate 6 exact rfl))

theorem countEntry_keep {s x2 x3} (h : Keep p b s) :
    Keep p b (countEntry s x2 x3) := by
  unfold countEntry
  try extract_lets
  repeat' (first | with_reducible assumption | intro _ | with_reducible apply State.setRule_keep | with_reducible apply State.setFlow_keep | with_reducible apply Keep.ite | with_reducible apply Keep.foldl | with_reducible apply Keep.foldl_fst | with_reducible apply Keep.ite_fst | ((fail_if_success (simp only [Keep.mkF]; with_reducible apply And.intro)); split) | dsimp only | (with_reducible apply Keep.mk; iterate 6 exact rfl))

end Sys2Proof.Machine
end

