-- ==== Sys2Proof/Laws/KeepInterp.lean ====
section
/-!
SUPPORT. What the operations of Machine/Interp.lean keep of the queue and the stores.
-/

set_option linter.all false

namespace Sys2Proof.Machine

variable {p : List Instr} {b : Prop}

theorem stageItems_keep' {s x2 x3 x4 x5 x6 x7 x8 t} (h : Keep p b s) (e : stageItems s x2 x3 x4 x5 x6 x7 x8 = some t) : Keep p b t := by
  unfold stageItems at e
  repeat' (split at e)
  all_goals first | (cases e; done) | (cases e; repeat' (first | with_reducible assumption | intro _ | with_reducible apply Keep.ite | with_reducible apply Keep.foldl | with_reducible apply Keep.foldl_fst | with_reducible apply Keep.ite_fst | ((fail_if_success (simp only [Keep.mkF]; with_reducible apply And.intro)); split) | dsimp only | (with_reducible apply Keep.mk; iterate 6 exact rfl)))

theorem sealUnit_keep' {s x2 x3 x4 t y} (h : Keep p b s) (e : sealUnit s x2 x3 x4 = .ok (t, y)) : Keep p b t := by
  unfold sealUnit at e
  dsimp only at e
  split at e
  · cases e
  · split at e
    · cases e
    · split at e
      · cases e
      · injection e with e
        injection e with e1 e2
        rw [← e1]
        exact Keep.of rfl rfl rfl rfl rfl rfl h

theorem stageOwn_keep {s x2 x3 x4} (h : Keep p b s) :
    Keep p b (stageOwn s x2 x3 x4) := by
  unfold stageOwn
  try extract_lets
  repeat' (first | with_reducible assumption | intro _ | with_reducible apply Keep.ite | with_reducible apply Keep.foldl | with_reducible apply Keep.foldl_fst | with_reducible apply Keep.ite_fst | ((fail_if_success (simp only [Keep.mkF]; with_reducible apply And.intro)); split) | dsimp only | (with_reducible apply Keep.mk; iterate 6 exact rfl))

theorem mboxDone_keep {s x2 x3} (h : Keep p b s) :
    Keep p b (mboxDone s x2 x3) := by
  unfold mboxDone
  try extract_lets
  repeat' (first | with_reducible assumption | intro _ | with_reducible apply State.mark_keep | with_reducible apply State.fire_keep | with_reducible apply Keep.ite | with_reducible apply Keep.foldl | with_reducible apply Keep.foldl_fst | with_reducible apply Keep.ite_fst | ((fail_if_success (simp only [Keep.mkF]; with_reducible apply And.intro)); split) | dsimp only | (with_reducible apply Keep.mk; iterate 6 exact rfl))

theorem answer_keep {s x2 x3 x4 x5 x6 x7} (h : Keep p b s) :
    Keep p b (answer s x2 x3 x4 x5 x6 x7) := by
  unfold answer
  try extract_lets
  repeat' (first | with_reducible assumption | intro _ | with_reducible apply State.issueReply_keep | with_reducible apply mboxDone_keep | with_reducible apply State.inc_keep | with_reducible apply Keep.ite | with_reducible apply Keep.foldl | with_reducible apply Keep.foldl_fst | with_reducible apply Keep.ite_fst | ((fail_if_success (simp only [Keep.mkF]; with_reducible apply And.intro)); split) | dsimp only | (with_reducible apply Keep.mk; iterate 6 exact rfl))

theorem failAnswer_keep {s x2 x3} (h : Keep p b s) :
    Keep p b (failAnswer s x2 x3) := by
  unfold failAnswer
  try extract_lets
  repeat' (first | with_reducible assumption | intro _ | with_reducible apply answer_keep | with_reducible apply Keep.ite | with_reducible apply Keep.foldl | with_reducible apply Keep.foldl_fst | with_reducible apply Keep.ite_fst | ((fail_if_success (simp only [Keep.mkF]; with_reducible apply And.intro)); split) | dsimp only | (with_reducible apply Keep.mk; iterate 6 exact rfl))

theorem countLate_keep {s x2} (h : Keep p b s) :
    Keep p b (countLate s x2) := by
  unfold countLate
  try extract_lets
  repeat' (first | with_reducible assumption | intro _ | with_reducible apply State.raise_keep | with_reducible apply State.inc_keep | with_reducible apply Keep.ite | with_reducible apply Keep.foldl | with_reducible apply Keep.foldl_fst | with_reducible apply Keep.ite_fst | ((fail_if_success (simp only [Keep.mkF]; with_reducible apply And.intro)); split) | dsimp only | (with_reducible apply Keep.mk; iterate 6 exact rfl))

theorem abortMembers_keep {s x2 x3 x4} (h : Keep p b s) :
    Keep p b (abortMembers s x2 x3 x4) := by
  unfold abortMembers
  try extract_lets
  repeat' (first | with_reducible assumption | intro _ | with_reducible apply State.issueReply_keep | with_reducible apply Keep.ite | with_reducible apply Keep.foldl | with_reducible apply Keep.foldl_fst | with_reducible apply Keep.ite_fst | ((fail_if_success (simp only [Keep.mkF]; with_reducible apply And.intro)); split) | dsimp only | (with_reducible apply Keep.mk; iterate 6 exact rfl))

theorem failChain_keep {s x2 x3 x4 x5 x6} (h : Keep p b s) :
    Keep p b (failChain s x2 x3 x4 x5 x6) := by
  unfold failChain
  try extract_lets
  repeat' (first | with_reducible assumption | intro _ | with_reducible apply abortMembers_keep | with_reducible apply State.modQueue_keep | with_reducible apply dropUnit_keep | with_reducible apply Keep.ite | with_reducible apply Keep.foldl | with_reducible apply Keep.foldl_fst | with_reducible apply Keep.ite_fst | ((fail_if_success (simp only [Keep.mkF]; with_reducible apply And.intro)); split) | dsimp only | (with_reducible apply Keep.mk; iterate 6 exact rfl))

theorem sealChain_keep {s x2 x3 x4} (h : Keep p b s) : Keep p b (sealChain s x2 x3 x4) := by
  unfold sealChain
  split
  · exact failChain_keep h
  · refine Keep.foldl _ (State.modQueue_keep (sealUnit_keep' h (by assumption))) ?_
    intro s m hs
    exact State.issueReply_keep hs

theorem endCmd_keep {s x2 x3 x4} (h : Keep p b s) : Keep p b (endCmd s x2 x3 x4) := by
  unfold endCmd
  split
  · exact answer_keep h
  · split
    · exact failAnswer_keep (dropUnit_keep h)
    · exact answer_keep (sealUnit_keep' h (by assumption))
  · split
    · split
      · exact sealChain_keep h
      · exact h
    · exact h

theorem refund_keep {s x2 x3} (h : Keep p b s) :
    Keep p b (refund s x2 x3) := by
  unfold refund
  try extract_lets
  repeat' (first | with_reducible assumption | intro _ | with_reducible apply State.add_keep | with_reducible apply Keep.ite | with_reducible apply Keep.foldl | with_reducible apply Keep.foldl_fst | with_reducible apply Keep.ite_fst | ((fail_if_success (simp only [Keep.mkF]; with_reducible apply And.intro)); split) | dsimp only | (with_reducible apply Keep.mk; iterate 6 exact rfl))

theorem settle_keep {x1 s x3 x4 x5 x6} (h : Keep p b s) : Keep p b (settle x1 s x3 x4 x5 x6) := by
  unfold settle
  split
  · exact refund_keep (endCmd_keep h)
  · exact Keep.of rfl rfl rfl rfl rfl rfl h

theorem qpWait_keep {s x2 x3} (h : Keep p b s) :
    Keep p b (qpWait s x2 x3) := by
  unfold qpWait
  try extract_lets
  repeat' (first | with_reducible assumption | intro _ | with_reducible apply Keep.ite | with_reducible apply Keep.foldl | with_reducible apply Keep.foldl_fst | with_reducible apply Keep.ite_fst | ((fail_if_success (simp only [Keep.mkF]; with_reducible apply And.intro)); split) | dsimp only | (with_reducible apply Keep.mk; iterate 6 exact rfl))

theorem finishStops_keep {s} (h : Keep p b s) :
    Keep p b (finishStops s) := by
  unfold finishStops
  try extract_lets
  repeat' (first | with_reducible assumption | intro _ | with_reducible apply answer_keep | with_reducible apply Keep.ite | with_reducible apply Keep.foldl | with_reducible apply Keep.foldl_fst | with_reducible apply Keep.ite_fst | ((fail_if_success (simp only [Keep.mkF]; with_reducible apply And.intro)); split) | dsimp only | (with_reducible apply Keep.mk; iterate 6 exact rfl))

theorem finishJobs_keep {s} (h : Keep p b s) : Keep p b (finishJobs s) := by
  unfold finishJobs
  refine finishStops_keep (Keep.foldl _ (Keep.of rfl rfl rfl rfl rfl rfl h) ?_)
  intro s j hs
  exact refund_keep (endCmd_keep hs)

theorem chargeDeficit_keep {s x2 x3} (h : Keep p b s) :
    Keep p b (chargeDeficit s x2 x3) := by
  unfold chargeDeficit
  try extract_lets
  repeat' (first | with_reducible assumption | intro _ | with_reducible apply State.modQueue_keep | with_reducible apply Keep.ite | with_reducible apply Keep.foldl | with_reducible apply Keep.foldl_fst | with_reducible apply Keep.ite_fst | ((fail_if_success (simp only [Keep.mkF]; with_reducible apply And.intro)); split) | dsimp only | (with_reducible apply Keep.mk; iterate 6 exact rfl))

theorem takeHead_keep {s x2 x3} (h : Keep p b s) :
    Keep p b (takeHead s x2 x3) := by
  unfold takeHead
  try extract_lets
  repeat' (first | with_reducible assumption | intro _ | with_reducible apply State.modQueue_keep | with_reducible apply State.inc_keep | with_reducible apply Keep.ite | with_reducible apply Keep.foldl | with_reducible apply Keep.foldl_fst | with_reducible apply Keep.ite_fst | ((fail_if_success (simp only [Keep.mkF]; with_reducible apply And.intro)); split) | dsimp only | (with_reducible apply Keep.mk; iterate 6 exact rfl))

theorem charge_keep {s x2 x3 x4} (h : Keep p b s) :
    Keep p b (charge s x2 x3 x4) := by
  unfold charge
  try extract_lets
  repeat' (first | with_reducible assumption | intro _ | with_reducible apply State.add_keep | with_reducible apply State.modQueue_keep | with_reducible apply State.modIns_keep | with_reducible apply Keep.ite | with_reducible apply Keep.foldl | with_reducible apply Keep.foldl_fst | with_reducible apply Keep.ite_fst | ((fail_if_success (simp only [Keep.mkF]; with_reducible apply And.intro)); split) | dsimp only | (with_reducible apply Keep.mk; iterate 6 exact rfl))

theorem fetchCmd_keep {s x2 x3 x4} (h : Keep p b s) :
    Keep p b (fetchCmd s x2 x3 x4).1 := by
  unfold fetchCmd
  try extract_lets
  repeat' (first | with_reducible assumption | intro _ | with_reducible apply seeTables_keep | (with_reducible refine readSpans_keep' ?_ (by assumption)) | with_reducible apply readSpans_keep | with_reducible apply Keep.ite | with_reducible apply Keep.foldl | with_reducible apply Keep.foldl_fst | with_reducible apply Keep.ite_fst | ((fail_if_success (simp only [Keep.mkF]; with_reducible apply And.intro)); split) | dsimp only | (with_reducible apply Keep.mk; iterate 6 exact rfl))

theorem fetchCmd_keep' {s x2 x3 x4 t y} (h : Keep p b s) (e : fetchCmd s x2 x3 x4 = (t, y)) : Keep p b t := by
  have := @fetchCmd_keep p b s x2 x3 x4 h
  rw [e] at this
  exact this

theorem reach_keep {x1 g2 x3 s} (k2 : ∀ y0 y1, Keep p b y1 → KeepB p b (g2 y0 y1)) (h : Keep p b s) :
    KeepB p b (reach x1 g2 x3 s) := by
  unfold reach
  try extract_lets
  repeat' (first | with_reducible assumption | intro _ | with_reducible apply k2 | with_reducible apply KeepB.ite | with_reducible apply KeepB.done | with_reducible apply KeepB.other | with_reducible apply KeepB.stage | with_reducible apply KeepB.wait | with_reducible apply KeepB.fail | with_reducible apply KeepB.bad | with_reducible apply KeepB.deny | with_reducible apply KeepB.lock | with_reducible apply KeepB.missing | with_reducible apply KeepB.full | with_reducible apply Keep.ite | with_reducible apply Keep.foldl | with_reducible apply Keep.foldl_fst | with_reducible apply Keep.ite_fst | ((fail_if_success (simp only [Keep.mkF]; with_reducible apply And.intro)); split) | dsimp only | (with_reducible apply Keep.mk; iterate 6 exact rfl))

theorem runAlone_keep {x1 x2 g3 s} (h : Keep p b s) (k3 : ∀ y0 y1, Keep p b y1 → KeepB p b (g3 y0 y1)) :
    Keep p b (runAlone x1 x2 g3 s) := by
  unfold runAlone
  dsimp only
  split
  · exact refund_keep (failAnswer_keep (countLate_keep h))
  · have hb := k3 x2 s h
    split
    · rename_i heq; rw [heq] at hb; exact settle_keep hb
    · rename_i heq; rw [heq] at hb; exact settle_keep hb
    · rename_i heq; rw [heq] at hb; exact refund_keep hb
    · exact refund_keep (failAnswer_keep h)
    · rename_i heq
      rw [heq] at hb
      split
      · exact refund_keep (failAnswer_keep h)
      · rename_i heq2
        refine settle_keep (stageItems_keep' ?_ heq2)
        exact Keep.of rfl rfl rfl rfl rfl rfl hb

theorem openChain_keep {x1 x2 x3 g4 s} (h : Keep p b s) (k4 : ∀ y0 y1, Keep p b y1 → KeepB p b (g4 y0 y1)) :
    Keep p b (openChain x1 x2 x3 g4 s) := by
  unfold openChain
  dsimp only
  split
  · exact failAnswer_keep (countLate_keep (State.modQueue_keep h))
  · have hb := k4 x2 s h
    split
    · exact failAnswer_keep (State.modQueue_keep h)
    · rename_i heq
      rw [heq] at hb
      split
      · exact failAnswer_keep (State.modQueue_keep h)
      · rename_i heq2
        refine State.modQueue_keep (stageItems_keep' ?_ heq2)
        exact Keep.of rfl rfl rfl rfl rfl rfl hb
    · rename_i heq; rw [heq] at hb; exact answer_keep hb
    · rename_i heq; rw [heq] at hb; exact answer_keep hb
    · rename_i heq; rw [heq] at hb; exact hb

theorem joinChain_keep {x1 x2 x3 x4 g5 s} (h : Keep p b s) (k5 : ∀ y0 y1, Keep p b y1 → KeepB p b (g5 y0 y1)) :
    Keep p b (joinChain x1 x2 x3 x4 g5 s) := by
  unfold joinChain
  dsimp only
  have hb := k5 x2 s h
  split
  · exact refund_keep (failChain_keep h)
  · rename_i heq
    rw [heq] at hb
    split
    · exact refund_keep (failChain_keep h)
    · rename_i heq2
      have h2 := stageItems_keep' hb heq2
      split
      · exact refund_keep (State.modQueue_keep h2)
      · exact settle_keep (State.modQueue_keep h2)
  · rename_i heq; rw [heq] at hb; exact answer_keep hb
  · rename_i heq; rw [heq] at hb; exact answer_keep hb
  · rename_i heq; rw [heq] at hb; exact hb

theorem refuseHead_keep {s x2 x3 x4} (h : Keep p b s) :
    Keep p b (refuseHead s x2 x3 x4) := by
  unfold refuseHead
  try extract_lets
  repeat' (first | with_reducible assumption | intro _ | with_reducible apply takeHead_keep | with_reducible apply failChain_keep | with_reducible apply failAnswer_keep | with_reducible apply State.modQueue_keep | with_reducible apply Keep.ite | with_reducible apply Keep.foldl | with_reducible apply Keep.foldl_fst | with_reducible apply Keep.ite_fst | ((fail_if_success (simp only [Keep.mkF]; with_reducible apply And.intro)); split) | dsimp only | (with_reducible apply Keep.mk; iterate 6 exact rfl))

theorem stallReply_keep {s x2} (h : Keep p b s) :
    Keep p b (stallReply s x2) := by
  unfold stallReply
  try extract_lets
  repeat' (first | with_reducible assumption | intro _ | with_reducible apply State.raise_keep | with_reducible apply State.modQueue_keep | with_reducible apply Keep.ite | with_reducible apply Keep.foldl | with_reducible apply Keep.foldl_fst | with_reducible apply Keep.ite_fst | ((fail_if_success (simp only [Keep.mkF]; with_reducible apply And.intro)); split) | dsimp only | (with_reducible apply Keep.mk; iterate 6 exact rfl))

theorem runQueue_keep {x1 x2 x3 g4 s} (h : Keep p b s) (k4 : ∀ y0 y1, Keep p b y1 → KeepB p b (g4 y0 y1)) :
    Keep p b (runQueue x1 x2 x3 g4 s) := by
  unfold runQueue
  dsimp only
  refine Keep.ite h (Keep.ite (stallReply_keep h) ?_)
  split
  · split
    · exact refuseHead_keep (fetchCmd_keep' h (by assumption))
    · exact fetchCmd_keep' h (by assumption)
  · refine Keep.ite h ?_
    split
    · exact fetchCmd_keep' h (by assumption)
    · rename_i s1 heq
      have h1 := fetchCmd_keep' h heq
      have h0 := fun c n x o => @charge_keep p b _ (.queue x3) n o (@takeHead_keep p b _ x3 c (@chargeDeficit_keep p b s1 x3 x h1))
      split
      · exact joinChain_keep (h0 _ _ _ _) k4
      · exact Keep.ite (refund_keep (openChain_keep (h0 _ _ _ _) k4)) (runAlone_keep (h0 _ _ _ _) k4)

theorem mboxUndefined_keep {s} (h : Keep p b s) : Keep p b (mboxUndefined s) := by
  unfold mboxUndefined
  generalize mboxCmd s = m
  obtain ⟨code, c⟩ := m
  exact Keep.ite h (failAnswer_keep (State.inc_keep h))

theorem runMbox_keep {x1 x2 g3 s} (h : Keep p b s) (k3 : ∀ y0 y1, Keep p b y1 → KeepB p b (g3 y0 y1)) :
    Keep p b (runMbox x1 x2 g3 s) := by
  unfold runMbox
  generalize mboxCmd s = m
  obtain ⟨code, c⟩ := m
  dsimp only
  refine Keep.ite h (Keep.ite (failAnswer_keep (State.inc_keep h)) ?_)
  split
  · exact failAnswer_keep (State.inc_keep h)
  · exact Keep.ite h (runAlone_keep (State.inc_keep (Keep.ite (charge_keep h) h)) k3)

theorem headerRead_keep {s x2 x3 x4} (h : Keep p b s) :
    Keep p b (headerRead s x2 x3 x4) := by
  unfold headerRead
  try extract_lets
  repeat' (first | with_reducible assumption | intro _ | with_reducible apply State.modQueue_keep | with_reducible apply stallReply_keep | with_reducible apply refuseHead_keep | with_reducible apply Keep.ite | with_reducible apply Keep.foldl | with_reducible apply Keep.foldl_fst | with_reducible apply Keep.ite_fst | ((fail_if_success (simp only [Keep.mkF]; with_reducible apply And.intro)); split) | dsimp only | (with_reducible apply Keep.mk; iterate 6 exact rfl))

theorem runCmd_keep {x1 x2 g3 s} (k3 : ∀ y0 y1, Keep p b y1 → KeepB p b (g3 y0 y1)) (h : Keep p b s) :
    KeepO p b (runCmd x1 x2 g3 s) := by
  unfold runCmd
  split
  · exact runQueue_keep (finishJobs_keep h) (fun _ _ hs => reach_keep k3 hs)
  · exact runMbox_keep (finishJobs_keep h) (fun _ _ hs => reach_keep k3 hs)

theorem doneAt_keep {s x2 x3 x4 x5} (h : Keep p b s) :
    KeepB p b (doneAt s x2 x3 x4 x5) := by
  unfold doneAt
  try extract_lets
  repeat' (first | with_reducible assumption | intro _ | with_reducible apply KeepB.ite | with_reducible apply KeepB.done | with_reducible apply KeepB.other | with_reducible apply KeepB.stage | with_reducible apply KeepB.wait | with_reducible apply KeepB.fail | with_reducible apply KeepB.bad | with_reducible apply KeepB.deny | with_reducible apply KeepB.lock | with_reducible apply KeepB.missing | with_reducible apply KeepB.full | (with_reducible refine hostWrite_keep' ?_ (by assumption)) | with_reducible apply hostWrite_keep | with_reducible apply Keep.ite | with_reducible apply Keep.foldl | with_reducible apply Keep.foldl_fst | with_reducible apply Keep.ite_fst | ((fail_if_success (simp only [Keep.mkF]; with_reducible apply And.intro)); split) | dsimp only | (with_reducible apply Keep.mk; iterate 6 exact rfl))

end Sys2Proof.Machine
end

