-- ==== Sys2Proof/Laws/KeepPipeline.lean ====
section
/-!
SUPPORT. What the operations of Machine/Pipeline.lean keep of the queue and the stores.
-/

set_option linter.all false

namespace Sys2Proof.Machine

variable {p : List Instr} {b : Prop}

theorem endPkt_keep {s x2} (h : Keep p b s) :
    Keep p b (endPkt s x2) := by
  unfold endPkt
  try extract_lets
  repeat' (first | with_reducible assumption | intro _ | with_reducible apply completeTx_keep | with_reducible apply Keep.ite | with_reducible apply Keep.foldl | with_reducible apply Keep.foldl_fst | with_reducible apply Keep.ite_fst | ((fail_if_success (simp only [Keep.mkF]; with_reducible apply And.intro)); split) | dsimp only | (with_reducible apply Keep.mk; iterate 6 exact rfl))

theorem completeBare_keep {s x2 x3} (h : Keep p b s) :
    Keep p b (completeBare s x2 x3) := by
  unfold completeBare
  try extract_lets
  repeat' (first | with_reducible assumption | intro _ | (with_reducible refine State.draw_keep' ?_ (by assumption)) | with_reducible apply State.draw_keep | with_reducible apply cqIssue_keep | with_reducible apply Keep.ite | with_reducible apply Keep.foldl | with_reducible apply Keep.foldl_fst | with_reducible apply Keep.ite_fst | ((fail_if_success (simp only [Keep.mkF]; with_reducible apply And.intro)); split) | dsimp only | (with_reducible apply Keep.mk; iterate 6 exact rfl))

theorem badCtxRx_keep {s x2 x3 x4 x5} (h : Keep p b s) :
    Keep p b (badCtxRx s x2 x3 x4 x5) := by
  unfold badCtxRx
  try extract_lets
  repeat' (first | with_reducible assumption | intro _ | with_reducible apply completeBare_keep | with_reducible apply countBadCtx_keep | with_reducible apply Keep.ite | with_reducible apply Keep.foldl | with_reducible apply Keep.foldl_fst | with_reducible apply Keep.ite_fst | ((fail_if_success (simp only [Keep.mkF]; with_reducible apply And.intro)); split) | dsimp only | (with_reducible apply Keep.mk; iterate 6 exact rfl))

theorem bindRx_keep {s x2 x3 x4} (h : Keep p b s) :
    Keep p b (bindRx s x2 x3 x4).1 := by
  unfold bindRx
  dsimp only
  repeat' (first | with_reducible assumption | intro _ | with_reducible apply State.raise_keep | with_reducible apply State.inc_keep | with_reducible apply badCtxRx_keep | (with_reducible refine espIn_keep' ?_ (by assumption)) | with_reducible apply espIn_keep | (with_reducible refine tlsRx_keep' ?_ (by assumption)) | with_reducible apply tlsRx_keep | (with_reducible refine stoRx_keep' ?_ (by assumption)) | with_reducible apply stoRx_keep | with_reducible apply completeBare_keep | with_reducible apply Keep.ite | with_reducible apply Keep.foldl | with_reducible apply Keep.foldl_fst | with_reducible apply Keep.ite_fst | ((fail_if_success (simp only [Keep.mkF]; with_reducible apply And.intro)); split) | dsimp only | (with_reducible apply Keep.mk; iterate 6 exact rfl))

theorem bindRx_keep' {s x2 x3 x4 t y} (h : Keep p b s) (e : bindRx s x2 x3 x4 = (t, y)) : Keep p b t := by
  have := @bindRx_keep p b s x2 x3 x4 h
  rw [e] at this
  exact this

theorem holdFrame_keep {s x2 x3} (h : Keep p b s) :
    Keep p b (holdFrame s x2 x3) := by
  unfold holdFrame
  try extract_lets
  repeat' (first | with_reducible assumption | intro _ | with_reducible apply State.inc_keep | with_reducible apply Keep.ite | with_reducible apply Keep.foldl | with_reducible apply Keep.foldl_fst | with_reducible apply Keep.ite_fst | ((fail_if_success (simp only [Keep.mkF]; with_reducible apply And.intro)); split) | dsimp only | (with_reducible apply Keep.mk; iterate 6 exact rfl))

theorem place_keep {s x2 x3} (h : Keep p b s) :
    Keep p b (place s x2 x3).1 := by
  unfold place
  try extract_lets
  repeat' (first | with_reducible assumption | intro _ | with_reducible apply holdFrame_keep | with_reducible apply admitFrame_keep | with_reducible apply Keep.ite | with_reducible apply Keep.foldl | with_reducible apply Keep.foldl_fst | with_reducible apply Keep.ite_fst | ((fail_if_success (simp only [Keep.mkF]; with_reducible apply And.intro)); split) | dsimp only | (with_reducible apply Keep.mk; iterate 6 exact rfl))

theorem place_keep' {s x2 x3 t y} (h : Keep p b s) (e : place s x2 x3 = (t, y)) : Keep p b t := by
  have := @place_keep p b s x2 x3 h
  rw [e] at this
  exact this

theorem offer_keep {s x2 x3} (h : Keep p b s) :
    Keep p b (offer s x2 x3).1 := by
  unfold offer
  try extract_lets
  repeat' (first | with_reducible assumption | intro _ | with_reducible apply endPkt_keep | with_reducible apply State.inc_keep | (with_reducible refine place_keep' ?_ (by assumption)) | with_reducible apply place_keep | (with_reducible refine bindRx_keep' ?_ (by assumption)) | with_reducible apply bindRx_keep | with_reducible apply Keep.ite | with_reducible apply Keep.foldl | with_reducible apply Keep.foldl_fst | with_reducible apply Keep.ite_fst | ((fail_if_success (simp only [Keep.mkF]; with_reducible apply And.intro)); split) | dsimp only | (with_reducible apply Keep.mk; iterate 6 exact rfl))

theorem offer_keep' {s x2 x3 t y} (h : Keep p b s) (e : offer s x2 x3 = (t, y)) : Keep p b t := by
  have := @offer_keep p b s x2 x3 h
  rw [e] at this
  exact this

theorem policePkt_keep {s x2 x3 x4} (h : Keep p b s) :
    Keep p b (policePkt s x2 x3 x4).1 := by
  unfold policePkt
  try extract_lets
  repeat' (first | with_reducible assumption | intro _ | (with_reducible refine police_keep' ?_ (by assumption)) | with_reducible apply police_keep | with_reducible apply Keep.ite | with_reducible apply Keep.foldl | with_reducible apply Keep.foldl_fst | with_reducible apply Keep.ite_fst | ((fail_if_success (simp only [Keep.mkF]; with_reducible apply And.intro)); split) | dsimp only | (with_reducible apply Keep.mk; iterate 6 exact rfl))

theorem policePkt_keep' {s x2 x3 x4 t y} (h : Keep p b s) (e : policePkt s x2 x3 x4 = (t, y)) : Keep p b t := by
  have := @policePkt_keep p b s x2 x3 x4 h
  rw [e] at this
  exact this

theorem capture_keep {s x2 x3} (h : Keep p b s) :
    Keep p b (capture s x2 x3) := by
  unfold capture
  try extract_lets
  repeat' (first | with_reducible assumption | intro _ | with_reducible apply State.inc_keep | with_reducible apply Keep.ite | with_reducible apply Keep.foldl | with_reducible apply Keep.foldl_fst | with_reducible apply Keep.ite_fst | ((fail_if_success (simp only [Keep.mkF]; with_reducible apply And.intro)); split) | dsimp only | (with_reducible apply Keep.mk; iterate 6 exact rfl))

theorem copyToProc_keep {s x2 x3 x4} (h : Keep p b s) :
    Keep p b (copyToProc s x2 x3 x4) := by
  unfold copyToProc
  try extract_lets
  repeat' (first | with_reducible assumption | intro _ | with_reducible apply capture_keep | (with_reducible refine offer_keep' ?_ (by assumption)) | with_reducible apply offer_keep | with_reducible apply State.inc_keep | with_reducible apply Keep.ite | with_reducible apply Keep.foldl | with_reducible apply Keep.foldl_fst | with_reducible apply Keep.ite_fst | ((fail_if_success (simp only [Keep.mkF]; with_reducible apply And.intro)); split) | dsimp only | (with_reducible apply Keep.mk; iterate 6 exact rfl))

theorem mirrorDue_keep {s x2} (h : Keep p b s) :
    Keep p b (mirrorDue s x2).1 := by
  unfold mirrorDue
  try extract_lets
  repeat' (first | with_reducible assumption | intro _ | with_reducible apply Keep.ite | with_reducible apply Keep.foldl | with_reducible apply Keep.foldl_fst | with_reducible apply Keep.ite_fst | ((fail_if_success (simp only [Keep.mkF]; with_reducible apply And.intro)); split) | dsimp only | (with_reducible apply Keep.mk; iterate 6 exact rfl))

theorem mirrorDue_keep' {s x2 t y} (h : Keep p b s) (e : mirrorDue s x2 = (t, y)) : Keep p b t := by
  have := @mirrorDue_keep p b s x2 h
  rw [e] at this
  exact this

theorem mirrorCount_keep {s x2 x3} (h : Keep p b s) :
    Keep p b (mirrorCount s x2 x3) := by
  unfold mirrorCount
  try extract_lets
  repeat' (first | with_reducible assumption | intro _ | with_reducible apply State.inc_keep | with_reducible apply Keep.ite | with_reducible apply Keep.foldl | with_reducible apply Keep.foldl_fst | with_reducible apply Keep.ite_fst | ((fail_if_success (simp only [Keep.mkF]; with_reducible apply And.intro)); split) | dsimp only | (with_reducible apply Keep.mk; iterate 6 exact rfl))

theorem learnAt_keep {s x2 x3 x4 x5 x6} (h : Keep p b s) :
    Keep p b (learnAt s x2 x3 x4 x5 x6) := by
  unfold learnAt
  try extract_lets
  repeat' (first | with_reducible assumption | intro _ | with_reducible apply learn_keep | with_reducible apply Keep.ite | with_reducible apply Keep.foldl | with_reducible apply Keep.foldl_fst | with_reducible apply Keep.ite_fst | ((fail_if_success (simp only [Keep.mkF]; with_reducible apply And.intro)); split) | dsimp only | (with_reducible apply Keep.mk; iterate 6 exact rfl))

theorem applyRewrite_keep {s x2 x3} (h : Keep p b s) :
    Keep p b (applyRewrite s x2 x3).1 := by
  unfold applyRewrite
  try extract_lets
  repeat' (first | with_reducible assumption | intro _ | with_reducible apply State.inc_keep | with_reducible apply Keep.ite | with_reducible apply Keep.foldl | with_reducible apply Keep.foldl_fst | with_reducible apply Keep.ite_fst | ((fail_if_success (simp only [Keep.mkF]; with_reducible apply And.intro)); split) | dsimp only | (with_reducible apply Keep.mk; iterate 6 exact rfl))

theorem applyRewrite_keep' {s x2 x3 t y} (h : Keep p b s) (e : applyRewrite s x2 x3 = (t, y)) : Keep p b t := by
  have := @applyRewrite_keep p b s x2 x3 h
  rw [e] at this
  exact this

theorem extraCopies_keep {s x2 x3 x4} (h : Keep p b s) :
    Keep p b (extraCopies s x2 x3 x4).1 := by
  unfold extraCopies
  try extract_lets
  repeat' (first | with_reducible assumption | intro _ | with_reducible apply copyToProc_keep | with_reducible apply Keep.ite | with_reducible apply Keep.foldl | with_reducible apply Keep.foldl_fst | with_reducible apply Keep.ite_fst | ((fail_if_success (simp only [Keep.mkF]; with_reducible apply And.intro)); split) | dsimp only | (with_reducible apply Keep.mk; iterate 6 exact rfl))

theorem extraCopies_keep' {s x2 x3 x4 t y} (h : Keep p b s) (e : extraCopies s x2 x3 x4 = (t, y)) : Keep p b t := by
  have := @extraCopies_keep p b s x2 x3 x4 h
  rw [e] at this
  exact this

/-- What a decision keeps: an L2 hit. -/
theorem switchHit_keep {s i a x o q n f} (h : Keep p b s) : Keep p b (switchHit s i a x o q n f).s := by
  unfold switchHit
  dsimp only
  repeat' (first | with_reducible assumption | with_reducible apply Keep.ite | with_reducible apply State.inc_keep | with_reducible apply countEntry_keep | with_reducible apply flowHit_keep | (with_reducible refine policePkt_keep' ?_ (by assumption)) | (with_reducible refine applyRewrite_keep' ?_ (by assumption)) | (with_reducible refine extraCopies_keep' ?_ (by assumption)) | with_reducible apply extraCopies_keep | with_reducible apply policePkt_keep | with_reducible apply applyRewrite_keep | split | dsimp only)

/-- What a decision keeps: the switch stage. -/
theorem switchStage_keep {s i a x o q d} (h : Keep p b s) : Keep p b (switchStage s i a x o q d).s := by
  unfold switchStage
  dsimp only
  repeat' (first | with_reducible assumption | with_reducible apply Keep.ite | with_reducible apply State.inc_keep | with_reducible apply countEntry_keep | with_reducible apply flowHit_keep | with_reducible apply learnAt_keep | with_reducible apply switchHit_keep | (with_reducible refine policePkt_keep' ?_ (by assumption)) | (with_reducible refine applyRewrite_keep' ?_ (by assumption)) | (with_reducible refine extraCopies_keep' ?_ (by assumption)) | with_reducible apply extraCopies_keep | with_reducible apply policePkt_keep | with_reducible apply applyRewrite_keep | split | dsimp only)

/-- What a decision keeps. -/
theorem decide__keep {s i x} (h : Keep p b s) : Keep p b (decide_ s i x).s := by
  unfold decide_
  extract_lets b0 q s1 s2 s3 l w wDecap f s4 d s5 hash
  have h1 : Keep p b s1 := State.inc_keep h
  have h2 : Keep p b s2 := Keep.ite h1 (State.inc_keep h1)
  have h3 : Keep p b s3 := Keep.ite (State.inc_keep h2) h2
  have h4 : Keep p b s4 := by
    show Keep p b (match f with | some (pos, _) => flowHit s3 pos | none => s3)
    clear_value f
    split
    · exact flowHit_keep h3
    · exact h3
  have h5 : Keep p b s5 := by
    show Keep p b (match d with | some e => countEntry s4 e x.len | none => s4)
    clear_value d
    split
    · exact countEntry_keep h4
    · exact h4
  clear_value s5
  split
  rename_i act owner _
  extract_lets orig
  split
  · exact h5
  · dsimp only
    have h6 := @extraCopies_keep p b s5 act orig q h5
    generalize extraCopies s5 act orig q = e6 at h6
    split
    · rename_i heq
      split at heq
      · exact applyRewrite_keep' h6 heq
      · injection heq with e1 e2
        rw [← e1]
        exact h6
    · rename_i s7 p2 heq
      have h7 : Keep p b s7 := by
        split at heq
        · exact applyRewrite_keep' h6 heq
        · injection heq with e1 e2
          rw [← e1]
          exact h6
      split
      · exact policePkt_keep' h7 (by assumption)
      · rename_i s8 p3 heq8
        have h8 : Keep p b s8 := policePkt_keep' h7 heq8
        split
        · exact switchStage_keep h8
        · exact h8

theorem sendTo_keep0 {s i x t} (h : Keep p b s) : Keep p b (sendTo 0 s i x t).1 := by
  unfold sendTo
  cases t <;> dsimp only
  · exact endPkt_keep h
  · exact offer_keep h
  · exact offer_keep h
  · exact endPkt_keep (State.inc_keep h)

theorem sendTo_keep {n s i x t} (h : Keep p b s) : Keep p b (sendTo n s i x t).1 := by
  cases n with
  | zero => exact sendTo_keep0 h
  | succ n =>
    unfold sendTo
    cases t with
    | nowhere => exact endPkt_keep h
    | port k => exact offer_keep h
    | queue i k e => exact offer_keep h
    | tunnel t =>
      dsimp only
      split
      · exact endPkt_keep (State.inc_keep h)
      · rename_i prof _
        generalize hr : decide_ s _ _ = r
        have hk : Keep p b r.s := by rw [← hr]; exact decide__keep h
        generalize hf : List.foldl _ r.s r.mirrors = s1
        have h1 : Keep p b s1 := by
          rw [← hf]
          refine Keep.foldl _ hk ?_
          intro s m hs
          split
          · exact mirrorDue_keep' hs (by assumption)
          · exact mirrorCount_keep (sendTo_keep0 (mirrorDue_keep' hs (by assumption)))
        split
        · exact endPkt_keep h1
        · refine Keep.foldl_fst _ (sendTo_keep0 h1) ?_
          intro a t ha
          exact sendTo_keep0 ha

theorem sendMirrors_keep {s x2 x3 x4} (h : Keep p b s) :
    Keep p b (sendMirrors s x2 x3 x4) := by
  unfold sendMirrors
  try extract_lets
  repeat' (first | with_reducible assumption | intro _ | (with_reducible refine mirrorDue_keep' ?_ (by assumption)) | with_reducible apply mirrorDue_keep | (with_reducible refine sendTo_keep' ?_ (by assumption)) | with_reducible apply sendTo_keep | with_reducible apply mirrorCount_keep | with_reducible apply Keep.ite | with_reducible apply Keep.foldl | with_reducible apply Keep.foldl_fst | with_reducible apply Keep.ite_fst | ((fail_if_success (simp only [Keep.mkF]; with_reducible apply And.intro)); split) | dsimp only | (with_reducible apply Keep.mk; iterate 6 exact rfl))

theorem pipeline.go_keep {s i r x} (h : Keep p b s) : Keep p b (pipeline.go s i r x) := by
  unfold pipeline.go
  split
  · exact endPkt_keep h
  · exact sendTo_keep h
  · refine Keep.foldl _ (sendTo_keep h) ?_
    intro s t hs
    exact sendTo_keep hs

theorem pipeline_keep {s x2} (h : Keep p b s) : Keep p b (pipeline s x2) := by
  unfold pipeline
  dsimp only
  have hm := @meetEcc_keep p b s x2.ecc h
  generalize meetEcc s x2.ecc = t at hm
  have hd := fun i => @decide__keep p b t i x2 hm
  split
  · split
    · exact pipeline.go_keep (sendMirrors_keep (hd _))
    · split
      · exact pipeline.go_keep (sendMirrors_keep (hd _))
      · exact endPkt_keep (State.inc_keep (sendMirrors_keep (hd _)))
  · exact pipeline.go_keep (sendMirrors_keep (hd _))

theorem overrunDrop_keep {s x2} (h : Keep p b s) :
    Keep p b (overrunDrop s x2) := by
  unfold overrunDrop
  try extract_lets
  repeat' (first | with_reducible assumption | intro _ | with_reducible apply State.inc_keep | with_reducible apply Keep.ite | with_reducible apply Keep.foldl | with_reducible apply Keep.foldl_fst | with_reducible apply Keep.ite_fst | ((fail_if_success (simp only [Keep.mkF]; with_reducible apply And.intro)); split) | dsimp only | (with_reducible apply Keep.mk; iterate 6 exact rfl))

end Sys2Proof.Machine
end

