-- ==== Sys2Proof/Laws/KeepMacOps.lean ====
section
/-!
SUPPORT. What the operations of Machine/MacOps.lean keep of the queue and the stores.
-/

set_option linter.all false

namespace Sys2Proof.Machine

variable {p : List Instr} {b : Prop}

theorem mapHeld_keep {s x2} (h : Keep p b s) :
    Keep p b (mapHeld s x2) := by
  unfold mapHeld
  try extract_lets
  repeat' (first | with_reducible assumption | intro _ | with_reducible apply Keep.ite | with_reducible apply Keep.foldl | with_reducible apply Keep.foldl_fst | with_reducible apply Keep.ite_fst | ((fail_if_success (simp only [Keep.mkF]; with_reducible apply And.intro)); split) | dsimp only | (with_reducible apply Keep.mk; iterate 6 exact rfl))

theorem removeHeld_keep {s x2} (h : Keep p b s) :
    Keep p b (removeHeld s x2) := by
  unfold removeHeld
  try extract_lets
  repeat' (first | with_reducible assumption | intro _ | with_reducible apply dropQueued_keep | with_reducible apply Keep.ite | with_reducible apply Keep.foldl | with_reducible apply Keep.foldl_fst | with_reducible apply Keep.ite_fst | ((fail_if_success (simp only [Keep.mkF]; with_reducible apply And.intro)); split) | dsimp only | (with_reducible apply Keep.mk; iterate 6 exact rfl))

theorem doTail_keep {s x2 x3} (h : Keep p b s) :
    Keep p b (doTail s x2 x3) := by
  unfold doTail
  try extract_lets
  repeat' (first | with_reducible assumption | intro _ | with_reducible apply learn_keep | with_reducible apply State.inc_keep | with_reducible apply capture_keep | with_reducible apply Keep.ite | with_reducible apply Keep.foldl | with_reducible apply Keep.foldl_fst | with_reducible apply Keep.ite_fst | ((fail_if_success (simp only [Keep.mkF]; with_reducible apply And.intro)); split) | dsimp only | (with_reducible apply Keep.mk; iterate 6 exact rfl))

theorem endCut_keep {s x2 x3} (h : Keep p b s) :
    Keep p b (endCut s x2 x3) := by
  unfold endCut
  try extract_lets
  repeat' (first | with_reducible assumption | intro _ | with_reducible apply Keep.ite | with_reducible apply Keep.foldl | with_reducible apply Keep.foldl_fst | with_reducible apply Keep.ite_fst | ((fail_if_success (simp only [Keep.mkF]; with_reducible apply And.intro)); split) | dsimp only | (with_reducible apply Keep.mk; iterate 6 exact rfl))

theorem reviewPort_keep {s x2} (h : Keep p b s) :
    Keep p b (reviewPort s x2) := by
  unfold reviewPort
  try extract_lets
  repeat' (first | with_reducible assumption | intro _ | with_reducible apply reviewIng_keep | with_reducible apply Keep.ite | with_reducible apply Keep.foldl | with_reducible apply Keep.foldl_fst | with_reducible apply Keep.ite_fst | ((fail_if_success (simp only [Keep.mkF]; with_reducible apply And.intro)); split) | dsimp only | (with_reducible apply Keep.mk; iterate 6 exact rfl))

theorem slagCut_keep {s x2 x3 x4} (h : Keep p b s) :
    Keep p b (slagCut s x2 x3 x4) := by
  unfold slagCut
  try extract_lets
  repeat' (first | with_reducible assumption | intro _ | with_reducible apply reviewPort_keep | with_reducible apply State.inc_keep | with_reducible apply endCut_keep | with_reducible apply removeHeld_keep | with_reducible apply Keep.ite | with_reducible apply Keep.foldl | with_reducible apply Keep.foldl_fst | with_reducible apply Keep.ite_fst | ((fail_if_success (simp only [Keep.mkF]; with_reducible apply And.intro)); split) | dsimp only | (with_reducible apply Keep.mk; iterate 6 exact rfl))

theorem underOld_keep {s x2 g3} (h : Keep p b s) (k3 : ∀ y0, Keep p b y0 → Keep p b (g3 y0)) :
    Keep p b (underOld s x2 g3) := by
  unfold underOld
  try extract_lets
  repeat' (first | with_reducible assumption | intro _ | with_reducible apply k3 | with_reducible apply Keep.ite | with_reducible apply Keep.foldl | with_reducible apply Keep.foldl_fst | with_reducible apply Keep.ite_fst | ((fail_if_success (simp only [Keep.mkF]; with_reducible apply And.intro)); split) | dsimp only | (with_reducible apply Keep.mk; iterate 6 exact rfl))

theorem goodCut_keep {s x2 x3 x4 x5 x6} (h : Keep p b s) :
    Keep p b (goodCut s x2 x3 x4 x5 x6) := by
  unfold goodCut
  try extract_lets
  repeat' (first | with_reducible assumption | intro _ | with_reducible apply endCut_keep | with_reducible apply mapHeld_keep | with_reducible apply meetEcc_keep | (with_reducible refine bindRx_keep' ?_ (by assumption)) | with_reducible apply bindRx_keep | with_reducible apply removeHeld_keep | with_reducible apply doTail_keep | with_reducible apply reviewPort_keep | with_reducible apply Keep.ite | with_reducible apply Keep.foldl | with_reducible apply Keep.foldl_fst | with_reducible apply Keep.ite_fst | ((fail_if_success (simp only [Keep.mkF]; with_reducible apply And.intro)); split) | dsimp only | (with_reducible apply Keep.mk; iterate 6 exact rfl))

theorem resumeTop_keep {s x2} (h : Keep p b s) :
    Keep p b (resumeTop s x2) := by
  unfold resumeTop
  try extract_lets
  repeat' (first | with_reducible assumption | intro _ | with_reducible apply Keep.ite | with_reducible apply Keep.foldl | with_reducible apply Keep.foldl_fst | with_reducible apply Keep.ite_fst | ((fail_if_success (simp only [Keep.mkF]; with_reducible apply And.intro)); split) | dsimp only | (with_reducible apply Keep.mk; iterate 6 exact rfl))

theorem startVerify_keep {s x2} (h : Keep p b s) :
    Keep p b (startVerify s x2) := by
  unfold startVerify
  try extract_lets
  repeat' (first | with_reducible assumption | intro _ | with_reducible apply resumeTop_keep | with_reducible apply State.setMac_keep | with_reducible apply State.emit_keep | with_reducible apply Keep.ite | with_reducible apply Keep.foldl | with_reducible apply Keep.foldl_fst | with_reducible apply Keep.ite_fst | ((fail_if_success (simp only [Keep.mkF]; with_reducible apply And.intro)); split) | dsimp only | (with_reducible apply Keep.mk; iterate 6 exact rfl))

theorem pressAgain_keep {s x2} (h : Keep p b s) :
    Keep p b (pressAgain s x2) := by
  unfold pressAgain
  try extract_lets
  repeat' (first | with_reducible assumption | intro _ | with_reducible apply xoffSend_keep | with_reducible apply Keep.ite | with_reducible apply Keep.foldl | with_reducible apply Keep.foldl_fst | with_reducible apply Keep.ite_fst | ((fail_if_success (simp only [Keep.mkF]; with_reducible apply And.intro)); split) | dsimp only | (with_reducible apply Keep.mk; iterate 6 exact rfl))

theorem macUp_keep {s x2} (h : Keep p b s) :
    Keep p b (macUp s x2) := by
  unfold macUp
  try extract_lets
  repeat' (first | with_reducible assumption | intro _ | with_reducible apply State.modMac_keep | with_reducible apply pressAgain_keep | with_reducible apply startVerify_keep | with_reducible apply Keep.ite | with_reducible apply Keep.foldl | with_reducible apply Keep.foldl_fst | with_reducible apply Keep.ite_fst | ((fail_if_success (simp only [Keep.mkF]; with_reducible apply And.intro)); split) | dsimp only | (with_reducible apply Keep.mk; iterate 6 exact rfl))

theorem macDown_keep {s x2} (h : Keep p b s) :
    Keep p b (macDown s x2) := by
  unfold macDown
  try extract_lets
  repeat' (first | with_reducible assumption | intro _ | with_reducible apply resumeTop_keep | with_reducible apply State.modMac_keep | with_reducible apply slagCut_keep | with_reducible apply Keep.ite | with_reducible apply Keep.foldl | with_reducible apply Keep.foldl_fst | with_reducible apply Keep.ite_fst | ((fail_if_success (simp only [Keep.mkF]; with_reducible apply And.intro)); split) | dsimp only | (with_reducible apply Keep.mk; iterate 6 exact rfl))

theorem holdCuts_keep {s x2} (h : Keep p b s) :
    Keep p b (holdCuts s x2) := by
  unfold holdCuts
  try extract_lets
  repeat' (first | with_reducible assumption | intro _ | with_reducible apply Keep.ite | with_reducible apply Keep.foldl | with_reducible apply Keep.foldl_fst | with_reducible apply Keep.ite_fst | ((fail_if_success (simp only [Keep.mkF]; with_reducible apply And.intro)); split) | dsimp only | (with_reducible apply Keep.mk; iterate 6 exact rfl))

theorem holdOn_keep {s x2 x3} (h : Keep p b s) :
    Keep p b (holdOn s x2 x3) := by
  unfold holdOn
  try extract_lets
  repeat' (first | with_reducible assumption | intro _ | with_reducible apply holdCuts_keep | with_reducible apply State.modMac_keep | with_reducible apply Keep.ite | with_reducible apply Keep.foldl | with_reducible apply Keep.foldl_fst | with_reducible apply Keep.ite_fst | ((fail_if_success (simp only [Keep.mkF]; with_reducible apply And.intro)); split) | dsimp only | (with_reducible apply Keep.mk; iterate 6 exact rfl))

theorem holdOff_keep {s x2 x3} (h : Keep p b s) :
    Keep p b (holdOff s x2 x3) := by
  unfold holdOff
  try extract_lets
  repeat' (first | with_reducible assumption | intro _ | with_reducible apply resumeTop_keep | with_reducible apply State.modMac_keep | with_reducible apply Keep.ite | with_reducible apply Keep.foldl | with_reducible apply Keep.foldl_fst | with_reducible apply Keep.ite_fst | ((fail_if_success (simp only [Keep.mkF]; with_reducible apply And.intro)); split) | dsimp only | (with_reducible apply Keep.mk; iterate 6 exact rfl))

theorem overrunGate_keep {s x2 x3} (h : Keep p b s) :
    Keep p b (overrunGate s x2 x3) := by
  unfold overrunGate
  try extract_lets
  repeat' (first | with_reducible assumption | intro _ | with_reducible apply State.inc_keep | with_reducible apply Keep.ite | with_reducible apply Keep.foldl | with_reducible apply Keep.foldl_fst | with_reducible apply Keep.ite_fst | ((fail_if_success (simp only [Keep.mkF]; with_reducible apply And.intro)); split) | dsimp only | (with_reducible apply Keep.mk; iterate 6 exact rfl))

theorem beginEntry_keep {s x2 x3 x4 x5} (h : Keep p b s) :
    Keep p b (beginEntry s x2 x3 x4 x5) := by
  unfold beginEntry
  try extract_lets
  repeat' (first | with_reducible assumption | intro _ | with_reducible apply overrunGate_keep | with_reducible apply State.modMac_keep | with_reducible apply holdOn_keep | with_reducible apply holdOff_keep | with_reducible apply Keep.ite | with_reducible apply Keep.foldl | with_reducible apply Keep.foldl_fst | with_reducible apply Keep.ite_fst | ((fail_if_success (simp only [Keep.mkF]; with_reducible apply And.intro)); split) | dsimp only | (with_reducible apply Keep.mk; iterate 6 exact rfl))

theorem gateStart_keep {s x2 x3} (h : Keep p b s) :
    Keep p b (gateStart s x2 x3) := by
  unfold gateStart
  try extract_lets
  repeat' (first | with_reducible assumption | intro _ | with_reducible apply State.modMac_keep | with_reducible apply beginEntry_keep | with_reducible apply State.post_keep | with_reducible apply State.macRaise_keep | with_reducible apply Keep.ite | with_reducible apply Keep.foldl | with_reducible apply Keep.foldl_fst | with_reducible apply Keep.ite_fst | ((fail_if_success (simp only [Keep.mkF]; with_reducible apply And.intro)); split) | dsimp only | (with_reducible apply Keep.mk; iterate 6 exact rfl))

theorem gatesAtStrike_keep {s} (h : Keep p b s) :
    Keep p b (gatesAtStrike s) := by
  unfold gatesAtStrike
  try extract_lets
  repeat' (first | with_reducible assumption | intro _ | with_reducible apply beginEntry_keep | with_reducible apply Keep.ite | with_reducible apply Keep.foldl | with_reducible apply Keep.foldl_fst | with_reducible apply Keep.ite_fst | ((fail_if_success (simp only [Keep.mkF]; with_reducible apply And.intro)); split) | dsimp only | (with_reducible apply Keep.mk; iterate 6 exact rfl))

theorem gatesAtJump_keep {s} (h : Keep p b s) :
    Keep p b (gatesAtJump s) := by
  unfold gatesAtJump
  try extract_lets
  repeat' (first | with_reducible assumption | intro _ | with_reducible apply State.setMac_keep | with_reducible apply beginEntry_keep | with_reducible apply State.modMac_keep | with_reducible apply overrunGate_keep | with_reducible apply Keep.ite | with_reducible apply Keep.foldl | with_reducible apply Keep.foldl_fst | with_reducible apply Keep.ite_fst | ((fail_if_success (simp only [Keep.mkF]; with_reducible apply And.intro)); split) | dsimp only | (with_reducible apply Keep.mk; iterate 6 exact rfl))

theorem ifDue_keep {g1 g2 s} (k2 : ∀ y0, Keep p b y0 → Keep p b (g2 y0)) (h : Keep p b s) :
    Keep p b (ifDue g1 g2 s) := by
  unfold ifDue
  try extract_lets
  repeat' (first | with_reducible assumption | intro _ | with_reducible apply k2 | with_reducible apply Keep.ite | with_reducible apply Keep.foldl | with_reducible apply Keep.foldl_fst | with_reducible apply Keep.ite_fst | ((fail_if_success (simp only [Keep.mkF]; with_reducible apply And.intro)); split) | dsimp only | (with_reducible apply Keep.mk; iterate 6 exact rfl))

theorem expiryAct_keep {x1 x2 s} (h : Keep p b s) :
    Keep p b (expiryAct x1 x2 s) := by
  unfold expiryAct
  try extract_lets
  repeat' (first | with_reducible assumption | intro _ | with_reducible apply State.setPc_keep | with_reducible apply Keep.ite | with_reducible apply Keep.foldl | with_reducible apply Keep.foldl_fst | with_reducible apply Keep.ite_fst | ((fail_if_success (simp only [Keep.mkF]; with_reducible apply And.intro)); split) | dsimp only | (with_reducible apply Keep.mk; iterate 6 exact rfl))

theorem repeatAct_keep {x1 x2 s} (h : Keep p b s) :
    Keep p b (repeatAct x1 x2 s) := by
  unfold repeatAct
  try extract_lets
  repeat' (first | with_reducible assumption | intro _ | with_reducible apply xoffSend_keep | with_reducible apply Keep.ite | with_reducible apply Keep.foldl | with_reducible apply Keep.foldl_fst | with_reducible apply Keep.ite_fst | ((fail_if_success (simp only [Keep.mkF]; with_reducible apply And.intro)); split) | dsimp only | (with_reducible apply Keep.mk; iterate 6 exact rfl))

theorem capAct_keep {x1 x2 s} (h : Keep p b s) :
    Keep p b (capAct x1 x2 s) := by
  unfold capAct
  try extract_lets
  repeat' (first | with_reducible assumption | intro _ | with_reducible apply xonSend_keep | with_reducible apply State.macRaise_keep | with_reducible apply State.inc_keep | with_reducible apply State.setPc_keep | with_reducible apply Keep.ite | with_reducible apply Keep.foldl | with_reducible apply Keep.foldl_fst | with_reducible apply Keep.ite_fst | ((fail_if_success (simp only [Keep.mkF]; with_reducible apply And.intro)); split) | dsimp only | (with_reducible apply Keep.mk; iterate 6 exact rfl))

theorem windowAct_keep {x1 s} (h : Keep p b s) :
    Keep p b (windowAct x1 s) := by
  unfold windowAct
  try extract_lets
  repeat' (first | with_reducible assumption | intro _ | with_reducible apply State.modMac_keep | with_reducible apply pressAgain_keep | with_reducible apply Keep.ite | with_reducible apply Keep.foldl | with_reducible apply Keep.foldl_fst | with_reducible apply Keep.ite_fst | ((fail_if_success (simp only [Keep.mkF]; with_reducible apply And.intro)); split) | dsimp only | (with_reducible apply Keep.mk; iterate 6 exact rfl))

theorem stormAct_keep {x1 x2 s} (h : Keep p b s) :
    Keep p b (stormAct x1 x2 s) := by
  unfold stormAct
  try extract_lets
  repeat' (first | with_reducible assumption | intro _ | with_reducible apply dropQueued_keep | with_reducible apply State.inc_keep | with_reducible apply State.setPc_keep | with_reducible apply State.postB_keep | with_reducible apply State.macRaise_keep | with_reducible apply Keep.ite | with_reducible apply Keep.foldl | with_reducible apply Keep.foldl_fst | with_reducible apply Keep.ite_fst | ((fail_if_success (simp only [Keep.mkF]; with_reducible apply And.intro)); split) | dsimp only | (with_reducible apply Keep.mk; iterate 6 exact rfl))

theorem recoverAct_keep {x1 x2 s} (h : Keep p b s) :
    Keep p b (recoverAct x1 x2 s) := by
  unfold recoverAct
  try extract_lets
  repeat' (first | with_reducible assumption | intro _ | with_reducible apply State.setPc_keep | with_reducible apply Keep.ite | with_reducible apply Keep.foldl | with_reducible apply Keep.foldl_fst | with_reducible apply Keep.ite_fst | ((fail_if_success (simp only [Keep.mkF]; with_reducible apply And.intro)); split) | dsimp only | (with_reducible apply Keep.mk; iterate 6 exact rfl))

theorem verifyAct_keep {x1 s} (h : Keep p b s) :
    Keep p b (verifyAct x1 s) := by
  unfold verifyAct
  try extract_lets
  repeat' (first | with_reducible assumption | intro _ | with_reducible apply State.emit_keep | with_reducible apply State.modMac_keep | with_reducible apply State.postB_keep | with_reducible apply State.macRaise_keep | with_reducible apply State.inc_keep | with_reducible apply Keep.ite | with_reducible apply Keep.foldl | with_reducible apply Keep.foldl_fst | with_reducible apply Keep.ite_fst | ((fail_if_success (simp only [Keep.mkF]; with_reducible apply And.intro)); split) | dsimp only | (with_reducible apply Keep.mk; iterate 6 exact rfl))

end Sys2Proof.Machine
end

