-- ==== Sys2Proof/Laws/KeepLaneOps.lean ====
section
/-!
SUPPORT. What the operations of Machine/LaneOps.lean keep of the queue and the stores.
-/

set_option linter.all false

namespace Sys2Proof.Machine

variable {p : List Instr} {b : Prop}

theorem State.setLane_keep {s x2 x3} (h : Keep p b s) :
    Keep p b (State.setLane s x2 x3) := by
  unfold State.setLane
  try extract_lets
  repeat' (first | with_reducible assumption | intro _ | with_reducible apply Keep.ite | with_reducible apply Keep.foldl | with_reducible apply Keep.foldl_fst | with_reducible apply Keep.ite_fst | ((fail_if_success (simp only [Keep.mkF]; with_reducible apply And.intro)); split) | dsimp only | (with_reducible apply Keep.mk; iterate 6 exact rfl))

theorem State.setPort_keep {s x2 x3} (h : Keep p b s) :
    Keep p b (State.setPort s x2 x3) := by
  unfold State.setPort
  try extract_lets
  repeat' (first | with_reducible assumption | intro _ | with_reducible apply Keep.ite | with_reducible apply Keep.foldl | with_reducible apply Keep.foldl_fst | with_reducible apply Keep.ite_fst | ((fail_if_success (simp only [Keep.mkF]; with_reducible apply And.intro)); split) | dsimp only | (with_reducible apply Keep.mk; iterate 6 exact rfl))

theorem State.movePort_keep {s x2 x3} (h : Keep p b s) :
    Keep p b (State.movePort s x2 x3) := by
  unfold State.movePort
  try extract_lets
  repeat' (first | with_reducible assumption | intro _ | with_reducible apply State.raise_keep | with_reducible apply State.setPort_keep | with_reducible apply macDown_keep | with_reducible apply macUp_keep | with_reducible apply Keep.ite | with_reducible apply Keep.foldl | with_reducible apply Keep.foldl_fst | with_reducible apply Keep.ite_fst | ((fail_if_success (simp only [Keep.mkF]; with_reducible apply And.intro)); split) | dsimp only | (with_reducible apply Keep.mk; iterate 6 exact rfl))

theorem stepCore_keep {s s2} (h : Keep p b s) (h2 : Keep p b s2) :
    Keep p b (stepCore s s2) := by
  unfold stepCore
  try extract_lets
  repeat' (first | with_reducible assumption | intro _ | with_reducible apply Keep.ite | with_reducible apply Keep.foldl | with_reducible apply Keep.foldl_fst | with_reducible apply Keep.ite_fst | ((fail_if_success (simp only [Keep.mkF]; with_reducible apply And.intro)); split) | dsimp only | (with_reducible apply Keep.mk; iterate 6 exact rfl))

theorem rateLanes_keep {s x2 x3} (h : Keep p b s) :
    Keep p b (rateLanes s x2 x3) := by
  unfold rateLanes
  try extract_lets
  repeat' (first | with_reducible assumption | intro _ | with_reducible apply stepCore_keep | with_reducible apply State.setLane_keep | with_reducible apply Keep.ite | with_reducible apply Keep.foldl | with_reducible apply Keep.foldl_fst | with_reducible apply Keep.ite_fst | ((fail_if_success (simp only [Keep.mkF]; with_reducible apply And.intro)); split) | dsimp only | (with_reducible apply Keep.mk; iterate 6 exact rfl))

theorem powerLane_keep {s x2 x3} (h : Keep p b s) :
    Keep p b (powerLane s x2 x3) := by
  unfold powerLane
  try extract_lets
  repeat' (first | with_reducible assumption | intro _ | with_reducible apply stepCore_keep | with_reducible apply State.setLane_keep | with_reducible apply Keep.ite | with_reducible apply Keep.foldl | with_reducible apply Keep.foldl_fst | with_reducible apply Keep.ite_fst | ((fail_if_success (simp only [Keep.mkF]; with_reducible apply And.intro)); split) | dsimp only | (with_reducible apply Keep.mk; iterate 6 exact rfl))

theorem askPower_keep {s x2 x3} (h : Keep p b s) :
    Keep p b (askPower s x2 x3) := by
  unfold askPower
  try extract_lets
  repeat' (first | with_reducible assumption | intro _ | with_reducible apply Keep.ite | with_reducible apply Keep.foldl | with_reducible apply Keep.foldl_fst | with_reducible apply Keep.ite_fst | ((fail_if_success (simp only [Keep.mkF]; with_reducible apply And.intro)); split) | dsimp only | (with_reducible apply Keep.mk; iterate 6 exact rfl))

theorem trimLanes_keep {s x2 x3 x4} (h : Keep p b s) :
    Keep p b (trimLanes s x2 x3 x4) := by
  unfold trimLanes
  try extract_lets
  repeat' (first | with_reducible assumption | intro _ | with_reducible apply askPower_keep | with_reducible apply Keep.ite | with_reducible apply Keep.foldl | with_reducible apply Keep.foldl_fst | with_reducible apply Keep.ite_fst | ((fail_if_success (simp only [Keep.mkF]; with_reducible apply And.intro)); split) | dsimp only | (with_reducible apply Keep.mk; iterate 6 exact rfl))

theorem bringUp_keep {s x2 x3 x4 x5 x6} (h : Keep p b s) :
    Keep p b (bringUp s x2 x3 x4 x5 x6) := by
  unfold bringUp
  try extract_lets
  repeat' (first | with_reducible assumption | intro _ | with_reducible apply State.movePort_keep | with_reducible apply askPower_keep | with_reducible apply rateLanes_keep | with_reducible apply Keep.ite | with_reducible apply Keep.foldl | with_reducible apply Keep.foldl_fst | with_reducible apply Keep.ite_fst | ((fail_if_success (simp only [Keep.mkF]; with_reducible apply And.intro)); split) | dsimp only | (with_reducible apply Keep.mk; iterate 6 exact rfl))

theorem portDown_keep {s x2 x3} (h : Keep p b s) :
    Keep p b (portDown s x2 x3) := by
  unfold portDown
  try extract_lets
  repeat' (first | with_reducible assumption | intro _ | with_reducible apply State.post_keep | with_reducible apply State.inc_keep | with_reducible apply State.movePort_keep | with_reducible apply Keep.ite | with_reducible apply Keep.foldl | with_reducible apply Keep.foldl_fst | with_reducible apply Keep.ite_fst | ((fail_if_success (simp only [Keep.mkF]; with_reducible apply And.intro)); split) | dsimp only | (with_reducible apply Keep.mk; iterate 6 exact rfl))

theorem stayDown_keep {s x2} (h : Keep p b s) :
    Keep p b (stayDown s x2) := by
  unfold stayDown
  try extract_lets
  repeat' (first | with_reducible assumption | intro _ | with_reducible apply State.setPort_keep | with_reducible apply portDown_keep | with_reducible apply Keep.ite | with_reducible apply Keep.foldl | with_reducible apply Keep.foldl_fst | with_reducible apply Keep.ite_fst | ((fail_if_success (simp only [Keep.mkF]; with_reducible apply And.intro)); split) | dsimp only | (with_reducible apply Keep.mk; iterate 6 exact rfl))

theorem attempt_keep {s x2 x3 x4} (h : Keep p b s) :
    Keep p b (attempt s x2 x3 x4) := by
  unfold attempt
  try extract_lets
  repeat' (first | with_reducible assumption | intro _ | with_reducible apply stayDown_keep | with_reducible apply bringUp_keep | with_reducible apply trimLanes_keep | with_reducible apply Keep.ite | with_reducible apply Keep.foldl | with_reducible apply Keep.foldl_fst | with_reducible apply Keep.ite_fst | ((fail_if_success (simp only [Keep.mkF]; with_reducible apply And.intro)); split) | dsimp only | (with_reducible apply Keep.mk; iterate 6 exact rfl))

theorem reviewHealth_keep {s x2} (h : Keep p b s) :
    Keep p b (reviewHealth s x2) := by
  unfold reviewHealth
  try extract_lets
  repeat' (first | with_reducible assumption | intro _ | with_reducible apply State.setPort_keep | with_reducible apply Keep.ite | with_reducible apply Keep.foldl | with_reducible apply Keep.foldl_fst | with_reducible apply Keep.ite_fst | ((fail_if_success (simp only [Keep.mkF]; with_reducible apply And.intro)); split) | dsimp only | (with_reducible apply Keep.mk; iterate 6 exact rfl))

theorem degradePort_keep {s x2} (h : Keep p b s) :
    Keep p b (degradePort s x2) := by
  unfold degradePort
  try extract_lets
  repeat' (first | with_reducible assumption | intro _ | with_reducible apply attempt_keep | with_reducible apply Keep.ite | with_reducible apply Keep.foldl | with_reducible apply Keep.foldl_fst | with_reducible apply Keep.ite_fst | ((fail_if_success (simp only [Keep.mkF]; with_reducible apply And.intro)); split) | dsimp only | (with_reducible apply Keep.mk; iterate 6 exact rfl))

theorem failLanes_keep {s x2} (h : Keep p b s) :
    Keep p b (failLanes s x2) := by
  unfold failLanes
  try extract_lets
  repeat' (first | with_reducible assumption | intro _ | with_reducible apply State.raise_keep | with_reducible apply State.post_keep | with_reducible apply State.inc_keep | with_reducible apply State.setLane_keep | with_reducible apply degradePort_keep | with_reducible apply reviewHealth_keep | with_reducible apply Keep.ite | with_reducible apply Keep.foldl | with_reducible apply Keep.foldl_fst | with_reducible apply Keep.ite_fst | ((fail_if_success (simp only [Keep.mkF]; with_reducible apply And.intro)); split) | dsimp only | (with_reducible apply Keep.mk; iterate 6 exact rfl))

theorem retryPort_keep {s x2} (h : Keep p b s) :
    Keep p b (retryPort s x2) := by
  unfold retryPort
  try extract_lets
  repeat' (first | with_reducible assumption | intro _ | with_reducible apply attempt_keep | with_reducible apply Keep.ite | with_reducible apply Keep.foldl | with_reducible apply Keep.foldl_fst | with_reducible apply Keep.ite_fst | ((fail_if_success (simp only [Keep.mkF]; with_reducible apply And.intro)); split) | dsimp only | (with_reducible apply Keep.mk; iterate 6 exact rfl))

theorem clearFailures_keep {s x2} (h : Keep p b s) :
    Keep p b (clearFailures s x2) := by
  unfold clearFailures
  try extract_lets
  repeat' (first | with_reducible assumption | intro _ | with_reducible apply State.setLane_keep | with_reducible apply Keep.ite | with_reducible apply Keep.foldl | with_reducible apply Keep.foldl_fst | with_reducible apply Keep.ite_fst | ((fail_if_success (simp only [Keep.mkF]; with_reducible apply And.intro)); split) | dsimp only | (with_reducible apply Keep.mk; iterate 6 exact rfl))

end Sys2Proof.Machine
end

