-- ==== Sys2Proof/Laws/KeepPowerOps.lean ====
section
/-!
SUPPORT. What the operations of Machine/PowerOps.lean keep of the queue and the stores.
-/

set_option linter.all false

namespace Sys2Proof.Machine

variable {p : List Instr} {b : Prop}

theorem announce_keep {s x2} (h : Keep p b s) :
    Keep p b (announce s x2) := by
  unfold announce
  try extract_lets
  repeat' (first | with_reducible assumption | intro _ | with_reducible apply Keep.ite | with_reducible apply Keep.foldl | with_reducible apply Keep.foldl_fst | with_reducible apply Keep.ite_fst | ((fail_if_success (simp only [Keep.mkF]; with_reducible apply And.intro)); split) | dsimp only | (with_reducible apply Keep.mk; iterate 6 exact rfl))

theorem withRatio_keep {s} (h : Keep p b s) :
    Keep p b (withRatio s) := by
  unfold withRatio
  try extract_lets
  repeat' (first | with_reducible assumption | intro _ | with_reducible apply Keep.ite | with_reducible apply Keep.foldl | with_reducible apply Keep.foldl_fst | with_reducible apply Keep.ite_fst | ((fail_if_success (simp only [Keep.mkF]; with_reducible apply And.intro)); split) | dsimp only | (with_reducible apply Keep.mk; iterate 6 exact rfl))

theorem governor_keep {s x2} (h : Keep p b s) :
    Keep p b (governor s x2) := by
  unfold governor
  try extract_lets
  repeat' (first | with_reducible assumption | intro _ | with_reducible apply withRatio_keep | with_reducible apply announce_keep | with_reducible apply State.raise_keep | with_reducible apply State.add_keep | with_reducible apply Keep.ite | with_reducible apply Keep.foldl | with_reducible apply Keep.foldl_fst | with_reducible apply Keep.ite_fst | ((fail_if_success (simp only [Keep.mkF]; with_reducible apply And.intro)); split) | dsimp only | (with_reducible apply Keep.mk; iterate 6 exact rfl))

theorem bandAtStrike_keep {s} (h : Keep p b s) :
    Keep p b (bandAtStrike s) := by
  unfold bandAtStrike
  try extract_lets
  repeat' (first | with_reducible assumption | intro _ | with_reducible apply announce_keep | with_reducible apply Keep.ite | with_reducible apply Keep.foldl | with_reducible apply Keep.foldl_fst | with_reducible apply Keep.ite_fst | ((fail_if_success (simp only [Keep.mkF]; with_reducible apply And.intro)); split) | dsimp only | (with_reducible apply Keep.mk; iterate 6 exact rfl))

theorem unstep_keep {s} (h : Keep p b s) :
    Keep p b (unstep s) := by
  unfold unstep
  try extract_lets
  repeat' (first | with_reducible assumption | intro _ | with_reducible apply Keep.ite | with_reducible apply Keep.foldl | with_reducible apply Keep.foldl_fst | with_reducible apply Keep.ite_fst | ((fail_if_success (simp only [Keep.mkF]; with_reducible apply And.intro)); split) | dsimp only | (with_reducible apply Keep.mk; iterate 6 exact rfl))

theorem softStep_keep {s} (h : Keep p b s) :
    Keep p b (softStep s) := by
  unfold softStep
  try extract_lets
  repeat' (first | with_reducible assumption | intro _ | with_reducible apply unstep_keep | with_reducible apply withRatio_keep | with_reducible apply Keep.ite | with_reducible apply Keep.foldl | with_reducible apply Keep.foldl_fst | with_reducible apply Keep.ite_fst | ((fail_if_success (simp only [Keep.mkF]; with_reducible apply And.intro)); split) | dsimp only | (with_reducible apply Keep.mk; iterate 6 exact rfl))

theorem setSoft_keep {s x2} (h : Keep p b s) :
    Keep p b (setSoft s x2) := by
  unfold setSoft
  try extract_lets
  repeat' (first | with_reducible assumption | intro _ | with_reducible apply Keep.ite | with_reducible apply Keep.foldl | with_reducible apply Keep.foldl_fst | with_reducible apply Keep.ite_fst | ((fail_if_success (simp only [Keep.mkF]; with_reducible apply And.intro)); split) | dsimp only | (with_reducible apply Keep.mk; iterate 6 exact rfl))

theorem stepUp_keep {s} (h : Keep p b s) :
    Keep p b (stepUp s) := by
  unfold stepUp
  try extract_lets
  repeat' (first | with_reducible assumption | intro _ | with_reducible apply Keep.ite | with_reducible apply Keep.foldl | with_reducible apply Keep.foldl_fst | with_reducible apply Keep.ite_fst | ((fail_if_success (simp only [Keep.mkF]; with_reducible apply And.intro)); split) | dsimp only | (with_reducible apply Keep.mk; iterate 6 exact rfl))

theorem softBegin_keep {s x2} (h : Keep p b s) :
    Keep p b (softBegin s x2) := by
  unfold softBegin
  try extract_lets
  repeat' (first | with_reducible assumption | intro _ | with_reducible apply State.raise_keep | with_reducible apply State.inc_keep | with_reducible apply State.postF_keep | with_reducible apply Keep.ite | with_reducible apply Keep.foldl | with_reducible apply Keep.foldl_fst | with_reducible apply Keep.ite_fst | ((fail_if_success (simp only [Keep.mkF]; with_reducible apply And.intro)); split) | dsimp only | (with_reducible apply Keep.mk; iterate 6 exact rfl))

theorem hardBegin_keep {s x2} (h : Keep p b s) :
    Keep p b (hardBegin s x2) := by
  unfold hardBegin
  try extract_lets
  repeat' (first | with_reducible assumption | intro _ | with_reducible apply State.raise_keep | with_reducible apply State.inc_keep | with_reducible apply State.postF_keep | with_reducible apply Keep.ite | with_reducible apply Keep.foldl | with_reducible apply Keep.foldl_fst | with_reducible apply Keep.ite_fst | ((fail_if_success (simp only [Keep.mkF]; with_reducible apply And.intro)); split) | dsimp only | (with_reducible apply Keep.mk; iterate 6 exact rfl))

theorem alertBegin_keep {s x2} (h : Keep p b s) :
    Keep p b (alertBegin s x2) := by
  unfold alertBegin
  try extract_lets
  repeat' (first | with_reducible assumption | intro _ | with_reducible apply unstep_keep | with_reducible apply State.raise_keep | with_reducible apply State.inc_keep | with_reducible apply withRatio_keep | with_reducible apply State.postF_keep | with_reducible apply Keep.ite | with_reducible apply Keep.foldl | with_reducible apply Keep.foldl_fst | with_reducible apply Keep.ite_fst | ((fail_if_success (simp only [Keep.mkF]; with_reducible apply And.intro)); split) | dsimp only | (with_reducible apply Keep.mk; iterate 6 exact rfl))

theorem setRegion_keep {s} (h : Keep p b s) :
    Keep p b (setRegion s) := by
  unfold setRegion
  try extract_lets
  repeat' (first | with_reducible assumption | intro _ | with_reducible apply Keep.ite | with_reducible apply Keep.foldl | with_reducible apply Keep.foldl_fst | with_reducible apply Keep.ite_fst | ((fail_if_success (simp only [Keep.mkF]; with_reducible apply And.intro)); split) | dsimp only | (with_reducible apply Keep.mk; iterate 6 exact rfl))

theorem setTemps_keep {s x2} (h : Keep p b s) :
    Keep p b (setTemps s x2) := by
  unfold setTemps
  dsimp only
  repeat' (first | with_reducible assumption | intro _ | with_reducible apply setRegion_keep | with_reducible apply Keep.ite | with_reducible apply Keep.foldl | with_reducible apply Keep.foldl_fst | with_reducible apply Keep.ite_fst | ((fail_if_success (simp only [Keep.mkF]; with_reducible apply And.intro)); split) | dsimp only | (with_reducible apply Keep.mk; iterate 6 exact rfl))

theorem derateEnter_keep {s} (h : Keep p b s) :
    Keep p b (derateEnter s) := by
  unfold derateEnter
  try extract_lets
  repeat' (first | with_reducible assumption | intro _ | with_reducible apply stageOwn_keep | with_reducible apply State.post_keep | with_reducible apply State.raise_keep | with_reducible apply Keep.ite | with_reducible apply Keep.foldl | with_reducible apply Keep.foldl_fst | with_reducible apply Keep.ite_fst | ((fail_if_success (simp only [Keep.mkF]; with_reducible apply And.intro)); split) | dsimp only | (with_reducible apply Keep.mk; iterate 6 exact rfl))

theorem derateExit_keep {s} (h : Keep p b s) :
    Keep p b (derateExit s) := by
  unfold derateExit
  try extract_lets
  repeat' (first | with_reducible assumption | intro _ | with_reducible apply stageOwn_keep | with_reducible apply Keep.ite | with_reducible apply Keep.foldl | with_reducible apply Keep.foldl_fst | with_reducible apply Keep.ite_fst | ((fail_if_success (simp only [Keep.mkF]; with_reducible apply And.intro)); split) | dsimp only | (with_reducible apply Keep.mk; iterate 6 exact rfl))

theorem setCeiling_keep {s x2} (h : Keep p b s) :
    Keep p b (setCeiling s x2) := by
  unfold setCeiling
  try extract_lets
  repeat' (first | with_reducible assumption | intro _ | with_reducible apply withRatio_keep | with_reducible apply derateEnter_keep | with_reducible apply derateExit_keep | with_reducible apply Keep.ite | with_reducible apply Keep.foldl | with_reducible apply Keep.foldl_fst | with_reducible apply Keep.ite_fst | ((fail_if_success (simp only [Keep.mkF]; with_reducible apply And.intro)); split) | dsimp only | (with_reducible apply Keep.mk; iterate 6 exact rfl))

end Sys2Proof.Machine
end

