-- ==== Sys2Proof/Laws/KeepTriadOps.lean ====
section
/-!
SUPPORT. What the operations of Machine/TriadOps.lean keep of the queue and the stores.
-/

set_option linter.all false

namespace Sys2Proof.Machine

variable {p : List Instr} {b : Prop}

theorem State.setTriad_keep {s x2 x3} (h : Keep p b s) :
    Keep p b (State.setTriad s x2 x3) := by
  unfold State.setTriad
  try extract_lets
  repeat' (first | with_reducible assumption | intro _ | with_reducible apply Keep.ite | with_reducible apply Keep.foldl | with_reducible apply Keep.foldl_fst | with_reducible apply Keep.ite_fst | ((fail_if_success (simp only [Keep.mkF]; with_reducible apply And.intro)); split) | dsimp only | (with_reducible apply Keep.mk; iterate 6 exact rfl))

theorem State.triRaise_keep {s x2} (h : Keep p b s) :
    Keep p b (State.triRaise s x2) := by
  unfold State.triRaise
  try extract_lets
  repeat' (first | with_reducible assumption | intro _ | with_reducible apply State.raise_keep | with_reducible apply Keep.ite | with_reducible apply Keep.foldl | with_reducible apply Keep.foldl_fst | with_reducible apply Keep.ite_fst | ((fail_if_success (simp only [Keep.mkF]; with_reducible apply And.intro)); split) | dsimp only | (with_reducible apply Keep.mk; iterate 6 exact rfl))

theorem discardGap_keep {s x2} (h : Keep p b s) :
    Keep p b (discardGap s x2) := by
  unfold discardGap
  try extract_lets
  repeat' (first | with_reducible assumption | intro _ | with_reducible apply State.setTriad_keep | with_reducible apply State.post_keep | with_reducible apply State.triRaise_keep | with_reducible apply endFrame_keep | with_reducible apply State.add_keep | with_reducible apply Keep.ite | with_reducible apply Keep.foldl | with_reducible apply Keep.foldl_fst | with_reducible apply Keep.ite_fst | ((fail_if_success (simp only [Keep.mkF]; with_reducible apply And.intro)); split) | dsimp only | (with_reducible apply Keep.mk; iterate 6 exact rfl))

theorem triAccept_keep {s x2 x3} (h : Keep p b s) :
    Keep p b (triAccept s x2 x3) := by
  unfold triAccept
  try extract_lets
  repeat' (first | with_reducible assumption | intro _ | with_reducible apply State.postB_keep | with_reducible apply State.triRaise_keep | with_reducible apply State.inc_keep | with_reducible apply State.setTriad_keep | with_reducible apply discardGap_keep | with_reducible apply Keep.ite | with_reducible apply Keep.foldl | with_reducible apply Keep.foldl_fst | with_reducible apply Keep.ite_fst | ((fail_if_success (simp only [Keep.mkF]; with_reducible apply And.intro)); split) | dsimp only | (with_reducible apply Keep.mk; iterate 6 exact rfl))

theorem triHeatEnd_keep {s x2} (h : Keep p b s) :
    Keep p b (triHeatEnd s x2) := by
  unfold triHeatEnd
  try extract_lets
  repeat' (first | with_reducible assumption | intro _ | with_reducible apply State.setTriad_keep | with_reducible apply State.inc_keep | with_reducible apply State.post_keep | with_reducible apply Keep.ite | with_reducible apply Keep.foldl | with_reducible apply Keep.foldl_fst | with_reducible apply Keep.ite_fst | ((fail_if_success (simp only [Keep.mkF]; with_reducible apply And.intro)); split) | dsimp only | (with_reducible apply Keep.mk; iterate 6 exact rfl))

theorem announceOnce_keep {s x2} (h : Keep p b s) :
    Keep p b (announceOnce s x2) := by
  unfold announceOnce
  try extract_lets
  repeat' (first | with_reducible assumption | intro _ | (with_reducible refine offer_keep' ?_ (by assumption)) | with_reducible apply offer_keep | with_reducible apply Keep.ite | with_reducible apply Keep.foldl | with_reducible apply Keep.foldl_fst | with_reducible apply Keep.ite_fst | ((fail_if_success (simp only [Keep.mkF]; with_reducible apply And.intro)); split) | dsimp only | (with_reducible apply Keep.mk; iterate 6 exact rfl))

theorem deliverGap_keep {s x2} (h : Keep p b s) :
    Keep p b (deliverGap s x2) := by
  unfold deliverGap
  try extract_lets
  repeat' (first | with_reducible assumption | intro _ | with_reducible apply admitFrame_keep | with_reducible apply State.setTriad_keep | with_reducible apply Keep.ite | with_reducible apply Keep.foldl | with_reducible apply Keep.foldl_fst | with_reducible apply Keep.ite_fst | ((fail_if_success (simp only [Keep.mkF]; with_reducible apply And.intro)); split) | dsimp only | (with_reducible apply Keep.mk; iterate 6 exact rfl))

theorem openRole_keep {s x2 x3 x4 x5} (h : Keep p b s) :
    Keep p b (openRole s x2 x3 x4 x5) := by
  unfold openRole
  try extract_lets
  repeat' (first | with_reducible assumption | intro _ | with_reducible apply State.postF_keep | with_reducible apply State.triRaise_keep | with_reducible apply State.inc_keep | with_reducible apply State.setTriad_keep | with_reducible apply announceOnce_keep | with_reducible apply deliverGap_keep | with_reducible apply Keep.ite | with_reducible apply Keep.foldl | with_reducible apply Keep.foldl_fst | with_reducible apply Keep.ite_fst | ((fail_if_success (simp only [Keep.mkF]; with_reducible apply And.intro)); split) | dsimp only | (with_reducible apply Keep.mk; iterate 6 exact rfl))

theorem triStrike_keep {s x2 x3} (h : Keep p b s) :
    Keep p b (triStrike s x2 x3) := by
  unfold triStrike
  try extract_lets
  repeat' (first | with_reducible assumption | intro _ | with_reducible apply State.setTriad_keep | with_reducible apply discardGap_keep | with_reducible apply State.post_keep | with_reducible apply State.triRaise_keep | with_reducible apply State.inc_keep | with_reducible apply openRole_keep | with_reducible apply Keep.ite | with_reducible apply Keep.foldl | with_reducible apply Keep.foldl_fst | with_reducible apply Keep.ite_fst | ((fail_if_success (simp only [Keep.mkF]; with_reducible apply And.intro)); split) | dsimp only | (with_reducible apply Keep.mk; iterate 6 exact rfl))

theorem triSnap_keep {s x2} (h : Keep p b s) :
    Keep p b (triSnap s x2) := by
  unfold triSnap
  try extract_lets
  repeat' (first | with_reducible assumption | intro _ | with_reducible apply State.setWord_keep | with_reducible apply Keep.ite | with_reducible apply Keep.foldl | with_reducible apply Keep.foldl_fst | with_reducible apply Keep.ite_fst | ((fail_if_success (simp only [Keep.mkF]; with_reducible apply And.intro)); split) | dsimp only | (with_reducible apply Keep.mk; iterate 6 exact rfl))

theorem triadsStrike_keep {s x2} (h : Keep p b s) :
    Keep p b (triadsStrike s x2) := by
  unfold triadsStrike
  try extract_lets
  repeat' (first | with_reducible assumption | intro _ | with_reducible apply triSnap_keep | with_reducible apply triStrike_keep | with_reducible apply Keep.ite | with_reducible apply Keep.foldl | with_reducible apply Keep.foldl_fst | with_reducible apply Keep.ite_fst | ((fail_if_success (simp only [Keep.mkF]; with_reducible apply And.intro)); split) | dsimp only | (with_reducible apply Keep.mk; iterate 6 exact rfl))

theorem triadsEdge_keep {s} (h : Keep p b s) :
    Keep p b (triadsEdge s) := by
  unfold triadsEdge
  try extract_lets
  repeat' (first | with_reducible assumption | intro _ | with_reducible apply Keep.ite | with_reducible apply Keep.foldl | with_reducible apply Keep.foldl_fst | with_reducible apply Keep.ite_fst | ((fail_if_success (simp only [Keep.mkF]; with_reducible apply And.intro)); split) | dsimp only | (with_reducible apply Keep.mk; iterate 6 exact rfl))

theorem isolateStrike_keep {s} (h : Keep p b s) :
    Keep p b (isolateStrike s) := by
  unfold isolateStrike
  try extract_lets
  repeat' (first | with_reducible assumption | intro _ | with_reducible apply State.post_keep | with_reducible apply State.triRaise_keep | with_reducible apply Keep.ite | with_reducible apply Keep.foldl | with_reducible apply Keep.foldl_fst | with_reducible apply Keep.ite_fst | ((fail_if_success (simp only [Keep.mkF]; with_reducible apply And.intro)); split) | dsimp only | (with_reducible apply Keep.mk; iterate 6 exact rfl))

end Sys2Proof.Machine
end

