-- ==== Sys2Proof/Laws/KeepVirasOps.lean ====
section
/-!
SUPPORT. What the operations of Machine/VirasOps.lean keep of the queue and the stores.
-/

set_option linter.all false

namespace Sys2Proof.Machine

variable {p : List Instr} {b : Prop}

theorem State.setVlink_keep {s x2 x3} (h : Keep p b s) :
    Keep p b (State.setVlink s x2 x3) := by
  unfold State.setVlink
  try extract_lets
  repeat' (first | with_reducible assumption | intro _ | with_reducible apply Keep.ite | with_reducible apply Keep.foldl | with_reducible apply Keep.foldl_fst | with_reducible apply Keep.ite_fst | ((fail_if_success (simp only [Keep.mkF]; with_reducible apply And.intro)); split) | dsimp only | (with_reducible apply Keep.mk; iterate 6 exact rfl))

theorem State.setVchan_keep {s x2 x3} (h : Keep p b s) :
    Keep p b (State.setVchan s x2 x3) := by
  unfold State.setVchan
  try extract_lets
  repeat' (first | with_reducible assumption | intro _ | with_reducible apply Keep.ite | with_reducible apply Keep.foldl | with_reducible apply Keep.foldl_fst | with_reducible apply Keep.ite_fst | ((fail_if_success (simp only [Keep.mkF]; with_reducible apply And.intro)); split) | dsimp only | (with_reducible apply Keep.mk; iterate 6 exact rfl))

theorem State.vrsRaise_keep {s x2} (h : Keep p b s) :
    Keep p b (State.vrsRaise s x2) := by
  unfold State.vrsRaise
  try extract_lets
  repeat' (first | with_reducible assumption | intro _ | with_reducible apply State.raise_keep | with_reducible apply Keep.ite | with_reducible apply Keep.foldl | with_reducible apply Keep.foldl_fst | with_reducible apply Keep.ite_fst | ((fail_if_success (simp only [Keep.mkF]; with_reducible apply And.intro)); split) | dsimp only | (with_reducible apply Keep.mk; iterate 6 exact rfl))

theorem State.timRaise_keep {s x2} (h : Keep p b s) :
    Keep p b (State.timRaise s x2) := by
  unfold State.timRaise
  try extract_lets
  repeat' (first | with_reducible assumption | intro _ | with_reducible apply State.raise_keep | with_reducible apply Keep.ite | with_reducible apply Keep.foldl | with_reducible apply Keep.foldl_fst | with_reducible apply Keep.ite_fst | ((fail_if_success (simp only [Keep.mkF]; with_reducible apply And.intro)); split) | dsimp only | (with_reducible apply Keep.mk; iterate 6 exact rfl))

theorem sendLadder_keep {s x2 x3 x4} (h : Keep p b s) :
    Keep p b (sendLadder s x2 x3 x4) := by
  unfold sendLadder
  try extract_lets
  repeat' (first | with_reducible assumption | intro _ | with_reducible apply State.emit_keep | with_reducible apply Keep.ite | with_reducible apply Keep.foldl | with_reducible apply Keep.foldl_fst | with_reducible apply Keep.ite_fst | ((fail_if_success (simp only [Keep.mkF]; with_reducible apply And.intro)); split) | dsimp only | (with_reducible apply Keep.mk; iterate 6 exact rfl))

theorem ladderStart_keep {s x2} (h : Keep p b s) :
    Keep p b (ladderStart s x2) := by
  unfold ladderStart
  try extract_lets
  repeat' (first | with_reducible assumption | intro _ | with_reducible apply State.setVlink_keep | with_reducible apply Keep.ite | with_reducible apply Keep.foldl | with_reducible apply Keep.foldl_fst | with_reducible apply Keep.ite_fst | ((fail_if_success (simp only [Keep.mkF]; with_reducible apply And.intro)); split) | dsimp only | (with_reducible apply Keep.mk; iterate 6 exact rfl))

theorem ladderHold_keep {s x2} (h : Keep p b s) :
    Keep p b (ladderHold s x2) := by
  unfold ladderHold
  try extract_lets
  repeat' (first | with_reducible assumption | intro _ | with_reducible apply State.post_keep | with_reducible apply State.setVlink_keep | with_reducible apply Keep.ite | with_reducible apply Keep.foldl | with_reducible apply Keep.foldl_fst | with_reducible apply Keep.ite_fst | ((fail_if_success (simp only [Keep.mkF]; with_reducible apply And.intro)); split) | dsimp only | (with_reducible apply Keep.mk; iterate 6 exact rfl))

theorem ladderBad_keep {s x2 x3} (h : Keep p b s) :
    Keep p b (ladderBad s x2 x3) := by
  unfold ladderBad
  try extract_lets
  repeat' (first | with_reducible assumption | intro _ | with_reducible apply State.postB_keep | with_reducible apply State.inc_keep | with_reducible apply Keep.ite | with_reducible apply Keep.foldl | with_reducible apply Keep.foldl_fst | with_reducible apply Keep.ite_fst | ((fail_if_success (simp only [Keep.mkF]; with_reducible apply And.intro)); split) | dsimp only | (with_reducible apply Keep.mk; iterate 6 exact rfl))

theorem ladderNext_keep {s x2} (h : Keep p b s) :
    Keep p b (ladderNext s x2) := by
  unfold ladderNext
  try extract_lets
  repeat' (first | with_reducible assumption | intro _ | with_reducible apply sendLadder_keep | with_reducible apply State.setVlink_keep | with_reducible apply Keep.ite | with_reducible apply Keep.foldl | with_reducible apply Keep.foldl_fst | with_reducible apply Keep.ite_fst | ((fail_if_success (simp only [Keep.mkF]; with_reducible apply And.intro)); split) | dsimp only | (with_reducible apply Keep.mk; iterate 6 exact rfl))

theorem restartChan_keep {s x2 x3} (h : Keep p b s) :
    Keep p b (restartChan s x2 x3) := by
  unfold restartChan
  try extract_lets
  repeat' (first | with_reducible assumption | intro _ | with_reducible apply ladderStart_keep | with_reducible apply Keep.ite | with_reducible apply Keep.foldl | with_reducible apply Keep.foldl_fst | with_reducible apply Keep.ite_fst | ((fail_if_success (simp only [Keep.mkF]; with_reducible apply And.intro)); split) | dsimp only | (with_reducible apply Keep.mk; iterate 6 exact rfl))

theorem recheckBranch_keep {s x2 x3 x4} (h : Keep p b s) :
    Keep p b (recheckBranch s x2 x3 x4) := by
  unfold recheckBranch
  dsimp only
  repeat' (first | with_reducible assumption | intro _ | with_reducible apply ladderHold_keep | with_reducible apply sendLadder_keep | with_reducible apply ladderStart_keep | with_reducible apply Keep.ite | with_reducible apply Keep.foldl | with_reducible apply Keep.foldl_fst | with_reducible apply Keep.ite_fst | ((fail_if_success (simp only [Keep.mkF]; with_reducible apply And.intro)); split) | dsimp only | (with_reducible apply Keep.mk; iterate 6 exact rfl))

theorem landImage_keep {s x2} (h : Keep p b s) :
    Keep p b (landImage s x2) := by
  unfold landImage
  try extract_lets
  repeat' (first | with_reducible assumption | intro _ | with_reducible apply restartChan_keep | with_reducible apply recheckBranch_keep | with_reducible apply State.post_keep | with_reducible apply State.vrsRaise_keep | with_reducible apply State.setWord_keep | with_reducible apply Keep.ite | with_reducible apply Keep.foldl | with_reducible apply Keep.foldl_fst | with_reducible apply Keep.ite_fst | ((fail_if_success (simp only [Keep.mkF]; with_reducible apply And.intro)); split) | dsimp only | (with_reducible apply Keep.mk; iterate 6 exact rfl))

end Sys2Proof.Machine
end

