-- ==== Sys2Proof/Laws/KeepTimeOps.lean ====
section
/-!
SUPPORT. What the operations of Machine/TimeOps.lean keep of the queue and the stores.
-/

set_option linter.all false

namespace Sys2Proof.Machine

variable {p : List Instr} {b : Prop}

theorem reclass_keep {s} (h : Keep p b s) :
    Keep p b (reclass s) := by
  unfold reclass
  try extract_lets
  repeat' (first | with_reducible assumption | intro _ | with_reducible apply Keep.ite | with_reducible apply Keep.foldl | with_reducible apply Keep.foldl_fst | with_reducible apply Keep.ite_fst | ((fail_if_success (simp only [Keep.mkF]; with_reducible apply And.intro)); split) | dsimp only | (with_reducible apply Keep.mk; iterate 6 exact rfl))

theorem clampEvent_keep {s} (h : Keep p b s) :
    Keep p b (clampEvent s) := by
  unfold clampEvent
  try extract_lets
  repeat' (first | with_reducible assumption | intro _ | with_reducible apply State.timRaise_keep | with_reducible apply State.inc_keep | with_reducible apply State.post_keep | with_reducible apply Keep.ite | with_reducible apply Keep.foldl | with_reducible apply Keep.foldl_fst | with_reducible apply Keep.ite_fst | ((fail_if_success (simp only [Keep.mkF]; with_reducible apply And.intro)); split) | dsimp only | (with_reducible apply Keep.mk; iterate 6 exact rfl))

theorem setHeatLen_keep {s x2 x3} (h : Keep p b s) :
    Keep p b (setHeatLen s x2 x3) := by
  unfold setHeatLen
  try extract_lets
  repeat' (first | with_reducible assumption | intro _ | with_reducible apply Keep.ite | with_reducible apply Keep.foldl | with_reducible apply Keep.foldl_fst | with_reducible apply Keep.ite_fst | ((fail_if_success (simp only [Keep.mkF]; with_reducible apply And.intro)); split) | dsimp only | (with_reducible apply Keep.mk; iterate 6 exact rfl))

theorem modUnit_keep {s x2 x3} (h : Keep p b s) :
    Keep p b (modUnit s x2 x3) := by
  unfold modUnit
  try extract_lets
  repeat' (first | with_reducible assumption | intro _ | with_reducible apply Keep.ite | with_reducible apply Keep.foldl | with_reducible apply Keep.foldl_fst | with_reducible apply Keep.ite_fst | ((fail_if_success (simp only [Keep.mkF]; with_reducible apply And.intro)); split) | dsimp only | (with_reducible apply Keep.mk; iterate 6 exact rfl))

theorem removeUnit_keep {s x2} (h : Keep p b s) :
    Keep p b (removeUnit s x2) := by
  unfold removeUnit
  try extract_lets
  repeat' (first | with_reducible assumption | intro _ | with_reducible apply Keep.ite | with_reducible apply Keep.foldl | with_reducible apply Keep.foldl_fst | with_reducible apply Keep.ite_fst | ((fail_if_success (simp only [Keep.mkF]; with_reducible apply And.intro)); split) | dsimp only | (with_reducible apply Keep.mk; iterate 6 exact rfl))

theorem secondReply_keep {s x2 x3 x4 x5 x6} (h : Keep p b s) :
    Keep p b (secondReply s x2 x3 x4 x5 x6) := by
  unfold secondReply
  try extract_lets
  repeat' (first | with_reducible assumption | intro _ | with_reducible apply unpromise_keep | with_reducible apply removeUnit_keep | with_reducible apply State.issueReply_keep | with_reducible apply mboxDone_keep | with_reducible apply State.inc_keep | with_reducible apply Keep.ite | with_reducible apply Keep.foldl | with_reducible apply Keep.foldl_fst | with_reducible apply Keep.ite_fst | ((fail_if_success (simp only [Keep.mkF]; with_reducible apply And.intro)); split) | dsimp only | (with_reducible apply Keep.mk; iterate 6 exact rfl))

theorem dropOpenUnit_keep {s x2 x3} (h : Keep p b s) :
    Keep p b (dropOpenUnit s x2 x3) := by
  unfold dropOpenUnit
  try extract_lets
  repeat' (first | with_reducible assumption | intro _ | with_reducible apply unpromise_keep | with_reducible apply removeUnit_keep | with_reducible apply abortMembers_keep | with_reducible apply State.modQueue_keep | with_reducible apply dropUnit_keep | with_reducible apply Keep.ite | with_reducible apply Keep.foldl | with_reducible apply Keep.foldl_fst | with_reducible apply Keep.ite_fst | ((fail_if_success (simp only [Keep.mkF]; with_reducible apply And.intro)); split) | dsimp only | (with_reducible apply Keep.mk; iterate 6 exact rfl))

theorem abortUnit_keep {s x2 x3 x4} (h : Keep p b s) :
    Keep p b (abortUnit s x2 x3 x4) := by
  unfold abortUnit
  try extract_lets
  repeat' (first | with_reducible assumption | intro _ | with_reducible apply secondReply_keep | with_reducible apply dropOpenUnit_keep | with_reducible apply State.post_keep | with_reducible apply State.timRaise_keep | with_reducible apply State.inc_keep | with_reducible apply Keep.ite | with_reducible apply Keep.foldl | with_reducible apply Keep.foldl_fst | with_reducible apply Keep.ite_fst | ((fail_if_success (simp only [Keep.mkF]; with_reducible apply And.intro)); split) | dsimp only | (with_reducible apply Keep.mk; iterate 6 exact rfl))

theorem commitAccept_keep {s x2 x3} (h : Keep p b s) :
    Keep p b (commitAccept s x2 x3) := by
  unfold commitAccept
  try extract_lets
  repeat' (first | with_reducible assumption | intro _ | with_reducible apply Keep.ite | with_reducible apply Keep.foldl | with_reducible apply Keep.foldl_fst | with_reducible apply Keep.ite_fst | ((fail_if_success (simp only [Keep.mkF]; with_reducible apply And.intro)); split) | dsimp only | (with_reducible apply Keep.mk; iterate 6 exact rfl))

theorem unitHeatEnd_keep {s x2} (h : Keep p b s) :
    Keep p b (unitHeatEnd s x2) := by
  unfold unitHeatEnd
  try extract_lets
  repeat' (first | with_reducible assumption | intro _ | with_reducible apply modUnit_keep | with_reducible apply dropOpenUnit_keep | with_reducible apply secondReply_keep | with_reducible apply State.timRaise_keep | with_reducible apply State.inc_keep | with_reducible apply State.post_keep | with_reducible apply Keep.ite | with_reducible apply Keep.foldl | with_reducible apply Keep.foldl_fst | with_reducible apply Keep.ite_fst | ((fail_if_success (simp only [Keep.mkF]; with_reducible apply And.intro)); split) | dsimp only | (with_reducible apply Keep.mk; iterate 6 exact rfl))

theorem unitsLost_keep {s} (h : Keep p b s) :
    Keep p b (unitsLost s) := by
  unfold unitsLost
  try extract_lets
  repeat' (first | with_reducible assumption | intro _ | with_reducible apply Keep.ite | with_reducible apply Keep.foldl | with_reducible apply Keep.foldl_fst | with_reducible apply Keep.ite_fst | ((fail_if_success (simp only [Keep.mkF]; with_reducible apply And.intro)); split) | dsimp only | (with_reducible apply Keep.mk; iterate 6 exact rfl))

theorem enterTime_keep {s x2} (h : Keep p b s) :
    Keep p b (enterTime s x2) := by
  unfold enterTime
  try extract_lets
  repeat' (first | with_reducible assumption | intro _ | with_reducible apply unitsLost_keep | with_reducible apply reclass_keep | with_reducible apply Keep.ite | with_reducible apply Keep.foldl | with_reducible apply Keep.foldl_fst | with_reducible apply Keep.ite_fst | ((fail_if_success (simp only [Keep.mkF]; with_reducible apply And.intro)); split) | dsimp only | (with_reducible apply Keep.mk; iterate 6 exact rfl))

theorem enterHoldover_keep {s x2} (h : Keep p b s) :
    Keep p b (enterHoldover s x2) := by
  unfold enterHoldover
  try extract_lets
  repeat' (first | with_reducible assumption | intro _ | with_reducible apply enterTime_keep | with_reducible apply State.post_keep | with_reducible apply State.inc_keep | with_reducible apply State.timRaise_keep | with_reducible apply Keep.ite | with_reducible apply Keep.foldl | with_reducible apply Keep.foldl_fst | with_reducible apply Keep.ite_fst | ((fail_if_success (simp only [Keep.mkF]; with_reducible apply And.intro)); split) | dsimp only | (with_reducible apply Keep.mk; iterate 6 exact rfl))

theorem gainSync_keep {s} (h : Keep p b s) :
    Keep p b (gainSync s) := by
  unfold gainSync
  try extract_lets
  repeat' (first | with_reducible assumption | intro _ | with_reducible apply enterTime_keep | with_reducible apply State.post_keep | with_reducible apply State.timRaise_keep | with_reducible apply Keep.ite | with_reducible apply Keep.foldl | with_reducible apply Keep.foldl_fst | with_reducible apply Keep.ite_fst | ((fail_if_success (simp only [Keep.mkF]; with_reducible apply And.intro)); split) | dsimp only | (with_reducible apply Keep.mk; iterate 6 exact rfl))

theorem timeStrike_keep {s} (h : Keep p b s) :
    Keep p b (timeStrike s) := by
  unfold timeStrike
  try extract_lets
  repeat' (first | with_reducible assumption | intro _ | with_reducible apply gainSync_keep | with_reducible apply enterTime_keep | with_reducible apply Keep.ite | with_reducible apply Keep.foldl | with_reducible apply Keep.foldl_fst | with_reducible apply Keep.ite_fst | ((fail_if_success (simp only [Keep.mkF]; with_reducible apply And.intro)); split) | dsimp only | (with_reducible apply Keep.mk; iterate 6 exact rfl))

end Sys2Proof.Machine
end

