-- ==== Sys2Proof/Laws/KeepBus.lean ====
section
/-!
SUPPORT. What the operations of Machine/Bus.lean keep of the queue and the stores.
-/

set_option linter.all false

namespace Sys2Proof.Machine

variable {p : List Instr} {b : Prop}

theorem driversOff_keep {s} (h : Keep p b s) :
    Keep p b (driversOff s) := by
  unfold driversOff
  try extract_lets
  repeat' (first | with_reducible assumption | intro _ | with_reducible apply State.emit_keep | with_reducible apply Keep.ite | with_reducible apply Keep.foldl | with_reducible apply Keep.foldl_fst | with_reducible apply Keep.ite_fst | ((fail_if_success (simp only [Keep.mkF]; with_reducible apply And.intro)); split) | dsimp only | (with_reducible apply Keep.mk; iterate 6 exact rfl))

theorem guardBlock_keep {s x2} (h : Keep p b s) :
    Keep p b (guardBlock s x2) := by
  unfold guardBlock
  try extract_lets
  repeat' (first | with_reducible assumption | intro _ | with_reducible apply driversOff_keep | with_reducible apply State.post_keep | with_reducible apply State.vrsRaise_keep | with_reducible apply State.inc_keep | with_reducible apply Keep.ite | with_reducible apply Keep.foldl | with_reducible apply Keep.foldl_fst | with_reducible apply Keep.ite_fst | ((fail_if_success (simp only [Keep.mkF]; with_reducible apply And.intro)); split) | dsimp only | (with_reducible apply Keep.mk; iterate 6 exact rfl))

theorem transmitOn_keep {s x2 x3 x4 x5 x6 x7} (h : Keep p b s) :
    Keep p b (transmitOn s x2 x3 x4 x5 x6 x7) := by
  unfold transmitOn
  try extract_lets
  repeat' (first | with_reducible assumption | intro _ | with_reducible apply guardBlock_keep | with_reducible apply State.emit_keep | with_reducible apply State.inc_keep | with_reducible apply Keep.ite | with_reducible apply Keep.foldl | with_reducible apply Keep.foldl_fst | with_reducible apply Keep.ite_fst | ((fail_if_success (simp only [Keep.mkF]; with_reducible apply And.intro)); split) | dsimp only | (with_reducible apply Keep.mk; iterate 6 exact rfl))

theorem slotSend_keep {s x2 x3 x4} (h : Keep p b s) :
    Keep p b (slotSend s x2 x3 x4) := by
  unfold slotSend
  try extract_lets
  repeat' (first | with_reducible assumption | intro _ | with_reducible apply transmitOn_keep | with_reducible apply Keep.ite | with_reducible apply Keep.foldl | with_reducible apply Keep.foldl_fst | with_reducible apply Keep.ite_fst | ((fail_if_success (simp only [Keep.mkF]; with_reducible apply And.intro)); split) | dsimp only | (with_reducible apply Keep.mk; iterate 6 exact rfl))

theorem slotClose_keep {s x2 x3} (h : Keep p b s) :
    Keep p b (slotClose s x2 x3) := by
  unfold slotClose
  try extract_lets
  repeat' (first | with_reducible assumption | intro _ | with_reducible apply State.emit_keep | with_reducible apply Keep.ite | with_reducible apply Keep.foldl | with_reducible apply Keep.foldl_fst | with_reducible apply Keep.ite_fst | ((fail_if_success (simp only [Keep.mkF]; with_reducible apply And.intro)); split) | dsimp only | (with_reducible apply Keep.mk; iterate 6 exact rfl))

theorem consume_keep {s x2 x3} (h : Keep p b s) :
    Keep p b (consume s x2 x3) := by
  unfold consume
  try extract_lets
  repeat' (first | with_reducible assumption | intro _ | with_reducible apply commitAccept_keep | with_reducible apply triAccept_keep | with_reducible apply Keep.ite | with_reducible apply Keep.foldl | with_reducible apply Keep.foldl_fst | with_reducible apply Keep.ite_fst | ((fail_if_success (simp only [Keep.mkF]; with_reducible apply And.intro)); split) | dsimp only | (with_reducible apply Keep.mk; iterate 6 exact rfl))

theorem slotVote_keep {s x2 x3} (h : Keep p b s) :
    Keep p b (slotVote s x2 x3) := by
  unfold slotVote
  try extract_lets
  repeat' (first | with_reducible assumption | intro _ | with_reducible apply State.vrsRaise_keep | with_reducible apply State.inc_keep | with_reducible apply consume_keep | with_reducible apply Keep.ite | with_reducible apply Keep.foldl | with_reducible apply Keep.foldl_fst | with_reducible apply Keep.ite_fst | ((fail_if_success (simp only [Keep.mkF]; with_reducible apply And.intro)); split) | dsimp only | (with_reducible apply Keep.mk; iterate 6 exact rfl))

theorem offsetStep_keep {s x2} (h : Keep p b s) :
    Keep p b (offsetStep s x2) := by
  unfold offsetStep
  try extract_lets
  repeat' (first | with_reducible assumption | intro _ | with_reducible apply clampEvent_keep | with_reducible apply Keep.ite | with_reducible apply Keep.foldl | with_reducible apply Keep.foldl_fst | with_reducible apply Keep.ite_fst | ((fail_if_success (simp only [Keep.mkF]; with_reducible apply And.intro)); split) | dsimp only | (with_reducible apply Keep.mk; iterate 6 exact rfl))

theorem rateStep_keep {s x2} (h : Keep p b s) :
    Keep p b (rateStep s x2) := by
  unfold rateStep
  try extract_lets
  repeat' (first | with_reducible assumption | intro _ | with_reducible apply clampEvent_keep | with_reducible apply Keep.ite | with_reducible apply Keep.foldl | with_reducible apply Keep.foldl_fst | with_reducible apply Keep.ite_fst | ((fail_if_success (simp only [Keep.mkF]; with_reducible apply And.intro)); split) | dsimp only | (with_reducible apply Keep.mk; iterate 6 exact rfl))

theorem quenchLanes_keep {s} (h : Keep p b s) :
    Keep p b (quenchLanes s) := by
  unfold quenchLanes
  try extract_lets
  repeat' (first | with_reducible assumption | intro _ | with_reducible apply askPower_keep | with_reducible apply Keep.ite | with_reducible apply Keep.foldl | with_reducible apply Keep.foldl_fst | with_reducible apply Keep.ite_fst | ((fail_if_success (simp only [Keep.mkF]; with_reducible apply And.intro)); split) | dsimp only | (with_reducible apply Keep.mk; iterate 6 exact rfl))

theorem lastSlotEnd_keep {s x2} (h : Keep p b s) :
    Keep p b (lastSlotEnd s x2) := by
  unfold lastSlotEnd
  try extract_lets
  repeat' (first | with_reducible assumption | intro _ | with_reducible apply quenchLanes_keep | with_reducible apply triHeatEnd_keep | with_reducible apply unitHeatEnd_keep | with_reducible apply rateStep_keep | with_reducible apply offsetStep_keep | with_reducible apply Keep.ite | with_reducible apply Keep.foldl | with_reducible apply Keep.foldl_fst | with_reducible apply Keep.ite_fst | ((fail_if_success (simp only [Keep.mkF]; with_reducible apply And.intro)); split) | dsimp only | (with_reducible apply Keep.mk; iterate 6 exact rfl))

theorem doBus_keep {s} (h : Keep p b s) :
    Keep p b (doBus s) := by
  unfold doBus
  try extract_lets
  repeat' (first | with_reducible assumption | intro _ | with_reducible apply slotSend_keep | with_reducible apply slotClose_keep | with_reducible apply slotVote_keep | with_reducible apply lastSlotEnd_keep | with_reducible apply Keep.ite | with_reducible apply Keep.foldl | with_reducible apply Keep.foldl_fst | with_reducible apply Keep.ite_fst | ((fail_if_success (simp only [Keep.mkF]; with_reducible apply And.intro)); split) | dsimp only | (with_reducible apply Keep.mk; iterate 6 exact rfl))

theorem busUpTo_keep {k n s} (h : Keep p b s) : Keep p b (busUpTo k n s) := by
  induction n generalizing s with
  | zero => exact h
  | succ n ih => exact Keep.ite (ih (doBus_keep h)) h

end Sys2Proof.Machine
end

