-- ==== Sys2Proof/Laws/KeepCipher.lean ====
section
/-!
SUPPORT. What the operations of Machine/Cipher.lean keep of the queue and the stores.
-/

set_option linter.all false

namespace Sys2Proof.Machine

variable {p : List Instr} {b : Prop}

theorem bodyKekLoad_keep {x1 s} (h : Keep p b s) :
    KeepB p b (bodyKekLoad x1 s) := by
  unfold bodyKekLoad
  try extract_lets
  repeat' (first | with_reducible assumption | intro _ | with_reducible apply KeepB.ite | with_reducible apply KeepB.done | with_reducible apply KeepB.other | with_reducible apply KeepB.stage | with_reducible apply KeepB.wait | with_reducible apply KeepB.fail | with_reducible apply KeepB.bad | with_reducible apply KeepB.deny | with_reducible apply KeepB.lock | with_reducible apply KeepB.missing | with_reducible apply KeepB.full | with_reducible apply Keep.ite | with_reducible apply Keep.foldl | with_reducible apply Keep.foldl_fst | with_reducible apply Keep.ite_fst | ((fail_if_success (simp only [Keep.mkF]; with_reducible apply And.intro)); split) | dsimp only | (with_reducible apply Keep.mk; iterate 6 exact rfl))

theorem execKekLoad_keep {x1 s} (h : Keep p b s) :
    KeepO p b (execKekLoad x1 s) := by
  unfold execKekLoad
  try extract_lets
  repeat' (first | with_reducible assumption | intro _ | with_reducible apply KeepO.next | with_reducible apply runCmd_keep | with_reducible apply bodyKekLoad_keep | with_reducible apply Keep.ite | with_reducible apply Keep.foldl | with_reducible apply Keep.foldl_fst | with_reducible apply Keep.ite_fst | ((fail_if_success (simp only [Keep.mkF]; with_reducible apply And.intro)); split) | dsimp only | (with_reducible apply Keep.mk; iterate 6 exact rfl))

theorem bodyKekErase_keep {x1 s} (h : Keep p b s) :
    KeepB p b (bodyKekErase x1 s) := by
  unfold bodyKekErase
  try extract_lets
  repeat' (first | with_reducible assumption | intro _ | with_reducible apply KeepB.ite | with_reducible apply KeepB.done | with_reducible apply KeepB.other | with_reducible apply KeepB.stage | with_reducible apply KeepB.wait | with_reducible apply KeepB.fail | with_reducible apply KeepB.bad | with_reducible apply KeepB.deny | with_reducible apply KeepB.lock | with_reducible apply KeepB.missing | with_reducible apply KeepB.full | with_reducible apply Keep.ite | with_reducible apply Keep.foldl | with_reducible apply Keep.foldl_fst | with_reducible apply Keep.ite_fst | ((fail_if_success (simp only [Keep.mkF]; with_reducible apply And.intro)); split) | dsimp only | (with_reducible apply Keep.mk; iterate 6 exact rfl))

theorem execKekErase_keep {x1 s} (h : Keep p b s) :
    KeepO p b (execKekErase x1 s) := by
  unfold execKekErase
  try extract_lets
  repeat' (first | with_reducible assumption | intro _ | with_reducible apply KeepO.next | with_reducible apply runCmd_keep | with_reducible apply bodyKekErase_keep | with_reducible apply Keep.ite | with_reducible apply Keep.foldl | with_reducible apply Keep.foldl_fst | with_reducible apply Keep.ite_fst | ((fail_if_success (simp only [Keep.mkF]; with_reducible apply And.intro)); split) | dsimp only | (with_reducible apply Keep.mk; iterate 6 exact rfl))

theorem withCtx_keep {s x2 g3} (h : Keep p b s) (k3 : KeepB p b g3) :
    KeepB p b (withCtx s x2 g3) := by
  unfold withCtx
  try extract_lets
  repeat' (first | with_reducible assumption | intro _ | with_reducible apply k3 | with_reducible apply KeepB.ite | with_reducible apply KeepB.done | with_reducible apply KeepB.other | with_reducible apply KeepB.stage | with_reducible apply KeepB.wait | with_reducible apply KeepB.fail | with_reducible apply KeepB.bad | with_reducible apply KeepB.deny | with_reducible apply KeepB.lock | with_reducible apply KeepB.missing | with_reducible apply KeepB.full | with_reducible apply Keep.ite | with_reducible apply Keep.foldl | with_reducible apply Keep.foldl_fst | with_reducible apply Keep.ite_fst | ((fail_if_success (simp only [Keep.mkF]; with_reducible apply And.intro)); split) | dsimp only | (with_reducible apply Keep.mk; iterate 6 exact rfl))

theorem bodyCtxSet.put_keep {x1 x2 x3 s} (h : Keep p b s) :
    Keep p b (bodyCtxSet.put x1 x2 x3 s) := by
  unfold bodyCtxSet.put
  try extract_lets
  repeat' (first | with_reducible assumption | intro _ | (with_reducible refine State.draw_keep' ?_ (by assumption)) | with_reducible apply State.draw_keep | with_reducible apply placeCtx_keep | with_reducible apply Keep.ite | with_reducible apply Keep.foldl | with_reducible apply Keep.foldl_fst | with_reducible apply Keep.ite_fst | ((fail_if_success (simp only [Keep.mkF]; with_reducible apply And.intro)); split) | dsimp only | (with_reducible apply Keep.mk; iterate 6 exact rfl))

theorem bodyCtxSet_keep {x1 s} (h : Keep p b s) :
    KeepB p b (bodyCtxSet x1 s) := by
  unfold bodyCtxSet
  try extract_lets
  repeat' (first | with_reducible assumption | intro _ | with_reducible apply KeepB.ite | with_reducible apply KeepB.done | with_reducible apply KeepB.other | with_reducible apply KeepB.stage | with_reducible apply KeepB.wait | with_reducible apply KeepB.fail | with_reducible apply KeepB.bad | with_reducible apply KeepB.deny | with_reducible apply KeepB.lock | with_reducible apply KeepB.missing | with_reducible apply KeepB.full | with_reducible apply withCtx_keep | with_reducible apply bodyCtxSet.put_keep | with_reducible apply Keep.ite | with_reducible apply Keep.foldl | with_reducible apply Keep.foldl_fst | with_reducible apply Keep.ite_fst | ((fail_if_success (simp only [Keep.mkF]; with_reducible apply And.intro)); split) | dsimp only | (with_reducible apply Keep.mk; iterate 6 exact rfl))

theorem execCtxSet_keep {x1 s} (h : Keep p b s) :
    KeepO p b (execCtxSet x1 s) := by
  unfold execCtxSet
  try extract_lets
  repeat' (first | with_reducible assumption | intro _ | with_reducible apply KeepO.next | with_reducible apply runCmd_keep | with_reducible apply bodyCtxSet_keep | with_reducible apply Keep.ite | with_reducible apply Keep.foldl | with_reducible apply Keep.foldl_fst | with_reducible apply Keep.ite_fst | ((fail_if_success (simp only [Keep.mkF]; with_reducible apply And.intro)); split) | dsimp only | (with_reducible apply Keep.mk; iterate 6 exact rfl))

theorem landCtxSet_keep {x1 s} (h : Keep p b s) :
    Keep p b (landCtxSet x1 s) := by
  unfold landCtxSet
  try extract_lets
  repeat' (first | with_reducible assumption | intro _ | with_reducible apply bodyCtxSet.put_keep | with_reducible apply Keep.ite | with_reducible apply Keep.foldl | with_reducible apply Keep.foldl_fst | with_reducible apply Keep.ite_fst | ((fail_if_success (simp only [Keep.mkF]; with_reducible apply And.intro)); split) | dsimp only | (with_reducible apply Keep.mk; iterate 6 exact rfl))

theorem bodyCtxKey_keep {x1 s} (h : Keep p b s) :
    KeepB p b (bodyCtxKey x1 s) := by
  unfold bodyCtxKey
  try extract_lets
  repeat' (first | with_reducible assumption | intro _ | with_reducible apply KeepB.ite | with_reducible apply KeepB.done | with_reducible apply KeepB.other | with_reducible apply KeepB.stage | with_reducible apply KeepB.wait | with_reducible apply KeepB.fail | with_reducible apply KeepB.bad | with_reducible apply KeepB.deny | with_reducible apply KeepB.lock | with_reducible apply KeepB.missing | with_reducible apply KeepB.full | with_reducible apply withCtx_keep | with_reducible apply State.setCtx_keep | with_reducible apply Keep.ite | with_reducible apply Keep.foldl | with_reducible apply Keep.foldl_fst | with_reducible apply Keep.ite_fst | ((fail_if_success (simp only [Keep.mkF]; with_reducible apply And.intro)); split) | dsimp only | (with_reducible apply Keep.mk; iterate 6 exact rfl))

theorem execCtxKey_keep {x1 s} (h : Keep p b s) :
    KeepO p b (execCtxKey x1 s) := by
  unfold execCtxKey
  try extract_lets
  repeat' (first | with_reducible assumption | intro _ | with_reducible apply KeepO.next | with_reducible apply runCmd_keep | with_reducible apply bodyCtxKey_keep | with_reducible apply Keep.ite | with_reducible apply Keep.foldl | with_reducible apply Keep.foldl_fst | with_reducible apply Keep.ite_fst | ((fail_if_success (simp only [Keep.mkF]; with_reducible apply And.intro)); split) | dsimp only | (with_reducible apply Keep.mk; iterate 6 exact rfl))

theorem landCtxKey_keep {x1 s} (h : Keep p b s) :
    Keep p b (landCtxKey x1 s) := by
  unfold landCtxKey
  try extract_lets
  repeat' (first | with_reducible assumption | intro _ | with_reducible apply State.post_keep | with_reducible apply State.setCtx_keep | with_reducible apply Keep.ite | with_reducible apply Keep.foldl | with_reducible apply Keep.foldl_fst | with_reducible apply Keep.ite_fst | ((fail_if_success (simp only [Keep.mkF]; with_reducible apply And.intro)); split) | dsimp only | (with_reducible apply Keep.mk; iterate 6 exact rfl))

theorem bodyCtxBind_keep {x1 s} (h : Keep p b s) :
    KeepB p b (bodyCtxBind x1 s) := by
  unfold bodyCtxBind
  try extract_lets
  repeat' (first | with_reducible assumption | intro _ | with_reducible apply KeepB.ite | with_reducible apply KeepB.done | with_reducible apply KeepB.other | with_reducible apply KeepB.stage | with_reducible apply KeepB.wait | with_reducible apply KeepB.fail | with_reducible apply KeepB.bad | with_reducible apply KeepB.deny | with_reducible apply KeepB.lock | with_reducible apply KeepB.missing | with_reducible apply KeepB.full | with_reducible apply withCtx_keep | with_reducible apply State.setCtx_keep | with_reducible apply Keep.ite | with_reducible apply Keep.foldl | with_reducible apply Keep.foldl_fst | with_reducible apply Keep.ite_fst | ((fail_if_success (simp only [Keep.mkF]; with_reducible apply And.intro)); split) | dsimp only | (with_reducible apply Keep.mk; iterate 6 exact rfl))

theorem execCtxBind_keep {x1 s} (h : Keep p b s) :
    KeepO p b (execCtxBind x1 s) := by
  unfold execCtxBind
  try extract_lets
  repeat' (first | with_reducible assumption | intro _ | with_reducible apply KeepO.next | with_reducible apply runCmd_keep | with_reducible apply bodyCtxBind_keep | with_reducible apply Keep.ite | with_reducible apply Keep.foldl | with_reducible apply Keep.foldl_fst | with_reducible apply Keep.ite_fst | ((fail_if_success (simp only [Keep.mkF]; with_reducible apply And.intro)); split) | dsimp only | (with_reducible apply Keep.mk; iterate 6 exact rfl))

theorem landCtxBind_keep {x1 s} (h : Keep p b s) :
    Keep p b (landCtxBind x1 s) := by
  unfold landCtxBind
  try extract_lets
  repeat' (first | with_reducible assumption | intro _ | with_reducible apply State.setCtx_keep | with_reducible apply Keep.ite | with_reducible apply Keep.foldl | with_reducible apply Keep.foldl_fst | with_reducible apply Keep.ite_fst | ((fail_if_success (simp only [Keep.mkF]; with_reducible apply And.intro)); split) | dsimp only | (with_reducible apply Keep.mk; iterate 6 exact rfl))

theorem bodyCtxQuery_keep {x1 s} (h : Keep p b s) :
    KeepB p b (bodyCtxQuery x1 s) := by
  unfold bodyCtxQuery
  try extract_lets
  repeat' (first | with_reducible assumption | intro _ | with_reducible apply KeepB.ite | with_reducible apply KeepB.done | with_reducible apply KeepB.other | with_reducible apply KeepB.stage | with_reducible apply KeepB.wait | with_reducible apply KeepB.fail | with_reducible apply KeepB.bad | with_reducible apply KeepB.deny | with_reducible apply KeepB.lock | with_reducible apply KeepB.missing | with_reducible apply KeepB.full | with_reducible apply Keep.ite | with_reducible apply Keep.foldl | with_reducible apply Keep.foldl_fst | with_reducible apply Keep.ite_fst | ((fail_if_success (simp only [Keep.mkF]; with_reducible apply And.intro)); split) | dsimp only | (with_reducible apply Keep.mk; iterate 6 exact rfl))

theorem execCtxQuery_keep {x1 s} (h : Keep p b s) :
    KeepO p b (execCtxQuery x1 s) := by
  unfold execCtxQuery
  try extract_lets
  repeat' (first | with_reducible assumption | intro _ | with_reducible apply KeepO.next | with_reducible apply runCmd_keep | with_reducible apply bodyCtxQuery_keep | with_reducible apply Keep.ite | with_reducible apply Keep.foldl | with_reducible apply Keep.foldl_fst | with_reducible apply Keep.ite_fst | ((fail_if_success (simp only [Keep.mkF]; with_reducible apply And.intro)); split) | dsimp only | (with_reducible apply Keep.mk; iterate 6 exact rfl))

theorem bodyCtxSave_keep {x1 s} (h : Keep p b s) :
    KeepB p b (bodyCtxSave x1 s) := by
  unfold bodyCtxSave
  try extract_lets
  repeat' (first | with_reducible assumption | intro _ | with_reducible apply KeepB.ite | with_reducible apply KeepB.done | with_reducible apply KeepB.other | with_reducible apply KeepB.stage | with_reducible apply KeepB.wait | with_reducible apply KeepB.fail | with_reducible apply KeepB.bad | with_reducible apply KeepB.deny | with_reducible apply KeepB.lock | with_reducible apply KeepB.missing | with_reducible apply KeepB.full | with_reducible apply withCtx_keep | (with_reducible refine State.draw_keep' ?_ (by assumption)) | with_reducible apply State.draw_keep | with_reducible apply doneAt_keep | with_reducible apply Keep.ite | with_reducible apply Keep.foldl | with_reducible apply Keep.foldl_fst | with_reducible apply Keep.ite_fst | ((fail_if_success (simp only [Keep.mkF]; with_reducible apply And.intro)); split) | dsimp only | (with_reducible apply Keep.mk; iterate 6 exact rfl))

theorem execCtxSave_keep {x1 s} (h : Keep p b s) :
    KeepO p b (execCtxSave x1 s) := by
  unfold execCtxSave
  try extract_lets
  repeat' (first | with_reducible assumption | intro _ | with_reducible apply KeepO.next | with_reducible apply runCmd_keep | with_reducible apply bodyCtxSave_keep | with_reducible apply Keep.ite | with_reducible apply Keep.foldl | with_reducible apply Keep.foldl_fst | with_reducible apply Keep.ite_fst | ((fail_if_success (simp only [Keep.mkF]; with_reducible apply And.intro)); split) | dsimp only | (with_reducible apply Keep.mk; iterate 6 exact rfl))

theorem rejectImage_keep {s x2} (h : Keep p b s) :
    KeepB p b (rejectImage s x2) := by
  unfold rejectImage
  try extract_lets
  repeat' (first | with_reducible assumption | intro _ | with_reducible apply KeepB.ite | with_reducible apply KeepB.done | with_reducible apply KeepB.other | with_reducible apply KeepB.stage | with_reducible apply KeepB.wait | with_reducible apply KeepB.fail | with_reducible apply KeepB.bad | with_reducible apply KeepB.deny | with_reducible apply KeepB.lock | with_reducible apply KeepB.missing | with_reducible apply KeepB.full | with_reducible apply State.post_keep | with_reducible apply State.raise_keep | with_reducible apply State.inc_keep | with_reducible apply Keep.ite | with_reducible apply Keep.foldl | with_reducible apply Keep.foldl_fst | with_reducible apply Keep.ite_fst | ((fail_if_success (simp only [Keep.mkF]; with_reducible apply And.intro)); split) | dsimp only | (with_reducible apply Keep.mk; iterate 6 exact rfl))

theorem bodyCtxRestore_keep {x1 s} (h : Keep p b s) :
    KeepB p b (bodyCtxRestore x1 s) := by
  unfold bodyCtxRestore
  try extract_lets
  repeat' (first | with_reducible assumption | intro _ | with_reducible apply KeepB.ite | with_reducible apply KeepB.done | with_reducible apply KeepB.other | with_reducible apply KeepB.stage | with_reducible apply KeepB.wait | with_reducible apply KeepB.fail | with_reducible apply KeepB.bad | with_reducible apply KeepB.deny | with_reducible apply KeepB.lock | with_reducible apply KeepB.missing | with_reducible apply KeepB.full | with_reducible apply withCtx_keep | with_reducible apply rejectImage_keep | (with_reducible refine State.draw_keep' ?_ (by assumption)) | with_reducible apply State.draw_keep | with_reducible apply placeCtx_keep | with_reducible apply Keep.ite | with_reducible apply Keep.foldl | with_reducible apply Keep.foldl_fst | with_reducible apply Keep.ite_fst | ((fail_if_success (simp only [Keep.mkF]; with_reducible apply And.intro)); split) | dsimp only | (with_reducible apply Keep.mk; iterate 6 exact rfl))

theorem execCtxRestore_keep {x1 s} (h : Keep p b s) :
    KeepO p b (execCtxRestore x1 s) := by
  unfold execCtxRestore
  try extract_lets
  repeat' (first | with_reducible assumption | intro _ | with_reducible apply KeepO.next | with_reducible apply runCmd_keep | with_reducible apply bodyCtxRestore_keep | with_reducible apply Keep.ite | with_reducible apply Keep.foldl | with_reducible apply Keep.foldl_fst | with_reducible apply Keep.ite_fst | ((fail_if_success (simp only [Keep.mkF]; with_reducible apply And.intro)); split) | dsimp only | (with_reducible apply Keep.mk; iterate 6 exact rfl))

theorem bodyCtxClear_keep {x1 s} (h : Keep p b s) :
    KeepB p b (bodyCtxClear x1 s) := by
  unfold bodyCtxClear
  try extract_lets
  repeat' (first | with_reducible assumption | intro _ | with_reducible apply KeepB.ite | with_reducible apply KeepB.done | with_reducible apply KeepB.other | with_reducible apply KeepB.stage | with_reducible apply KeepB.wait | with_reducible apply KeepB.fail | with_reducible apply KeepB.bad | with_reducible apply KeepB.deny | with_reducible apply KeepB.lock | with_reducible apply KeepB.missing | with_reducible apply KeepB.full | with_reducible apply withCtx_keep | with_reducible apply Keep.ite | with_reducible apply Keep.foldl | with_reducible apply Keep.foldl_fst | with_reducible apply Keep.ite_fst | ((fail_if_success (simp only [Keep.mkF]; with_reducible apply And.intro)); split) | dsimp only | (with_reducible apply Keep.mk; iterate 6 exact rfl))

theorem execCtxClear_keep {x1 s} (h : Keep p b s) :
    KeepO p b (execCtxClear x1 s) := by
  unfold execCtxClear
  try extract_lets
  repeat' (first | with_reducible assumption | intro _ | with_reducible apply KeepO.next | with_reducible apply runCmd_keep | with_reducible apply bodyCtxClear_keep | with_reducible apply Keep.ite | with_reducible apply Keep.foldl | with_reducible apply Keep.foldl_fst | with_reducible apply Keep.ite_fst | ((fail_if_success (simp only [Keep.mkF]; with_reducible apply And.intro)); split) | dsimp only | (with_reducible apply Keep.mk; iterate 6 exact rfl))

theorem bodyTlsResync_keep {x1 s} (h : Keep p b s) :
    KeepB p b (bodyTlsResync x1 s) := by
  unfold bodyTlsResync
  try extract_lets
  repeat' (first | with_reducible assumption | intro _ | with_reducible apply KeepB.ite | with_reducible apply KeepB.done | with_reducible apply KeepB.other | with_reducible apply KeepB.stage | with_reducible apply KeepB.wait | with_reducible apply KeepB.fail | with_reducible apply KeepB.bad | with_reducible apply KeepB.deny | with_reducible apply KeepB.lock | with_reducible apply KeepB.missing | with_reducible apply KeepB.full | with_reducible apply withCtx_keep | with_reducible apply State.setCtx_keep | with_reducible apply Keep.ite | with_reducible apply Keep.foldl | with_reducible apply Keep.foldl_fst | with_reducible apply Keep.ite_fst | ((fail_if_success (simp only [Keep.mkF]; with_reducible apply And.intro)); split) | dsimp only | (with_reducible apply Keep.mk; iterate 6 exact rfl))

theorem execTlsResync_keep {x1 s} (h : Keep p b s) :
    KeepO p b (execTlsResync x1 s) := by
  unfold execTlsResync
  try extract_lets
  repeat' (first | with_reducible assumption | intro _ | with_reducible apply KeepO.next | with_reducible apply runCmd_keep | with_reducible apply bodyTlsResync_keep | with_reducible apply Keep.ite | with_reducible apply Keep.foldl | with_reducible apply Keep.foldl_fst | with_reducible apply Keep.ite_fst | ((fail_if_success (simp only [Keep.mkF]; with_reducible apply And.intro)); split) | dsimp only | (with_reducible apply Keep.mk; iterate 6 exact rfl))

theorem bodyReplaySet_keep {x1 s} (h : Keep p b s) :
    KeepB p b (bodyReplaySet x1 s) := by
  unfold bodyReplaySet
  try extract_lets
  repeat' (first | with_reducible assumption | intro _ | with_reducible apply KeepB.ite | with_reducible apply KeepB.done | with_reducible apply KeepB.other | with_reducible apply KeepB.stage | with_reducible apply KeepB.wait | with_reducible apply KeepB.fail | with_reducible apply KeepB.bad | with_reducible apply KeepB.deny | with_reducible apply KeepB.lock | with_reducible apply KeepB.missing | with_reducible apply KeepB.full | with_reducible apply Keep.ite | with_reducible apply Keep.foldl | with_reducible apply Keep.foldl_fst | with_reducible apply Keep.ite_fst | ((fail_if_success (simp only [Keep.mkF]; with_reducible apply And.intro)); split) | dsimp only | (with_reducible apply Keep.mk; iterate 6 exact rfl))

theorem execReplaySet_keep {x1 s} (h : Keep p b s) :
    KeepO p b (execReplaySet x1 s) := by
  unfold execReplaySet
  try extract_lets
  repeat' (first | with_reducible assumption | intro _ | with_reducible apply KeepO.next | with_reducible apply runCmd_keep | with_reducible apply bodyReplaySet_keep | with_reducible apply Keep.ite | with_reducible apply Keep.foldl | with_reducible apply Keep.foldl_fst | with_reducible apply Keep.ite_fst | ((fail_if_success (simp only [Keep.mkF]; with_reducible apply And.intro)); split) | dsimp only | (with_reducible apply Keep.mk; iterate 6 exact rfl))

theorem bodySecySet_keep {x1 s} (h : Keep p b s) :
    KeepB p b (bodySecySet x1 s) := by
  unfold bodySecySet
  try extract_lets
  repeat' (first | with_reducible assumption | intro _ | with_reducible apply KeepB.ite | with_reducible apply KeepB.done | with_reducible apply KeepB.other | with_reducible apply KeepB.stage | with_reducible apply KeepB.wait | with_reducible apply KeepB.fail | with_reducible apply KeepB.bad | with_reducible apply KeepB.deny | with_reducible apply KeepB.lock | with_reducible apply KeepB.missing | with_reducible apply KeepB.full | with_reducible apply Keep.ite | with_reducible apply Keep.foldl | with_reducible apply Keep.foldl_fst | with_reducible apply Keep.ite_fst | ((fail_if_success (simp only [Keep.mkF]; with_reducible apply And.intro)); split) | dsimp only | (with_reducible apply Keep.mk; iterate 6 exact rfl))

theorem execSecySet_keep {x1 s} (h : Keep p b s) :
    KeepO p b (execSecySet x1 s) := by
  unfold execSecySet
  try extract_lets
  repeat' (first | with_reducible assumption | intro _ | with_reducible apply KeepO.next | with_reducible apply runCmd_keep | with_reducible apply bodySecySet_keep | with_reducible apply Keep.ite | with_reducible apply Keep.foldl | with_reducible apply Keep.foldl_fst | with_reducible apply Keep.ite_fst | ((fail_if_success (simp only [Keep.mkF]; with_reducible apply And.intro)); split) | dsimp only | (with_reducible apply Keep.mk; iterate 6 exact rfl))

theorem landSecySet_keep {x1 s} (h : Keep p b s) :
    Keep p b (landSecySet x1 s) := by
  unfold landSecySet
  try extract_lets
  repeat' (first | with_reducible assumption | intro _ | with_reducible apply Keep.ite | with_reducible apply Keep.foldl | with_reducible apply Keep.foldl_fst | with_reducible apply Keep.ite_fst | ((fail_if_success (simp only [Keep.mkF]; with_reducible apply And.intro)); split) | dsimp only | (with_reducible apply Keep.mk; iterate 6 exact rfl))

end Sys2Proof.Machine
end

