-- ==== Sys2Proof/Laws/KeepSched.lean ====
section
/-!
SUPPORT. What the operations of Machine/Sched.lean keep of the queue and the stores.
-/

set_option linter.all false

namespace Sys2Proof.Machine

variable {p : List Instr} {b : Prop}

theorem commitPick_keep {s x2 x3} (h : Keep p b s) :
    Keep p b (commitPick s x2 x3) := by
  unfold commitPick
  try extract_lets
  repeat' (first | with_reducible assumption | intro _ | with_reducible apply Keep.ite | with_reducible apply Keep.foldl | with_reducible apply Keep.foldl_fst | with_reducible apply Keep.ite_fst | ((fail_if_success (simp only [Keep.mkF]; with_reducible apply And.intro)); split) | dsimp only | (with_reducible apply Keep.mk; iterate 6 exact rfl))

theorem chargeNode_keep {s x2 x3} (h : Keep p b s) :
    Keep p b (chargeNode s x2 x3) := by
  unfold chargeNode
  try extract_lets
  repeat' (first | with_reducible assumption | intro _ | with_reducible apply Keep.ite | with_reducible apply Keep.foldl | with_reducible apply Keep.foldl_fst | with_reducible apply Keep.ite_fst | ((fail_if_success (simp only [Keep.mkF]; with_reducible apply And.intro)); split) | dsimp only | (with_reducible apply Keep.mk; iterate 6 exact rfl))

theorem chargePath_keep {s x2 x3} (h : Keep p b s) :
    Keep p b (chargePath s x2 x3) := by
  unfold chargePath
  try extract_lets
  repeat' (first | with_reducible assumption | intro _ | with_reducible apply chargeNode_keep | with_reducible apply Keep.ite | with_reducible apply Keep.foldl | with_reducible apply Keep.foldl_fst | with_reducible apply Keep.ite_fst | ((fail_if_success (simp only [Keep.mkF]; with_reducible apply And.intro)); split) | dsimp only | (with_reducible apply Keep.mk; iterate 6 exact rfl))

theorem popHead_keep {s x2 x3 x4} (h : Keep p b s) :
    Keep p b (popHead s x2 x3 x4) := by
  unfold popHead
  try extract_lets
  repeat' (first | with_reducible assumption | intro _ | with_reducible apply Keep.ite | with_reducible apply Keep.foldl | with_reducible apply Keep.foldl_fst | with_reducible apply Keep.ite_fst | ((fail_if_success (simp only [Keep.mkF]; with_reducible apply And.intro)); split) | dsimp only | (with_reducible apply Keep.mk; iterate 6 exact rfl))

theorem staleAct_keep {x1 x2 x3 s} (h : Keep p b s) :
    Keep p b (staleAct x1 x2 x3 s) := by
  unfold staleAct
  try extract_lets
  repeat' (first | with_reducible assumption | intro _ | with_reducible apply State.inc_keep | with_reducible apply popHead_keep | with_reducible apply State.raise_keep | with_reducible apply reviewFrame_keep | with_reducible apply endFrame_keep | with_reducible apply State.post_keep | with_reducible apply Keep.ite | with_reducible apply Keep.foldl | with_reducible apply Keep.foldl_fst | with_reducible apply Keep.ite_fst | ((fail_if_success (simp only [Keep.mkF]; with_reducible apply And.intro)); split) | dsimp only | (with_reducible apply Keep.mk; iterate 6 exact rfl))

end Sys2Proof.Machine
end

