-- ==== Sys2Proof/Laws/KeepDue.lean ====
section
/-!
SUPPORT. What the operations of Machine/Due.lean keep of the queue and the stores.
-/

set_option linter.all false

namespace Sys2Proof.Machine

variable {p : List Instr} {b : Prop}

theorem boundary_keep {s x2} (h : Keep p b s) :
    Keep p b (boundary s x2) := by
  unfold boundary
  try extract_lets
  repeat' (first | with_reducible assumption | intro _ | with_reducible apply beginEntry_keep | with_reducible apply Keep.ite | with_reducible apply Keep.foldl | with_reducible apply Keep.foldl_fst | with_reducible apply Keep.ite_fst | ((fail_if_success (simp only [Keep.mkF]; with_reducible apply And.intro)); split) | dsimp only | (with_reducible apply Keep.mk; iterate 6 exact rfl))

theorem gateBegins_keep {s x2} (h : Keep p b s) :
    Keep p b (gateBegins s x2) := by
  unfold gateBegins
  try extract_lets
  repeat' (first | with_reducible assumption | intro _ | with_reducible apply gateStart_keep | with_reducible apply Keep.ite | with_reducible apply Keep.foldl | with_reducible apply Keep.foldl_fst | with_reducible apply Keep.ite_fst | ((fail_if_success (simp only [Keep.mkF]; with_reducible apply And.intro)); split) | dsimp only | (with_reducible apply Keep.mk; iterate 6 exact rfl))

theorem holdNext_keep {s x2} (h : Keep p b s) :
    Keep p b (holdNext s x2) := by
  unfold holdNext
  try extract_lets
  repeat' (first | with_reducible assumption | intro _ | with_reducible apply holdOn_keep | with_reducible apply Keep.ite | with_reducible apply Keep.foldl | with_reducible apply Keep.foldl_fst | with_reducible apply Keep.ite_fst | ((fail_if_success (simp only [Keep.mkF]; with_reducible apply And.intro)); split) | dsimp only | (with_reducible apply Keep.mk; iterate 6 exact rfl))

theorem releaseNext_keep {s x2} (h : Keep p b s) :
    Keep p b (releaseNext s x2) := by
  unfold releaseNext
  try extract_lets
  repeat' (first | with_reducible assumption | intro _ | with_reducible apply holdOff_keep | with_reducible apply Keep.ite | with_reducible apply Keep.foldl | with_reducible apply Keep.foldl_fst | with_reducible apply Keep.ite_fst | ((fail_if_success (simp only [Keep.mkF]; with_reducible apply And.intro)); split) | dsimp only | (with_reducible apply Keep.mk; iterate 6 exact rfl))

theorem doDue_keep {s x2} (h : Keep p b s) :
    Keep p b (doDue s x2) := by
  unfold doDue
  try extract_lets
  repeat' (first | with_reducible assumption | intro _ | with_reducible apply doBus_keep | with_reducible apply gateBegins_keep | with_reducible apply holdNext_keep | with_reducible apply releaseNext_keep | with_reducible apply boundary_keep | with_reducible apply expiryAct_keep | with_reducible apply recoverAct_keep | with_reducible apply stormAct_keep | with_reducible apply capAct_keep | with_reducible apply repeatAct_keep | with_reducible apply windowAct_keep | with_reducible apply verifyAct_keep | with_reducible apply staleAct_keep | with_reducible apply Keep.ite | with_reducible apply Keep.foldl | with_reducible apply Keep.foldl_fst | with_reducible apply Keep.ite_fst | ((fail_if_success (simp only [Keep.mkF]; with_reducible apply And.intro)); split) | dsimp only | (with_reducible apply Keep.mk; iterate 6 exact rfl))

theorem State.runDue_keep {n lim s} (h : Keep p b s) : Keep p b (State.runDue n lim s) := by
  induction n generalizing s with
  | zero => exact h
  | succ n ih =>
    unfold State.runDue
    split
    · exact h
    · exact Keep.ite h (ih (doDue_keep (State.advance_keep h)))

theorem State.upTo_keep {s x2} (h : Keep p b s) :
    Keep p b (State.upTo s x2) := by
  unfold State.upTo
  try extract_lets
  repeat' (first | with_reducible assumption | intro _ | with_reducible apply State.runDue_keep | with_reducible apply Keep.ite | with_reducible apply Keep.foldl | with_reducible apply Keep.foldl_fst | with_reducible apply Keep.ite_fst | ((fail_if_success (simp only [Keep.mkF]; with_reducible apply And.intro)); split) | dsimp only | (with_reducible apply Keep.mk; iterate 6 exact rfl))

theorem State.dueNow_keep {s} (h : Keep p b s) :
    Keep p b (State.dueNow s) := by
  unfold State.dueNow
  try extract_lets
  repeat' (first | with_reducible assumption | intro _ | with_reducible apply State.upTo_keep | with_reducible apply Keep.ite | with_reducible apply Keep.foldl | with_reducible apply Keep.foldl_fst | with_reducible apply Keep.ite_fst | ((fail_if_success (simp only [Keep.mkF]; with_reducible apply And.intro)); split) | dsimp only | (with_reducible apply Keep.mk; iterate 6 exact rfl))

theorem State.near_keep {s x2} (h : Keep p b s) :
    Keep p b (State.near s x2) := by
  unfold State.near
  try extract_lets
  repeat' (first | with_reducible assumption | intro _ | with_reducible apply State.upTo_keep | with_reducible apply Keep.ite | with_reducible apply Keep.foldl | with_reducible apply Keep.foldl_fst | with_reducible apply Keep.ite_fst | ((fail_if_success (simp only [Keep.mkF]; with_reducible apply And.intro)); split) | dsimp only | (with_reducible apply Keep.mk; iterate 6 exact rfl))

theorem State.toEnd_keep {s} (h : Keep p b s) :
    Keep p b (State.toEnd s) := by
  unfold State.toEnd
  try extract_lets
  repeat' (first | with_reducible assumption | intro _ | with_reducible apply State.near_keep | with_reducible apply State.advance_keep | with_reducible apply busUpTo_keep | with_reducible apply Keep.ite | with_reducible apply Keep.foldl | with_reducible apply Keep.foldl_fst | with_reducible apply Keep.ite_fst | ((fail_if_success (simp only [Keep.mkF]; with_reducible apply And.intro)); split) | dsimp only | (with_reducible apply Keep.mk; iterate 6 exact rfl))

theorem State.tick_keep {s} (h : Keep p b s) :
    Keep p b (State.tick s) := by
  unfold State.tick
  try extract_lets
  repeat' (first | with_reducible assumption | intro _ | with_reducible apply State.dueNow_keep | with_reducible apply State.advance_keep | with_reducible apply Keep.ite | with_reducible apply Keep.foldl | with_reducible apply Keep.foldl_fst | with_reducible apply Keep.ite_fst | ((fail_if_success (simp only [Keep.mkF]; with_reducible apply And.intro)); split) | dsimp only | (with_reducible apply Keep.mk; iterate 6 exact rfl))

theorem State.toRef_keep' {s x2 t} (h : Keep p b s) (e : State.toRef s x2 = some t) : Keep p b t := by
  unfold State.toRef at e
  split at e
  · injection e with e
    exact e ▸ h
  · dsimp only at e
    split at e
    · injection e with e
      exact e ▸ State.advance_keep (State.upTo_keep h)
    · cases e

theorem State.atRef_keep {s x2 g3} (h : Keep p b s) (k3 : ∀ y0, Keep p b y0 → Keep p b (g3 y0)) :
    Keep p b (State.atRef s x2 g3) := by
  unfold State.atRef
  try extract_lets
  repeat' (first | with_reducible assumption | intro _ | with_reducible apply k3 | (with_reducible refine State.toRef_keep' ?_ (by assumption)) | with_reducible apply Keep.ite | with_reducible apply Keep.foldl | with_reducible apply Keep.foldl_fst | with_reducible apply Keep.ite_fst | ((fail_if_success (simp only [Keep.mkF]; with_reducible apply And.intro)); split) | dsimp only | (with_reducible apply Keep.mk; iterate 6 exact rfl))

theorem State.atTimer_keep {s g2 g3} (h : Keep p b s) (k3 : ∀ y0, Keep p b y0 → Keep p b (g3 y0)) :
    Keep p b (State.atTimer s g2 g3) := by
  unfold State.atTimer
  try extract_lets
  repeat' (first | with_reducible assumption | intro _ | with_reducible apply k3 | with_reducible apply State.atRef_keep | with_reducible apply ifDue_keep | with_reducible apply Keep.ite | with_reducible apply Keep.foldl | with_reducible apply Keep.foldl_fst | with_reducible apply Keep.ite_fst | ((fail_if_success (simp only [Keep.mkF]; with_reducible apply And.intro)); split) | dsimp only | (with_reducible apply Keep.mk; iterate 6 exact rfl))

theorem State.atFine_keep {s x2 g3} (h : Keep p b s) (k3 : ∀ y0, Keep p b y0 → Keep p b (g3 y0)) :
    Keep p b (State.atFine s x2 g3) := by
  unfold State.atFine
  try extract_lets
  repeat' (first | with_reducible assumption | intro _ | with_reducible apply k3 | with_reducible apply State.near_keep | with_reducible apply State.advance_keep | with_reducible apply Keep.ite | with_reducible apply Keep.foldl | with_reducible apply Keep.foldl_fst | with_reducible apply Keep.ite_fst | ((fail_if_success (simp only [Keep.mkF]; with_reducible apply And.intro)); split) | dsimp only | (with_reducible apply Keep.mk; iterate 6 exact rfl))

theorem State.atNs_keep {s x2 g3} (h : Keep p b s) (k3 : ∀ y0, Keep p b y0 → Keep p b (g3 y0)) :
    Keep p b (State.atNs s x2 g3) := by
  unfold State.atNs
  try extract_lets
  repeat' (first | with_reducible assumption | intro _ | with_reducible apply k3 | with_reducible apply State.atFine_keep | with_reducible apply Keep.ite | with_reducible apply Keep.foldl | with_reducible apply Keep.foldl_fst | with_reducible apply Keep.ite_fst | ((fail_if_success (simp only [Keep.mkF]; with_reducible apply And.intro)); split) | dsimp only | (with_reducible apply Keep.mk; iterate 6 exact rfl))

theorem State.atDev_keep {s x2 g3} (h : Keep p b s) (k3 : ∀ y0, Keep p b y0 → Keep p b (g3 y0)) :
    Keep p b (State.atDev s x2 g3) := by
  unfold State.atDev
  try extract_lets
  repeat' (first | with_reducible assumption | intro _ | with_reducible apply k3 | with_reducible apply State.atNs_keep | with_reducible apply Keep.ite | with_reducible apply Keep.foldl | with_reducible apply Keep.foldl_fst | with_reducible apply Keep.ite_fst | ((fail_if_success (simp only [Keep.mkF]; with_reducible apply And.intro)); split) | dsimp only | (with_reducible apply Keep.mk; iterate 6 exact rfl))

theorem State.atSlot_keep {s g2 g3} (h : Keep p b s) (k3 : ∀ y0, Keep p b y0 → Keep p b (g3 y0)) :
    Keep p b (State.atSlot s g2 g3) := by
  unfold State.atSlot
  try extract_lets
  repeat' (first | with_reducible assumption | intro _ | with_reducible apply k3 | with_reducible apply State.atDev_keep | with_reducible apply Keep.ite | with_reducible apply Keep.foldl | with_reducible apply Keep.foldl_fst | with_reducible apply Keep.ite_fst | ((fail_if_success (simp only [Keep.mkF]; with_reducible apply And.intro)); split) | dsimp only | (with_reducible apply Keep.mk; iterate 6 exact rfl))

theorem busThrough_keep {s x2} (h : Keep p b s) :
    Keep p b (busThrough s x2) := by
  unfold busThrough
  try extract_lets
  repeat' (first | with_reducible assumption | intro _ | with_reducible apply State.atFine_keep | with_reducible apply busUpTo_keep | with_reducible apply Keep.ite | with_reducible apply Keep.foldl | with_reducible apply Keep.foldl_fst | with_reducible apply Keep.ite_fst | ((fail_if_success (simp only [Keep.mkF]; with_reducible apply And.intro)); split) | dsimp only | (with_reducible apply Keep.mk; iterate 6 exact rfl))

end Sys2Proof.Machine
end

