-- ==== Sys2Proof/Laws/KeepViras.lean ====
section
/-!
SUPPORT. What the operations of Machine/Viras.lean keep of the queue and the stores.
-/

set_option linter.all false

namespace Sys2Proof.Machine

variable {p : List Instr} {b : Prop}

theorem execVirasFrameTx_keep {x1 x2 s} (h : Keep p b s) :
    KeepO p b (execVirasFrameTx x1 x2 s) := by
  unfold execVirasFrameTx
  try extract_lets
  repeat' (first | with_reducible assumption | intro _ | with_reducible apply KeepO.next | with_reducible apply busThrough_keep | with_reducible apply Keep.ite | with_reducible apply Keep.foldl | with_reducible apply Keep.foldl_fst | with_reducible apply Keep.ite_fst | ((fail_if_success (simp only [Keep.mkF]; with_reducible apply And.intro)); split) | dsimp only | (with_reducible apply Keep.mk; iterate 6 exact rfl))

theorem execGuardWindowClose_keep {x1 x2 s} (h : Keep p b s) :
    KeepO p b (execGuardWindowClose x1 x2 s) := by
  unfold execGuardWindowClose
  try extract_lets
  repeat' (first | with_reducible assumption | intro _ | with_reducible apply KeepO.next | with_reducible apply busThrough_keep | with_reducible apply Keep.ite | with_reducible apply Keep.foldl | with_reducible apply Keep.foldl_fst | with_reducible apply Keep.ite_fst | ((fail_if_success (simp only [Keep.mkF]; with_reducible apply And.intro)); split) | dsimp only | (with_reducible apply Keep.mk; iterate 6 exact rfl))

theorem execGuardCrc_keep {s} (h : Keep p b s) :
    KeepO p b (execGuardCrc s) := by
  unfold execGuardCrc
  try extract_lets
  repeat' (first | with_reducible assumption | intro _ | with_reducible apply KeepO.next | with_reducible apply driversOff_keep | with_reducible apply State.fireDev_keep | with_reducible apply Keep.ite | with_reducible apply Keep.foldl | with_reducible apply Keep.foldl_fst | with_reducible apply Keep.ite_fst | ((fail_if_success (simp only [Keep.mkF]; with_reducible apply And.intro)); split) | dsimp only | (with_reducible apply Keep.mk; iterate 6 exact rfl))

theorem integrate_keep {s x2 x3} (h : Keep p b s) :
    Keep p b (integrate s x2 x3) := by
  unfold integrate
  try extract_lets
  repeat' (first | with_reducible assumption | intro _ | with_reducible apply Keep.ite | with_reducible apply Keep.foldl | with_reducible apply Keep.foldl_fst | with_reducible apply Keep.ite_fst | ((fail_if_success (simp only [Keep.mkF]; with_reducible apply And.intro)); split) | dsimp only | (with_reducible apply Keep.mk; iterate 6 exact rfl))

theorem receiveCopy_keep {s x2 x3} (h : Keep p b s) :
    Keep p b (receiveCopy s x2 x3) := by
  unfold receiveCopy
  try extract_lets
  repeat' (first | with_reducible assumption | intro _ | with_reducible apply integrate_keep | with_reducible apply State.inc_keep | with_reducible apply State.setVchan_keep | with_reducible apply Keep.ite | with_reducible apply Keep.foldl | with_reducible apply Keep.foldl_fst | with_reducible apply Keep.ite_fst | ((fail_if_success (simp only [Keep.mkF]; with_reducible apply And.intro)); split) | dsimp only | (with_reducible apply Keep.mk; iterate 6 exact rfl))

theorem hubCut_keep {s x2 x3} (h : Keep p b s) :
    Keep p b (hubCut s x2 x3) := by
  unfold hubCut
  try extract_lets
  repeat' (first | with_reducible assumption | intro _ | with_reducible apply State.postB_keep | with_reducible apply State.vrsRaise_keep | with_reducible apply State.inc_keep | with_reducible apply State.setVlink_keep | with_reducible apply Keep.ite | with_reducible apply Keep.foldl | with_reducible apply Keep.foldl_fst | with_reducible apply Keep.ite_fst | ((fail_if_success (simp only [Keep.mkF]; with_reducible apply And.intro)); split) | dsimp only | (with_reducible apply Keep.mk; iterate 6 exact rfl))

theorem relayFrom_keep {s x2 x3 x4 x5 x6} (h : Keep p b s) :
    Keep p b (relayFrom s x2 x3 x4 x5 x6) := by
  unfold relayFrom
  try extract_lets
  repeat' (first | with_reducible assumption | intro _ | with_reducible apply State.inc_keep | with_reducible apply receiveCopy_keep | with_reducible apply State.emit_keep | with_reducible apply Keep.ite | with_reducible apply Keep.foldl | with_reducible apply Keep.foldl_fst | with_reducible apply Keep.ite_fst | ((fail_if_success (simp only [Keep.mkF]; with_reducible apply And.intro)); split) | dsimp only | (with_reducible apply Keep.mk; iterate 6 exact rfl))

theorem execVirasCopyReceived_keep {x1 s} (h : Keep p b s) :
    KeepO p b (execVirasCopyReceived x1 s) := by
  unfold execVirasCopyReceived
  try extract_lets
  repeat' (first | with_reducible assumption | intro _ | with_reducible apply KeepO.next | with_reducible apply State.atNs_keep | with_reducible apply State.emit_keep | with_reducible apply receiveCopy_keep | with_reducible apply hubCut_keep | with_reducible apply relayFrom_keep | with_reducible apply Keep.ite | with_reducible apply Keep.foldl | with_reducible apply Keep.foldl_fst | with_reducible apply Keep.ite_fst | ((fail_if_success (simp only [Keep.mkF]; with_reducible apply And.intro)); split) | dsimp only | (with_reducible apply Keep.mk; iterate 6 exact rfl))

theorem execSlotViolation_keep {x1 x2 s} (h : Keep p b s) :
    KeepO p b (execSlotViolation x1 x2 s) := by
  unfold execSlotViolation
  try extract_lets
  repeat' (first | with_reducible assumption | intro _ | with_reducible apply KeepO.next | with_reducible apply hubCut_keep | with_reducible apply Keep.ite | with_reducible apply Keep.foldl | with_reducible apply Keep.foldl_fst | with_reducible apply Keep.ite_fst | ((fail_if_success (simp only [Keep.mkF]; with_reducible apply And.intro)); split) | dsimp only | (with_reducible apply Keep.mk; iterate 6 exact rfl))

theorem execBranchShut_keep {x1 x2 s} (h : Keep p b s) :
    KeepO p b (execBranchShut x1 x2 s) := by
  unfold execBranchShut
  try extract_lets
  repeat' (first | with_reducible assumption | intro _ | with_reducible apply KeepO.next | with_reducible apply State.postB_keep | with_reducible apply State.setVlink_keep | with_reducible apply Keep.ite | with_reducible apply Keep.foldl | with_reducible apply Keep.foldl_fst | with_reducible apply Keep.ite_fst | ((fail_if_success (simp only [Keep.mkF]; with_reducible apply And.intro)); split) | dsimp only | (with_reducible apply Keep.mk; iterate 6 exact rfl))

theorem execBranchRestart_keep {x1 x2 s} (h : Keep p b s) :
    KeepO p b (execBranchRestart x1 x2 s) := by
  unfold execBranchRestart
  try extract_lets
  repeat' (first | with_reducible assumption | intro _ | with_reducible apply KeepO.next | with_reducible apply State.atRef_keep | with_reducible apply ladderStart_keep | with_reducible apply State.setVlink_keep | with_reducible apply Keep.ite | with_reducible apply Keep.foldl | with_reducible apply Keep.foldl_fst | with_reducible apply Keep.ite_fst | ((fail_if_success (simp only [Keep.mkF]; with_reducible apply And.intro)); split) | dsimp only | (with_reducible apply Keep.mk; iterate 6 exact rfl))

theorem execSlotEndVote_keep {x1 s} (h : Keep p b s) :
    KeepO p b (execSlotEndVote x1 s) := by
  unfold execSlotEndVote
  try extract_lets
  repeat' (first | with_reducible assumption | intro _ | with_reducible apply KeepO.next | with_reducible apply busThrough_keep | with_reducible apply Keep.ite | with_reducible apply Keep.foldl | with_reducible apply Keep.foldl_fst | with_reducible apply Keep.ite_fst | ((fail_if_success (simp only [Keep.mkF]; with_reducible apply And.intro)); split) | dsimp only | (with_reducible apply Keep.mk; iterate 6 exact rfl))

theorem execChanDown_keep {x1 s} (h : Keep p b s) :
    KeepO p b (execChanDown x1 s) := by
  unfold execChanDown
  try extract_lets
  repeat' (first | with_reducible assumption | intro _ | with_reducible apply KeepO.next | with_reducible apply reclass_keep | with_reducible apply State.post_keep | with_reducible apply State.vrsRaise_keep | with_reducible apply State.setVchan_keep | with_reducible apply Keep.ite | with_reducible apply Keep.foldl | with_reducible apply Keep.foldl_fst | with_reducible apply Keep.ite_fst | ((fail_if_success (simp only [Keep.mkF]; with_reducible apply And.intro)); split) | dsimp only | (with_reducible apply Keep.mk; iterate 6 exact rfl))

theorem execChanUp_keep {x1 s} (h : Keep p b s) :
    KeepO p b (execChanUp x1 s) := by
  unfold execChanUp
  try extract_lets
  repeat' (first | with_reducible assumption | intro _ | with_reducible apply KeepO.next | with_reducible apply reclass_keep | with_reducible apply State.post_keep | with_reducible apply State.vrsRaise_keep | with_reducible apply State.setVchan_keep | with_reducible apply Keep.ite | with_reducible apply Keep.foldl | with_reducible apply Keep.foldl_fst | with_reducible apply Keep.ite_fst | ((fail_if_success (simp only [Keep.mkF]; with_reducible apply And.intro)); split) | dsimp only | (with_reducible apply Keep.mk; iterate 6 exact rfl))

theorem execHello_keep {x1 x2 x3 x4 s} (h : Keep p b s) :
    KeepO p b (execHello x1 x2 x3 x4 s) := by
  unfold execHello
  try extract_lets
  repeat' (first | with_reducible assumption | intro _ | with_reducible apply KeepO.next | with_reducible apply ladderBad_keep | with_reducible apply ladderHold_keep | with_reducible apply sendLadder_keep | with_reducible apply State.setVlink_keep | with_reducible apply ladderNext_keep | with_reducible apply Keep.ite | with_reducible apply Keep.foldl | with_reducible apply Keep.foldl_fst | with_reducible apply Keep.ite_fst | ((fail_if_success (simp only [Keep.mkF]; with_reducible apply And.intro)); split) | dsimp only | (with_reducible apply Keep.mk; iterate 6 exact rfl))

theorem execHelloAck_keep {x1 x2 x3 s} (h : Keep p b s) :
    KeepO p b (execHelloAck x1 x2 x3 s) := by
  unfold execHelloAck
  try extract_lets
  repeat' (first | with_reducible assumption | intro _ | with_reducible apply KeepO.next | with_reducible apply ladderBad_keep | with_reducible apply State.setVlink_keep | with_reducible apply Keep.ite | with_reducible apply Keep.foldl | with_reducible apply Keep.foldl_fst | with_reducible apply Keep.ite_fst | ((fail_if_success (simp only [Keep.mkF]; with_reducible apply And.intro)); split) | dsimp only | (with_reducible apply Keep.mk; iterate 6 exact rfl))

theorem execRateReq_keep {x1 x2 s} (h : Keep p b s) :
    KeepO p b (execRateReq x1 x2 s) := by
  unfold execRateReq
  try extract_lets
  repeat' (first | with_reducible assumption | intro _ | with_reducible apply KeepO.next | with_reducible apply ladderBad_keep | with_reducible apply sendLadder_keep | with_reducible apply State.setVlink_keep | with_reducible apply Keep.ite | with_reducible apply Keep.foldl | with_reducible apply Keep.foldl_fst | with_reducible apply Keep.ite_fst | ((fail_if_success (simp only [Keep.mkF]; with_reducible apply And.intro)); split) | dsimp only | (with_reducible apply Keep.mk; iterate 6 exact rfl))

theorem execRateAck_keep {x1 x2 x3 s} (h : Keep p b s) :
    KeepO p b (execRateAck x1 x2 x3 s) := by
  unfold execRateAck
  try extract_lets
  repeat' (first | with_reducible assumption | intro _ | with_reducible apply KeepO.next | with_reducible apply ladderBad_keep | with_reducible apply State.setVlink_keep | with_reducible apply Keep.ite | with_reducible apply Keep.foldl | with_reducible apply Keep.foldl_fst | with_reducible apply Keep.ite_fst | ((fail_if_success (simp only [Keep.mkF]; with_reducible apply And.intro)); split) | dsimp only | (with_reducible apply Keep.mk; iterate 6 exact rfl))

theorem execRateSwitch_keep {x1 s} (h : Keep p b s) :
    KeepO p b (execRateSwitch x1 s) := by
  unfold execRateSwitch
  try extract_lets
  repeat' (first | with_reducible assumption | intro _ | with_reducible apply KeepO.next | with_reducible apply State.atRef_keep | with_reducible apply State.setVlink_keep | with_reducible apply Keep.ite | with_reducible apply Keep.foldl | with_reducible apply Keep.foldl_fst | with_reducible apply Keep.ite_fst | ((fail_if_success (simp only [Keep.mkF]; with_reducible apply And.intro)); split) | dsimp only | (with_reducible apply Keep.mk; iterate 6 exact rfl))

theorem execPing_keep {x1 s} (h : Keep p b s) :
    KeepO p b (execPing x1 s) := by
  unfold execPing
  try extract_lets
  repeat' (first | with_reducible assumption | intro _ | with_reducible apply KeepO.next | with_reducible apply ladderBad_keep | with_reducible apply State.setVlink_keep | with_reducible apply Keep.ite | with_reducible apply Keep.foldl | with_reducible apply Keep.foldl_fst | with_reducible apply Keep.ite_fst | ((fail_if_success (simp only [Keep.mkF]; with_reducible apply And.intro)); split) | dsimp only | (with_reducible apply Keep.mk; iterate 6 exact rfl))

theorem execPongSend_keep {x1 s} (h : Keep p b s) :
    KeepO p b (execPongSend x1 s) := by
  unfold execPongSend
  try extract_lets
  repeat' (first | with_reducible assumption | intro _ | with_reducible apply KeepO.next | with_reducible apply State.atRef_keep | with_reducible apply sendLadder_keep | with_reducible apply State.setVlink_keep | with_reducible apply Keep.ite | with_reducible apply Keep.foldl | with_reducible apply Keep.foldl_fst | with_reducible apply Keep.ite_fst | ((fail_if_success (simp only [Keep.mkF]; with_reducible apply And.intro)); split) | dsimp only | (with_reducible apply Keep.mk; iterate 6 exact rfl))

theorem execPong_keep {x1 x2 x3 s} (h : Keep p b s) :
    KeepO p b (execPong x1 x2 x3 s) := by
  unfold execPong
  try extract_lets
  repeat' (first | with_reducible assumption | intro _ | with_reducible apply KeepO.next | with_reducible apply ladderBad_keep | with_reducible apply sendLadder_keep | with_reducible apply State.setVlink_keep | with_reducible apply State.setWord_keep | with_reducible apply Keep.ite | with_reducible apply Keep.foldl | with_reducible apply Keep.foldl_fst | with_reducible apply Keep.ite_fst | ((fail_if_success (simp only [Keep.mkF]; with_reducible apply And.intro)); split) | dsimp only | (with_reducible apply Keep.mk; iterate 6 exact rfl))

theorem execReady_keep {x1 x2 s} (h : Keep p b s) :
    KeepO p b (execReady x1 x2 s) := by
  unfold execReady
  try extract_lets
  repeat' (first | with_reducible assumption | intro _ | with_reducible apply KeepO.next | with_reducible apply ladderBad_keep | with_reducible apply State.setWord_keep | with_reducible apply State.setVlink_keep | with_reducible apply Keep.ite | with_reducible apply Keep.foldl | with_reducible apply Keep.foldl_fst | with_reducible apply Keep.ite_fst | ((fail_if_success (simp only [Keep.mkF]; with_reducible apply And.intro)); split) | dsimp only | (with_reducible apply Keep.mk; iterate 6 exact rfl))

theorem execReject_keep {x1 x2 s} (h : Keep p b s) :
    KeepO p b (execReject x1 x2 s) := by
  unfold execReject
  try extract_lets
  repeat' (first | with_reducible assumption | intro _ | with_reducible apply KeepO.next | with_reducible apply ladderHold_keep | with_reducible apply Keep.ite | with_reducible apply Keep.foldl | with_reducible apply Keep.foldl_fst | with_reducible apply Keep.ite_fst | ((fail_if_success (simp only [Keep.mkF]; with_reducible apply And.intro)); split) | dsimp only | (with_reducible apply Keep.mk; iterate 6 exact rfl))

theorem execLadderBad_keep {x1 x2 s} (h : Keep p b s) :
    KeepO p b (execLadderBad x1 x2 s) := by
  unfold execLadderBad
  try extract_lets
  repeat' (first | with_reducible assumption | intro _ | with_reducible apply KeepO.next | with_reducible apply ladderBad_keep | with_reducible apply Keep.ite | with_reducible apply Keep.foldl | with_reducible apply Keep.foldl_fst | with_reducible apply Keep.ite_fst | ((fail_if_success (simp only [Keep.mkF]; with_reducible apply And.intro)); split) | dsimp only | (with_reducible apply Keep.mk; iterate 6 exact rfl))

theorem sendHello_keep {x1 s} (h : Keep p b s) :
    Keep p b (sendHello x1 s) := by
  unfold sendHello
  try extract_lets
  repeat' (first | with_reducible assumption | intro _ | with_reducible apply sendLadder_keep | with_reducible apply State.setVlink_keep | with_reducible apply Keep.ite | with_reducible apply Keep.foldl | with_reducible apply Keep.foldl_fst | with_reducible apply Keep.ite_fst | ((fail_if_success (simp only [Keep.mkF]; with_reducible apply And.intro)); split) | dsimp only | (with_reducible apply Keep.mk; iterate 6 exact rfl))

theorem execHelloTimer_keep {x1 s} (h : Keep p b s) :
    KeepO p b (execHelloTimer x1 s) := by
  unfold execHelloTimer
  try extract_lets
  repeat' (first | with_reducible assumption | intro _ | with_reducible apply KeepO.next | with_reducible apply sendHello_keep | with_reducible apply State.atRef_keep | with_reducible apply Keep.ite | with_reducible apply Keep.foldl | with_reducible apply Keep.foldl_fst | with_reducible apply Keep.ite_fst | ((fail_if_success (simp only [Keep.mkF]; with_reducible apply And.intro)); split) | dsimp only | (with_reducible apply Keep.mk; iterate 6 exact rfl))

theorem execLadderTimeout_keep {x1 s} (h : Keep p b s) :
    KeepO p b (execLadderTimeout x1 s) := by
  unfold execLadderTimeout
  try extract_lets
  repeat' (first | with_reducible assumption | intro _ | with_reducible apply KeepO.next | with_reducible apply State.atRef_keep | with_reducible apply ladderStart_keep | with_reducible apply State.setVlink_keep | with_reducible apply sendLadder_keep | with_reducible apply Keep.ite | with_reducible apply Keep.foldl | with_reducible apply Keep.foldl_fst | with_reducible apply Keep.ite_fst | ((fail_if_success (simp only [Keep.mkF]; with_reducible apply And.intro)); split) | dsimp only | (with_reducible apply Keep.mk; iterate 6 exact rfl))

theorem execLadderHoldEnd_keep {x1 s} (h : Keep p b s) :
    KeepO p b (execLadderHoldEnd x1 s) := by
  unfold execLadderHoldEnd
  try extract_lets
  repeat' (first | with_reducible assumption | intro _ | with_reducible apply KeepO.next | with_reducible apply State.atRef_keep | with_reducible apply ladderStart_keep | with_reducible apply Keep.ite | with_reducible apply Keep.foldl | with_reducible apply Keep.foldl_fst | with_reducible apply Keep.ite_fst | ((fail_if_success (simp only [Keep.mkF]; with_reducible apply And.intro)); split) | dsimp only | (with_reducible apply Keep.mk; iterate 6 exact rfl))

theorem execStarLinkDown_keep {x1 s} (h : Keep p b s) :
    KeepO p b (execStarLinkDown x1 s) := by
  unfold execStarLinkDown
  try extract_lets
  repeat' (first | with_reducible assumption | intro _ | with_reducible apply KeepO.next | with_reducible apply ladderStart_keep | with_reducible apply reclass_keep | with_reducible apply State.setVlink_keep | with_reducible apply Keep.ite | with_reducible apply Keep.foldl | with_reducible apply Keep.foldl_fst | with_reducible apply Keep.ite_fst | ((fail_if_success (simp only [Keep.mkF]; with_reducible apply And.intro)); split) | dsimp only | (with_reducible apply Keep.mk; iterate 6 exact rfl))

theorem linkStrike_keep {s x2 x3} (h : Keep p b s) :
    Keep p b (linkStrike s x2 x3) := by
  unfold linkStrike
  try extract_lets
  repeat' (first | with_reducible assumption | intro _ | with_reducible apply State.setVlink_keep | with_reducible apply State.post_keep | with_reducible apply Keep.ite | with_reducible apply Keep.foldl | with_reducible apply Keep.foldl_fst | with_reducible apply Keep.ite_fst | ((fail_if_success (simp only [Keep.mkF]; with_reducible apply And.intro)); split) | dsimp only | (with_reducible apply Keep.mk; iterate 6 exact rfl))

theorem chanClose_keep {s x2} (h : Keep p b s) :
    Keep p b (chanClose s x2) := by
  unfold chanClose
  try extract_lets
  repeat' (first | with_reducible assumption | intro _ | with_reducible apply State.setVchan_keep | with_reducible apply Keep.ite | with_reducible apply Keep.foldl | with_reducible apply Keep.foldl_fst | with_reducible apply Keep.ite_fst | ((fail_if_success (simp only [Keep.mkF]; with_reducible apply And.intro)); split) | dsimp only | (with_reducible apply Keep.mk; iterate 6 exact rfl))

theorem chanLatch_keep {s x2} (h : Keep p b s) :
    Keep p b (chanLatch s x2) := by
  unfold chanLatch
  try extract_lets
  repeat' (first | with_reducible assumption | intro _ | with_reducible apply State.setVchan_keep | with_reducible apply Keep.ite | with_reducible apply Keep.foldl | with_reducible apply Keep.foldl_fst | with_reducible apply Keep.ite_fst | ((fail_if_success (simp only [Keep.mkF]; with_reducible apply And.intro)); split) | dsimp only | (with_reducible apply Keep.mk; iterate 6 exact rfl))

theorem mboxVisible_keep {s} (h : Keep p b s) :
    Keep p b (mboxVisible s) := by
  unfold mboxVisible
  try extract_lets
  repeat' (first | with_reducible assumption | intro _ | with_reducible apply State.setWord_keep | with_reducible apply State.timRaise_keep | with_reducible apply Keep.ite | with_reducible apply Keep.foldl | with_reducible apply Keep.foldl_fst | with_reducible apply Keep.ite_fst | ((fail_if_success (simp only [Keep.mkF]; with_reducible apply And.intro)); split) | dsimp only | (with_reducible apply Keep.mk; iterate 6 exact rfl))

theorem hintsVisible_keep {s} (h : Keep p b s) :
    Keep p b (hintsVisible s) := by
  unfold hintsVisible
  try extract_lets
  repeat' (first | with_reducible assumption | intro _ | with_reducible apply State.setWord_keep | with_reducible apply Keep.ite | with_reducible apply Keep.foldl | with_reducible apply Keep.foldl_fst | with_reducible apply Keep.ite_fst | ((fail_if_success (simp only [Keep.mkF]; with_reducible apply And.intro)); split) | dsimp only | (with_reducible apply Keep.mk; iterate 6 exact rfl))

theorem virasClose_keep {s} (h : Keep p b s) :
    Keep p b (virasClose s) := by
  unfold virasClose
  try extract_lets
  repeat' (first | with_reducible assumption | intro _ | with_reducible apply linkStrike_keep | with_reducible apply chanClose_keep | with_reducible apply State.setWord_keep | with_reducible apply Keep.ite | with_reducible apply Keep.foldl | with_reducible apply Keep.foldl_fst | with_reducible apply Keep.ite_fst | ((fail_if_success (simp only [Keep.mkF]; with_reducible apply And.intro)); split) | dsimp only | (with_reducible apply Keep.mk; iterate 6 exact rfl))

theorem virasLatch_keep {s} (h : Keep p b s) :
    Keep p b (virasLatch s) := by
  unfold virasLatch
  try extract_lets
  repeat' (first | with_reducible assumption | intro _ | with_reducible apply chanLatch_keep | with_reducible apply Keep.ite | with_reducible apply Keep.foldl | with_reducible apply Keep.foldl_fst | with_reducible apply Keep.ite_fst | ((fail_if_success (simp only [Keep.mkF]; with_reducible apply And.intro)); split) | dsimp only | (with_reducible apply Keep.mk; iterate 6 exact rfl))

end Sys2Proof.Machine
end

