-- ==== Sys2Proof/Laws/KeepClusterTime.lean ====
section
/-!
SUPPORT. What the operations of Machine/ClusterTime.lean keep of the queue and the stores.
-/

set_option linter.all false

namespace Sys2Proof.Machine

variable {p : List Instr} {b : Prop}

theorem bodyCommitOpen_keep {x1 s} (h : Keep p b s) :
    KeepB p b (bodyCommitOpen x1 s) := by
  unfold bodyCommitOpen
  try extract_lets
  repeat' (first | with_reducible assumption | intro _ | with_reducible apply KeepB.ite | with_reducible apply KeepB.done | with_reducible apply KeepB.other | with_reducible apply KeepB.stage | with_reducible apply KeepB.wait | with_reducible apply KeepB.fail | with_reducible apply KeepB.bad | with_reducible apply KeepB.deny | with_reducible apply KeepB.lock | with_reducible apply KeepB.missing | with_reducible apply KeepB.full | with_reducible apply State.modQueue_keep | with_reducible apply Keep.ite | with_reducible apply Keep.foldl | with_reducible apply Keep.foldl_fst | with_reducible apply Keep.ite_fst | ((fail_if_success (simp only [Keep.mkF]; with_reducible apply And.intro)); split) | dsimp only | (with_reducible apply Keep.mk; iterate 6 exact rfl))

theorem execCommitOpen_keep {x1 s} (h : Keep p b s) :
    KeepO p b (execCommitOpen x1 s) := by
  unfold execCommitOpen
  try extract_lets
  repeat' (first | with_reducible assumption | intro _ | with_reducible apply KeepO.next | with_reducible apply runCmd_keep | with_reducible apply bodyCommitOpen_keep | with_reducible apply Keep.ite | with_reducible apply Keep.foldl | with_reducible apply Keep.foldl_fst | with_reducible apply Keep.ite_fst | ((fail_if_success (simp only [Keep.mkF]; with_reducible apply And.intro)); split) | dsimp only | (with_reducible apply Keep.mk; iterate 6 exact rfl))

theorem bodyCommitCancel_keep {x1 s} (h : Keep p b s) :
    KeepB p b (bodyCommitCancel x1 s) := by
  unfold bodyCommitCancel
  try extract_lets
  repeat' (first | with_reducible assumption | intro _ | with_reducible apply KeepB.ite | with_reducible apply KeepB.done | with_reducible apply KeepB.other | with_reducible apply KeepB.stage | with_reducible apply KeepB.wait | with_reducible apply KeepB.fail | with_reducible apply KeepB.bad | with_reducible apply KeepB.deny | with_reducible apply KeepB.lock | with_reducible apply KeepB.missing | with_reducible apply KeepB.full | with_reducible apply abortUnit_keep | with_reducible apply Keep.ite | with_reducible apply Keep.foldl | with_reducible apply Keep.foldl_fst | with_reducible apply Keep.ite_fst | ((fail_if_success (simp only [Keep.mkF]; with_reducible apply And.intro)); split) | dsimp only | (with_reducible apply Keep.mk; iterate 6 exact rfl))

theorem execCommitCancel_keep {x1 s} (h : Keep p b s) :
    KeepO p b (execCommitCancel x1 s) := by
  unfold execCommitCancel
  try extract_lets
  repeat' (first | with_reducible assumption | intro _ | with_reducible apply KeepO.next | with_reducible apply runCmd_keep | with_reducible apply bodyCommitCancel_keep | with_reducible apply Keep.ite | with_reducible apply Keep.foldl | with_reducible apply Keep.foldl_fst | with_reducible apply Keep.ite_fst | ((fail_if_success (simp only [Keep.mkF]; with_reducible apply And.intro)); split) | dsimp only | (with_reducible apply Keep.mk; iterate 6 exact rfl))

theorem bodyCommitQuery_keep {x1 s} (h : Keep p b s) :
    KeepB p b (bodyCommitQuery x1 s) := by
  unfold bodyCommitQuery
  try extract_lets
  repeat' (first | with_reducible assumption | intro _ | with_reducible apply KeepB.ite | with_reducible apply KeepB.done | with_reducible apply KeepB.other | with_reducible apply KeepB.stage | with_reducible apply KeepB.wait | with_reducible apply KeepB.fail | with_reducible apply KeepB.bad | with_reducible apply KeepB.deny | with_reducible apply KeepB.lock | with_reducible apply KeepB.missing | with_reducible apply KeepB.full | with_reducible apply Keep.ite | with_reducible apply Keep.foldl | with_reducible apply Keep.foldl_fst | with_reducible apply Keep.ite_fst | ((fail_if_success (simp only [Keep.mkF]; with_reducible apply And.intro)); split) | dsimp only | (with_reducible apply Keep.mk; iterate 6 exact rfl))

theorem execCommitQuery_keep {x1 s} (h : Keep p b s) :
    KeepO p b (execCommitQuery x1 s) := by
  unfold execCommitQuery
  try extract_lets
  repeat' (first | with_reducible assumption | intro _ | with_reducible apply KeepO.next | with_reducible apply runCmd_keep | with_reducible apply bodyCommitQuery_keep | with_reducible apply Keep.ite | with_reducible apply Keep.foldl | with_reducible apply Keep.foldl_fst | with_reducible apply Keep.ite_fst | ((fail_if_success (simp only [Keep.mkF]; with_reducible apply And.intro)); split) | dsimp only | (with_reducible apply Keep.mk; iterate 6 exact rfl))

theorem bodySchedLoad_keep {x1 s} (h : Keep p b s) :
    KeepB p b (bodySchedLoad x1 s) := by
  unfold bodySchedLoad
  try extract_lets
  repeat' (first | with_reducible assumption | intro _ | with_reducible apply KeepB.ite | with_reducible apply KeepB.done | with_reducible apply KeepB.other | with_reducible apply KeepB.stage | with_reducible apply KeepB.wait | with_reducible apply KeepB.fail | with_reducible apply KeepB.bad | with_reducible apply KeepB.deny | with_reducible apply KeepB.lock | with_reducible apply KeepB.missing | with_reducible apply KeepB.full | with_reducible apply Keep.ite | with_reducible apply Keep.foldl | with_reducible apply Keep.foldl_fst | with_reducible apply Keep.ite_fst | ((fail_if_success (simp only [Keep.mkF]; with_reducible apply And.intro)); split) | dsimp only | (with_reducible apply Keep.mk; iterate 6 exact rfl))

theorem execSchedLoad_keep {x1 s} (h : Keep p b s) :
    KeepO p b (execSchedLoad x1 s) := by
  unfold execSchedLoad
  try extract_lets
  repeat' (first | with_reducible assumption | intro _ | with_reducible apply KeepO.next | with_reducible apply runCmd_keep | with_reducible apply bodySchedLoad_keep | with_reducible apply Keep.ite | with_reducible apply Keep.foldl | with_reducible apply Keep.foldl_fst | with_reducible apply Keep.ite_fst | ((fail_if_success (simp only [Keep.mkF]; with_reducible apply And.intro)); split) | dsimp only | (with_reducible apply Keep.mk; iterate 6 exact rfl))

theorem landSchedLoad_keep {x1 s} (h : Keep p b s) :
    Keep p b (landSchedLoad x1 s) := by
  unfold landSchedLoad
  try extract_lets
  repeat' (first | with_reducible assumption | intro _ | with_reducible apply setHeatLen_keep | with_reducible apply landImage_keep | with_reducible apply Keep.ite | with_reducible apply Keep.foldl | with_reducible apply Keep.foldl_fst | with_reducible apply Keep.ite_fst | ((fail_if_success (simp only [Keep.mkF]; with_reducible apply And.intro)); split) | dsimp only | (with_reducible apply Keep.mk; iterate 6 exact rfl))

theorem bodyTimJoin_keep {x1 s} (h : Keep p b s) :
    KeepB p b (bodyTimJoin x1 s) := by
  unfold bodyTimJoin
  try extract_lets
  repeat' (first | with_reducible assumption | intro _ | with_reducible apply KeepB.ite | with_reducible apply KeepB.done | with_reducible apply KeepB.other | with_reducible apply KeepB.stage | with_reducible apply KeepB.wait | with_reducible apply KeepB.fail | with_reducible apply KeepB.bad | with_reducible apply KeepB.deny | with_reducible apply KeepB.lock | with_reducible apply KeepB.missing | with_reducible apply KeepB.full | with_reducible apply enterTime_keep | with_reducible apply Keep.ite | with_reducible apply Keep.foldl | with_reducible apply Keep.foldl_fst | with_reducible apply Keep.ite_fst | ((fail_if_success (simp only [Keep.mkF]; with_reducible apply And.intro)); split) | dsimp only | (with_reducible apply Keep.mk; iterate 6 exact rfl))

theorem execTimJoin_keep {x1 s} (h : Keep p b s) :
    KeepO p b (execTimJoin x1 s) := by
  unfold execTimJoin
  try extract_lets
  repeat' (first | with_reducible assumption | intro _ | with_reducible apply KeepO.next | with_reducible apply runCmd_keep | with_reducible apply bodyTimJoin_keep | with_reducible apply Keep.ite | with_reducible apply Keep.foldl | with_reducible apply Keep.foldl_fst | with_reducible apply Keep.ite_fst | ((fail_if_success (simp only [Keep.mkF]; with_reducible apply And.intro)); split) | dsimp only | (with_reducible apply Keep.mk; iterate 6 exact rfl))

theorem bodyTimLeave_keep {x1 s} (h : Keep p b s) :
    KeepB p b (bodyTimLeave x1 s) := by
  unfold bodyTimLeave
  try extract_lets
  repeat' (first | with_reducible assumption | intro _ | with_reducible apply KeepB.ite | with_reducible apply KeepB.done | with_reducible apply KeepB.other | with_reducible apply KeepB.stage | with_reducible apply KeepB.wait | with_reducible apply KeepB.fail | with_reducible apply KeepB.bad | with_reducible apply KeepB.deny | with_reducible apply KeepB.lock | with_reducible apply KeepB.missing | with_reducible apply KeepB.full | with_reducible apply enterTime_keep | with_reducible apply abortUnit_keep | with_reducible apply Keep.ite | with_reducible apply Keep.foldl | with_reducible apply Keep.foldl_fst | with_reducible apply Keep.ite_fst | ((fail_if_success (simp only [Keep.mkF]; with_reducible apply And.intro)); split) | dsimp only | (with_reducible apply Keep.mk; iterate 6 exact rfl))

theorem execTimLeave_keep {x1 s} (h : Keep p b s) :
    KeepO p b (execTimLeave x1 s) := by
  unfold execTimLeave
  try extract_lets
  repeat' (first | with_reducible assumption | intro _ | with_reducible apply KeepO.next | with_reducible apply runCmd_keep | with_reducible apply bodyTimLeave_keep | with_reducible apply Keep.ite | with_reducible apply Keep.foldl | with_reducible apply Keep.foldl_fst | with_reducible apply Keep.ite_fst | ((fail_if_success (simp only [Keep.mkF]; with_reducible apply And.intro)); split) | dsimp only | (with_reducible apply Keep.mk; iterate 6 exact rfl))

theorem bodyTimQuery_keep {x1 s} (h : Keep p b s) :
    KeepB p b (bodyTimQuery x1 s) := by
  unfold bodyTimQuery
  try extract_lets
  repeat' (first | with_reducible assumption | intro _ | with_reducible apply KeepB.ite | with_reducible apply KeepB.done | with_reducible apply KeepB.other | with_reducible apply KeepB.stage | with_reducible apply KeepB.wait | with_reducible apply KeepB.fail | with_reducible apply KeepB.bad | with_reducible apply KeepB.deny | with_reducible apply KeepB.lock | with_reducible apply KeepB.missing | with_reducible apply KeepB.full | with_reducible apply Keep.ite | with_reducible apply Keep.foldl | with_reducible apply Keep.foldl_fst | with_reducible apply Keep.ite_fst | ((fail_if_success (simp only [Keep.mkF]; with_reducible apply And.intro)); split) | dsimp only | (with_reducible apply Keep.mk; iterate 6 exact rfl))

theorem execTimQuery_keep {x1 s} (h : Keep p b s) :
    KeepO p b (execTimQuery x1 s) := by
  unfold execTimQuery
  try extract_lets
  repeat' (first | with_reducible assumption | intro _ | with_reducible apply KeepO.next | with_reducible apply runCmd_keep | with_reducible apply bodyTimQuery_keep | with_reducible apply Keep.ite | with_reducible apply Keep.foldl | with_reducible apply Keep.foldl_fst | with_reducible apply Keep.ite_fst | ((fail_if_success (simp only [Keep.mkF]; with_reducible apply And.intro)); split) | dsimp only | (with_reducible apply Keep.mk; iterate 6 exact rfl))

theorem bodyTimSteer_keep {x1 s} (h : Keep p b s) :
    KeepB p b (bodyTimSteer x1 s) := by
  unfold bodyTimSteer
  try extract_lets
  repeat' (first | with_reducible assumption | intro _ | with_reducible apply KeepB.ite | with_reducible apply KeepB.done | with_reducible apply KeepB.other | with_reducible apply KeepB.stage | with_reducible apply KeepB.wait | with_reducible apply KeepB.fail | with_reducible apply KeepB.bad | with_reducible apply KeepB.deny | with_reducible apply KeepB.lock | with_reducible apply KeepB.missing | with_reducible apply KeepB.full | with_reducible apply Keep.ite | with_reducible apply Keep.foldl | with_reducible apply Keep.foldl_fst | with_reducible apply Keep.ite_fst | ((fail_if_success (simp only [Keep.mkF]; with_reducible apply And.intro)); split) | dsimp only | (with_reducible apply Keep.mk; iterate 6 exact rfl))

theorem execTimSteer_keep {x1 s} (h : Keep p b s) :
    KeepO p b (execTimSteer x1 s) := by
  unfold execTimSteer
  try extract_lets
  repeat' (first | with_reducible assumption | intro _ | with_reducible apply KeepO.next | with_reducible apply runCmd_keep | with_reducible apply bodyTimSteer_keep | with_reducible apply Keep.ite | with_reducible apply Keep.foldl | with_reducible apply Keep.foldl_fst | with_reducible apply Keep.ite_fst | ((fail_if_success (simp only [Keep.mkF]; with_reducible apply And.intro)); split) | dsimp only | (with_reducible apply Keep.mk; iterate 6 exact rfl))

theorem landTimSteer_keep {x1 s} (h : Keep p b s) :
    Keep p b (landTimSteer x1 s) := by
  unfold landTimSteer
  try extract_lets
  repeat' (first | with_reducible assumption | intro _ | with_reducible apply State.setWord_keep | with_reducible apply Keep.ite | with_reducible apply Keep.foldl | with_reducible apply Keep.foldl_fst | with_reducible apply Keep.ite_fst | ((fail_if_success (simp only [Keep.mkF]; with_reducible apply And.intro)); split) | dsimp only | (with_reducible apply Keep.mk; iterate 6 exact rfl))

theorem bodyTimPtpMap_keep {x1 s} (h : Keep p b s) :
    KeepB p b (bodyTimPtpMap x1 s) := by
  unfold bodyTimPtpMap
  try extract_lets
  repeat' (first | with_reducible assumption | intro _ | with_reducible apply KeepB.ite | with_reducible apply KeepB.done | with_reducible apply KeepB.other | with_reducible apply KeepB.stage | with_reducible apply KeepB.wait | with_reducible apply KeepB.fail | with_reducible apply KeepB.bad | with_reducible apply KeepB.deny | with_reducible apply KeepB.lock | with_reducible apply KeepB.missing | with_reducible apply KeepB.full | with_reducible apply Keep.ite | with_reducible apply Keep.foldl | with_reducible apply Keep.foldl_fst | with_reducible apply Keep.ite_fst | ((fail_if_success (simp only [Keep.mkF]; with_reducible apply And.intro)); split) | dsimp only | (with_reducible apply Keep.mk; iterate 6 exact rfl))

theorem execTimPtpMap_keep {x1 s} (h : Keep p b s) :
    KeepO p b (execTimPtpMap x1 s) := by
  unfold execTimPtpMap
  try extract_lets
  repeat' (first | with_reducible assumption | intro _ | with_reducible apply KeepO.next | with_reducible apply runCmd_keep | with_reducible apply bodyTimPtpMap_keep | with_reducible apply Keep.ite | with_reducible apply Keep.foldl | with_reducible apply Keep.foldl_fst | with_reducible apply Keep.ite_fst | ((fail_if_success (simp only [Keep.mkF]; with_reducible apply And.intro)); split) | dsimp only | (with_reducible apply Keep.mk; iterate 6 exact rfl))

theorem landTimPtpMap_keep {x1 s} (h : Keep p b s) :
    Keep p b (landTimPtpMap x1 s) := by
  unfold landTimPtpMap
  try extract_lets
  repeat' (first | with_reducible assumption | intro _ | with_reducible apply Keep.ite | with_reducible apply Keep.foldl | with_reducible apply Keep.foldl_fst | with_reducible apply Keep.ite_fst | ((fail_if_success (simp only [Keep.mkF]; with_reducible apply And.intro)); split) | dsimp only | (with_reducible apply Keep.mk; iterate 6 exact rfl))

theorem execColdstart_keep {s} (h : Keep p b s) :
    KeepO p b (execColdstart s) := by
  unfold execColdstart
  try extract_lets
  repeat' (first | with_reducible assumption | intro _ | with_reducible apply KeepO.next | with_reducible apply enterTime_keep | with_reducible apply State.post_keep | with_reducible apply State.inc_keep | with_reducible apply Keep.ite | with_reducible apply Keep.foldl | with_reducible apply Keep.foldl_fst | with_reducible apply Keep.ite_fst | ((fail_if_success (simp only [Keep.mkF]; with_reducible apply And.intro)); split) | dsimp only | (with_reducible apply Keep.mk; iterate 6 exact rfl))

theorem execSyncLost_keep {s} (h : Keep p b s) :
    KeepO p b (execSyncLost s) := by
  unfold execSyncLost
  try extract_lets
  repeat' (first | with_reducible assumption | intro _ | with_reducible apply KeepO.next | with_reducible apply enterHoldover_keep | with_reducible apply Keep.ite | with_reducible apply Keep.foldl | with_reducible apply Keep.foldl_fst | with_reducible apply Keep.ite_fst | ((fail_if_success (simp only [Keep.mkF]; with_reducible apply And.intro)); split) | dsimp only | (with_reducible apply Keep.mk; iterate 6 exact rfl))

theorem execHoldoverEnd_keep {s} (h : Keep p b s) :
    KeepO p b (execHoldoverEnd s) := by
  unfold execHoldoverEnd
  try extract_lets
  repeat' (first | with_reducible assumption | intro _ | with_reducible apply KeepO.next | with_reducible apply State.atRef_keep | with_reducible apply enterTime_keep | with_reducible apply State.post_keep | with_reducible apply State.timRaise_keep | with_reducible apply Keep.ite | with_reducible apply Keep.foldl | with_reducible apply Keep.foldl_fst | with_reducible apply Keep.ite_fst | ((fail_if_success (simp only [Keep.mkF]; with_reducible apply And.intro)); split) | dsimp only | (with_reducible apply Keep.mk; iterate 6 exact rfl))

theorem timeRefLost_keep {s} (h : Keep p b s) :
    Keep p b (timeRefLost s) := by
  unfold timeRefLost
  try extract_lets
  repeat' (first | with_reducible assumption | intro _ | with_reducible apply enterHoldover_keep | with_reducible apply reclass_keep | with_reducible apply Keep.ite | with_reducible apply Keep.foldl | with_reducible apply Keep.foldl_fst | with_reducible apply Keep.ite_fst | ((fail_if_success (simp only [Keep.mkF]; with_reducible apply And.intro)); split) | dsimp only | (with_reducible apply Keep.mk; iterate 6 exact rfl))

theorem execLastSlotEnd_keep {s} (h : Keep p b s) :
    KeepO p b (execLastSlotEnd s) := by
  unfold execLastSlotEnd
  try extract_lets
  repeat' (first | with_reducible assumption | intro _ | with_reducible apply KeepO.next | with_reducible apply busThrough_keep | with_reducible apply Keep.ite | with_reducible apply Keep.foldl | with_reducible apply Keep.foldl_fst | with_reducible apply Keep.ite_fst | ((fail_if_success (simp only [Keep.mkF]; with_reducible apply And.intro)); split) | dsimp only | (with_reducible apply Keep.mk; iterate 6 exact rfl))

theorem timeLatch_keep {s} (h : Keep p b s) :
    Keep p b (timeLatch s) := by
  unfold timeLatch
  try extract_lets
  repeat' (first | with_reducible assumption | intro _ | with_reducible apply State.setWord_keep | with_reducible apply Keep.ite | with_reducible apply Keep.foldl | with_reducible apply Keep.foldl_fst | with_reducible apply Keep.ite_fst | ((fail_if_success (simp only [Keep.mkF]; with_reducible apply And.intro)); split) | dsimp only | (with_reducible apply Keep.mk; iterate 6 exact rfl))

end Sys2Proof.Machine
end

