-- ==== Sys2Proof/Laws/KeepDevice.lean ====
section
/-!
SUPPORT. What the operations of Machine/Device.lean keep of the queue and the stores.
-/

set_option linter.all false

namespace Sys2Proof.Machine

variable {p : List Instr} {b : Prop}

theorem bodyNop_keep {x1 s} (h : Keep p b s) :
    KeepB p b (bodyNop x1 s) := by
  unfold bodyNop
  try extract_lets
  repeat' (first | with_reducible assumption | intro _ | with_reducible apply KeepB.ite | with_reducible apply KeepB.done | with_reducible apply KeepB.other | with_reducible apply KeepB.stage | with_reducible apply KeepB.wait | with_reducible apply KeepB.fail | with_reducible apply KeepB.bad | with_reducible apply KeepB.deny | with_reducible apply KeepB.lock | with_reducible apply KeepB.missing | with_reducible apply KeepB.full | with_reducible apply Keep.ite | with_reducible apply Keep.foldl | with_reducible apply Keep.foldl_fst | with_reducible apply Keep.ite_fst | ((fail_if_success (simp only [Keep.mkF]; with_reducible apply And.intro)); split) | dsimp only | (with_reducible apply Keep.mk; iterate 6 exact rfl))

theorem execNop_keep {x1 s} (h : Keep p b s) :
    KeepO p b (execNop x1 s) := by
  unfold execNop
  try extract_lets
  repeat' (first | with_reducible assumption | intro _ | with_reducible apply KeepO.next | with_reducible apply runCmd_keep | with_reducible apply bodyNop_keep | with_reducible apply Keep.ite | with_reducible apply Keep.foldl | with_reducible apply Keep.foldl_fst | with_reducible apply Keep.ite_fst | ((fail_if_success (simp only [Keep.mkF]; with_reducible apply And.intro)); split) | dsimp only | (with_reducible apply Keep.mk; iterate 6 exact rfl))

theorem bodyGetDeviceInfo_keep {x1 s} (h : Keep p b s) :
    KeepB p b (bodyGetDeviceInfo x1 s) := by
  unfold bodyGetDeviceInfo
  try extract_lets
  repeat' (first | with_reducible assumption | intro _ | with_reducible apply KeepB.ite | with_reducible apply KeepB.done | with_reducible apply KeepB.other | with_reducible apply KeepB.stage | with_reducible apply KeepB.wait | with_reducible apply KeepB.fail | with_reducible apply KeepB.bad | with_reducible apply KeepB.deny | with_reducible apply KeepB.lock | with_reducible apply KeepB.missing | with_reducible apply KeepB.full | with_reducible apply Keep.ite | with_reducible apply Keep.foldl | with_reducible apply Keep.foldl_fst | with_reducible apply Keep.ite_fst | ((fail_if_success (simp only [Keep.mkF]; with_reducible apply And.intro)); split) | dsimp only | (with_reducible apply Keep.mk; iterate 6 exact rfl))

theorem execGetDeviceInfo_keep {x1 s} (h : Keep p b s) :
    KeepO p b (execGetDeviceInfo x1 s) := by
  unfold execGetDeviceInfo
  try extract_lets
  repeat' (first | with_reducible assumption | intro _ | with_reducible apply KeepO.next | with_reducible apply runCmd_keep | with_reducible apply bodyGetDeviceInfo_keep | with_reducible apply Keep.ite | with_reducible apply Keep.foldl | with_reducible apply Keep.foldl_fst | with_reducible apply Keep.ite_fst | ((fail_if_success (simp only [Keep.mkF]; with_reducible apply And.intro)); split) | dsimp only | (with_reducible apply Keep.mk; iterate 6 exact rfl))

theorem bodyGetSerial_keep {x1 s} (h : Keep p b s) :
    KeepB p b (bodyGetSerial x1 s) := by
  unfold bodyGetSerial
  try extract_lets
  repeat' (first | with_reducible assumption | intro _ | with_reducible apply KeepB.ite | with_reducible apply KeepB.done | with_reducible apply KeepB.other | with_reducible apply KeepB.stage | with_reducible apply KeepB.wait | with_reducible apply KeepB.fail | with_reducible apply KeepB.bad | with_reducible apply KeepB.deny | with_reducible apply KeepB.lock | with_reducible apply KeepB.missing | with_reducible apply KeepB.full | with_reducible apply Keep.ite | with_reducible apply Keep.foldl | with_reducible apply Keep.foldl_fst | with_reducible apply Keep.ite_fst | ((fail_if_success (simp only [Keep.mkF]; with_reducible apply And.intro)); split) | dsimp only | (with_reducible apply Keep.mk; iterate 6 exact rfl))

theorem execGetSerial_keep {x1 s} (h : Keep p b s) :
    KeepO p b (execGetSerial x1 s) := by
  unfold execGetSerial
  try extract_lets
  repeat' (first | with_reducible assumption | intro _ | with_reducible apply KeepO.next | with_reducible apply runCmd_keep | with_reducible apply bodyGetSerial_keep | with_reducible apply Keep.ite | with_reducible apply Keep.foldl | with_reducible apply Keep.foldl_fst | with_reducible apply Keep.ite_fst | ((fail_if_success (simp only [Keep.mkF]; with_reducible apply And.intro)); split) | dsimp only | (with_reducible apply Keep.mk; iterate 6 exact rfl))

theorem bodyGetQueueInfo_keep {x1 s} (h : Keep p b s) :
    KeepB p b (bodyGetQueueInfo x1 s) := by
  unfold bodyGetQueueInfo
  try extract_lets
  repeat' (first | with_reducible assumption | intro _ | with_reducible apply KeepB.ite | with_reducible apply KeepB.done | with_reducible apply KeepB.other | with_reducible apply KeepB.stage | with_reducible apply KeepB.wait | with_reducible apply KeepB.fail | with_reducible apply KeepB.bad | with_reducible apply KeepB.deny | with_reducible apply KeepB.lock | with_reducible apply KeepB.missing | with_reducible apply KeepB.full | with_reducible apply Keep.ite | with_reducible apply Keep.foldl | with_reducible apply Keep.foldl_fst | with_reducible apply Keep.ite_fst | ((fail_if_success (simp only [Keep.mkF]; with_reducible apply And.intro)); split) | dsimp only | (with_reducible apply Keep.mk; iterate 6 exact rfl))

theorem execGetQueueInfo_keep {x1 s} (h : Keep p b s) :
    KeepO p b (execGetQueueInfo x1 s) := by
  unfold execGetQueueInfo
  try extract_lets
  repeat' (first | with_reducible assumption | intro _ | with_reducible apply KeepO.next | with_reducible apply runCmd_keep | with_reducible apply bodyGetQueueInfo_keep | with_reducible apply Keep.ite | with_reducible apply Keep.foldl | with_reducible apply Keep.foldl_fst | with_reducible apply Keep.ite_fst | ((fail_if_success (simp only [Keep.mkF]; with_reducible apply And.intro)); split) | dsimp only | (with_reducible apply Keep.mk; iterate 6 exact rfl))

theorem bodyEcho_keep {x1 s} (h : Keep p b s) :
    KeepB p b (bodyEcho x1 s) := by
  unfold bodyEcho
  try extract_lets
  repeat' (first | with_reducible assumption | intro _ | with_reducible apply KeepB.ite | with_reducible apply KeepB.done | with_reducible apply KeepB.other | with_reducible apply KeepB.stage | with_reducible apply KeepB.wait | with_reducible apply KeepB.fail | with_reducible apply KeepB.bad | with_reducible apply KeepB.deny | with_reducible apply KeepB.lock | with_reducible apply KeepB.missing | with_reducible apply KeepB.full | with_reducible apply Keep.ite | with_reducible apply Keep.foldl | with_reducible apply Keep.foldl_fst | with_reducible apply Keep.ite_fst | ((fail_if_success (simp only [Keep.mkF]; with_reducible apply And.intro)); split) | dsimp only | (with_reducible apply Keep.mk; iterate 6 exact rfl))

theorem execEcho_keep {x1 s} (h : Keep p b s) :
    KeepO p b (execEcho x1 s) := by
  unfold execEcho
  try extract_lets
  repeat' (first | with_reducible assumption | intro _ | with_reducible apply KeepO.next | with_reducible apply runCmd_keep | with_reducible apply bodyEcho_keep | with_reducible apply Keep.ite | with_reducible apply Keep.foldl | with_reducible apply Keep.foldl_fst | with_reducible apply Keep.ite_fst | ((fail_if_success (simp only [Keep.mkF]; with_reducible apply And.intro)); split) | dsimp only | (with_reducible apply Keep.mk; iterate 6 exact rfl))

theorem bodyBurn_keep {x1 s} (h : Keep p b s) :
    KeepB p b (bodyBurn x1 s) := by
  unfold bodyBurn
  try extract_lets
  repeat' (first | with_reducible assumption | intro _ | with_reducible apply KeepB.ite | with_reducible apply KeepB.done | with_reducible apply KeepB.other | with_reducible apply KeepB.stage | with_reducible apply KeepB.wait | with_reducible apply KeepB.fail | with_reducible apply KeepB.bad | with_reducible apply KeepB.deny | with_reducible apply KeepB.lock | with_reducible apply KeepB.missing | with_reducible apply KeepB.full | with_reducible apply Keep.ite | with_reducible apply Keep.foldl | with_reducible apply Keep.foldl_fst | with_reducible apply Keep.ite_fst | ((fail_if_success (simp only [Keep.mkF]; with_reducible apply And.intro)); split) | dsimp only | (with_reducible apply Keep.mk; iterate 6 exact rfl))

theorem execBurn_keep {x1 s} (h : Keep p b s) :
    KeepO p b (execBurn x1 s) := by
  unfold execBurn
  try extract_lets
  repeat' (first | with_reducible assumption | intro _ | with_reducible apply KeepO.next | with_reducible apply runCmd_keep | with_reducible apply bodyBurn_keep | with_reducible apply Keep.ite | with_reducible apply Keep.foldl | with_reducible apply Keep.foldl_fst | with_reducible apply Keep.ite_fst | ((fail_if_success (simp only [Keep.mkF]; with_reducible apply And.intro)); split) | dsimp only | (with_reducible apply Keep.mk; iterate 6 exact rfl))

theorem bodySetHeatLength_keep {x1 s} (h : Keep p b s) :
    KeepB p b (bodySetHeatLength x1 s) := by
  unfold bodySetHeatLength
  try extract_lets
  repeat' (first | with_reducible assumption | intro _ | with_reducible apply KeepB.ite | with_reducible apply KeepB.done | with_reducible apply KeepB.other | with_reducible apply KeepB.stage | with_reducible apply KeepB.wait | with_reducible apply KeepB.fail | with_reducible apply KeepB.bad | with_reducible apply KeepB.deny | with_reducible apply KeepB.lock | with_reducible apply KeepB.missing | with_reducible apply KeepB.full | with_reducible apply Keep.ite | with_reducible apply Keep.foldl | with_reducible apply Keep.foldl_fst | with_reducible apply Keep.ite_fst | ((fail_if_success (simp only [Keep.mkF]; with_reducible apply And.intro)); split) | dsimp only | (with_reducible apply Keep.mk; iterate 6 exact rfl))

theorem execSetHeatLength_keep {x1 s} (h : Keep p b s) :
    KeepO p b (execSetHeatLength x1 s) := by
  unfold execSetHeatLength
  try extract_lets
  repeat' (first | with_reducible assumption | intro _ | with_reducible apply KeepO.next | with_reducible apply runCmd_keep | with_reducible apply bodySetHeatLength_keep | with_reducible apply Keep.ite | with_reducible apply Keep.foldl | with_reducible apply Keep.foldl_fst | with_reducible apply Keep.ite_fst | ((fail_if_success (simp only [Keep.mkF]; with_reducible apply And.intro)); split) | dsimp only | (with_reducible apply Keep.mk; iterate 6 exact rfl))

theorem landSetHeatLength_keep {x1 s} (h : Keep p b s) :
    Keep p b (landSetHeatLength x1 s) := by
  unfold landSetHeatLength
  try extract_lets
  repeat' (first | with_reducible assumption | intro _ | with_reducible apply setHeatLen_keep | with_reducible apply Keep.ite | with_reducible apply Keep.foldl | with_reducible apply Keep.foldl_fst | with_reducible apply Keep.ite_fst | ((fail_if_success (simp only [Keep.mkF]; with_reducible apply And.intro)); split) | dsimp only | (with_reducible apply Keep.mk; iterate 6 exact rfl))

theorem bodyGetTime_keep {x1 s} (h : Keep p b s) :
    KeepB p b (bodyGetTime x1 s) := by
  unfold bodyGetTime
  try extract_lets
  repeat' (first | with_reducible assumption | intro _ | with_reducible apply KeepB.ite | with_reducible apply KeepB.done | with_reducible apply KeepB.other | with_reducible apply KeepB.stage | with_reducible apply KeepB.wait | with_reducible apply KeepB.fail | with_reducible apply KeepB.bad | with_reducible apply KeepB.deny | with_reducible apply KeepB.lock | with_reducible apply KeepB.missing | with_reducible apply KeepB.full | with_reducible apply Keep.ite | with_reducible apply Keep.foldl | with_reducible apply Keep.foldl_fst | with_reducible apply Keep.ite_fst | ((fail_if_success (simp only [Keep.mkF]; with_reducible apply And.intro)); split) | dsimp only | (with_reducible apply Keep.mk; iterate 6 exact rfl))

theorem execGetTime_keep {x1 s} (h : Keep p b s) :
    KeepO p b (execGetTime x1 s) := by
  unfold execGetTime
  try extract_lets
  repeat' (first | with_reducible assumption | intro _ | with_reducible apply KeepO.next | with_reducible apply runCmd_keep | with_reducible apply bodyGetTime_keep | with_reducible apply Keep.ite | with_reducible apply Keep.foldl | with_reducible apply Keep.foldl_fst | with_reducible apply Keep.ite_fst | ((fail_if_success (simp only [Keep.mkF]; with_reducible apply And.intro)); split) | dsimp only | (with_reducible apply Keep.mk; iterate 6 exact rfl))

theorem bodyQueryStaged_keep {x1 s} (h : Keep p b s) :
    KeepB p b (bodyQueryStaged x1 s) := by
  unfold bodyQueryStaged
  try extract_lets
  repeat' (first | with_reducible assumption | intro _ | with_reducible apply KeepB.ite | with_reducible apply KeepB.done | with_reducible apply KeepB.other | with_reducible apply KeepB.stage | with_reducible apply KeepB.wait | with_reducible apply KeepB.fail | with_reducible apply KeepB.bad | with_reducible apply KeepB.deny | with_reducible apply KeepB.lock | with_reducible apply KeepB.missing | with_reducible apply KeepB.full | with_reducible apply Keep.ite | with_reducible apply Keep.foldl | with_reducible apply Keep.foldl_fst | with_reducible apply Keep.ite_fst | ((fail_if_success (simp only [Keep.mkF]; with_reducible apply And.intro)); split) | dsimp only | (with_reducible apply Keep.mk; iterate 6 exact rfl))

theorem execQueryStaged_keep {x1 s} (h : Keep p b s) :
    KeepO p b (execQueryStaged x1 s) := by
  unfold execQueryStaged
  try extract_lets
  repeat' (first | with_reducible assumption | intro _ | with_reducible apply KeepO.next | with_reducible apply runCmd_keep | with_reducible apply bodyQueryStaged_keep | with_reducible apply Keep.ite | with_reducible apply Keep.foldl | with_reducible apply Keep.foldl_fst | with_reducible apply Keep.ite_fst | ((fail_if_success (simp only [Keep.mkF]; with_reducible apply And.intro)); split) | dsimp only | (with_reducible apply Keep.mk; iterate 6 exact rfl))

theorem bodyCancelStaged_keep {x1 s} (h : Keep p b s) :
    KeepB p b (bodyCancelStaged x1 s) := by
  unfold bodyCancelStaged
  try extract_lets
  repeat' (first | with_reducible assumption | intro _ | with_reducible apply KeepB.ite | with_reducible apply KeepB.done | with_reducible apply KeepB.other | with_reducible apply KeepB.stage | with_reducible apply KeepB.wait | with_reducible apply KeepB.fail | with_reducible apply KeepB.bad | with_reducible apply KeepB.deny | with_reducible apply KeepB.lock | with_reducible apply KeepB.missing | with_reducible apply KeepB.full | with_reducible apply Keep.ite | with_reducible apply Keep.foldl | with_reducible apply Keep.foldl_fst | with_reducible apply Keep.ite_fst | ((fail_if_success (simp only [Keep.mkF]; with_reducible apply And.intro)); split) | dsimp only | (with_reducible apply Keep.mk; iterate 6 exact rfl))

theorem execCancelStaged_keep {x1 s} (h : Keep p b s) :
    KeepO p b (execCancelStaged x1 s) := by
  unfold execCancelStaged
  try extract_lets
  repeat' (first | with_reducible assumption | intro _ | with_reducible apply KeepO.next | with_reducible apply runCmd_keep | with_reducible apply bodyCancelStaged_keep | with_reducible apply Keep.ite | with_reducible apply Keep.foldl | with_reducible apply Keep.foldl_fst | with_reducible apply Keep.ite_fst | ((fail_if_success (simp only [Keep.mkF]; with_reducible apply And.intro)); split) | dsimp only | (with_reducible apply Keep.mk; iterate 6 exact rfl))

theorem bodyBarrier_keep {x1 s} (h : Keep p b s) :
    KeepB p b (bodyBarrier x1 s) := by
  unfold bodyBarrier
  try extract_lets
  repeat' (first | with_reducible assumption | intro _ | with_reducible apply KeepB.ite | with_reducible apply KeepB.done | with_reducible apply KeepB.other | with_reducible apply KeepB.stage | with_reducible apply KeepB.wait | with_reducible apply KeepB.fail | with_reducible apply KeepB.bad | with_reducible apply KeepB.deny | with_reducible apply KeepB.lock | with_reducible apply KeepB.missing | with_reducible apply KeepB.full | with_reducible apply Keep.ite | with_reducible apply Keep.foldl | with_reducible apply Keep.foldl_fst | with_reducible apply Keep.ite_fst | ((fail_if_success (simp only [Keep.mkF]; with_reducible apply And.intro)); split) | dsimp only | (with_reducible apply Keep.mk; iterate 6 exact rfl))

theorem execBarrier_keep {x1 s} (h : Keep p b s) :
    KeepO p b (execBarrier x1 s) := by
  unfold execBarrier
  try extract_lets
  repeat' (first | with_reducible assumption | intro _ | with_reducible apply KeepO.next | with_reducible apply runCmd_keep | with_reducible apply bodyBarrier_keep | with_reducible apply Keep.ite | with_reducible apply Keep.foldl | with_reducible apply Keep.foldl_fst | with_reducible apply Keep.ite_fst | ((fail_if_success (simp only [Keep.mkF]; with_reducible apply And.intro)); split) | dsimp only | (with_reducible apply Keep.mk; iterate 6 exact rfl))

end Sys2Proof.Machine
end

