-- ==== Sys2Proof/Laws/KeepQueues.lean ====
section
/-!
SUPPORT. What the operations of Machine/Queues.lean keep of the queue and the stores.
-/

set_option linter.all false

namespace Sys2Proof.Machine

variable {p : List Instr} {b : Prop}

theorem mmioWrite_keep {s x2 g3} (h : Keep p b s) (k3 : ∀ y0, Keep p b y0 → Keep p b (g3 y0)) :
    Keep p b (mmioWrite s x2 g3) := by
  unfold mmioWrite
  try extract_lets
  repeat' (first | with_reducible assumption | intro _ | with_reducible apply k3 | with_reducible apply aer_keep | with_reducible apply Keep.ite | with_reducible apply Keep.foldl | with_reducible apply Keep.foldl_fst | with_reducible apply Keep.ite_fst | ((fail_if_success (simp only [Keep.mkF]; with_reducible apply And.intro)); split) | dsimp only | (with_reducible apply Keep.mk; iterate 6 exact rfl))

theorem enableNow_keep {s x2} (h : Keep p b s) :
    Keep p b (enableNow s x2) := by
  unfold enableNow
  try extract_lets
  repeat' (first | with_reducible assumption | intro _ | with_reducible apply State.modQueue_keep | with_reducible apply Keep.ite | with_reducible apply Keep.foldl | with_reducible apply Keep.foldl_fst | with_reducible apply Keep.ite_fst | ((fail_if_success (simp only [Keep.mkF]; with_reducible apply And.intro)); split) | dsimp only | (with_reducible apply Keep.mk; iterate 6 exact rfl))

theorem queueOn_keep {s x2} (h : Keep p b s) :
    Keep p b (queueOn s x2) := by
  unfold queueOn
  try extract_lets
  repeat' (first | with_reducible assumption | intro _ | with_reducible apply enableNow_keep | with_reducible apply State.modQueue_keep | with_reducible apply Keep.ite | with_reducible apply Keep.foldl | with_reducible apply Keep.foldl_fst | with_reducible apply Keep.ite_fst | ((fail_if_success (simp only [Keep.mkF]; with_reducible apply And.intro)); split) | dsimp only | (with_reducible apply Keep.mk; iterate 6 exact rfl))

theorem muteUnits_keep {s x2} (h : Keep p b s) :
    Keep p b (muteUnits s x2) := by
  unfold muteUnits
  try extract_lets
  repeat' (first | with_reducible assumption | intro _ | with_reducible apply Keep.ite | with_reducible apply Keep.foldl | with_reducible apply Keep.foldl_fst | with_reducible apply Keep.ite_fst | ((fail_if_success (simp only [Keep.mkF]; with_reducible apply And.intro)); split) | dsimp only | (with_reducible apply Keep.mk; iterate 6 exact rfl))

theorem dropUndecided_keep {s x2 x3} (h : Keep p b s) :
    Keep p b (dropUndecided s x2 x3) := by
  unfold dropUndecided
  try extract_lets
  repeat' (first | with_reducible assumption | intro _ | with_reducible apply Keep.ite | with_reducible apply Keep.foldl | with_reducible apply Keep.foldl_fst | with_reducible apply Keep.ite_fst | ((fail_if_success (simp only [Keep.mkF]; with_reducible apply And.intro)); split) | dsimp only | (with_reducible apply Keep.mk; iterate 6 exact rfl))

theorem dropSealing_keep {s x2} (h : Keep p b s) :
    Keep p b (dropSealing s x2) := by
  unfold dropSealing
  try extract_lets
  repeat' (first | with_reducible assumption | intro _ | with_reducible apply dropUnit_keep | with_reducible apply Keep.ite | with_reducible apply Keep.foldl | with_reducible apply Keep.foldl_fst | with_reducible apply Keep.ite_fst | ((fail_if_success (simp only [Keep.mkF]; with_reducible apply And.intro)); split) | dsimp only | (with_reducible apply Keep.mk; iterate 6 exact rfl))

theorem queueOff_keep {s x2} (h : Keep p b s) :
    Keep p b (queueOff s x2) := by
  unfold queueOff
  try extract_lets
  repeat' (first | with_reducible assumption | intro _ | with_reducible apply State.modQueue_keep | with_reducible apply muteUnits_keep | with_reducible apply dropUndecided_keep | with_reducible apply dropChain_keep | with_reducible apply Keep.ite | with_reducible apply Keep.foldl | with_reducible apply Keep.foldl_fst | with_reducible apply Keep.ite_fst | ((fail_if_success (simp only [Keep.mkF]; with_reducible apply And.intro)); split) | dsimp only | (with_reducible apply Keep.mk; iterate 6 exact rfl))

theorem execQueueEnable_keep {x1 s} (h : Keep p b s) :
    KeepO p b (execQueueEnable x1 s) := by
  unfold execQueueEnable
  try extract_lets
  repeat' (first | with_reducible assumption | intro _ | with_reducible apply KeepO.next | with_reducible apply mmioWrite_keep | with_reducible apply queueOn_keep | with_reducible apply Keep.ite | with_reducible apply Keep.foldl | with_reducible apply Keep.foldl_fst | with_reducible apply Keep.ite_fst | ((fail_if_success (simp only [Keep.mkF]; with_reducible apply And.intro)); split) | dsimp only | (with_reducible apply Keep.mk; iterate 6 exact rfl))

theorem execQueueDisable_keep {x1 s} (h : Keep p b s) :
    KeepO p b (execQueueDisable x1 s) := by
  unfold execQueueDisable
  try extract_lets
  repeat' (first | with_reducible assumption | intro _ | with_reducible apply KeepO.next | with_reducible apply mmioWrite_keep | with_reducible apply queueOff_keep | with_reducible apply Keep.ite | with_reducible apply Keep.foldl | with_reducible apply Keep.foldl_fst | with_reducible apply Keep.ite_fst | ((fail_if_success (simp only [Keep.mkF]; with_reducible apply And.intro)); split) | dsimp only | (with_reducible apply Keep.mk; iterate 6 exact rfl))

theorem execQueueIdle_keep {x1 s} (h : Keep p b s) :
    KeepO p b (execQueueIdle x1 s) := by
  unfold execQueueIdle
  try extract_lets
  repeat' (first | with_reducible assumption | intro _ | with_reducible apply KeepO.next | with_reducible apply enableNow_keep | with_reducible apply State.modQueue_keep | with_reducible apply Keep.ite | with_reducible apply Keep.foldl | with_reducible apply Keep.foldl_fst | with_reducible apply Keep.ite_fst | ((fail_if_success (simp only [Keep.mkF]; with_reducible apply And.intro)); split) | dsimp only | (with_reducible apply Keep.mk; iterate 6 exact rfl))

theorem drainFunc_keep {s x2} (h : Keep p b s) :
    Keep p b (drainFunc s x2) := by
  unfold drainFunc
  try extract_lets
  repeat' (first | with_reducible assumption | intro _ | with_reducible apply finishStops_keep | with_reducible apply cqDrain_keep | with_reducible apply Keep.ite | with_reducible apply Keep.foldl | with_reducible apply Keep.foldl_fst | with_reducible apply Keep.ite_fst | ((fail_if_success (simp only [Keep.mkF]; with_reducible apply And.intro)); split) | dsimp only | (with_reducible apply Keep.mk; iterate 6 exact rfl))

theorem bellError_keep {s x2} (h : Keep p b s) :
    Keep p b (bellError s x2) := by
  unfold bellError
  try extract_lets
  repeat' (first | with_reducible assumption | intro _ | with_reducible apply State.flagFunc_keep | with_reducible apply State.inc_keep | with_reducible apply Keep.ite | with_reducible apply Keep.foldl | with_reducible apply Keep.foldl_fst | with_reducible apply Keep.ite_fst | ((fail_if_success (simp only [Keep.mkF]; with_reducible apply And.intro)); split) | dsimp only | (with_reducible apply Keep.mk; iterate 6 exact rfl))

theorem bellRange_keep {s x2 x3} (h : Keep p b s) :
    Keep p b (bellRange s x2 x3) := by
  unfold bellRange
  try extract_lets
  repeat' (first | with_reducible assumption | intro _ | with_reducible apply State.fire_keep | with_reducible apply State.post_keep | with_reducible apply State.inc_keep | with_reducible apply State.flagFunc_keep | with_reducible apply stopQueue_keep | with_reducible apply Keep.ite | with_reducible apply Keep.foldl | with_reducible apply Keep.foldl_fst | with_reducible apply Keep.ite_fst | ((fail_if_success (simp only [Keep.mkF]; with_reducible apply And.intro)); split) | dsimp only | (with_reducible apply Keep.mk; iterate 6 exact rfl))

theorem producerBell_keep {x1 x2 x3 x4 s} (h : Keep p b s) :
    Keep p b (producerBell x1 x2 x3 x4 s) := by
  unfold producerBell
  try extract_lets
  repeat' (first | with_reducible assumption | intro _ | with_reducible apply bellRange_keep | with_reducible apply State.modQueue_keep | with_reducible apply bellError_keep | with_reducible apply State.setQp_keep | with_reducible apply Keep.ite | with_reducible apply Keep.foldl | with_reducible apply Keep.foldl_fst | with_reducible apply Keep.ite_fst | ((fail_if_success (simp only [Keep.mkF]; with_reducible apply And.intro)); split) | dsimp only | (with_reducible apply Keep.mk; iterate 6 exact rfl))

theorem execDoorbellProducer_keep {x1 x2 x3 x4 s} (h : Keep p b s) :
    KeepO p b (execDoorbellProducer x1 x2 x3 x4 s) := by
  unfold execDoorbellProducer
  try extract_lets
  repeat' (first | with_reducible assumption | intro _ | with_reducible apply KeepO.next | with_reducible apply mmioWrite_keep | with_reducible apply producerBell_keep | with_reducible apply Keep.ite | with_reducible apply Keep.foldl | with_reducible apply Keep.foldl_fst | with_reducible apply Keep.ite_fst | ((fail_if_success (simp only [Keep.mkF]; with_reducible apply And.intro)); split) | dsimp only | (with_reducible apply Keep.mk; iterate 6 exact rfl))

theorem consumerBell_keep {x1 x2 x3 x4 s} (h : Keep p b s) :
    Keep p b (consumerBell x1 x2 x3 x4 s) := by
  unfold consumerBell
  try extract_lets
  repeat' (first | with_reducible assumption | intro _ | with_reducible apply bellError_keep | with_reducible apply State.modQueue_keep | with_reducible apply State.fire_keep | with_reducible apply State.setQp_keep | with_reducible apply finishStops_keep | with_reducible apply cqDrain_keep | with_reducible apply Keep.ite | with_reducible apply Keep.foldl | with_reducible apply Keep.foldl_fst | with_reducible apply Keep.ite_fst | ((fail_if_success (simp only [Keep.mkF]; with_reducible apply And.intro)); split) | dsimp only | (with_reducible apply Keep.mk; iterate 6 exact rfl))

theorem execDoorbellConsumer_keep {x1 x2 x3 s} (h : Keep p b s) :
    KeepO p b (execDoorbellConsumer x1 x2 x3 s) := by
  unfold execDoorbellConsumer
  try extract_lets
  repeat' (first | with_reducible assumption | intro _ | with_reducible apply KeepO.next | with_reducible apply mmioWrite_keep | with_reducible apply consumerBell_keep | with_reducible apply Keep.ite | with_reducible apply Keep.foldl | with_reducible apply Keep.foldl_fst | with_reducible apply Keep.ite_fst | ((fail_if_success (simp only [Keep.mkF]; with_reducible apply And.intro)); split) | dsimp only | (with_reducible apply Keep.mk; iterate 6 exact rfl))

theorem execArm_keep {x1 x2 x3 s} (h : Keep p b s) :
    KeepO p b (execArm x1 x2 x3 s) := by
  unfold execArm
  try extract_lets
  repeat' (first | with_reducible assumption | intro _ | with_reducible apply KeepO.next | with_reducible apply mmioWrite_keep | with_reducible apply consumerBell_keep | with_reducible apply Keep.ite | with_reducible apply Keep.foldl | with_reducible apply Keep.foldl_fst | with_reducible apply Keep.ite_fst | ((fail_if_success (simp only [Keep.mkF]; with_reducible apply And.intro)); split) | dsimp only | (with_reducible apply Keep.mk; iterate 6 exact rfl))

theorem execReplyHeldWrite_keep {x1 s} (h : Keep p b s) :
    KeepO p b (execReplyHeldWrite x1 s) := by
  unfold execReplyHeldWrite
  try extract_lets
  repeat' (first | with_reducible assumption | intro _ | with_reducible apply KeepO.next | with_reducible apply State.putReply_keep | with_reducible apply State.modQueue_keep | with_reducible apply Keep.ite | with_reducible apply Keep.foldl | with_reducible apply Keep.foldl_fst | with_reducible apply Keep.ite_fst | ((fail_if_success (simp only [Keep.mkF]; with_reducible apply And.intro)); split) | dsimp only | (with_reducible apply Keep.mk; iterate 6 exact rfl))

theorem execMsixMessage_keep {x1 x2 s} (h : Keep p b s) :
    KeepO p b (execMsixMessage x1 x2 s) := by
  unfold execMsixMessage
  try extract_lets
  repeat' (first | with_reducible assumption | intro _ | with_reducible apply KeepO.next | with_reducible apply State.modFunc_keep | with_reducible apply State.inc_keep | with_reducible apply State.emitLink_keep | with_reducible apply Keep.ite | with_reducible apply Keep.foldl | with_reducible apply Keep.foldl_fst | with_reducible apply Keep.ite_fst | ((fail_if_success (simp only [Keep.mkF]; with_reducible apply And.intro)); split) | dsimp only | (with_reducible apply Keep.mk; iterate 6 exact rfl))

theorem releaseMbox_keep {s} (h : Keep p b s) : Keep p b (releaseMbox s) := by
  refine ⟨h.1, fun hb => ?_⟩
  obtain ⟨h1, h2⟩ := h.2 hb
  exact ⟨regsOk_filter _ _ h1, h2⟩

theorem mboxOwnerWrite_keep {x1 x2 s} (h : Keep p b s) :
    Keep p b (mboxOwnerWrite x1 x2 s) := by
  unfold mboxOwnerWrite
  try extract_lets
  repeat' (first | with_reducible assumption | intro _ | with_reducible apply releaseMbox_keep | with_reducible apply Keep.ite | with_reducible apply Keep.foldl | with_reducible apply Keep.foldl_fst | with_reducible apply Keep.ite_fst | ((fail_if_success (simp only [Keep.mkF]; with_reducible apply And.intro)); split) | dsimp only | (with_reducible apply Keep.mk; iterate 6 exact rfl))

theorem execMboxClaim_keep {x1 x2 s} (h : Keep p b s) :
    KeepO p b (execMboxClaim x1 x2 s) := by
  unfold execMboxClaim
  try extract_lets
  repeat' (first | with_reducible assumption | intro _ | with_reducible apply KeepO.next | with_reducible apply mmioWrite_keep | with_reducible apply mboxOwnerWrite_keep | with_reducible apply Keep.ite | with_reducible apply Keep.foldl | with_reducible apply Keep.foldl_fst | with_reducible apply Keep.ite_fst | ((fail_if_success (simp only [Keep.mkF]; with_reducible apply And.intro)); split) | dsimp only | (with_reducible apply Keep.mk; iterate 6 exact rfl))

theorem execMboxRelease_keep {x1 s} (h : Keep p b s) :
    KeepO p b (execMboxRelease x1 s) := by
  unfold execMboxRelease
  try extract_lets
  repeat' (first | with_reducible assumption | intro _ | with_reducible apply KeepO.next | with_reducible apply mmioWrite_keep | with_reducible apply mboxOwnerWrite_keep | with_reducible apply Keep.ite | with_reducible apply Keep.foldl | with_reducible apply Keep.foldl_fst | with_reducible apply Keep.ite_fst | ((fail_if_success (simp only [Keep.mkF]; with_reducible apply And.intro)); split) | dsimp only | (with_reducible apply Keep.mk; iterate 6 exact rfl))

end Sys2Proof.Machine
end

