-- ==== Sys2Proof/Laws/KeepInstances.lean ====
section
/-!
SUPPORT. What the operations of Machine/Instances.lean keep of the queue and the stores.
-/

set_option linter.all false

namespace Sys2Proof.Machine

variable {p : List Instr} {b : Prop}

theorem bodyInsCreate_keep {x1 s} (h : Keep p b s) :
    KeepB p b (bodyInsCreate x1 s) := by
  unfold bodyInsCreate
  try extract_lets
  repeat' (first | with_reducible assumption | intro _ | with_reducible apply KeepB.ite | with_reducible apply KeepB.done | with_reducible apply KeepB.other | with_reducible apply KeepB.stage | with_reducible apply KeepB.wait | with_reducible apply KeepB.fail | with_reducible apply KeepB.bad | with_reducible apply KeepB.deny | with_reducible apply KeepB.lock | with_reducible apply KeepB.missing | with_reducible apply KeepB.full | with_reducible apply Keep.ite | with_reducible apply Keep.foldl | with_reducible apply Keep.foldl_fst | with_reducible apply Keep.ite_fst | ((fail_if_success (simp only [Keep.mkF]; with_reducible apply And.intro)); split) | dsimp only | (with_reducible apply Keep.mk; iterate 6 exact rfl))

theorem execInsCreate_keep {x1 s} (h : Keep p b s) :
    KeepO p b (execInsCreate x1 s) := by
  unfold execInsCreate
  try extract_lets
  repeat' (first | with_reducible assumption | intro _ | with_reducible apply KeepO.next | with_reducible apply runCmd_keep | with_reducible apply bodyInsCreate_keep | with_reducible apply Keep.ite | with_reducible apply Keep.foldl | with_reducible apply Keep.foldl_fst | with_reducible apply Keep.ite_fst | ((fail_if_success (simp only [Keep.mkF]; with_reducible apply And.intro)); split) | dsimp only | (with_reducible apply Keep.mk; iterate 6 exact rfl))

theorem bodyInsDestroy_keep {x1 s} (h : Keep p b s) :
    KeepB p b (bodyInsDestroy x1 s) := by
  unfold bodyInsDestroy
  try extract_lets
  repeat' (first | with_reducible assumption | intro _ | with_reducible apply KeepB.ite | with_reducible apply KeepB.done | with_reducible apply KeepB.other | with_reducible apply KeepB.stage | with_reducible apply KeepB.wait | with_reducible apply KeepB.fail | with_reducible apply KeepB.bad | with_reducible apply KeepB.deny | with_reducible apply KeepB.lock | with_reducible apply KeepB.missing | with_reducible apply KeepB.full | with_reducible apply Keep.ite | with_reducible apply Keep.foldl | with_reducible apply Keep.foldl_fst | with_reducible apply Keep.ite_fst | ((fail_if_success (simp only [Keep.mkF]; with_reducible apply And.intro)); split) | dsimp only | (with_reducible apply Keep.mk; iterate 6 exact rfl))

theorem execInsDestroy_keep {x1 s} (h : Keep p b s) :
    KeepO p b (execInsDestroy x1 s) := by
  unfold execInsDestroy
  try extract_lets
  repeat' (first | with_reducible assumption | intro _ | with_reducible apply KeepO.next | with_reducible apply runCmd_keep | with_reducible apply bodyInsDestroy_keep | with_reducible apply Keep.ite | with_reducible apply Keep.foldl | with_reducible apply Keep.foldl_fst | with_reducible apply Keep.ite_fst | ((fail_if_success (simp only [Keep.mkF]; with_reducible apply And.intro)); split) | dsimp only | (with_reducible apply Keep.mk; iterate 6 exact rfl))

theorem bodyInsResize_keep {x1 s} (h : Keep p b s) :
    KeepB p b (bodyInsResize x1 s) := by
  unfold bodyInsResize
  try extract_lets
  repeat' (first | with_reducible assumption | intro _ | with_reducible apply KeepB.ite | with_reducible apply KeepB.done | with_reducible apply KeepB.other | with_reducible apply KeepB.stage | with_reducible apply KeepB.wait | with_reducible apply KeepB.fail | with_reducible apply KeepB.bad | with_reducible apply KeepB.deny | with_reducible apply KeepB.lock | with_reducible apply KeepB.missing | with_reducible apply KeepB.full | with_reducible apply Keep.ite | with_reducible apply Keep.foldl | with_reducible apply Keep.foldl_fst | with_reducible apply Keep.ite_fst | ((fail_if_success (simp only [Keep.mkF]; with_reducible apply And.intro)); split) | dsimp only | (with_reducible apply Keep.mk; iterate 6 exact rfl))

theorem execInsResize_keep {x1 s} (h : Keep p b s) :
    KeepO p b (execInsResize x1 s) := by
  unfold execInsResize
  try extract_lets
  repeat' (first | with_reducible assumption | intro _ | with_reducible apply KeepO.next | with_reducible apply runCmd_keep | with_reducible apply bodyInsResize_keep | with_reducible apply Keep.ite | with_reducible apply Keep.foldl | with_reducible apply Keep.foldl_fst | with_reducible apply Keep.ite_fst | ((fail_if_success (simp only [Keep.mkF]; with_reducible apply And.intro)); split) | dsimp only | (with_reducible apply Keep.mk; iterate 6 exact rfl))

theorem bodyInsSetLimits_keep {x1 s} (h : Keep p b s) :
    KeepB p b (bodyInsSetLimits x1 s) := by
  unfold bodyInsSetLimits
  try extract_lets
  repeat' (first | with_reducible assumption | intro _ | with_reducible apply KeepB.ite | with_reducible apply KeepB.done | with_reducible apply KeepB.other | with_reducible apply KeepB.stage | with_reducible apply KeepB.wait | with_reducible apply KeepB.fail | with_reducible apply KeepB.bad | with_reducible apply KeepB.deny | with_reducible apply KeepB.lock | with_reducible apply KeepB.missing | with_reducible apply KeepB.full | with_reducible apply Keep.ite | with_reducible apply Keep.foldl | with_reducible apply Keep.foldl_fst | with_reducible apply Keep.ite_fst | ((fail_if_success (simp only [Keep.mkF]; with_reducible apply And.intro)); split) | dsimp only | (with_reducible apply Keep.mk; iterate 6 exact rfl))

theorem execInsSetLimits_keep {x1 s} (h : Keep p b s) :
    KeepO p b (execInsSetLimits x1 s) := by
  unfold execInsSetLimits
  try extract_lets
  repeat' (first | with_reducible assumption | intro _ | with_reducible apply KeepO.next | with_reducible apply runCmd_keep | with_reducible apply bodyInsSetLimits_keep | with_reducible apply Keep.ite | with_reducible apply Keep.foldl | with_reducible apply Keep.foldl_fst | with_reducible apply Keep.ite_fst | ((fail_if_success (simp only [Keep.mkF]; with_reducible apply And.intro)); split) | dsimp only | (with_reducible apply Keep.mk; iterate 6 exact rfl))

theorem bodyInsQuery_keep {x1 s} (h : Keep p b s) :
    KeepB p b (bodyInsQuery x1 s) := by
  unfold bodyInsQuery
  try extract_lets
  repeat' (first | with_reducible assumption | intro _ | with_reducible apply KeepB.ite | with_reducible apply KeepB.done | with_reducible apply KeepB.other | with_reducible apply KeepB.stage | with_reducible apply KeepB.wait | with_reducible apply KeepB.fail | with_reducible apply KeepB.bad | with_reducible apply KeepB.deny | with_reducible apply KeepB.lock | with_reducible apply KeepB.missing | with_reducible apply KeepB.full | with_reducible apply Keep.ite | with_reducible apply Keep.foldl | with_reducible apply Keep.foldl_fst | with_reducible apply Keep.ite_fst | ((fail_if_success (simp only [Keep.mkF]; with_reducible apply And.intro)); split) | dsimp only | (with_reducible apply Keep.mk; iterate 6 exact rfl))

theorem execInsQuery_keep {x1 s} (h : Keep p b s) :
    KeepO p b (execInsQuery x1 s) := by
  unfold execInsQuery
  try extract_lets
  repeat' (first | with_reducible assumption | intro _ | with_reducible apply KeepO.next | with_reducible apply runCmd_keep | with_reducible apply bodyInsQuery_keep | with_reducible apply Keep.ite | with_reducible apply Keep.foldl | with_reducible apply Keep.foldl_fst | with_reducible apply Keep.ite_fst | ((fail_if_success (simp only [Keep.mkF]; with_reducible apply And.intro)); split) | dsimp only | (with_reducible apply Keep.mk; iterate 6 exact rfl))

theorem bodyPoolQuery_keep {x1 s} (h : Keep p b s) :
    KeepB p b (bodyPoolQuery x1 s) := by
  unfold bodyPoolQuery
  try extract_lets
  repeat' (first | with_reducible assumption | intro _ | with_reducible apply KeepB.ite | with_reducible apply KeepB.done | with_reducible apply KeepB.other | with_reducible apply KeepB.stage | with_reducible apply KeepB.wait | with_reducible apply KeepB.fail | with_reducible apply KeepB.bad | with_reducible apply KeepB.deny | with_reducible apply KeepB.lock | with_reducible apply KeepB.missing | with_reducible apply KeepB.full | with_reducible apply Keep.ite | with_reducible apply Keep.foldl | with_reducible apply Keep.foldl_fst | with_reducible apply Keep.ite_fst | ((fail_if_success (simp only [Keep.mkF]; with_reducible apply And.intro)); split) | dsimp only | (with_reducible apply Keep.mk; iterate 6 exact rfl))

theorem execPoolQuery_keep {x1 s} (h : Keep p b s) :
    KeepO p b (execPoolQuery x1 s) := by
  unfold execPoolQuery
  try extract_lets
  repeat' (first | with_reducible assumption | intro _ | with_reducible apply KeepO.next | with_reducible apply runCmd_keep | with_reducible apply bodyPoolQuery_keep | with_reducible apply Keep.ite | with_reducible apply Keep.foldl | with_reducible apply Keep.foldl_fst | with_reducible apply Keep.ite_fst | ((fail_if_success (simp only [Keep.mkF]; with_reducible apply And.intro)); split) | dsimp only | (with_reducible apply Keep.mk; iterate 6 exact rfl))

theorem withQp_keep {x1 s g3} (h : Keep p b s) (k3 : ∀ y0 y1, KeepB p b (g3 y0 y1)) :
    KeepB p b (withQp x1 s g3) := by
  unfold withQp
  try extract_lets
  repeat' (first | with_reducible assumption | intro _ | with_reducible apply k3 | with_reducible apply KeepB.ite | with_reducible apply KeepB.done | with_reducible apply KeepB.other | with_reducible apply KeepB.stage | with_reducible apply KeepB.wait | with_reducible apply KeepB.fail | with_reducible apply KeepB.bad | with_reducible apply KeepB.deny | with_reducible apply KeepB.lock | with_reducible apply KeepB.missing | with_reducible apply KeepB.full | with_reducible apply Keep.ite | with_reducible apply Keep.foldl | with_reducible apply Keep.foldl_fst | with_reducible apply Keep.ite_fst | ((fail_if_success (simp only [Keep.mkF]; with_reducible apply And.intro)); split) | dsimp only | (with_reducible apply Keep.mk; iterate 6 exact rfl))

theorem bodyQpConfig_keep {x1 s} (h : Keep p b s) :
    KeepB p b (bodyQpConfig x1 s) := by
  unfold bodyQpConfig
  try extract_lets
  repeat' (first | with_reducible assumption | intro _ | with_reducible apply KeepB.ite | with_reducible apply KeepB.done | with_reducible apply KeepB.other | with_reducible apply KeepB.stage | with_reducible apply KeepB.wait | with_reducible apply KeepB.fail | with_reducible apply KeepB.bad | with_reducible apply KeepB.deny | with_reducible apply KeepB.lock | with_reducible apply KeepB.missing | with_reducible apply KeepB.full | with_reducible apply withQp_keep | with_reducible apply State.setQp_keep | with_reducible apply Keep.ite | with_reducible apply Keep.foldl | with_reducible apply Keep.foldl_fst | with_reducible apply Keep.ite_fst | ((fail_if_success (simp only [Keep.mkF]; with_reducible apply And.intro)); split) | dsimp only | (with_reducible apply Keep.mk; iterate 6 exact rfl))

theorem execQpConfig_keep {x1 s} (h : Keep p b s) :
    KeepO p b (execQpConfig x1 s) := by
  unfold execQpConfig
  try extract_lets
  repeat' (first | with_reducible assumption | intro _ | with_reducible apply KeepO.next | with_reducible apply runCmd_keep | with_reducible apply bodyQpConfig_keep | with_reducible apply Keep.ite | with_reducible apply Keep.foldl | with_reducible apply Keep.foldl_fst | with_reducible apply Keep.ite_fst | ((fail_if_success (simp only [Keep.mkF]; with_reducible apply And.intro)); split) | dsimp only | (with_reducible apply Keep.mk; iterate 6 exact rfl))

theorem bodyQpStart_keep {x1 s} (h : Keep p b s) :
    KeepB p b (bodyQpStart x1 s) := by
  unfold bodyQpStart
  try extract_lets
  repeat' (first | with_reducible assumption | intro _ | with_reducible apply KeepB.ite | with_reducible apply KeepB.done | with_reducible apply KeepB.other | with_reducible apply KeepB.stage | with_reducible apply KeepB.wait | with_reducible apply KeepB.fail | with_reducible apply KeepB.bad | with_reducible apply KeepB.deny | with_reducible apply KeepB.lock | with_reducible apply KeepB.missing | with_reducible apply KeepB.full | with_reducible apply withQp_keep | with_reducible apply State.setQp_keep | with_reducible apply Keep.ite | with_reducible apply Keep.foldl | with_reducible apply Keep.foldl_fst | with_reducible apply Keep.ite_fst | ((fail_if_success (simp only [Keep.mkF]; with_reducible apply And.intro)); split) | dsimp only | (with_reducible apply Keep.mk; iterate 6 exact rfl))

theorem execQpStart_keep {x1 s} (h : Keep p b s) :
    KeepO p b (execQpStart x1 s) := by
  unfold execQpStart
  try extract_lets
  repeat' (first | with_reducible assumption | intro _ | with_reducible apply KeepO.next | with_reducible apply runCmd_keep | with_reducible apply bodyQpStart_keep | with_reducible apply Keep.ite | with_reducible apply Keep.foldl | with_reducible apply Keep.foldl_fst | with_reducible apply Keep.ite_fst | ((fail_if_success (simp only [Keep.mkF]; with_reducible apply And.intro)); split) | dsimp only | (with_reducible apply Keep.mk; iterate 6 exact rfl))

theorem qpStop_keep {s x2 x3} (h : Keep p b s) :
    Keep p b (qpStop s x2 x3) := by
  unfold qpStop
  try extract_lets
  repeat' (first | with_reducible assumption | intro _ | with_reducible apply State.freeSlots_keep | with_reducible apply State.setQp_keep | with_reducible apply Keep.ite | with_reducible apply Keep.foldl | with_reducible apply Keep.foldl_fst | with_reducible apply Keep.ite_fst | ((fail_if_success (simp only [Keep.mkF]; with_reducible apply And.intro)); split) | dsimp only | (with_reducible apply Keep.mk; iterate 6 exact rfl))

theorem bodyQpStop_keep {x1 s} (h : Keep p b s) :
    KeepB p b (bodyQpStop x1 s) := by
  unfold bodyQpStop
  try extract_lets
  repeat' (first | with_reducible assumption | intro _ | with_reducible apply KeepB.ite | with_reducible apply KeepB.done | with_reducible apply KeepB.other | with_reducible apply KeepB.stage | with_reducible apply KeepB.wait | with_reducible apply KeepB.fail | with_reducible apply KeepB.bad | with_reducible apply KeepB.deny | with_reducible apply KeepB.lock | with_reducible apply KeepB.missing | with_reducible apply KeepB.full | with_reducible apply withQp_keep | with_reducible apply qpStop_keep | with_reducible apply qpWait_keep | with_reducible apply Keep.ite | with_reducible apply Keep.foldl | with_reducible apply Keep.foldl_fst | with_reducible apply Keep.ite_fst | ((fail_if_success (simp only [Keep.mkF]; with_reducible apply And.intro)); split) | dsimp only | (with_reducible apply Keep.mk; iterate 6 exact rfl))

theorem execQpStop_keep {x1 s} (h : Keep p b s) :
    KeepO p b (execQpStop x1 s) := by
  unfold execQpStop
  try extract_lets
  repeat' (first | with_reducible assumption | intro _ | with_reducible apply KeepO.next | with_reducible apply runCmd_keep | with_reducible apply bodyQpStop_keep | with_reducible apply Keep.ite | with_reducible apply Keep.foldl | with_reducible apply Keep.foldl_fst | with_reducible apply Keep.ite_fst | ((fail_if_success (simp only [Keep.mkF]; with_reducible apply And.intro)); split) | dsimp only | (with_reducible apply Keep.mk; iterate 6 exact rfl))

theorem bodyQpState_keep {x1 s} (h : Keep p b s) :
    KeepB p b (bodyQpState x1 s) := by
  unfold bodyQpState
  try extract_lets
  repeat' (first | with_reducible assumption | intro _ | with_reducible apply KeepB.ite | with_reducible apply KeepB.done | with_reducible apply KeepB.other | with_reducible apply KeepB.stage | with_reducible apply KeepB.wait | with_reducible apply KeepB.fail | with_reducible apply KeepB.bad | with_reducible apply KeepB.deny | with_reducible apply KeepB.lock | with_reducible apply KeepB.missing | with_reducible apply KeepB.full | with_reducible apply withQp_keep | with_reducible apply Keep.ite | with_reducible apply Keep.foldl | with_reducible apply Keep.foldl_fst | with_reducible apply Keep.ite_fst | ((fail_if_success (simp only [Keep.mkF]; with_reducible apply And.intro)); split) | dsimp only | (with_reducible apply Keep.mk; iterate 6 exact rfl))

theorem execQpState_keep {x1 s} (h : Keep p b s) :
    KeepO p b (execQpState x1 s) := by
  unfold execQpState
  try extract_lets
  repeat' (first | with_reducible assumption | intro _ | with_reducible apply KeepO.next | with_reducible apply runCmd_keep | with_reducible apply bodyQpState_keep | with_reducible apply Keep.ite | with_reducible apply Keep.foldl | with_reducible apply Keep.foldl_fst | with_reducible apply Keep.ite_fst | ((fail_if_success (simp only [Keep.mkF]; with_reducible apply And.intro)); split) | dsimp only | (with_reducible apply Keep.mk; iterate 6 exact rfl))

theorem tlbDrop_keep {s x2} (h : Keep p b s) :
    Keep p b (tlbDrop s x2) := by
  unfold tlbDrop
  try extract_lets
  repeat' (first | with_reducible assumption | intro _ | with_reducible apply Keep.ite | with_reducible apply Keep.foldl | with_reducible apply Keep.foldl_fst | with_reducible apply Keep.ite_fst | ((fail_if_success (simp only [Keep.mkF]; with_reducible apply And.intro)); split) | dsimp only | (with_reducible apply Keep.mk; iterate 6 exact rfl))

theorem bodyItuSetRoot_keep {x1 s} (h : Keep p b s) :
    KeepB p b (bodyItuSetRoot x1 s) := by
  unfold bodyItuSetRoot
  try extract_lets
  repeat' (first | with_reducible assumption | intro _ | with_reducible apply KeepB.ite | with_reducible apply KeepB.done | with_reducible apply KeepB.other | with_reducible apply KeepB.stage | with_reducible apply KeepB.wait | with_reducible apply KeepB.fail | with_reducible apply KeepB.bad | with_reducible apply KeepB.deny | with_reducible apply KeepB.lock | with_reducible apply KeepB.missing | with_reducible apply KeepB.full | with_reducible apply tlbDrop_keep | with_reducible apply State.modIns_keep | with_reducible apply Keep.ite | with_reducible apply Keep.foldl | with_reducible apply Keep.foldl_fst | with_reducible apply Keep.ite_fst | ((fail_if_success (simp only [Keep.mkF]; with_reducible apply And.intro)); split) | dsimp only | (with_reducible apply Keep.mk; iterate 6 exact rfl))

theorem execItuSetRoot_keep {x1 s} (h : Keep p b s) :
    KeepO p b (execItuSetRoot x1 s) := by
  unfold execItuSetRoot
  try extract_lets
  repeat' (first | with_reducible assumption | intro _ | with_reducible apply KeepO.next | with_reducible apply runCmd_keep | with_reducible apply bodyItuSetRoot_keep | with_reducible apply Keep.ite | with_reducible apply Keep.foldl | with_reducible apply Keep.foldl_fst | with_reducible apply Keep.ite_fst | ((fail_if_success (simp only [Keep.mkF]; with_reducible apply And.intro)); split) | dsimp only | (with_reducible apply Keep.mk; iterate 6 exact rfl))

theorem bodyItuInvalidate_keep {x1 s} (h : Keep p b s) :
    KeepB p b (bodyItuInvalidate x1 s) := by
  unfold bodyItuInvalidate
  try extract_lets
  repeat' (first | with_reducible assumption | intro _ | with_reducible apply KeepB.ite | with_reducible apply KeepB.done | with_reducible apply KeepB.other | with_reducible apply KeepB.stage | with_reducible apply KeepB.wait | with_reducible apply KeepB.fail | with_reducible apply KeepB.bad | with_reducible apply KeepB.deny | with_reducible apply KeepB.lock | with_reducible apply KeepB.missing | with_reducible apply KeepB.full | with_reducible apply State.inc_keep | with_reducible apply tlbDrop_keep | with_reducible apply Keep.ite | with_reducible apply Keep.foldl | with_reducible apply Keep.foldl_fst | with_reducible apply Keep.ite_fst | ((fail_if_success (simp only [Keep.mkF]; with_reducible apply And.intro)); split) | dsimp only | (with_reducible apply Keep.mk; iterate 6 exact rfl))

theorem execItuInvalidate_keep {x1 s} (h : Keep p b s) :
    KeepO p b (execItuInvalidate x1 s) := by
  unfold execItuInvalidate
  try extract_lets
  repeat' (first | with_reducible assumption | intro _ | with_reducible apply KeepO.next | with_reducible apply runCmd_keep | with_reducible apply bodyItuInvalidate_keep | with_reducible apply Keep.ite | with_reducible apply Keep.foldl | with_reducible apply Keep.foldl_fst | with_reducible apply Keep.ite_fst | ((fail_if_success (simp only [Keep.mkF]; with_reducible apply And.intro)); split) | dsimp only | (with_reducible apply Keep.mk; iterate 6 exact rfl))

theorem bodyItuProbe_keep {x1 x2 s} (h : Keep p b s) :
    KeepB p b (bodyItuProbe x1 x2 s) := by
  unfold bodyItuProbe
  try extract_lets
  repeat' (first | with_reducible assumption | intro _ | with_reducible apply KeepB.ite | with_reducible apply KeepB.done | with_reducible apply KeepB.other | with_reducible apply KeepB.stage | with_reducible apply KeepB.wait | with_reducible apply KeepB.fail | with_reducible apply KeepB.bad | with_reducible apply KeepB.deny | with_reducible apply KeepB.lock | with_reducible apply KeepB.missing | with_reducible apply KeepB.full | with_reducible apply seeTables_keep | with_reducible apply Keep.ite | with_reducible apply Keep.foldl | with_reducible apply Keep.foldl_fst | with_reducible apply Keep.ite_fst | ((fail_if_success (simp only [Keep.mkF]; with_reducible apply And.intro)); split) | dsimp only | (with_reducible apply Keep.mk; iterate 6 exact rfl))

theorem execItuProbe_keep {x1 x2 s} (h : Keep p b s) :
    KeepO p b (execItuProbe x1 x2 s) := by
  unfold execItuProbe
  try extract_lets
  repeat' (first | with_reducible assumption | intro _ | with_reducible apply KeepO.next | with_reducible apply runCmd_keep | with_reducible apply bodyItuProbe_keep | with_reducible apply Keep.ite | with_reducible apply Keep.foldl | with_reducible apply Keep.foldl_fst | with_reducible apply Keep.ite_fst | ((fail_if_success (simp only [Keep.mkF]; with_reducible apply And.intro)); split) | dsimp only | (with_reducible apply Keep.mk; iterate 6 exact rfl))

theorem bodyItuFaultRead_keep {x1 s} (h : Keep p b s) :
    KeepB p b (bodyItuFaultRead x1 s) := by
  unfold bodyItuFaultRead
  try extract_lets
  repeat' (first | with_reducible assumption | intro _ | with_reducible apply KeepB.ite | with_reducible apply KeepB.done | with_reducible apply KeepB.other | with_reducible apply KeepB.stage | with_reducible apply KeepB.wait | with_reducible apply KeepB.fail | with_reducible apply KeepB.bad | with_reducible apply KeepB.deny | with_reducible apply KeepB.lock | with_reducible apply KeepB.missing | with_reducible apply KeepB.full | with_reducible apply Keep.ite | with_reducible apply Keep.foldl | with_reducible apply Keep.foldl_fst | with_reducible apply Keep.ite_fst | ((fail_if_success (simp only [Keep.mkF]; with_reducible apply And.intro)); split) | dsimp only | (with_reducible apply Keep.mk; iterate 6 exact rfl))

theorem execItuFaultRead_keep {x1 s} (h : Keep p b s) :
    KeepO p b (execItuFaultRead x1 s) := by
  unfold execItuFaultRead
  try extract_lets
  repeat' (first | with_reducible assumption | intro _ | with_reducible apply KeepO.next | with_reducible apply runCmd_keep | with_reducible apply bodyItuFaultRead_keep | with_reducible apply Keep.ite | with_reducible apply Keep.foldl | with_reducible apply Keep.foldl_fst | with_reducible apply Keep.ite_fst | ((fail_if_success (simp only [Keep.mkF]; with_reducible apply And.intro)); split) | dsimp only | (with_reducible apply Keep.mk; iterate 6 exact rfl))

theorem dropLimiters_keep {s x2} (h : Keep p b s) :
    Keep p b (dropLimiters s x2) := by
  unfold dropLimiters
  try extract_lets
  repeat' (first | with_reducible assumption | intro _ | with_reducible apply Keep.ite | with_reducible apply Keep.foldl | with_reducible apply Keep.foldl_fst | with_reducible apply Keep.ite_fst | ((fail_if_success (simp only [Keep.mkF]; with_reducible apply And.intro)); split) | dsimp only | (with_reducible apply Keep.mk; iterate 6 exact rfl))

theorem landInsCreate_keep {x1 s} (h : Keep p b s) :
    Keep p b (landInsCreate x1 s) := by
  unfold landInsCreate
  try extract_lets
  repeat' (first | with_reducible assumption | intro _ | with_reducible apply State.post_keep | with_reducible apply dropLimiters_keep | with_reducible apply State.setIns_keep | with_reducible apply Keep.ite | with_reducible apply Keep.foldl | with_reducible apply Keep.foldl_fst | with_reducible apply Keep.ite_fst | ((fail_if_success (simp only [Keep.mkF]; with_reducible apply And.intro)); split) | dsimp only | (with_reducible apply Keep.mk; iterate 6 exact rfl))

theorem landInsDestroy_keep {x1 s} (h : Keep p b s) :
    Keep p b (landInsDestroy x1 s) := by
  unfold landInsDestroy
  try extract_lets
  repeat' (first | with_reducible assumption | intro _ | with_reducible apply qpStop_keep | with_reducible apply queueOff_keep | with_reducible apply dropSealing_keep | with_reducible apply State.modIns_keep | with_reducible apply dropInsFrames_keep | with_reducible apply Keep.ite | with_reducible apply Keep.foldl | with_reducible apply Keep.foldl_fst | with_reducible apply Keep.ite_fst | ((fail_if_success (simp only [Keep.mkF]; with_reducible apply And.intro)); split) | dsimp only | (with_reducible apply Keep.mk; iterate 6 exact rfl))

theorem landInsResize_keep {x1 s} (h : Keep p b s) :
    Keep p b (landInsResize x1 s) := by
  unfold landInsResize
  try extract_lets
  repeat' (first | with_reducible assumption | intro _ | with_reducible apply poolTrim_keep | with_reducible apply State.modIns_keep | with_reducible apply topUp_keep | with_reducible apply State.fire_keep | with_reducible apply State.post_keep | with_reducible apply State.raise_keep | with_reducible apply State.flagIns_keep | with_reducible apply Keep.ite | with_reducible apply Keep.foldl | with_reducible apply Keep.foldl_fst | with_reducible apply Keep.ite_fst | ((fail_if_success (simp only [Keep.mkF]; with_reducible apply And.intro)); split) | dsimp only | (with_reducible apply Keep.mk; iterate 6 exact rfl))

theorem releaseIdle_keep {s} (h : Keep p b s) :
    Keep p b (releaseIdle s) := by
  unfold releaseIdle
  try extract_lets
  repeat' (first | with_reducible assumption | intro _ | with_reducible apply poolTrim_keep | with_reducible apply State.post_keep | with_reducible apply State.raise_keep | with_reducible apply State.setIns_keep | with_reducible apply dropLimiters_keep | with_reducible apply Keep.ite | with_reducible apply Keep.foldl | with_reducible apply Keep.foldl_fst | with_reducible apply Keep.ite_fst | ((fail_if_success (simp only [Keep.mkF]; with_reducible apply And.intro)); split) | dsimp only | (with_reducible apply Keep.mk; iterate 6 exact rfl))

theorem setLimiter_keep {s x2 x3 x4 x5} (h : Keep p b s) :
    Keep p b (setLimiter s x2 x3 x4 x5) := by
  unfold setLimiter
  try extract_lets
  repeat' (first | with_reducible assumption | intro _ | with_reducible apply State.add_keep | with_reducible apply Keep.ite | with_reducible apply Keep.foldl | with_reducible apply Keep.foldl_fst | with_reducible apply Keep.ite_fst | ((fail_if_success (simp only [Keep.mkF]; with_reducible apply And.intro)); split) | dsimp only | (with_reducible apply Keep.mk; iterate 6 exact rfl))

theorem tellLimits_keep {s x2} (h : Keep p b s) :
    Keep p b (tellLimits s x2) := by
  unfold tellLimits
  try extract_lets
  repeat' (first | with_reducible assumption | intro _ | with_reducible apply State.modIns_keep | with_reducible apply State.flagIns_keep | with_reducible apply Keep.ite | with_reducible apply Keep.foldl | with_reducible apply Keep.foldl_fst | with_reducible apply Keep.ite_fst | ((fail_if_success (simp only [Keep.mkF]; with_reducible apply And.intro)); split) | dsimp only | (with_reducible apply Keep.mk; iterate 6 exact rfl))

theorem landInsSetLimits_keep {x1 s} (h : Keep p b s) :
    Keep p b (landInsSetLimits x1 s) := by
  unfold landInsSetLimits
  try extract_lets
  repeat' (first | with_reducible assumption | intro _ | with_reducible apply State.modIns_keep | with_reducible apply setLimiter_keep | with_reducible apply tellLimits_keep | with_reducible apply Keep.ite | with_reducible apply Keep.foldl | with_reducible apply Keep.foldl_fst | with_reducible apply Keep.ite_fst | ((fail_if_success (simp only [Keep.mkF]; with_reducible apply And.intro)); split) | dsimp only | (with_reducible apply Keep.mk; iterate 6 exact rfl))

end Sys2Proof.Machine
end

