-- ==== Sys2Proof/Laws/KeepLanes.lean ====
section
/-!
SUPPORT. What the operations of Machine/Lanes.lean keep of the queue and the stores.
-/

set_option linter.all false

namespace Sys2Proof.Machine

variable {p : List Instr} {b : Prop}

theorem bodyPortConfig_keep {x1 s} (h : Keep p b s) :
    KeepB p b (bodyPortConfig x1 s) := by
  unfold bodyPortConfig
  try extract_lets
  repeat' (first | with_reducible assumption | intro _ | with_reducible apply KeepB.ite | with_reducible apply KeepB.done | with_reducible apply KeepB.other | with_reducible apply KeepB.stage | with_reducible apply KeepB.wait | with_reducible apply KeepB.fail | with_reducible apply KeepB.bad | with_reducible apply KeepB.deny | with_reducible apply KeepB.lock | with_reducible apply KeepB.missing | with_reducible apply KeepB.full | with_reducible apply Keep.ite | with_reducible apply Keep.foldl | with_reducible apply Keep.foldl_fst | with_reducible apply Keep.ite_fst | ((fail_if_success (simp only [Keep.mkF]; with_reducible apply And.intro)); split) | dsimp only | (with_reducible apply Keep.mk; iterate 6 exact rfl))

theorem execPortConfig_keep {x1 s} (h : Keep p b s) :
    KeepO p b (execPortConfig x1 s) := by
  unfold execPortConfig
  try extract_lets
  repeat' (first | with_reducible assumption | intro _ | with_reducible apply KeepO.next | with_reducible apply runCmd_keep | with_reducible apply bodyPortConfig_keep | with_reducible apply Keep.ite | with_reducible apply Keep.foldl | with_reducible apply Keep.foldl_fst | with_reducible apply Keep.ite_fst | ((fail_if_success (simp only [Keep.mkF]; with_reducible apply And.intro)); split) | dsimp only | (with_reducible apply Keep.mk; iterate 6 exact rfl))

theorem bodyPortBank_keep {x1 s} (h : Keep p b s) :
    KeepB p b (bodyPortBank x1 s) := by
  unfold bodyPortBank
  try extract_lets
  repeat' (first | with_reducible assumption | intro _ | with_reducible apply KeepB.ite | with_reducible apply KeepB.done | with_reducible apply KeepB.other | with_reducible apply KeepB.stage | with_reducible apply KeepB.wait | with_reducible apply KeepB.fail | with_reducible apply KeepB.bad | with_reducible apply KeepB.deny | with_reducible apply KeepB.lock | with_reducible apply KeepB.missing | with_reducible apply KeepB.full | with_reducible apply Keep.ite | with_reducible apply Keep.foldl | with_reducible apply Keep.foldl_fst | with_reducible apply Keep.ite_fst | ((fail_if_success (simp only [Keep.mkF]; with_reducible apply And.intro)); split) | dsimp only | (with_reducible apply Keep.mk; iterate 6 exact rfl))

theorem execPortBank_keep {x1 s} (h : Keep p b s) :
    KeepO p b (execPortBank x1 s) := by
  unfold execPortBank
  try extract_lets
  repeat' (first | with_reducible assumption | intro _ | with_reducible apply KeepO.next | with_reducible apply runCmd_keep | with_reducible apply bodyPortBank_keep | with_reducible apply Keep.ite | with_reducible apply Keep.foldl | with_reducible apply Keep.foldl_fst | with_reducible apply Keep.ite_fst | ((fail_if_success (simp only [Keep.mkF]; with_reducible apply And.intro)); split) | dsimp only | (with_reducible apply Keep.mk; iterate 6 exact rfl))

theorem bodyPortStatus_keep {x1 s} (h : Keep p b s) :
    KeepB p b (bodyPortStatus x1 s) := by
  unfold bodyPortStatus
  try extract_lets
  repeat' (first | with_reducible assumption | intro _ | with_reducible apply KeepB.ite | with_reducible apply KeepB.done | with_reducible apply KeepB.other | with_reducible apply KeepB.stage | with_reducible apply KeepB.wait | with_reducible apply KeepB.fail | with_reducible apply KeepB.bad | with_reducible apply KeepB.deny | with_reducible apply KeepB.lock | with_reducible apply KeepB.missing | with_reducible apply KeepB.full | with_reducible apply Keep.ite | with_reducible apply Keep.foldl | with_reducible apply Keep.foldl_fst | with_reducible apply Keep.ite_fst | ((fail_if_success (simp only [Keep.mkF]; with_reducible apply And.intro)); split) | dsimp only | (with_reducible apply Keep.mk; iterate 6 exact rfl))

theorem execPortStatus_keep {x1 s} (h : Keep p b s) :
    KeepO p b (execPortStatus x1 s) := by
  unfold execPortStatus
  try extract_lets
  repeat' (first | with_reducible assumption | intro _ | with_reducible apply KeepO.next | with_reducible apply runCmd_keep | with_reducible apply bodyPortStatus_keep | with_reducible apply Keep.ite | with_reducible apply Keep.foldl | with_reducible apply Keep.foldl_fst | with_reducible apply Keep.ite_fst | ((fail_if_success (simp only [Keep.mkF]; with_reducible apply And.intro)); split) | dsimp only | (with_reducible apply Keep.mk; iterate 6 exact rfl))

theorem bodyLnSetEq_keep {x1 s} (h : Keep p b s) :
    KeepB p b (bodyLnSetEq x1 s) := by
  unfold bodyLnSetEq
  try extract_lets
  repeat' (first | with_reducible assumption | intro _ | with_reducible apply KeepB.ite | with_reducible apply KeepB.done | with_reducible apply KeepB.other | with_reducible apply KeepB.stage | with_reducible apply KeepB.wait | with_reducible apply KeepB.fail | with_reducible apply KeepB.bad | with_reducible apply KeepB.deny | with_reducible apply KeepB.lock | with_reducible apply KeepB.missing | with_reducible apply KeepB.full | with_reducible apply State.setLane_keep | with_reducible apply Keep.ite | with_reducible apply Keep.foldl | with_reducible apply Keep.foldl_fst | with_reducible apply Keep.ite_fst | ((fail_if_success (simp only [Keep.mkF]; with_reducible apply And.intro)); split) | dsimp only | (with_reducible apply Keep.mk; iterate 6 exact rfl))

theorem execLnSetEq_keep {x1 s} (h : Keep p b s) :
    KeepO p b (execLnSetEq x1 s) := by
  unfold execLnSetEq
  try extract_lets
  repeat' (first | with_reducible assumption | intro _ | with_reducible apply KeepO.next | with_reducible apply runCmd_keep | with_reducible apply bodyLnSetEq_keep | with_reducible apply Keep.ite | with_reducible apply Keep.foldl | with_reducible apply Keep.foldl_fst | with_reducible apply Keep.ite_fst | ((fail_if_success (simp only [Keep.mkF]; with_reducible apply And.intro)); split) | dsimp only | (with_reducible apply Keep.mk; iterate 6 exact rfl))

theorem bodyLnGetEq_keep {x1 s} (h : Keep p b s) :
    KeepB p b (bodyLnGetEq x1 s) := by
  unfold bodyLnGetEq
  try extract_lets
  repeat' (first | with_reducible assumption | intro _ | with_reducible apply KeepB.ite | with_reducible apply KeepB.done | with_reducible apply KeepB.other | with_reducible apply KeepB.stage | with_reducible apply KeepB.wait | with_reducible apply KeepB.fail | with_reducible apply KeepB.bad | with_reducible apply KeepB.deny | with_reducible apply KeepB.lock | with_reducible apply KeepB.missing | with_reducible apply KeepB.full | with_reducible apply Keep.ite | with_reducible apply Keep.foldl | with_reducible apply Keep.foldl_fst | with_reducible apply Keep.ite_fst | ((fail_if_success (simp only [Keep.mkF]; with_reducible apply And.intro)); split) | dsimp only | (with_reducible apply Keep.mk; iterate 6 exact rfl))

theorem execLnGetEq_keep {x1 s} (h : Keep p b s) :
    KeepO p b (execLnGetEq x1 s) := by
  unfold execLnGetEq
  try extract_lets
  repeat' (first | with_reducible assumption | intro _ | with_reducible apply KeepO.next | with_reducible apply runCmd_keep | with_reducible apply bodyLnGetEq_keep | with_reducible apply Keep.ite | with_reducible apply Keep.foldl | with_reducible apply Keep.foldl_fst | with_reducible apply Keep.ite_fst | ((fail_if_success (simp only [Keep.mkF]; with_reducible apply And.intro)); split) | dsimp only | (with_reducible apply Keep.mk; iterate 6 exact rfl))

theorem bodyPortRestore_keep {x1 s} (h : Keep p b s) :
    KeepB p b (bodyPortRestore x1 s) := by
  unfold bodyPortRestore
  try extract_lets
  repeat' (first | with_reducible assumption | intro _ | with_reducible apply KeepB.ite | with_reducible apply KeepB.done | with_reducible apply KeepB.other | with_reducible apply KeepB.stage | with_reducible apply KeepB.wait | with_reducible apply KeepB.fail | with_reducible apply KeepB.bad | with_reducible apply KeepB.deny | with_reducible apply KeepB.lock | with_reducible apply KeepB.missing | with_reducible apply KeepB.full | with_reducible apply Keep.ite | with_reducible apply Keep.foldl | with_reducible apply Keep.foldl_fst | with_reducible apply Keep.ite_fst | ((fail_if_success (simp only [Keep.mkF]; with_reducible apply And.intro)); split) | dsimp only | (with_reducible apply Keep.mk; iterate 6 exact rfl))

theorem execPortRestore_keep {x1 s} (h : Keep p b s) :
    KeepO p b (execPortRestore x1 s) := by
  unfold execPortRestore
  try extract_lets
  repeat' (first | with_reducible assumption | intro _ | with_reducible apply KeepO.next | with_reducible apply runCmd_keep | with_reducible apply bodyPortRestore_keep | with_reducible apply Keep.ite | with_reducible apply Keep.foldl | with_reducible apply Keep.foldl_fst | with_reducible apply Keep.ite_fst | ((fail_if_success (simp only [Keep.mkF]; with_reducible apply And.intro)); split) | dsimp only | (with_reducible apply Keep.mk; iterate 6 exact rfl))

theorem bodyLnDiag_keep {x1 s} (h : Keep p b s) :
    KeepB p b (bodyLnDiag x1 s) := by
  unfold bodyLnDiag
  try extract_lets
  repeat' (first | with_reducible assumption | intro _ | with_reducible apply KeepB.ite | with_reducible apply KeepB.done | with_reducible apply KeepB.other | with_reducible apply KeepB.stage | with_reducible apply KeepB.wait | with_reducible apply KeepB.fail | with_reducible apply KeepB.bad | with_reducible apply KeepB.deny | with_reducible apply KeepB.lock | with_reducible apply KeepB.missing | with_reducible apply KeepB.full | with_reducible apply askPower_keep | with_reducible apply rateLanes_keep | with_reducible apply Keep.ite | with_reducible apply Keep.foldl | with_reducible apply Keep.foldl_fst | with_reducible apply Keep.ite_fst | ((fail_if_success (simp only [Keep.mkF]; with_reducible apply And.intro)); split) | dsimp only | (with_reducible apply Keep.mk; iterate 6 exact rfl))

theorem execLnDiag_keep {x1 s} (h : Keep p b s) :
    KeepO p b (execLnDiag x1 s) := by
  unfold execLnDiag
  try extract_lets
  repeat' (first | with_reducible assumption | intro _ | with_reducible apply KeepO.next | with_reducible apply runCmd_keep | with_reducible apply bodyLnDiag_keep | with_reducible apply Keep.ite | with_reducible apply Keep.foldl | with_reducible apply Keep.foldl_fst | with_reducible apply Keep.ite_fst | ((fail_if_success (simp only [Keep.mkF]; with_reducible apply And.intro)); split) | dsimp only | (with_reducible apply Keep.mk; iterate 6 exact rfl))

theorem bodyLnDiagResult_keep {x1 s} (h : Keep p b s) :
    KeepB p b (bodyLnDiagResult x1 s) := by
  unfold bodyLnDiagResult
  try extract_lets
  repeat' (first | with_reducible assumption | intro _ | with_reducible apply KeepB.ite | with_reducible apply KeepB.done | with_reducible apply KeepB.other | with_reducible apply KeepB.stage | with_reducible apply KeepB.wait | with_reducible apply KeepB.fail | with_reducible apply KeepB.bad | with_reducible apply KeepB.deny | with_reducible apply KeepB.lock | with_reducible apply KeepB.missing | with_reducible apply KeepB.full | (with_reducible refine State.draw_keep' ?_ (by assumption)) | with_reducible apply State.draw_keep | with_reducible apply Keep.ite | with_reducible apply Keep.foldl | with_reducible apply Keep.foldl_fst | with_reducible apply Keep.ite_fst | ((fail_if_success (simp only [Keep.mkF]; with_reducible apply And.intro)); split) | dsimp only | (with_reducible apply Keep.mk; iterate 6 exact rfl))

theorem execLnDiagResult_keep {x1 s} (h : Keep p b s) :
    KeepO p b (execLnDiagResult x1 s) := by
  unfold execLnDiagResult
  try extract_lets
  repeat' (first | with_reducible assumption | intro _ | with_reducible apply KeepO.next | with_reducible apply runCmd_keep | with_reducible apply bodyLnDiagResult_keep | with_reducible apply Keep.ite | with_reducible apply Keep.foldl | with_reducible apply Keep.foldl_fst | with_reducible apply Keep.ite_fst | ((fail_if_success (simp only [Keep.mkF]; with_reducible apply And.intro)); split) | dsimp only | (with_reducible apply Keep.mk; iterate 6 exact rfl))

theorem sweepNext_keep {s x2 x3} (h : Keep p b s) :
    Keep p b (sweepNext s x2 x3) := by
  unfold sweepNext
  try extract_lets
  repeat' (first | with_reducible assumption | intro _ | with_reducible apply askPower_keep | with_reducible apply rateLanes_keep | with_reducible apply Keep.ite | with_reducible apply Keep.foldl | with_reducible apply Keep.foldl_fst | with_reducible apply Keep.ite_fst | ((fail_if_success (simp only [Keep.mkF]; with_reducible apply And.intro)); split) | dsimp only | (with_reducible apply Keep.mk; iterate 6 exact rfl))

theorem execSweepStep_keep {x1 x2 s} (h : Keep p b s) :
    KeepO p b (execSweepStep x1 x2 s) := by
  unfold execSweepStep
  try extract_lets
  repeat' (first | with_reducible assumption | intro _ | with_reducible apply KeepO.next | with_reducible apply State.atRef_keep | with_reducible apply sweepNext_keep | with_reducible apply Keep.ite | with_reducible apply Keep.foldl | with_reducible apply Keep.foldl_fst | with_reducible apply Keep.ite_fst | ((fail_if_success (simp only [Keep.mkF]; with_reducible apply And.intro)); split) | dsimp only | (with_reducible apply Keep.mk; iterate 6 exact rfl))

theorem execPortUp_keep {x1 x2 s} (h : Keep p b s) :
    KeepO p b (execPortUp x1 x2 s) := by
  unfold execPortUp
  try extract_lets
  repeat' (first | with_reducible assumption | intro _ | with_reducible apply KeepO.next | with_reducible apply State.movePort_keep | with_reducible apply State.setLane_keep | with_reducible apply trimLanes_keep | with_reducible apply rateLanes_keep | with_reducible apply State.post_keep | with_reducible apply State.inc_keep | with_reducible apply reviewHealth_keep | with_reducible apply Keep.ite | with_reducible apply Keep.foldl | with_reducible apply Keep.foldl_fst | with_reducible apply Keep.ite_fst | ((fail_if_success (simp only [Keep.mkF]; with_reducible apply And.intro)); split) | dsimp only | (with_reducible apply Keep.mk; iterate 6 exact rfl))

theorem execLaneSignalLoss_keep {x1 x2 s} (h : Keep p b s) :
    KeepO p b (execLaneSignalLoss x1 x2 s) := by
  unfold execLaneSignalLoss
  try extract_lets
  repeat' (first | with_reducible assumption | intro _ | with_reducible apply KeepO.next | with_reducible apply State.setLane_keep | with_reducible apply portDown_keep | with_reducible apply Keep.ite | with_reducible apply Keep.foldl | with_reducible apply Keep.foldl_fst | with_reducible apply Keep.ite_fst | ((fail_if_success (simp only [Keep.mkF]; with_reducible apply And.intro)); split) | dsimp only | (with_reducible apply Keep.mk; iterate 6 exact rfl))

theorem laneBack_keep {s x2} (h : Keep p b s) :
    Keep p b (laneBack s x2) := by
  unfold laneBack
  try extract_lets
  repeat' (first | with_reducible assumption | intro _ | with_reducible apply State.setLane_keep | with_reducible apply State.post_keep | with_reducible apply State.movePort_keep | with_reducible apply Keep.ite | with_reducible apply Keep.foldl | with_reducible apply Keep.foldl_fst | with_reducible apply Keep.ite_fst | ((fail_if_success (simp only [Keep.mkF]; with_reducible apply And.intro)); split) | dsimp only | (with_reducible apply Keep.mk; iterate 6 exact rfl))

theorem execLaneSignalReturn_keep {x1 s} (h : Keep p b s) :
    KeepO p b (execLaneSignalReturn x1 s) := by
  unfold execLaneSignalReturn
  try extract_lets
  repeat' (first | with_reducible assumption | intro _ | with_reducible apply KeepO.next | with_reducible apply laneBack_keep | with_reducible apply failLanes_keep | with_reducible apply Keep.ite | with_reducible apply Keep.foldl | with_reducible apply Keep.foldl_fst | with_reducible apply Keep.ite_fst | ((fail_if_success (simp only [Keep.mkF]; with_reducible apply And.intro)); split) | dsimp only | (with_reducible apply Keep.mk; iterate 6 exact rfl))

theorem execLaneFailed_keep {x1 s} (h : Keep p b s) :
    KeepO p b (execLaneFailed x1 s) := by
  unfold execLaneFailed
  try extract_lets
  repeat' (first | with_reducible assumption | intro _ | with_reducible apply KeepO.next | with_reducible apply failLanes_keep | with_reducible apply State.atRef_keep | with_reducible apply Keep.ite | with_reducible apply Keep.foldl | with_reducible apply Keep.foldl_fst | with_reducible apply Keep.ite_fst | ((fail_if_success (simp only [Keep.mkF]; with_reducible apply And.intro)); split) | dsimp only | (with_reducible apply Keep.mk; iterate 6 exact rfl))

theorem execLaneRecovered_keep {x1 s} (h : Keep p b s) :
    KeepO p b (execLaneRecovered x1 s) := by
  unfold execLaneRecovered
  try extract_lets
  repeat' (first | with_reducible assumption | intro _ | with_reducible apply KeepO.next | with_reducible apply State.atRef_keep | with_reducible apply State.setLane_keep | with_reducible apply retryPort_keep | with_reducible apply reviewHealth_keep | with_reducible apply Keep.ite | with_reducible apply Keep.foldl | with_reducible apply Keep.foldl_fst | with_reducible apply Keep.ite_fst | ((fail_if_success (simp only [Keep.mkF]; with_reducible apply And.intro)); split) | dsimp only | (with_reducible apply Keep.mk; iterate 6 exact rfl))

theorem execTrainFail_keep {x1 s} (h : Keep p b s) :
    KeepO p b (execTrainFail x1 s) := by
  unfold execTrainFail
  try extract_lets
  repeat' (first | with_reducible assumption | intro _ | with_reducible apply KeepO.next | with_reducible apply State.atRef_keep | with_reducible apply State.post_keep | with_reducible apply State.inc_keep | with_reducible apply State.setPort_keep | with_reducible apply Keep.ite | with_reducible apply Keep.foldl | with_reducible apply Keep.foldl_fst | with_reducible apply Keep.ite_fst | ((fail_if_success (simp only [Keep.mkF]; with_reducible apply And.intro)); split) | dsimp only | (with_reducible apply Keep.mk; iterate 6 exact rfl))

theorem execPllLockFail_keep {x1 s} (h : Keep p b s) :
    KeepO p b (execPllLockFail x1 s) := by
  unfold execPllLockFail
  try extract_lets
  repeat' (first | with_reducible assumption | intro _ | with_reducible apply KeepO.next | with_reducible apply State.atRef_keep | with_reducible apply failLanes_keep | with_reducible apply Keep.ite | with_reducible apply Keep.foldl | with_reducible apply Keep.foldl_fst | with_reducible apply Keep.ite_fst | ((fail_if_success (simp only [Keep.mkF]; with_reducible apply And.intro)); split) | dsimp only | (with_reducible apply Keep.mk; iterate 6 exact rfl))

theorem autoRestore_keep {s x2} (h : Keep p b s) :
    Keep p b (autoRestore s x2) := by
  unfold autoRestore
  try extract_lets
  repeat' (first | with_reducible assumption | intro _ | with_reducible apply stageOwn_keep | with_reducible apply Keep.ite | with_reducible apply Keep.foldl | with_reducible apply Keep.foldl_fst | with_reducible apply Keep.ite_fst | ((fail_if_success (simp only [Keep.mkF]; with_reducible apply And.intro)); split) | dsimp only | (with_reducible apply Keep.mk; iterate 6 exact rfl))

theorem execAutoRestore_keep {x1 s} (h : Keep p b s) :
    KeepO p b (execAutoRestore x1 s) := by
  unfold execAutoRestore
  try extract_lets
  repeat' (first | with_reducible assumption | intro _ | with_reducible apply KeepO.next | with_reducible apply autoRestore_keep | with_reducible apply Keep.ite | with_reducible apply Keep.foldl | with_reducible apply Keep.foldl_fst | with_reducible apply Keep.ite_fst | ((fail_if_success (simp only [Keep.mkF]; with_reducible apply And.intro)); split) | dsimp only | (with_reducible apply Keep.mk; iterate 6 exact rfl))

theorem execAnPage_keep {x1 x2 s} (h : Keep p b s) :
    KeepO p b (execAnPage x1 x2 s) := by
  unfold execAnPage
  try extract_lets
  repeat' (first | with_reducible assumption | intro _ | with_reducible apply KeepO.next | with_reducible apply State.emit_keep | with_reducible apply State.postB_keep | with_reducible apply State.inc_keep | with_reducible apply Keep.ite | with_reducible apply Keep.foldl | with_reducible apply Keep.foldl_fst | with_reducible apply Keep.ite_fst | ((fail_if_success (simp only [Keep.mkF]; with_reducible apply And.intro)); split) | dsimp only | (with_reducible apply Keep.mk; iterate 6 exact rfl))

theorem execCoeffRequest_keep {x1 x2 x3 s} (h : Keep p b s) :
    KeepO p b (execCoeffRequest x1 x2 x3 s) := by
  unfold execCoeffRequest
  try extract_lets
  repeat' (first | with_reducible assumption | intro _ | with_reducible apply KeepO.next | with_reducible apply State.setLane_keep | with_reducible apply State.postB_keep | with_reducible apply State.inc_keep | with_reducible apply Keep.ite | with_reducible apply Keep.foldl | with_reducible apply Keep.foldl_fst | with_reducible apply Keep.ite_fst | ((fail_if_success (simp only [Keep.mkF]; with_reducible apply And.intro)); split) | dsimp only | (with_reducible apply Keep.mk; iterate 6 exact rfl))

theorem execBankedExitTimeout_keep {x1 s} (h : Keep p b s) :
    KeepO p b (execBankedExitTimeout x1 s) := by
  unfold execBankedExitTimeout
  try extract_lets
  repeat' (first | with_reducible assumption | intro _ | with_reducible apply KeepO.next | with_reducible apply State.atRef_keep | with_reducible apply attempt_keep | with_reducible apply State.setPort_keep | with_reducible apply Keep.ite | with_reducible apply Keep.foldl | with_reducible apply Keep.foldl_fst | with_reducible apply Keep.ite_fst | ((fail_if_success (simp only [Keep.mkF]; with_reducible apply And.intro)); split) | dsimp only | (with_reducible apply Keep.mk; iterate 6 exact rfl))

theorem landPortConfig_keep {x1 s} (h : Keep p b s) :
    Keep p b (landPortConfig x1 s) := by
  unfold landPortConfig
  try extract_lets
  repeat' (first | with_reducible assumption | intro _ | with_reducible apply clearFailures_keep | with_reducible apply dropPortFrames_keep | with_reducible apply State.movePort_keep | with_reducible apply askPower_keep | with_reducible apply State.setPort_keep | with_reducible apply reviewHealth_keep | with_reducible apply attempt_keep | with_reducible apply Keep.ite | with_reducible apply Keep.foldl | with_reducible apply Keep.foldl_fst | with_reducible apply Keep.ite_fst | ((fail_if_success (simp only [Keep.mkF]; with_reducible apply And.intro)); split) | dsimp only | (with_reducible apply Keep.mk; iterate 6 exact rfl))

theorem restoreEq_keep {s x2} (h : Keep p b s) :
    Keep p b (restoreEq s x2) := by
  unfold restoreEq
  try extract_lets
  repeat' (first | with_reducible assumption | intro _ | with_reducible apply State.setLane_keep | with_reducible apply Keep.ite | with_reducible apply Keep.foldl | with_reducible apply Keep.foldl_fst | with_reducible apply Keep.ite_fst | ((fail_if_success (simp only [Keep.mkF]; with_reducible apply And.intro)); split) | dsimp only | (with_reducible apply Keep.mk; iterate 6 exact rfl))

theorem bankEnter_keep {s x2} (h : Keep p b s) :
    Keep p b (bankEnter s x2) := by
  unfold bankEnter
  try extract_lets
  repeat' (first | with_reducible assumption | intro _ | with_reducible apply dropPortFrames_keep | with_reducible apply askPower_keep | with_reducible apply State.post_keep | with_reducible apply State.movePort_keep | with_reducible apply Keep.ite | with_reducible apply Keep.foldl | with_reducible apply Keep.foldl_fst | with_reducible apply Keep.ite_fst | ((fail_if_success (simp only [Keep.mkF]; with_reducible apply And.intro)); split) | dsimp only | (with_reducible apply Keep.mk; iterate 6 exact rfl))

theorem bankExit_keep {s x2} (h : Keep p b s) :
    Keep p b (bankExit s x2) := by
  unfold bankExit
  try extract_lets
  repeat' (first | with_reducible assumption | intro _ | with_reducible apply State.setPort_keep | with_reducible apply attempt_keep | with_reducible apply bringUp_keep | with_reducible apply restoreEq_keep | with_reducible apply Keep.ite | with_reducible apply Keep.foldl | with_reducible apply Keep.foldl_fst | with_reducible apply Keep.ite_fst | ((fail_if_success (simp only [Keep.mkF]; with_reducible apply And.intro)); split) | dsimp only | (with_reducible apply Keep.mk; iterate 6 exact rfl))

theorem landPortBank_keep {x1 s} (h : Keep p b s) :
    Keep p b (landPortBank x1 s) := by
  unfold landPortBank
  try extract_lets
  repeat' (first | with_reducible assumption | intro _ | with_reducible apply bankEnter_keep | with_reducible apply bankExit_keep | with_reducible apply Keep.ite | with_reducible apply Keep.foldl | with_reducible apply Keep.foldl_fst | with_reducible apply Keep.ite_fst | ((fail_if_success (simp only [Keep.mkF]; with_reducible apply And.intro)); split) | dsimp only | (with_reducible apply Keep.mk; iterate 6 exact rfl))

theorem landPortRestore_keep {x1 s} (h : Keep p b s) :
    Keep p b (landPortRestore x1 s) := by
  unfold landPortRestore
  try extract_lets
  repeat' (first | with_reducible assumption | intro _ | with_reducible apply attempt_keep | with_reducible apply State.post_keep | with_reducible apply reviewHealth_keep | with_reducible apply clearFailures_keep | with_reducible apply Keep.ite | with_reducible apply Keep.foldl | with_reducible apply Keep.foldl_fst | with_reducible apply Keep.ite_fst | ((fail_if_success (simp only [Keep.mkF]; with_reducible apply And.intro)); split) | dsimp only | (with_reducible apply Keep.mk; iterate 6 exact rfl))

theorem lanesCount_keep {s x2} (h : Keep p b s) :
    Keep p b (lanesCount s x2) := by
  unfold lanesCount
  try extract_lets
  repeat' (first | with_reducible assumption | intro _ | with_reducible apply State.add_keep | with_reducible apply Keep.ite | with_reducible apply Keep.foldl | with_reducible apply Keep.foldl_fst | with_reducible apply Keep.ite_fst | ((fail_if_success (simp only [Keep.mkF]; with_reducible apply And.intro)); split) | dsimp only | (with_reducible apply Keep.mk; iterate 6 exact rfl))

theorem laneStrike_keep {s x2 x3 x4} (h : Keep p b s) :
    Keep p b (laneStrike s x2 x3 x4).1 := by
  unfold laneStrike
  try extract_lets
  repeat' (first | with_reducible assumption | intro _ | with_reducible apply State.setLane_keep | with_reducible apply State.post_keep | with_reducible apply Keep.ite | with_reducible apply Keep.foldl | with_reducible apply Keep.foldl_fst | with_reducible apply Keep.ite_fst | ((fail_if_success (simp only [Keep.mkF]; with_reducible apply And.intro)); split) | dsimp only | (with_reducible apply Keep.mk; iterate 6 exact rfl))

theorem laneStrike_keep' {s x2 x3 x4 t y} (h : Keep p b s) (e : laneStrike s x2 x3 x4 = (t, y)) : Keep p b t := by
  have := @laneStrike_keep p b s x2 x3 x4 h
  rw [e] at this
  exact this

theorem lanesStrike_keep {s x2} (h : Keep p b s) :
    Keep p b (lanesStrike s x2) := by
  unfold lanesStrike
  try extract_lets
  repeat' (first | with_reducible assumption | intro _ | (with_reducible refine laneStrike_keep' ?_ (by assumption)) | with_reducible apply laneStrike_keep | with_reducible apply failLanes_keep | with_reducible apply Keep.ite | with_reducible apply Keep.foldl | with_reducible apply Keep.foldl_fst | with_reducible apply Keep.ite_fst | ((fail_if_success (simp only [Keep.mkF]; with_reducible apply And.intro)); split) | dsimp only | (with_reducible apply Keep.mk; iterate 6 exact rfl))

theorem lanesRefLost_keep {s} (h : Keep p b s) :
    Keep p b (lanesRefLost s) := by
  unfold lanesRefLost
  try extract_lets
  repeat' (first | with_reducible assumption | intro _ | with_reducible apply portDown_keep | with_reducible apply State.setPort_keep | with_reducible apply State.fireDev_keep | with_reducible apply State.post_keep | with_reducible apply Keep.ite | with_reducible apply Keep.foldl | with_reducible apply Keep.foldl_fst | with_reducible apply Keep.ite_fst | ((fail_if_success (simp only [Keep.mkF]; with_reducible apply And.intro)); split) | dsimp only | (with_reducible apply Keep.mk; iterate 6 exact rfl))

theorem lanesRefBack_keep {s} (h : Keep p b s) :
    Keep p b (lanesRefBack s) := by
  unfold lanesRefBack
  try extract_lets
  repeat' (first | with_reducible assumption | intro _ | with_reducible apply attempt_keep | with_reducible apply Keep.ite | with_reducible apply Keep.foldl | with_reducible apply Keep.foldl_fst | with_reducible apply Keep.ite_fst | ((fail_if_success (simp only [Keep.mkF]; with_reducible apply And.intro)); split) | dsimp only | (with_reducible apply Keep.mk; iterate 6 exact rfl))

end Sys2Proof.Machine
end

