-- ==== Sys2Proof/Laws/KeepNvmOps.lean ====
section
/-!
SUPPORT. What the operations of Machine/NvmOps.lean keep of the queue and the stores.
-/

set_option linter.all false

namespace Sys2Proof.Machine

variable {p : List Instr} {b : Prop}

theorem flashKick_keep {s} (h : Keep p b s) :
    Keep p b (flashKick s) := by
  unfold flashKick
  try extract_lets
  repeat' (first | with_reducible assumption | intro _ | with_reducible apply Keep.ite | with_reducible apply Keep.foldl | with_reducible apply Keep.foldl_fst | with_reducible apply Keep.ite_fst | ((fail_if_success (simp only [Keep.mkF]; with_reducible apply And.intro)); split) | dsimp only | (with_reducible apply Keep.mk; iterate 6 exact rfl))

theorem flashAsk_keep {s x2 x3} (h : Keep p b s) :
    Keep p b (flashAsk s x2 x3) := by
  unfold flashAsk
  try extract_lets
  repeat' (first | with_reducible assumption | intro _ | with_reducible apply flashKick_keep | with_reducible apply Keep.ite | with_reducible apply Keep.foldl | with_reducible apply Keep.foldl_fst | with_reducible apply Keep.ite_fst | ((fail_if_success (simp only [Keep.mkF]; with_reducible apply And.intro)); split) | dsimp only | (with_reducible apply Keep.mk; iterate 6 exact rfl))

theorem flashWait_keep {s x2} (h : Keep p b s) :
    Keep p b (flashWait s x2).1 := by
  unfold flashWait
  try extract_lets
  repeat' (first | with_reducible assumption | intro _ | with_reducible apply Keep.ite | with_reducible apply Keep.foldl | with_reducible apply Keep.foldl_fst | with_reducible apply Keep.ite_fst | ((fail_if_success (simp only [Keep.mkF]; with_reducible apply And.intro)); split) | dsimp only | (with_reducible apply Keep.mk; iterate 6 exact rfl))

theorem flashWait_keep' {s x2 t y} (h : Keep p b s) (e : flashWait s x2 = (t, y)) : Keep p b t := by
  have := @flashWait_keep p b s x2 h
  rw [e] at this
  exact this

theorem endWait_keep {s x2 x3} (h : Keep p b s) :
    Keep p b (endWait s x2 x3) := by
  unfold endWait
  try extract_lets
  repeat' (first | with_reducible assumption | intro _ | with_reducible apply answer_keep | with_reducible apply Keep.ite | with_reducible apply Keep.foldl | with_reducible apply Keep.foldl_fst | with_reducible apply Keep.ite_fst | ((fail_if_success (simp only [Keep.mkF]; with_reducible apply And.intro)); split) | dsimp only | (with_reducible apply Keep.mk; iterate 6 exact rfl))

theorem tellAsker_keep {s x2 x3} (h : Keep p b s) :
    Keep p b (tellAsker s x2 x3) := by
  unfold tellAsker
  try extract_lets
  repeat' (first | with_reducible assumption | intro _ | with_reducible apply endWait_keep | with_reducible apply Keep.ite | with_reducible apply Keep.foldl | with_reducible apply Keep.foldl_fst | with_reducible apply Keep.ite_fst | ((fail_if_success (simp only [Keep.mkF]; with_reducible apply And.intro)); split) | dsimp only | (with_reducible apply Keep.mk; iterate 6 exact rfl))

theorem journalAdd_keep {s x2 x3 x4} (h : Keep p b s) :
    Keep p b (journalAdd s x2 x3 x4) := by
  unfold journalAdd
  try extract_lets
  repeat' (first | with_reducible assumption | intro _ | with_reducible apply State.inc_keep | with_reducible apply Keep.ite | with_reducible apply Keep.foldl | with_reducible apply Keep.foldl_fst | with_reducible apply Keep.ite_fst | ((fail_if_success (simp only [Keep.mkF]; with_reducible apply And.intro)); split) | dsimp only | (with_reducible apply Keep.mk; iterate 6 exact rfl))

theorem bootWrite_keep {s x2} (h : Keep p b s) :
    Keep p b (bootWrite s x2) := by
  unfold bootWrite
  try extract_lets
  repeat' (first | with_reducible assumption | intro _ | with_reducible apply State.inc_keep | with_reducible apply journalAdd_keep | with_reducible apply Keep.ite | with_reducible apply Keep.foldl | with_reducible apply Keep.foldl_fst | with_reducible apply Keep.ite_fst | ((fail_if_success (simp only [Keep.mkF]; with_reducible apply And.intro)); split) | dsimp only | (with_reducible apply Keep.mk; iterate 6 exact rfl))

theorem endSession_keep {s} (h : Keep p b s) :
    Keep p b (endSession s) := by
  unfold endSession
  try extract_lets
  repeat' (first | with_reducible assumption | intro _ | with_reducible apply Keep.ite | with_reducible apply Keep.foldl | with_reducible apply Keep.foldl_fst | with_reducible apply Keep.ite_fst | ((fail_if_success (simp only [Keep.mkF]; with_reducible apply And.intro)); split) | dsimp only | (with_reducible apply Keep.mk; iterate 6 exact rfl))

theorem sessionStep_keep {s x2} (h : Keep p b s) :
    Keep p b (sessionStep s x2) := by
  unfold sessionStep
  try extract_lets
  repeat' (first | with_reducible assumption | intro _ | with_reducible apply Keep.ite | with_reducible apply Keep.foldl | with_reducible apply Keep.foldl_fst | with_reducible apply Keep.ite_fst | ((fail_if_success (simp only [Keep.mkF]; with_reducible apply And.intro)); split) | dsimp only | (with_reducible apply Keep.mk; iterate 6 exact rfl))

theorem State.setSb_keep {s x2 x3} (h : Keep p b s) :
    Keep p b (State.setSb s x2 x3) := by
  unfold State.setSb
  try extract_lets
  repeat' (first | with_reducible assumption | intro _ | with_reducible apply Keep.ite | with_reducible apply Keep.foldl | with_reducible apply Keep.foldl_fst | with_reducible apply Keep.ite_fst | ((fail_if_success (simp only [Keep.mkF]; with_reducible apply And.intro)); split) | dsimp only | (with_reducible apply Keep.mk; iterate 6 exact rfl))

theorem pldmAsk_keep {s x2 x3 x4} (h : Keep p b s) :
    Keep p b (pldmAsk s x2 x3 x4) := by
  unfold pldmAsk
  try extract_lets
  repeat' (first | with_reducible assumption | intro _ | with_reducible apply State.sbSend_keep | with_reducible apply Keep.ite | with_reducible apply Keep.foldl | with_reducible apply Keep.foldl_fst | with_reducible apply Keep.ite_fst | ((fail_if_success (simp only [Keep.mkF]; with_reducible apply And.intro)); split) | dsimp only | (with_reducible apply Keep.mk; iterate 6 exact rfl))

theorem pldmFetch_keep {s x2} (h : Keep p b s) :
    Keep p b (pldmFetch s x2) := by
  unfold pldmFetch
  try extract_lets
  repeat' (first | with_reducible assumption | intro _ | with_reducible apply pldmAsk_keep | with_reducible apply Keep.ite | with_reducible apply Keep.foldl | with_reducible apply Keep.foldl_fst | with_reducible apply Keep.ite_fst | ((fail_if_success (simp only [Keep.mkF]; with_reducible apply And.intro)); split) | dsimp only | (with_reducible apply Keep.mk; iterate 6 exact rfl))

theorem pldmVerify_keep {s x2} (h : Keep p b s) :
    Keep p b (pldmVerify s x2) := by
  unfold pldmVerify
  try extract_lets
  repeat' (first | with_reducible assumption | intro _ | with_reducible apply pldmAsk_keep | with_reducible apply endSession_keep | with_reducible apply State.setSb_keep | with_reducible apply flashAsk_keep | with_reducible apply Keep.ite | with_reducible apply Keep.foldl | with_reducible apply Keep.foldl_fst | with_reducible apply Keep.ite_fst | ((fail_if_success (simp only [Keep.mkF]; with_reducible apply And.intro)); split) | dsimp only | (with_reducible apply Keep.mk; iterate 6 exact rfl))

theorem putPage_keep {s x2} (h : Keep p b s) :
    Keep p b (putPage s x2) := by
  unfold putPage
  try extract_lets
  repeat' (first | with_reducible assumption | intro _ | with_reducible apply State.inc_keep | with_reducible apply Keep.ite | with_reducible apply Keep.foldl | with_reducible apply Keep.foldl_fst | with_reducible apply Keep.ite_fst | ((fail_if_success (simp only [Keep.mkF]; with_reducible apply And.intro)); split) | dsimp only | (with_reducible apply Keep.mk; iterate 6 exact rfl))

theorem skipPage_keep {s} (h : Keep p b s) :
    Keep p b (skipPage s) := by
  unfold skipPage
  try extract_lets
  repeat' (first | with_reducible assumption | intro _ | with_reducible apply Keep.ite | with_reducible apply Keep.foldl | with_reducible apply Keep.foldl_fst | with_reducible apply Keep.ite_fst | ((fail_if_success (simp only [Keep.mkF]; with_reducible apply And.intro)); split) | dsimp only | (with_reducible apply Keep.mk; iterate 6 exact rfl))

theorem dropPage_keep {s} (h : Keep p b s) :
    Keep p b (dropPage s) := by
  unfold dropPage
  try extract_lets
  repeat' (first | with_reducible assumption | intro _ | with_reducible apply Keep.ite | with_reducible apply Keep.foldl | with_reducible apply Keep.foldl_fst | with_reducible apply Keep.ite_fst | ((fail_if_success (simp only [Keep.mkF]; with_reducible apply And.intro)); split) | dsimp only | (with_reducible apply Keep.mk; iterate 6 exact rfl))

theorem flushBegin_keep {s x2} (h : Keep p b s) :
    Keep p b (flushBegin s x2).1 := by
  unfold flushBegin
  try extract_lets
  repeat' (first | with_reducible assumption | intro _ | with_reducible apply State.post_keep | with_reducible apply tellAsker_keep | with_reducible apply flashAsk_keep | with_reducible apply Keep.ite | with_reducible apply Keep.foldl | with_reducible apply Keep.foldl_fst | with_reducible apply Keep.ite_fst | ((fail_if_success (simp only [Keep.mkF]; with_reducible apply And.intro)); split) | dsimp only | (with_reducible apply Keep.mk; iterate 6 exact rfl))

theorem flushBegin_keep' {s x2 t y} (h : Keep p b s) (e : flushBegin s x2 = (t, y)) : Keep p b t := by
  have := @flushBegin_keep p b s x2 h
  rw [e] at this
  exact this

theorem refuseTooBig_keep {s} (h : Keep p b s) :
    Keep p b (refuseTooBig s) := by
  unfold refuseTooBig
  try extract_lets
  repeat' (first | with_reducible assumption | intro _ | with_reducible apply tellAsker_keep | with_reducible apply Keep.ite | with_reducible apply Keep.foldl | with_reducible apply Keep.foldl_fst | with_reducible apply Keep.ite_fst | ((fail_if_success (simp only [Keep.mkF]; with_reducible apply And.intro)); split) | dsimp only | (with_reducible apply Keep.mk; iterate 6 exact rfl))

theorem flashFinish_keep {s x2} (h : Keep p b s) :
    Keep p b (flashFinish s x2) := by
  unfold flashFinish
  try extract_lets
  repeat' (first | with_reducible assumption | intro _ | with_reducible apply sessionStep_keep | with_reducible apply pldmFetch_keep | with_reducible apply tellAsker_keep | with_reducible apply State.setSb_keep | with_reducible apply pldmVerify_keep | with_reducible apply State.post_keep | with_reducible apply pldmAsk_keep | with_reducible apply refuseTooBig_keep | with_reducible apply Keep.ite | with_reducible apply Keep.foldl | with_reducible apply Keep.foldl_fst | with_reducible apply Keep.ite_fst | ((fail_if_success (simp only [Keep.mkF]; with_reducible apply And.intro)); split) | dsimp only | (with_reducible apply Keep.mk; iterate 6 exact rfl))

theorem flashFail_keep {s x2} (h : Keep p b s) :
    Keep p b (flashFail s x2) := by
  unfold flashFail
  try extract_lets
  repeat' (first | with_reducible assumption | intro _ | with_reducible apply journalAdd_keep | with_reducible apply State.post_keep | with_reducible apply State.raise_keep | with_reducible apply State.inc_keep | with_reducible apply State.setSb_keep | with_reducible apply tellAsker_keep | with_reducible apply endSession_keep | with_reducible apply skipPage_keep | with_reducible apply dropPage_keep | with_reducible apply Keep.ite | with_reducible apply Keep.foldl | with_reducible apply Keep.foldl_fst | with_reducible apply Keep.ite_fst | ((fail_if_success (simp only [Keep.mkF]; with_reducible apply And.intro)); split) | dsimp only | (with_reducible apply Keep.mk; iterate 6 exact rfl))

theorem flashStep_keep {s x2} (h : Keep p b s) :
    Keep p b (flashStep s x2) := by
  unfold flashStep
  try extract_lets
  repeat' (first | with_reducible assumption | intro _ | with_reducible apply flashKick_keep | with_reducible apply flashFinish_keep | with_reducible apply flashFail_keep | with_reducible apply journalAdd_keep | with_reducible apply State.inc_keep | with_reducible apply putPage_keep | with_reducible apply Keep.ite | with_reducible apply Keep.foldl | with_reducible apply Keep.foldl_fst | with_reducible apply Keep.ite_fst | ((fail_if_success (simp only [Keep.mkF]; with_reducible apply And.intro)); split) | dsimp only | (with_reducible apply Keep.mk; iterate 6 exact rfl))

theorem fallBack_keep {s x2} (h : Keep p b s) : Keep p b (fallBack s x2) := by
  unfold fallBack
  dsimp only
  have h1 := @State.overwrite_keep p b s s.log.fb 16 h
  refine ⟨h1.1, fun hb => ?_⟩
  obtain ⟨a1, a2, a3, a4, a5⟩ := h1.2 hb
  refine ⟨a1, a2, a3, a4, ?_⟩
  obtain ⟨_, _, _, _, c5⟩ := h.2 hb
  simpa using State.overwrite_length (s := s) (cap := 16) (by omega) c5

theorem logFails_keep {s x2} (h : Keep p b s) : Keep p b (logFails s x2) := by
  unfold logFails
  refine Keep.ite h ?_
  extract_lets here late main unread s1
  refine Keep.foldl _ (State.post_keep (State.add_keep ⟨h.1, fun hb => ?_⟩)) (fun _ _ h => fallBack_keep h)
  obtain ⟨a1, a2, a3, a4, a5⟩ := h.2 hb
  exact ⟨a1, a2, a3, Nat.le_trans (List.length_filter_le _ _) a4, Nat.zero_le _⟩

end Sys2Proof.Machine
end

