-- ==== Sys2Proof/Laws/KeepFirmware.lean ====
section
/-!
SUPPORT. What the operations of Machine/Firmware.lean keep of the queue and the stores.
-/

set_option linter.all false

namespace Sys2Proof.Machine

variable {p : List Instr} {b : Prop}

theorem execChainOpen_keep {x1 s} (h : Keep p b s) :
    KeepO p b (execChainOpen x1 s) := by
  unfold execChainOpen
  try extract_lets
  repeat' (first | with_reducible assumption | intro _ | with_reducible apply KeepO.next | with_reducible apply dropChain_keep | with_reducible apply State.issueReply_keep | with_reducible apply State.post_keep | with_reducible apply Keep.ite | with_reducible apply Keep.foldl | with_reducible apply Keep.foldl_fst | with_reducible apply Keep.ite_fst | ((fail_if_success (simp only [Keep.mkF]; with_reducible apply And.intro)); split) | dsimp only | (with_reducible apply Keep.mk; iterate 6 exact rfl))

theorem restart_keep {s} (h : Keep p b s) :
    Keep p b (restart s) := by
  unfold restart
  try extract_lets
  repeat' (first | with_reducible assumption | intro _ | with_reducible apply dropChain_keep | with_reducible apply dropUnit_keep | with_reducible apply State.post_keep | with_reducible apply State.fireDev_keep | with_reducible apply State.raise_keep | with_reducible apply State.inc_keep | with_reducible apply flashAsk_keep | with_reducible apply Keep.ite | with_reducible apply Keep.foldl | with_reducible apply Keep.foldl_fst | with_reducible apply Keep.ite_fst | ((fail_if_success (simp only [Keep.mkF]; with_reducible apply And.intro)); split) | dsimp only | (with_reducible apply Keep.mk; iterate 6 exact rfl))

theorem execFwRestart_keep {s} (h : Keep p b s) :
    KeepO p b (execFwRestart s) := by
  unfold execFwRestart
  try extract_lets
  repeat' (first | with_reducible assumption | intro _ | with_reducible apply KeepO.next | with_reducible apply State.atRef_keep | with_reducible apply restart_keep | with_reducible apply Keep.ite | with_reducible apply Keep.foldl | with_reducible apply Keep.foldl_fst | with_reducible apply Keep.ite_fst | ((fail_if_success (simp only [Keep.mkF]; with_reducible apply And.intro)); split) | dsimp only | (with_reducible apply Keep.mk; iterate 6 exact rfl))

theorem watchdogReplies_keep {s} (h : Keep p b s) :
    Keep p b (watchdogReplies s) := by
  unfold watchdogReplies
  try extract_lets
  repeat' (first | with_reducible assumption | intro _ | with_reducible apply mboxDone_keep | with_reducible apply State.inc_keep | with_reducible apply State.issueReply_keep | with_reducible apply Keep.ite | with_reducible apply Keep.foldl | with_reducible apply Keep.foldl_fst | with_reducible apply Keep.ite_fst | ((fail_if_success (simp only [Keep.mkF]; with_reducible apply And.intro)); split) | dsimp only | (with_reducible apply Keep.mk; iterate 6 exact rfl))

theorem nextEdge_keep {s} (h : Keep p b s) :
    Keep p b (nextEdge s) := by
  unfold nextEdge
  try extract_lets
  repeat' (first | with_reducible assumption | intro _ | with_reducible apply State.tick_keep | with_reducible apply Keep.ite | with_reducible apply Keep.foldl | with_reducible apply Keep.foldl_fst | with_reducible apply Keep.ite_fst | ((fail_if_success (simp only [Keep.mkF]; with_reducible apply And.intro)); split) | dsimp only | (with_reducible apply Keep.mk; iterate 6 exact rfl))

theorem bootIns_keep {s x2} (h : Keep p b s) :
    Keep p b (bootIns s x2) := by
  unfold bootIns
  try extract_lets
  repeat' (first | with_reducible assumption | intro _ | with_reducible apply State.setIns_keep | with_reducible apply Keep.ite | with_reducible apply Keep.foldl | with_reducible apply Keep.foldl_fst | with_reducible apply Keep.ite_fst | ((fail_if_success (simp only [Keep.mkF]; with_reducible apply And.intro)); split) | dsimp only | (with_reducible apply Keep.mk; iterate 6 exact rfl))

theorem recordBoot_keep {s} (h : Keep p b s) :
    Keep p b (recordBoot s) := by
  unfold recordBoot
  try extract_lets
  repeat' (first | with_reducible assumption | intro _ | with_reducible apply nextEdge_keep | with_reducible apply State.inc_keep | with_reducible apply State.postF_keep | with_reducible apply State.post_keep | with_reducible apply Keep.ite | with_reducible apply Keep.foldl | with_reducible apply Keep.foldl_fst | with_reducible apply Keep.ite_fst | ((fail_if_success (simp only [Keep.mkF]; with_reducible apply And.intro)); split) | dsimp only | (with_reducible apply Keep.mk; iterate 6 exact rfl))

theorem portChain_keep {s} (h : Keep p b s) : Keep p b (portChain s) := by
  unfold portChain
  split
  · exact h
  · extract_lets unit target src s0 packets run
    have h0 : Keep p b s0 := Keep.of rfl rfl rfl rfl rfl rfl h
    have hrun : ∀ a x, (∀ t, a = some t → Keep p b t) → ∀ t, run a x = some t → Keep p b t := by
      intro a x ha t ht
      cases a with
      | none => cases ht
      | some st =>
        have hst := ha st rfl
        simp only [run] at ht
        generalize decodeHeader (.queue 4096) (leNat (x.1.take 64)) [] [] [] = d at ht
        obtain ⟨k, c⟩ := d
        dsimp only at ht
        split at ht
        · rename_i st1 es fl rr heq
          refine stageItems_keep' ?_ ht
          refine charge_keep ?_
          refine (show KeepB p b (Body.stage st1 es fl rr) from ?_)
          rw [← heq]
          exact KeepB.ite KeepB.bad (KeepB.ite (bodyPortConfig_keep hst) (KeepB.ite (bodyPortBank_keep hst)
            (KeepB.ite (bodyPortRestore_keep hst) KeepB.fail)))
        · cases ht
    have hfold : ∀ (l : List (List Byte × Nat)) a, (∀ t, a = some t → Keep p b t) →
        ∀ t, l.foldl run a = some t → Keep p b t := by
      intro l
      induction l with
      | nil => intro a ha; exact ha
      | cons x u ih => intro a ha; exact ih (run a x) (hrun a x ha)
    clear_value run
    split
    · exact h0
    · rename_i s1 heq
      have h1 := hfold _ _ (fun t ht => by injection ht with e; rw [← e]; exact h0) s1 heq
      exact settle_keep h1

theorem runBudget_keep {s} (h : Keep p b s) :
    Keep p b (runBudget s) := by
  unfold runBudget
  try extract_lets
  repeat' (first | with_reducible assumption | intro _ | with_reducible apply Keep.ite | with_reducible apply Keep.foldl | with_reducible apply Keep.foldl_fst | with_reducible apply Keep.ite_fst | ((fail_if_success (simp only [Keep.mkF]; with_reducible apply And.intro)); split) | dsimp only | (with_reducible apply Keep.mk; iterate 6 exact rfl))

theorem execFwRun_keep {s} (h : Keep p b s) :
    KeepO p b (execFwRun s) := by
  unfold execFwRun
  try extract_lets
  repeat' (first | with_reducible assumption | intro _ | with_reducible apply KeepO.next | with_reducible apply runBudget_keep | with_reducible apply mboxUndefined_keep | with_reducible apply watchdogReplies_keep | with_reducible apply bootIns_keep | with_reducible apply portChain_keep | with_reducible apply recordBoot_keep | with_reducible apply Keep.ite | with_reducible apply Keep.foldl | with_reducible apply Keep.foldl_fst | with_reducible apply Keep.ite_fst | ((fail_if_success (simp only [Keep.mkF]; with_reducible apply And.intro)); split) | dsimp only | (with_reducible apply Keep.mk; iterate 6 exact rfl))

theorem refEvent_keep {s x2 x3} (h : Keep p b s) :
    Keep p b (refEvent s x2 x3) := by
  unfold refEvent
  try extract_lets
  repeat' (first | with_reducible assumption | intro _ | with_reducible apply State.post_keep | with_reducible apply Keep.ite | with_reducible apply Keep.foldl | with_reducible apply Keep.foldl_fst | with_reducible apply Keep.ite_fst | ((fail_if_success (simp only [Keep.mkF]; with_reducible apply And.intro)); split) | dsimp only | (with_reducible apply Keep.mk; iterate 6 exact rfl))

theorem execRefLost_keep {s} (h : Keep p b s) :
    KeepO p b (execRefLost s) := by
  unfold execRefLost
  try extract_lets
  repeat' (first | with_reducible assumption | intro _ | with_reducible apply KeepO.next | with_reducible apply State.fireDev_keep | with_reducible apply timeRefLost_keep | with_reducible apply lanesRefLost_keep | with_reducible apply reclass_keep | with_reducible apply refEvent_keep | with_reducible apply Keep.ite | with_reducible apply Keep.foldl | with_reducible apply Keep.foldl_fst | with_reducible apply Keep.ite_fst | ((fail_if_success (simp only [Keep.mkF]; with_reducible apply And.intro)); split) | dsimp only | (with_reducible apply Keep.mk; iterate 6 exact rfl))

theorem refBack_keep {s} (h : Keep p b s) :
    Keep p b (refBack s) := by
  unfold refBack
  try extract_lets
  repeat' (first | with_reducible assumption | intro _ | with_reducible apply lanesRefBack_keep | with_reducible apply reclass_keep | with_reducible apply refEvent_keep | with_reducible apply Keep.ite | with_reducible apply Keep.foldl | with_reducible apply Keep.foldl_fst | with_reducible apply Keep.ite_fst | ((fail_if_success (simp only [Keep.mkF]; with_reducible apply And.intro)); split) | dsimp only | (with_reducible apply Keep.mk; iterate 6 exact rfl))

theorem execRefReturned_keep {s} (h : Keep p b s) :
    KeepO p b (execRefReturned s) := by
  unfold execRefReturned
  try extract_lets
  repeat' (first | with_reducible assumption | intro _ | with_reducible apply KeepO.next | with_reducible apply State.atRef_keep | with_reducible apply refBack_keep | with_reducible apply Keep.ite | with_reducible apply Keep.foldl | with_reducible apply Keep.foldl_fst | with_reducible apply Keep.ite_fst | ((fail_if_success (simp only [Keep.mkF]; with_reducible apply And.intro)); split) | dsimp only | (with_reducible apply Keep.mk; iterate 6 exact rfl))

theorem execDramUnavailable_keep {s} (h : Keep p b s) :
    KeepO p b (execDramUnavailable s) := by
  unfold execDramUnavailable
  try extract_lets
  repeat' (first | with_reducible assumption | intro _ | with_reducible apply KeepO.next | with_reducible apply Keep.ite | with_reducible apply Keep.foldl | with_reducible apply Keep.foldl_fst | with_reducible apply Keep.ite_fst | ((fail_if_success (simp only [Keep.mkF]; with_reducible apply And.intro)); split) | dsimp only | (with_reducible apply Keep.mk; iterate 6 exact rfl))

theorem execManagementSramError_keep {x1 x2 s} (h : Keep p b s) :
    KeepO p b (execManagementSramError x1 x2 s) := by
  unfold execManagementSramError
  try extract_lets
  repeat' (first | with_reducible assumption | intro _ | with_reducible apply KeepO.next | with_reducible apply logFails_keep | with_reducible apply Keep.ite | with_reducible apply Keep.foldl | with_reducible apply Keep.foldl_fst | with_reducible apply Keep.ite_fst | ((fail_if_success (simp only [Keep.mkF]; with_reducible apply And.intro)); split) | dsimp only | (with_reducible apply Keep.mk; iterate 6 exact rfl))

end Sys2Proof.Machine
end

