-- ==== Sys2Proof/Laws/KeepHostLinks.lean ====
section
/-!
SUPPORT. What the operations of Machine/HostLinks.lean keep of the queue and the stores.
-/

set_option linter.all false

namespace Sys2Proof.Machine

variable {p : List Instr} {b : Prop}

theorem ecrcFails_keep {s x2} (h : Keep p b s) :
    Keep p b (ecrcFails s x2) := by
  unfold ecrcFails
  try extract_lets
  repeat' (first | with_reducible assumption | intro _ | with_reducible apply State.post_keep | with_reducible apply aer_keep | with_reducible apply Keep.ite | with_reducible apply Keep.foldl | with_reducible apply Keep.foldl_fst | with_reducible apply Keep.ite_fst | ((fail_if_success (simp only [Keep.mkF]; with_reducible apply And.intro)); split) | dsimp only | (with_reducible apply Keep.mk; iterate 6 exact rfl))

theorem execMmioPoison_keep {x1 x2 s} (h : Keep p b s) :
    KeepO p b (execMmioPoison x1 x2 s) := by
  unfold execMmioPoison
  try extract_lets
  repeat' (first | with_reducible assumption | intro _ | with_reducible apply KeepO.next | with_reducible apply ecrcFails_keep | with_reducible apply State.post_keep | with_reducible apply aer_keep | with_reducible apply Keep.ite | with_reducible apply Keep.foldl | with_reducible apply Keep.foldl_fst | with_reducible apply Keep.ite_fst | ((fail_if_success (simp only [Keep.mkF]; with_reducible apply And.intro)); split) | dsimp only | (with_reducible apply Keep.mk; iterate 6 exact rfl))

theorem execUnsupportedRequest_keep {x1 x2 s} (h : Keep p b s) :
    KeepO p b (execUnsupportedRequest x1 x2 s) := by
  unfold execUnsupportedRequest
  try extract_lets
  repeat' (first | with_reducible assumption | intro _ | with_reducible apply KeepO.next | with_reducible apply ecrcFails_keep | with_reducible apply aer_keep | with_reducible apply State.emitLink_keep | with_reducible apply Keep.ite | with_reducible apply Keep.foldl | with_reducible apply Keep.foldl_fst | with_reducible apply Keep.ite_fst | ((fail_if_success (simp only [Keep.mkF]; with_reducible apply And.intro)); split) | dsimp only | (with_reducible apply Keep.mk; iterate 6 exact rfl))

theorem execMalformed_keep {x1 s} (h : Keep p b s) :
    KeepO p b (execMalformed x1 s) := by
  unfold execMalformed
  try extract_lets
  repeat' (first | with_reducible assumption | intro _ | with_reducible apply KeepO.next | with_reducible apply State.post_keep | with_reducible apply aer_keep | with_reducible apply Keep.ite | with_reducible apply Keep.foldl | with_reducible apply Keep.foldl_fst | with_reducible apply Keep.ite_fst | ((fail_if_success (simp only [Keep.mkF]; with_reducible apply And.intro)); split) | dsimp only | (with_reducible apply Keep.mk; iterate 6 exact rfl))

theorem execUnexpectedCompletion_keep {x1 x2 s} (h : Keep p b s) :
    KeepO p b (execUnexpectedCompletion x1 x2 s) := by
  unfold execUnexpectedCompletion
  try extract_lets
  repeat' (first | with_reducible assumption | intro _ | with_reducible apply KeepO.next | with_reducible apply ecrcFails_keep | with_reducible apply aer_keep | with_reducible apply Keep.ite | with_reducible apply Keep.foldl | with_reducible apply Keep.foldl_fst | with_reducible apply Keep.ite_fst | ((fail_if_success (simp only [Keep.mkF]; with_reducible apply And.intro)); split) | dsimp only | (with_reducible apply Keep.mk; iterate 6 exact rfl))

theorem dmaFails_keep {s x2 x3 x4 x5} (h : Keep p b s) :
    Keep p b (dmaFails s x2 x3 x4 x5) := by
  unfold dmaFails
  try extract_lets
  repeat' (first | with_reducible assumption | intro _ | with_reducible apply State.inc_keep | with_reducible apply State.flagFunc_keep | with_reducible apply stopQueue_keep | with_reducible apply State.fire_keep | with_reducible apply State.post_keep | with_reducible apply aer_keep | with_reducible apply Keep.ite | with_reducible apply Keep.foldl | with_reducible apply Keep.foldl_fst | with_reducible apply Keep.ite_fst | ((fail_if_success (simp only [Keep.mkF]; with_reducible apply And.intro)); split) | dsimp only | (with_reducible apply Keep.mk; iterate 6 exact rfl))

theorem descInvalid_keep {s x2 x3} (h : Keep p b s) :
    Keep p b (descInvalid s x2 x3) := by
  unfold descInvalid
  try extract_lets
  repeat' (first | with_reducible assumption | intro _ | with_reducible apply State.post_keep | with_reducible apply State.fire_keep | with_reducible apply State.flagFunc_keep | with_reducible apply stopQueue_keep | with_reducible apply Keep.ite | with_reducible apply Keep.foldl | with_reducible apply Keep.foldl_fst | with_reducible apply Keep.ite_fst | ((fail_if_success (simp only [Keep.mkF]; with_reducible apply And.intro)); split) | dsimp only | (with_reducible apply Keep.mk; iterate 6 exact rfl))

theorem readGot_keep {s x2 x3 x4} (h : Keep p b s) :
    Keep p b (readGot s x2 x3 x4) := by
  unfold readGot
  try extract_lets
  repeat' (first | with_reducible assumption | intro _ | with_reducible apply headerRead_keep | with_reducible apply finishJobs_keep | with_reducible apply descInvalid_keep | with_reducible apply Keep.ite | with_reducible apply Keep.foldl | with_reducible apply Keep.foldl_fst | with_reducible apply Keep.ite_fst | ((fail_if_success (simp only [Keep.mkF]; with_reducible apply And.intro)); split) | dsimp only | (with_reducible apply Keep.mk; iterate 6 exact rfl))

theorem execDmaReadCompletion_keep {x1 s} (h : Keep p b s) :
    KeepO p b (execDmaReadCompletion x1 s) := by
  unfold execDmaReadCompletion
  try extract_lets
  repeat' (first | with_reducible assumption | intro _ | with_reducible apply KeepO.next | (with_reducible refine access_keep' ?_ (by assumption)) | with_reducible apply access_keep | with_reducible apply seeTables_keep | with_reducible apply readGot_keep | with_reducible apply dmaFails_keep | with_reducible apply Keep.ite | with_reducible apply Keep.foldl | with_reducible apply Keep.foldl_fst | with_reducible apply Keep.ite_fst | ((fail_if_success (simp only [Keep.mkF]; with_reducible apply And.intro)); split) | dsimp only | (with_reducible apply Keep.mk; iterate 6 exact rfl))

theorem execDmaTimeout_keep {x1 x2 s} (h : Keep p b s) :
    KeepO p b (execDmaTimeout x1 x2 s) := by
  unfold execDmaTimeout
  try extract_lets
  repeat' (first | with_reducible assumption | intro _ | with_reducible apply KeepO.next | with_reducible apply dmaFails_keep | with_reducible apply Keep.ite | with_reducible apply Keep.foldl | with_reducible apply Keep.foldl_fst | with_reducible apply Keep.ite_fst | ((fail_if_success (simp only [Keep.mkF]; with_reducible apply And.intro)); split) | dsimp only | (with_reducible apply Keep.mk; iterate 6 exact rfl))

theorem execAtsInvalidate_keep {x1 x2 x3 s} (h : Keep p b s) :
    KeepO p b (execAtsInvalidate x1 x2 x3 s) := by
  unfold execAtsInvalidate
  try extract_lets
  repeat' (first | with_reducible assumption | intro _ | with_reducible apply KeepO.next | with_reducible apply State.emit_keep | with_reducible apply State.setLink_keep | with_reducible apply Keep.ite | with_reducible apply Keep.foldl | with_reducible apply Keep.foldl_fst | with_reducible apply Keep.ite_fst | ((fail_if_success (simp only [Keep.mkF]; with_reducible apply And.intro)); split) | dsimp only | (with_reducible apply Keep.mk; iterate 6 exact rfl))

theorem execLinkUp_keep {x1 x2 x3 x4 s} (h : Keep p b s) :
    KeepO p b (execLinkUp x1 x2 x3 x4 s) := by
  unfold execLinkUp
  try extract_lets
  repeat' (first | with_reducible assumption | intro _ | with_reducible apply KeepO.next | with_reducible apply State.post_keep | with_reducible apply State.setLink_keep | with_reducible apply Keep.ite | with_reducible apply Keep.foldl | with_reducible apply Keep.foldl_fst | with_reducible apply Keep.ite_fst | ((fail_if_success (simp only [Keep.mkF]; with_reducible apply And.intro)); split) | dsimp only | (with_reducible apply Keep.mk; iterate 6 exact rfl))

theorem orphan_keep {s x2} (h : Keep p b s) :
    Keep p b (orphan s x2) := by
  unfold orphan
  try extract_lets
  repeat' (first | with_reducible assumption | intro _ | with_reducible apply Keep.ite | with_reducible apply Keep.foldl | with_reducible apply Keep.foldl_fst | with_reducible apply Keep.ite_fst | ((fail_if_success (simp only [Keep.mkF]; with_reducible apply And.intro)); split) | dsimp only | (with_reducible apply Keep.mk; iterate 6 exact rfl))

theorem clearFunc_keep {s x2} (h : Keep p b s) :
    Keep p b (clearFunc s x2) := by
  unfold clearFunc
  try extract_lets
  repeat' (first | with_reducible assumption | intro _ | with_reducible apply orphan_keep | with_reducible apply dropSealing_keep | with_reducible apply dropChain_keep | with_reducible apply State.setFunc_keep | with_reducible apply State.freeSlots_keep | with_reducible apply finishStops_keep | with_reducible apply State.setLink_keep | with_reducible apply Keep.ite | with_reducible apply Keep.foldl | with_reducible apply Keep.foldl_fst | with_reducible apply Keep.ite_fst | ((fail_if_success (simp only [Keep.mkF]; with_reducible apply And.intro)); split) | dsimp only | (with_reducible apply Keep.mk; iterate 6 exact rfl))

theorem removeVfs_keep {s x2} (h : Keep p b s) :
    Keep p b (removeVfs s x2) := by
  unfold removeVfs
  try extract_lets
  repeat' (first | with_reducible assumption | intro _ | with_reducible apply clearFunc_keep | with_reducible apply State.modIns_keep | with_reducible apply State.setLink_keep | with_reducible apply Keep.ite | with_reducible apply Keep.foldl | with_reducible apply Keep.foldl_fst | with_reducible apply Keep.ite_fst | ((fail_if_success (simp only [Keep.mkF]; with_reducible apply And.intro)); split) | dsimp only | (with_reducible apply Keep.mk; iterate 6 exact rfl))

theorem mboxReset_keep {s x2} (h : Keep p b s) :
    Keep p b (mboxReset s x2) := by
  unfold mboxReset
  try extract_lets
  repeat' (first | with_reducible assumption | intro _ | with_reducible apply releaseMbox_keep | with_reducible apply orphan_keep | with_reducible apply State.post_keep | with_reducible apply Keep.ite | with_reducible apply Keep.foldl | with_reducible apply Keep.foldl_fst | with_reducible apply Keep.ite_fst | ((fail_if_success (simp only [Keep.mkF]; with_reducible apply And.intro)); split) | dsimp only | (with_reducible apply Keep.mk; iterate 6 exact rfl))

theorem resetLinkFuncs_keep {s x2} (h : Keep p b s) :
    Keep p b (resetLinkFuncs s x2) := by
  unfold resetLinkFuncs
  try extract_lets
  repeat' (first | with_reducible assumption | intro _ | with_reducible apply mboxReset_keep | with_reducible apply clearFunc_keep | with_reducible apply removeVfs_keep | with_reducible apply Keep.ite | with_reducible apply Keep.foldl | with_reducible apply Keep.foldl_fst | with_reducible apply Keep.ite_fst | ((fail_if_success (simp only [Keep.mkF]; with_reducible apply And.intro)); split) | dsimp only | (with_reducible apply Keep.mk; iterate 6 exact rfl))

theorem clearLinkCfg_keep {s x2} (h : Keep p b s) :
    Keep p b (clearLinkCfg s x2) := by
  unfold clearLinkCfg
  try extract_lets
  repeat' (first | with_reducible assumption | intro _ | with_reducible apply State.setLink_keep | with_reducible apply Keep.ite | with_reducible apply Keep.foldl | with_reducible apply Keep.foldl_fst | with_reducible apply Keep.ite_fst | ((fail_if_success (simp only [Keep.mkF]; with_reducible apply And.intro)); split) | dsimp only | (with_reducible apply Keep.mk; iterate 6 exact rfl))

theorem execLinkReset_keep {x1 x2 s} (h : Keep p b s) :
    KeepO p b (execLinkReset x1 x2 s) := by
  unfold execLinkReset
  try extract_lets
  repeat' (first | with_reducible assumption | intro _ | with_reducible apply KeepO.next | with_reducible apply State.post_keep | with_reducible apply State.inc_keep | with_reducible apply aer_keep | with_reducible apply resetLinkFuncs_keep | with_reducible apply State.setLink_keep | with_reducible apply clearLinkCfg_keep | with_reducible apply Keep.ite | with_reducible apply Keep.foldl | with_reducible apply Keep.foldl_fst | with_reducible apply Keep.ite_fst | ((fail_if_success (simp only [Keep.mkF]; with_reducible apply And.intro)); split) | dsimp only | (with_reducible apply Keep.mk; iterate 6 exact rfl))

theorem execPerstDeassert_keep {x1 s} (h : Keep p b s) :
    KeepO p b (execPerstDeassert x1 s) := by
  unfold execPerstDeassert
  try extract_lets
  repeat' (first | with_reducible assumption | intro _ | with_reducible apply KeepO.next | with_reducible apply State.setLink_keep | with_reducible apply Keep.ite | with_reducible apply Keep.foldl | with_reducible apply Keep.foldl_fst | with_reducible apply Keep.ite_fst | ((fail_if_success (simp only [Keep.mkF]; with_reducible apply And.intro)); split) | dsimp only | (with_reducible apply Keep.mk; iterate 6 exact rfl))

theorem execFlr_keep {x1 s} (h : Keep p b s) :
    KeepO p b (execFlr x1 s) := by
  unfold execFlr
  try extract_lets
  repeat' (first | with_reducible assumption | intro _ | with_reducible apply KeepO.next | with_reducible apply removeVfs_keep | with_reducible apply State.setLink_keep | with_reducible apply clearFunc_keep | with_reducible apply clearLinkCfg_keep | with_reducible apply mboxReset_keep | with_reducible apply State.modFunc_keep | with_reducible apply Keep.ite | with_reducible apply Keep.foldl | with_reducible apply Keep.foldl_fst | with_reducible apply Keep.ite_fst | ((fail_if_success (simp only [Keep.mkF]; with_reducible apply And.intro)); split) | dsimp only | (with_reducible apply Keep.mk; iterate 6 exact rfl))

theorem execFlrComplete_keep {x1 s} (h : Keep p b s) :
    KeepO p b (execFlrComplete x1 s) := by
  unfold execFlrComplete
  try extract_lets
  repeat' (first | with_reducible assumption | intro _ | with_reducible apply KeepO.next | with_reducible apply State.post_keep | with_reducible apply State.modFunc_keep | with_reducible apply Keep.ite | with_reducible apply Keep.foldl | with_reducible apply Keep.foldl_fst | with_reducible apply Keep.ite_fst | ((fail_if_success (simp only [Keep.mkF]; with_reducible apply And.intro)); split) | dsimp only | (with_reducible apply Keep.mk; iterate 6 exact rfl))

theorem execBusMasterClear_keep {x1 s} (h : Keep p b s) :
    KeepO p b (execBusMasterClear x1 s) := by
  unfold execBusMasterClear
  try extract_lets
  repeat' (first | with_reducible assumption | intro _ | with_reducible apply KeepO.next | with_reducible apply State.modFunc_keep | with_reducible apply Keep.ite | with_reducible apply Keep.foldl | with_reducible apply Keep.foldl_fst | with_reducible apply Keep.ite_fst | ((fail_if_success (simp only [Keep.mkF]; with_reducible apply And.intro)); split) | dsimp only | (with_reducible apply Keep.mk; iterate 6 exact rfl))

theorem execBusMasterSet_keep {x1 s} (h : Keep p b s) :
    KeepO p b (execBusMasterSet x1 s) := by
  unfold execBusMasterSet
  try extract_lets
  repeat' (first | with_reducible assumption | intro _ | with_reducible apply KeepO.next | with_reducible apply drainFunc_keep | with_reducible apply State.modFunc_keep | with_reducible apply Keep.ite | with_reducible apply Keep.foldl | with_reducible apply Keep.foldl_fst | with_reducible apply Keep.ite_fst | ((fail_if_success (simp only [Keep.mkF]; with_reducible apply And.intro)); split) | dsimp only | (with_reducible apply Keep.mk; iterate 6 exact rfl))

theorem execD3hotEntry_keep {x1 s} (h : Keep p b s) :
    KeepO p b (execD3hotEntry x1 s) := by
  unfold execD3hotEntry
  try extract_lets
  repeat' (first | with_reducible assumption | intro _ | with_reducible apply KeepO.next | with_reducible apply State.modFunc_keep | with_reducible apply Keep.ite | with_reducible apply Keep.foldl | with_reducible apply Keep.foldl_fst | with_reducible apply Keep.ite_fst | ((fail_if_success (simp only [Keep.mkF]; with_reducible apply And.intro)); split) | dsimp only | (with_reducible apply Keep.mk; iterate 6 exact rfl))

theorem execD0Return_keep {x1 s} (h : Keep p b s) :
    KeepO p b (execD0Return x1 s) := by
  unfold execD0Return
  try extract_lets
  repeat' (first | with_reducible assumption | intro _ | with_reducible apply KeepO.next | with_reducible apply drainFunc_keep | with_reducible apply State.modFunc_keep | with_reducible apply Keep.ite | with_reducible apply Keep.foldl | with_reducible apply Keep.foldl_fst | with_reducible apply Keep.ite_fst | ((fail_if_success (simp only [Keep.mkF]; with_reducible apply And.intro)); split) | dsimp only | (with_reducible apply Keep.mk; iterate 6 exact rfl))

theorem execVfEnableSet_keep {x1 x2 s} (h : Keep p b s) :
    KeepO p b (execVfEnableSet x1 x2 s) := by
  unfold execVfEnableSet
  try extract_lets
  repeat' (first | with_reducible assumption | intro _ | with_reducible apply KeepO.next | with_reducible apply State.setLink_keep | with_reducible apply State.modIns_keep | with_reducible apply Keep.ite | with_reducible apply Keep.foldl | with_reducible apply Keep.foldl_fst | with_reducible apply Keep.ite_fst | ((fail_if_success (simp only [Keep.mkF]; with_reducible apply And.intro)); split) | dsimp only | (with_reducible apply Keep.mk; iterate 6 exact rfl))

theorem execVfEnableClear_keep {x1 s} (h : Keep p b s) :
    KeepO p b (execVfEnableClear x1 s) := by
  unfold execVfEnableClear
  try extract_lets
  repeat' (first | with_reducible assumption | intro _ | with_reducible apply KeepO.next | with_reducible apply removeVfs_keep | with_reducible apply Keep.ite | with_reducible apply Keep.foldl | with_reducible apply Keep.foldl_fst | with_reducible apply Keep.ite_fst | ((fail_if_success (simp only [Keep.mkF]; with_reducible apply And.intro)); split) | dsimp only | (with_reducible apply Keep.mk; iterate 6 exact rfl))

end Sys2Proof.Machine
end

