-- ==== Sys2Proof/Laws/KeepSidebandOps.lean ====
section
/-!
SUPPORT. What the operations of Machine/SidebandOps.lean keep of the queue and the stores.
-/

set_option linter.all false

namespace Sys2Proof.Machine

variable {p : List Instr} {b : Prop}

theorem sbRaise_keep {s x2 x3} (h : Keep p b s) :
    Keep p b (sbRaise s x2 x3) := by
  unfold sbRaise
  try extract_lets
  repeat' (first | with_reducible assumption | intro _ | with_reducible apply State.mark_keep | with_reducible apply State.setWord_keep | with_reducible apply State.fireDev_keep | with_reducible apply Keep.ite | with_reducible apply Keep.foldl | with_reducible apply Keep.foldl_fst | with_reducible apply Keep.ite_fst | ((fail_if_success (simp only [Keep.mkF]; with_reducible apply And.intro)); split) | dsimp only | (with_reducible apply Keep.mk; iterate 6 exact rfl))

theorem sbPost_keep {s g2} (h : Keep p b s) (k2 : ∀ y0, Keep p b y0 → Keep p b (g2 y0)) :
    Keep p b (sbPost s g2) := by
  unfold sbPost
  try extract_lets
  repeat' (first | with_reducible assumption | intro _ | with_reducible apply k2 | with_reducible apply Keep.ite | with_reducible apply Keep.foldl | with_reducible apply Keep.foldl_fst | with_reducible apply Keep.ite_fst | ((fail_if_success (simp only [Keep.mkF]; with_reducible apply And.intro)); split) | dsimp only | (with_reducible apply Keep.mk; iterate 6 exact rfl))

theorem sbDrain_keep {s x2} (h : Keep p b s) :
    Keep p b (sbDrain s x2) := by
  unfold sbDrain
  try extract_lets
  repeat' (first | with_reducible assumption | intro _ | with_reducible apply State.inc_keep | with_reducible apply State.emit_keep | with_reducible apply State.setSb_keep | with_reducible apply Keep.ite | with_reducible apply Keep.foldl | with_reducible apply Keep.foldl_fst | with_reducible apply Keep.ite_fst | ((fail_if_success (simp only [Keep.mkF]; with_reducible apply And.intro)); split) | dsimp only | (with_reducible apply Keep.mk; iterate 6 exact rfl))

theorem sbTxFail_keep {s x2} (h : Keep p b s) :
    Keep p b (sbTxFail s x2) := by
  unfold sbTxFail
  try extract_lets
  repeat' (first | with_reducible assumption | intro _ | with_reducible apply State.inc_keep | with_reducible apply State.setSb_keep | with_reducible apply sbPost_keep | with_reducible apply sbRaise_keep | with_reducible apply State.post_keep | with_reducible apply Keep.ite | with_reducible apply Keep.foldl | with_reducible apply Keep.foldl_fst | with_reducible apply Keep.ite_fst | ((fail_if_success (simp only [Keep.mkF]; with_reducible apply And.intro)); split) | dsimp only | (with_reducible apply Keep.mk; iterate 6 exact rfl))

theorem sbReceive_keep {s x2 g3} (h : Keep p b s) (k3 : ∀ y0, Keep p b y0 → Keep p b (g3 y0)) :
    Keep p b (sbReceive s x2 g3) := by
  unfold sbReceive
  try extract_lets
  repeat' (first | with_reducible assumption | intro _ | with_reducible apply k3 | with_reducible apply State.inc_keep | with_reducible apply sbDrain_keep | with_reducible apply Keep.ite | with_reducible apply Keep.foldl | with_reducible apply Keep.foldl_fst | with_reducible apply Keep.ite_fst | ((fail_if_success (simp only [Keep.mkF]; with_reducible apply And.intro)); split) | dsimp only | (with_reducible apply Keep.mk; iterate 6 exact rfl))

theorem sbAnswer_keep {s x2 x3 x4 x5 x6} (h : Keep p b s) :
    Keep p b (sbAnswer s x2 x3 x4 x5 x6) := by
  unfold sbAnswer
  try extract_lets
  repeat' (first | with_reducible assumption | intro _ | with_reducible apply State.sbSend_keep | with_reducible apply Keep.ite | with_reducible apply Keep.foldl | with_reducible apply Keep.foldl_fst | with_reducible apply Keep.ite_fst | ((fail_if_success (simp only [Keep.mkF]; with_reducible apply And.intro)); split) | dsimp only | (with_reducible apply Keep.mk; iterate 6 exact rfl))

theorem sbLatch_keep {s} (h : Keep p b s) :
    Keep p b (sbLatch s) := by
  unfold sbLatch
  try extract_lets
  repeat' (first | with_reducible assumption | intro _ | with_reducible apply Keep.ite | with_reducible apply Keep.foldl | with_reducible apply Keep.foldl_fst | with_reducible apply Keep.ite_fst | ((fail_if_success (simp only [Keep.mkF]; with_reducible apply And.intro)); split) | dsimp only | (with_reducible apply Keep.mk; iterate 6 exact rfl))

theorem sensorData_keep {s x2} (h : Keep p b s) :
    Keep p b (sensorData s x2).1 := by
  unfold sensorData
  try extract_lets
  repeat' (first | with_reducible assumption | intro _ | (with_reducible refine State.draw_keep' ?_ (by assumption)) | with_reducible apply State.draw_keep | with_reducible apply Keep.ite | with_reducible apply Keep.foldl | with_reducible apply Keep.foldl_fst | with_reducible apply Keep.ite_fst | ((fail_if_success (simp only [Keep.mkF]; with_reducible apply And.intro)); split) | dsimp only | (with_reducible apply Keep.mk; iterate 6 exact rfl))

theorem sensorData_keep' {s x2 t y} (h : Keep p b s) (e : sensorData s x2 = (t, y)) : Keep p b t := by
  have := @sensorData_keep p b s x2 h
  rw [e] at this
  exact this

theorem fdCommand_keep {s x2 x3 x4 g5} (h : Keep p b s) (k5 : ∀ y0, Keep p b y0 → Keep p b (g5 y0)) :
    Keep p b (fdCommand s x2 x3 x4 g5) := by
  unfold fdCommand
  try extract_lets
  repeat' (first | with_reducible assumption | intro _ | with_reducible apply k5 | with_reducible apply sbReceive_keep | with_reducible apply sbAnswer_keep | with_reducible apply Keep.ite | with_reducible apply Keep.foldl | with_reducible apply Keep.foldl_fst | with_reducible apply Keep.ite_fst | ((fail_if_success (simp only [Keep.mkF]; with_reducible apply And.intro)); split) | dsimp only | (with_reducible apply Keep.mk; iterate 6 exact rfl))

theorem setFd_keep {s x2 x3} (h : Keep p b s) :
    Keep p b (setFd s x2 x3) := by
  unfold setFd
  try extract_lets
  repeat' (first | with_reducible assumption | intro _ | with_reducible apply State.setSb_keep | with_reducible apply Keep.ite | with_reducible apply Keep.foldl | with_reducible apply Keep.foldl_fst | with_reducible apply Keep.ite_fst | ((fail_if_success (simp only [Keep.mkF]; with_reducible apply And.intro)); split) | dsimp only | (with_reducible apply Keep.mk; iterate 6 exact rfl))

theorem endPort_keep {s x2} (h : Keep p b s) :
    Keep p b (endPort s x2) := by
  unfold endPort
  try extract_lets
  repeat' (first | with_reducible assumption | intro _ | with_reducible apply endSession_keep | with_reducible apply Keep.ite | with_reducible apply Keep.foldl | with_reducible apply Keep.foldl_fst | with_reducible apply Keep.ite_fst | ((fail_if_success (simp only [Keep.mkF]; with_reducible apply And.intro)); split) | dsimp only | (with_reducible apply Keep.mk; iterate 6 exact rfl))

end Sys2Proof.Machine
end

