-- ==== Sys2Proof/Laws/KeepSideband.lean ====
section
/-!
SUPPORT. What the operations of Machine/Sideband.lean keep of the queue and the stores.
-/

set_option linter.all false

namespace Sys2Proof.Machine

variable {p : List Instr} {b : Prop}

theorem execSetEndpointId_keep {x1 x2 x3 s} (h : Keep p b s) :
    KeepO p b (execSetEndpointId x1 x2 x3 s) := by
  unfold execSetEndpointId
  try extract_lets
  repeat' (first | with_reducible assumption | intro _ | with_reducible apply KeepO.next | with_reducible apply sbReceive_keep | with_reducible apply sbAnswer_keep | with_reducible apply State.setSb_keep | with_reducible apply Keep.ite | with_reducible apply Keep.foldl | with_reducible apply Keep.foldl_fst | with_reducible apply Keep.ite_fst | ((fail_if_success (simp only [Keep.mkF]; with_reducible apply And.intro)); split) | dsimp only | (with_reducible apply Keep.mk; iterate 6 exact rfl))

theorem execGetEndpointId_keep {x1 s} (h : Keep p b s) :
    KeepO p b (execGetEndpointId x1 s) := by
  unfold execGetEndpointId
  try extract_lets
  repeat' (first | with_reducible assumption | intro _ | with_reducible apply KeepO.next | with_reducible apply sbReceive_keep | with_reducible apply sbAnswer_keep | with_reducible apply Keep.ite | with_reducible apply Keep.foldl | with_reducible apply Keep.foldl_fst | with_reducible apply Keep.ite_fst | ((fail_if_success (simp only [Keep.mkF]; with_reducible apply And.intro)); split) | dsimp only | (with_reducible apply Keep.mk; iterate 6 exact rfl))

theorem execGetEndpointUuid_keep {x1 s} (h : Keep p b s) :
    KeepO p b (execGetEndpointUuid x1 s) := by
  unfold execGetEndpointUuid
  try extract_lets
  repeat' (first | with_reducible assumption | intro _ | with_reducible apply KeepO.next | with_reducible apply sbReceive_keep | with_reducible apply sbAnswer_keep | with_reducible apply Keep.ite | with_reducible apply Keep.foldl | with_reducible apply Keep.foldl_fst | with_reducible apply Keep.ite_fst | ((fail_if_success (simp only [Keep.mkF]; with_reducible apply And.intro)); split) | dsimp only | (with_reducible apply Keep.mk; iterate 6 exact rfl))

theorem execGetMctpVersionSupport_keep {x1 x2 s} (h : Keep p b s) :
    KeepO p b (execGetMctpVersionSupport x1 x2 s) := by
  unfold execGetMctpVersionSupport
  try extract_lets
  repeat' (first | with_reducible assumption | intro _ | with_reducible apply KeepO.next | with_reducible apply sbReceive_keep | with_reducible apply sbAnswer_keep | with_reducible apply Keep.ite | with_reducible apply Keep.foldl | with_reducible apply Keep.foldl_fst | with_reducible apply Keep.ite_fst | ((fail_if_success (simp only [Keep.mkF]; with_reducible apply And.intro)); split) | dsimp only | (with_reducible apply Keep.mk; iterate 6 exact rfl))

theorem execGetMessageTypeSupport_keep {x1 s} (h : Keep p b s) :
    KeepO p b (execGetMessageTypeSupport x1 s) := by
  unfold execGetMessageTypeSupport
  try extract_lets
  repeat' (first | with_reducible assumption | intro _ | with_reducible apply KeepO.next | with_reducible apply sbReceive_keep | with_reducible apply sbAnswer_keep | with_reducible apply Keep.ite | with_reducible apply Keep.foldl | with_reducible apply Keep.foldl_fst | with_reducible apply Keep.ite_fst | ((fail_if_success (simp only [Keep.mkF]; with_reducible apply And.intro)); split) | dsimp only | (with_reducible apply Keep.mk; iterate 6 exact rfl))

theorem execSettid_keep {x1 x2 s} (h : Keep p b s) :
    KeepO p b (execSettid x1 x2 s) := by
  unfold execSettid
  try extract_lets
  repeat' (first | with_reducible assumption | intro _ | with_reducible apply KeepO.next | with_reducible apply sbReceive_keep | with_reducible apply sbAnswer_keep | with_reducible apply State.setSb_keep | with_reducible apply Keep.ite | with_reducible apply Keep.foldl | with_reducible apply Keep.foldl_fst | with_reducible apply Keep.ite_fst | ((fail_if_success (simp only [Keep.mkF]; with_reducible apply And.intro)); split) | dsimp only | (with_reducible apply Keep.mk; iterate 6 exact rfl))

theorem execGettid_keep {x1 s} (h : Keep p b s) :
    KeepO p b (execGettid x1 s) := by
  unfold execGettid
  try extract_lets
  repeat' (first | with_reducible assumption | intro _ | with_reducible apply KeepO.next | with_reducible apply sbReceive_keep | with_reducible apply sbAnswer_keep | with_reducible apply Keep.ite | with_reducible apply Keep.foldl | with_reducible apply Keep.foldl_fst | with_reducible apply Keep.ite_fst | ((fail_if_success (simp only [Keep.mkF]; with_reducible apply And.intro)); split) | dsimp only | (with_reducible apply Keep.mk; iterate 6 exact rfl))

theorem execGetpldmversion_keep {x1 x2 s} (h : Keep p b s) :
    KeepO p b (execGetpldmversion x1 x2 s) := by
  unfold execGetpldmversion
  try extract_lets
  repeat' (first | with_reducible assumption | intro _ | with_reducible apply KeepO.next | with_reducible apply sbReceive_keep | with_reducible apply sbAnswer_keep | with_reducible apply Keep.ite | with_reducible apply Keep.foldl | with_reducible apply Keep.foldl_fst | with_reducible apply Keep.ite_fst | ((fail_if_success (simp only [Keep.mkF]; with_reducible apply And.intro)); split) | dsimp only | (with_reducible apply Keep.mk; iterate 6 exact rfl))

theorem execGetpldmtypes_keep {x1 s} (h : Keep p b s) :
    KeepO p b (execGetpldmtypes x1 s) := by
  unfold execGetpldmtypes
  try extract_lets
  repeat' (first | with_reducible assumption | intro _ | with_reducible apply KeepO.next | with_reducible apply sbReceive_keep | with_reducible apply sbAnswer_keep | with_reducible apply Keep.ite | with_reducible apply Keep.foldl | with_reducible apply Keep.foldl_fst | with_reducible apply Keep.ite_fst | ((fail_if_success (simp only [Keep.mkF]; with_reducible apply And.intro)); split) | dsimp only | (with_reducible apply Keep.mk; iterate 6 exact rfl))

theorem execGetpldmcommands_keep {x1 x2 s} (h : Keep p b s) :
    KeepO p b (execGetpldmcommands x1 x2 s) := by
  unfold execGetpldmcommands
  try extract_lets
  repeat' (first | with_reducible assumption | intro _ | with_reducible apply KeepO.next | with_reducible apply sbReceive_keep | with_reducible apply sbAnswer_keep | with_reducible apply Keep.ite | with_reducible apply Keep.foldl | with_reducible apply Keep.foldl_fst | with_reducible apply Keep.ite_fst | ((fail_if_success (simp only [Keep.mkF]; with_reducible apply And.intro)); split) | dsimp only | (with_reducible apply Keep.mk; iterate 6 exact rfl))

theorem execGetpdr_keep {x1 x2 s} (h : Keep p b s) :
    KeepO p b (execGetpdr x1 x2 s) := by
  unfold execGetpdr
  try extract_lets
  repeat' (first | with_reducible assumption | intro _ | with_reducible apply KeepO.next | with_reducible apply sbReceive_keep | with_reducible apply sbAnswer_keep | with_reducible apply Keep.ite | with_reducible apply Keep.foldl | with_reducible apply Keep.foldl_fst | with_reducible apply Keep.ite_fst | ((fail_if_success (simp only [Keep.mkF]; with_reducible apply And.intro)); split) | dsimp only | (with_reducible apply Keep.mk; iterate 6 exact rfl))

theorem execGetsensorreading_keep {x1 x2 s} (h : Keep p b s) :
    KeepO p b (execGetsensorreading x1 x2 s) := by
  unfold execGetsensorreading
  try extract_lets
  repeat' (first | with_reducible assumption | intro _ | with_reducible apply KeepO.next | with_reducible apply sbReceive_keep | with_reducible apply sbAnswer_keep | (with_reducible refine sensorData_keep' ?_ (by assumption)) | with_reducible apply sensorData_keep | with_reducible apply Keep.ite | with_reducible apply Keep.foldl | with_reducible apply Keep.foldl_fst | with_reducible apply Keep.ite_fst | ((fail_if_success (simp only [Keep.mkF]; with_reducible apply And.intro)); split) | dsimp only | (with_reducible apply Keep.mk; iterate 6 exact rfl))

theorem execGetstatesensorreadings_keep {x1 x2 s} (h : Keep p b s) :
    KeepO p b (execGetstatesensorreadings x1 x2 s) := by
  unfold execGetstatesensorreadings
  try extract_lets
  repeat' (first | with_reducible assumption | intro _ | with_reducible apply KeepO.next | with_reducible apply sbReceive_keep | with_reducible apply sbAnswer_keep | (with_reducible refine sensorData_keep' ?_ (by assumption)) | with_reducible apply sensorData_keep | with_reducible apply Keep.ite | with_reducible apply Keep.foldl | with_reducible apply Keep.foldl_fst | with_reducible apply Keep.ite_fst | ((fail_if_success (simp only [Keep.mkF]; with_reducible apply And.intro)); split) | dsimp only | (with_reducible apply Keep.mk; iterate 6 exact rfl))

theorem execSeteventreceiver_keep {x1 x2 x3 s} (h : Keep p b s) :
    KeepO p b (execSeteventreceiver x1 x2 x3 s) := by
  unfold execSeteventreceiver
  try extract_lets
  repeat' (first | with_reducible assumption | intro _ | with_reducible apply KeepO.next | with_reducible apply sbReceive_keep | with_reducible apply sbAnswer_keep | with_reducible apply State.setSb_keep | with_reducible apply Keep.ite | with_reducible apply Keep.foldl | with_reducible apply Keep.foldl_fst | with_reducible apply Keep.ite_fst | ((fail_if_success (simp only [Keep.mkF]; with_reducible apply And.intro)); split) | dsimp only | (with_reducible apply Keep.mk; iterate 6 exact rfl))

theorem execQuerydeviceidentifiers_keep {x1 s} (h : Keep p b s) :
    KeepO p b (execQuerydeviceidentifiers x1 s) := by
  unfold execQuerydeviceidentifiers
  try extract_lets
  repeat' (first | with_reducible assumption | intro _ | with_reducible apply KeepO.next | with_reducible apply sbReceive_keep | with_reducible apply sbAnswer_keep | with_reducible apply Keep.ite | with_reducible apply Keep.foldl | with_reducible apply Keep.foldl_fst | with_reducible apply Keep.ite_fst | ((fail_if_success (simp only [Keep.mkF]; with_reducible apply And.intro)); split) | dsimp only | (with_reducible apply Keep.mk; iterate 6 exact rfl))

theorem execGetfirmwareparameters_keep {x1 s} (h : Keep p b s) :
    KeepO p b (execGetfirmwareparameters x1 s) := by
  unfold execGetfirmwareparameters
  try extract_lets
  repeat' (first | with_reducible assumption | intro _ | with_reducible apply KeepO.next | with_reducible apply sbReceive_keep | with_reducible apply sbAnswer_keep | with_reducible apply Keep.ite | with_reducible apply Keep.foldl | with_reducible apply Keep.foldl_fst | with_reducible apply Keep.ite_fst | ((fail_if_success (simp only [Keep.mkF]; with_reducible apply And.intro)); split) | dsimp only | (with_reducible apply Keep.mk; iterate 6 exact rfl))

theorem execRequestupdate_keep {x1 s} (h : Keep p b s) :
    KeepO p b (execRequestupdate x1 s) := by
  unfold execRequestupdate
  try extract_lets
  repeat' (first | with_reducible assumption | intro _ | with_reducible apply KeepO.next | with_reducible apply sbReceive_keep | with_reducible apply sbAnswer_keep | with_reducible apply setFd_keep | with_reducible apply Keep.ite | with_reducible apply Keep.foldl | with_reducible apply Keep.foldl_fst | with_reducible apply Keep.ite_fst | ((fail_if_success (simp only [Keep.mkF]; with_reducible apply And.intro)); split) | dsimp only | (with_reducible apply Keep.mk; iterate 6 exact rfl))

theorem execPasscomponenttable_keep {x1 s} (h : Keep p b s) :
    KeepO p b (execPasscomponenttable x1 s) := by
  unfold execPasscomponenttable
  try extract_lets
  repeat' (first | with_reducible assumption | intro _ | with_reducible apply KeepO.next | with_reducible apply fdCommand_keep | with_reducible apply sbAnswer_keep | with_reducible apply setFd_keep | with_reducible apply Keep.ite | with_reducible apply Keep.foldl | with_reducible apply Keep.foldl_fst | with_reducible apply Keep.ite_fst | ((fail_if_success (simp only [Keep.mkF]; with_reducible apply And.intro)); split) | dsimp only | (with_reducible apply Keep.mk; iterate 6 exact rfl))

theorem execUpdatecomponent_keep {x1 x2 s} (h : Keep p b s) :
    KeepO p b (execUpdatecomponent x1 x2 s) := by
  unfold execUpdatecomponent
  try extract_lets
  repeat' (first | with_reducible assumption | intro _ | with_reducible apply KeepO.next | with_reducible apply fdCommand_keep | with_reducible apply sbAnswer_keep | with_reducible apply State.setSb_keep | with_reducible apply flashAsk_keep | with_reducible apply Keep.ite | with_reducible apply Keep.foldl | with_reducible apply Keep.foldl_fst | with_reducible apply Keep.ite_fst | ((fail_if_success (simp only [Keep.mkF]; with_reducible apply And.intro)); split) | dsimp only | (with_reducible apply Keep.mk; iterate 6 exact rfl))

theorem execRequestfirmwaredata_keep {x1 x2 s} (h : Keep p b s) :
    KeepO p b (execRequestfirmwaredata x1 x2 s) := by
  unfold execRequestfirmwaredata
  try extract_lets
  repeat' (first | with_reducible assumption | intro _ | with_reducible apply KeepO.next | with_reducible apply sbReceive_keep | with_reducible apply flashAsk_keep | with_reducible apply Keep.ite | with_reducible apply Keep.foldl | with_reducible apply Keep.foldl_fst | with_reducible apply Keep.ite_fst | ((fail_if_success (simp only [Keep.mkF]; with_reducible apply And.intro)); split) | dsimp only | (with_reducible apply Keep.mk; iterate 6 exact rfl))

theorem execActivatefirmware_keep {x1 s} (h : Keep p b s) :
    KeepO p b (execActivatefirmware x1 s) := by
  unfold execActivatefirmware
  try extract_lets
  repeat' (first | with_reducible assumption | intro _ | with_reducible apply KeepO.next | with_reducible apply fdCommand_keep | with_reducible apply sbAnswer_keep | with_reducible apply setFd_keep | with_reducible apply Keep.ite | with_reducible apply Keep.foldl | with_reducible apply Keep.foldl_fst | with_reducible apply Keep.ite_fst | ((fail_if_success (simp only [Keep.mkF]; with_reducible apply And.intro)); split) | dsimp only | (with_reducible apply Keep.mk; iterate 6 exact rfl))

theorem execGetstatus_keep {x1 s} (h : Keep p b s) :
    KeepO p b (execGetstatus x1 s) := by
  unfold execGetstatus
  try extract_lets
  repeat' (first | with_reducible assumption | intro _ | with_reducible apply KeepO.next | with_reducible apply sbReceive_keep | with_reducible apply sbAnswer_keep | with_reducible apply Keep.ite | with_reducible apply Keep.foldl | with_reducible apply Keep.foldl_fst | with_reducible apply Keep.ite_fst | ((fail_if_success (simp only [Keep.mkF]; with_reducible apply And.intro)); split) | dsimp only | (with_reducible apply Keep.mk; iterate 6 exact rfl))

theorem execCancelupdatecomponent_keep {x1 s} (h : Keep p b s) :
    KeepO p b (execCancelupdatecomponent x1 s) := by
  unfold execCancelupdatecomponent
  try extract_lets
  repeat' (first | with_reducible assumption | intro _ | with_reducible apply KeepO.next | with_reducible apply fdCommand_keep | with_reducible apply sbAnswer_keep | with_reducible apply setFd_keep | with_reducible apply endPort_keep | with_reducible apply Keep.ite | with_reducible apply Keep.foldl | with_reducible apply Keep.foldl_fst | with_reducible apply Keep.ite_fst | ((fail_if_success (simp only [Keep.mkF]; with_reducible apply And.intro)); split) | dsimp only | (with_reducible apply Keep.mk; iterate 6 exact rfl))

theorem execCancelupdate_keep {x1 s} (h : Keep p b s) :
    KeepO p b (execCancelupdate x1 s) := by
  unfold execCancelupdate
  try extract_lets
  repeat' (first | with_reducible assumption | intro _ | with_reducible apply KeepO.next | with_reducible apply fdCommand_keep | with_reducible apply sbAnswer_keep | with_reducible apply setFd_keep | with_reducible apply endPort_keep | with_reducible apply Keep.ite | with_reducible apply Keep.foldl | with_reducible apply Keep.foldl_fst | with_reducible apply Keep.ite_fst | ((fail_if_success (simp only [Keep.mkF]; with_reducible apply And.intro)); split) | dsimp only | (with_reducible apply Keep.mk; iterate 6 exact rfl))

theorem execUnsupportedMessage_keep {x1 x2 x3 s} (h : Keep p b s) :
    KeepO p b (execUnsupportedMessage x1 x2 x3 s) := by
  unfold execUnsupportedMessage
  try extract_lets
  repeat' (first | with_reducible assumption | intro _ | with_reducible apply KeepO.next | with_reducible apply sbReceive_keep | with_reducible apply sbAnswer_keep | with_reducible apply Keep.ite | with_reducible apply Keep.foldl | with_reducible apply Keep.foldl_fst | with_reducible apply Keep.ite_fst | ((fail_if_success (simp only [Keep.mkF]; with_reducible apply And.intro)); split) | dsimp only | (with_reducible apply Keep.mk; iterate 6 exact rfl))

theorem execSmbusBadPec_keep {x1 x2 x3 s} (h : Keep p b s) :
    KeepO p b (execSmbusBadPec x1 x2 x3 s) := by
  unfold execSmbusBadPec
  try extract_lets
  repeat' (first | with_reducible assumption | intro _ | with_reducible apply KeepO.next | with_reducible apply sbPost_keep | with_reducible apply sbRaise_keep | with_reducible apply State.inc_keep | with_reducible apply State.postB_keep | with_reducible apply Keep.ite | with_reducible apply Keep.foldl | with_reducible apply Keep.foldl_fst | with_reducible apply Keep.ite_fst | ((fail_if_success (simp only [Keep.mkF]; with_reducible apply And.intro)); split) | dsimp only | (with_reducible apply Keep.mk; iterate 6 exact rfl))

theorem execMctpBadPacket_keep {x1 x2 x3 s} (h : Keep p b s) :
    KeepO p b (execMctpBadPacket x1 x2 x3 s) := by
  unfold execMctpBadPacket
  try extract_lets
  repeat' (first | with_reducible assumption | intro _ | with_reducible apply KeepO.next | with_reducible apply sbPost_keep | with_reducible apply sbRaise_keep | with_reducible apply State.inc_keep | with_reducible apply State.postB_keep | with_reducible apply Keep.ite | with_reducible apply Keep.foldl | with_reducible apply Keep.foldl_fst | with_reducible apply Keep.ite_fst | ((fail_if_success (simp only [Keep.mkF]; with_reducible apply And.intro)); split) | dsimp only | (with_reducible apply Keep.mk; iterate 6 exact rfl))

theorem execMctpForeignEid_keep {x1 s} (h : Keep p b s) :
    KeepO p b (execMctpForeignEid x1 s) := by
  unfold execMctpForeignEid
  try extract_lets
  repeat' (first | with_reducible assumption | intro _ | with_reducible apply KeepO.next | with_reducible apply State.inc_keep | with_reducible apply Keep.ite | with_reducible apply Keep.foldl | with_reducible apply Keep.foldl_fst | with_reducible apply Keep.ite_fst | ((fail_if_success (simp only [Keep.mkF]; with_reducible apply And.intro)); split) | dsimp only | (with_reducible apply Keep.mk; iterate 6 exact rfl))

theorem execArbitrationLost_keep {x1 s} (h : Keep p b s) :
    KeepO p b (execArbitrationLost x1 s) := by
  unfold execArbitrationLost
  try extract_lets
  repeat' (first | with_reducible assumption | intro _ | with_reducible apply KeepO.next | with_reducible apply State.inc_keep | with_reducible apply State.setSb_keep | with_reducible apply Keep.ite | with_reducible apply Keep.foldl | with_reducible apply Keep.foldl_fst | with_reducible apply Keep.ite_fst | ((fail_if_success (simp only [Keep.mkF]; with_reducible apply And.intro)); split) | dsimp only | (with_reducible apply Keep.mk; iterate 6 exact rfl))

theorem execArbitrationRetry_keep {x1 x2 s} (h : Keep p b s) :
    KeepO p b (execArbitrationRetry x1 x2 s) := by
  unfold execArbitrationRetry
  try extract_lets
  repeat' (first | with_reducible assumption | intro _ | with_reducible apply KeepO.next | with_reducible apply State.inc_keep | with_reducible apply State.setSb_keep | with_reducible apply sbTxFail_keep | with_reducible apply sbDrain_keep | with_reducible apply Keep.ite | with_reducible apply Keep.foldl | with_reducible apply Keep.foldl_fst | with_reducible apply Keep.ite_fst | ((fail_if_success (simp only [Keep.mkF]; with_reducible apply And.intro)); split) | dsimp only | (with_reducible apply Keep.mk; iterate 6 exact rfl))

theorem execSmbusSclTimeout_keep {x1 s} (h : Keep p b s) :
    KeepO p b (execSmbusSclTimeout x1 s) := by
  unfold execSmbusSclTimeout
  try extract_lets
  repeat' (first | with_reducible assumption | intro _ | with_reducible apply KeepO.next | with_reducible apply sbRaise_keep | with_reducible apply State.inc_keep | with_reducible apply State.setSb_keep | with_reducible apply Keep.ite | with_reducible apply Keep.foldl | with_reducible apply Keep.foldl_fst | with_reducible apply Keep.ite_fst | ((fail_if_success (simp only [Keep.mkF]; with_reducible apply And.intro)); split) | dsimp only | (with_reducible apply Keep.mk; iterate 6 exact rfl))

theorem execSmbusSdaStuck_keep {x1 x2 s} (h : Keep p b s) :
    KeepO p b (execSmbusSdaStuck x1 x2 s) := by
  unfold execSmbusSdaStuck
  try extract_lets
  repeat' (first | with_reducible assumption | intro _ | with_reducible apply KeepO.next | with_reducible apply sbRaise_keep | with_reducible apply State.inc_keep | with_reducible apply sbPost_keep | with_reducible apply State.postB_keep | with_reducible apply sbTxFail_keep | with_reducible apply Keep.ite | with_reducible apply Keep.foldl | with_reducible apply Keep.foldl_fst | with_reducible apply Keep.ite_fst | ((fail_if_success (simp only [Keep.mkF]; with_reducible apply And.intro)); split) | dsimp only | (with_reducible apply Keep.mk; iterate 6 exact rfl))

end Sys2Proof.Machine
end

