-- ==== Sys2Proof/Laws/KeepStrike.lean ====
section
/-!
SUPPORT. What the operations of Machine/Strike.lean keep of the queue and the stores.
-/

set_option linter.all false

namespace Sys2Proof.Machine

variable {p : List Instr} {b : Prop}

theorem landItem_keep {x1 s} (h : Keep p b s) :
    Keep p b (landItem x1 s) := by
  unfold landItem
  try extract_lets
  repeat' (first | with_reducible assumption | intro _ | with_reducible apply landSetHeatLength_keep | with_reducible apply landInsCreate_keep | with_reducible apply landInsDestroy_keep | with_reducible apply landInsResize_keep | with_reducible apply landInsSetLimits_keep | with_reducible apply landPortConfig_keep | with_reducible apply landPortBank_keep | with_reducible apply landPortRestore_keep | with_reducible apply landMacSetRx_keep | with_reducible apply landMacSetFc_keep | with_reducible apply landMacSetPreempt_keep | with_reducible apply landGateSet_keep | with_reducible apply landGateDisable_keep | with_reducible apply landRuleWrite_keep | with_reducible apply landRuleDelete_keep | with_reducible apply landFlowInsert_keep | with_reducible apply landFlowDelete_keep | with_reducible apply landSrcConfig_keep | with_reducible apply landBdConfig_keep | with_reducible apply landRewriteSet_keep | with_reducible apply landTunnelSet_keep | with_reducible apply landMirrorSet_keep | with_reducible apply landParserPorts_keep | with_reducible apply landTmShaperSet_keep | with_reducible apply landTmGroupSet_keep | with_reducible apply landTmOwnerSet_keep | with_reducible apply landTmClassSched_keep | with_reducible apply landTmAdmitSet_keep | with_reducible apply landTmQlimSet_keep | with_reducible apply landTmSrcClass_keep | with_reducible apply landTmPolicerSet_keep | with_reducible apply landCtxSet_keep | with_reducible apply landCtxKey_keep | with_reducible apply landCtxBind_keep | with_reducible apply landSecySet_keep | with_reducible apply landStoConnSet_keep | with_reducible apply landStoConnClear_keep | with_reducible apply landStoNsSet_keep | with_reducible apply landStoNsQuota_keep | with_reducible apply landSchedLoad_keep | with_reducible apply landTimSteer_keep | with_reducible apply landTimPtpMap_keep | with_reducible apply landTriSet_keep | with_reducible apply landTriHandover_keep | with_reducible apply landPwrSet_keep | with_reducible apply landThmSet_keep | with_reducible apply Keep.ite | with_reducible apply Keep.foldl | with_reducible apply Keep.foldl_fst | with_reducible apply Keep.ite_fst | ((fail_if_success (simp only [Keep.mkF]; with_reducible apply And.intro)); split) | dsimp only | (with_reducible apply Keep.mk; iterate 6 exact rfl))

theorem landLive_keep {s x2} (h : Keep p b s) :
    Keep p b (landLive s x2) := by
  unfold landLive
  try extract_lets
  repeat' (first | with_reducible assumption | intro _ | with_reducible apply landItem_keep | with_reducible apply Keep.ite | with_reducible apply Keep.foldl | with_reducible apply Keep.foldl_fst | with_reducible apply Keep.ite_fst | ((fail_if_success (simp only [Keep.mkF]; with_reducible apply And.intro)); split) | dsimp only | (with_reducible apply Keep.mk; iterate 6 exact rfl))

theorem keepOld_keep {s s2} (h : Keep p b s) (h2 : Keep p b s2) :
    Keep p b (keepOld s s2) := by
  unfold keepOld
  try extract_lets
  repeat' (first | with_reducible assumption | intro _ | with_reducible apply Keep.ite | with_reducible apply Keep.foldl | with_reducible apply Keep.foldl_fst | with_reducible apply Keep.ite_fst | ((fail_if_success (simp only [Keep.mkF]; with_reducible apply And.intro)); split) | dsimp only | (with_reducible apply Keep.mk; iterate 6 exact rfl))

theorem activate_keep {s x2} (h : Keep p b s) :
    Keep p b (activate s x2) := by
  unfold activate
  try extract_lets
  repeat' (first | with_reducible assumption | intro _ | with_reducible apply State.raise_keep | with_reducible apply State.add_keep | with_reducible apply keepOld_keep | with_reducible apply landLive_keep | with_reducible apply Keep.ite | with_reducible apply Keep.foldl | with_reducible apply Keep.foldl_fst | with_reducible apply Keep.ite_fst | ((fail_if_success (simp only [Keep.mkF]; with_reducible apply And.intro)); split) | dsimp only | (with_reducible apply Keep.mk; iterate 6 exact rfl))

theorem budgetRegs_keep {s} (h : Keep p b s) :
    Keep p b (budgetRegs s) := by
  unfold budgetRegs
  try extract_lets
  repeat' (first | with_reducible assumption | intro _ | with_reducible apply State.setFld_keep | with_reducible apply Keep.ite | with_reducible apply Keep.foldl | with_reducible apply Keep.foldl_fst | with_reducible apply Keep.ite_fst | ((fail_if_success (simp only [Keep.mkF]; with_reducible apply And.intro)); split) | dsimp only | (with_reducible apply Keep.mk; iterate 6 exact rfl))

theorem snapObjects_keep {s x2} (h : Keep p b s) : Keep p b (snapObjects s x2) := by
  unfold snapObjects
  refine ⟨h.1, fun hb => ?_⟩
  obtain ⟨a1, a2, _, a4⟩ := h.2 hb
  exact ⟨a1, a2, a2, a4⟩

theorem snapBehind_keep {s} (h : Keep p b s) : Keep p b (snapBehind s) := by
  unfold snapBehind
  exact State.setWord_keep h

theorem snapshot_keep {s x2} (h : Keep p b s) :
    Keep p b (snapshot s x2) := by
  unfold snapshot
  try extract_lets
  repeat' (first | with_reducible assumption | intro _ | with_reducible apply snapBehind_keep | with_reducible apply snapObjects_keep | with_reducible apply budgetRegs_keep | with_reducible apply Keep.ite | with_reducible apply Keep.foldl | with_reducible apply Keep.foldl_fst | with_reducible apply Keep.ite_fst | ((fail_if_success (simp only [Keep.mkF]; with_reducible apply And.intro)); split) | dsimp only | (with_reducible apply Keep.mk; iterate 6 exact rfl))

theorem sampleIo_keep {s x2} (h : Keep p b s) :
    Keep p b (sampleIo s x2) := by
  unfold sampleIo
  try extract_lets
  repeat' (first | with_reducible assumption | intro _ | with_reducible apply State.mark_keep | with_reducible apply State.setFld_keep | with_reducible apply Keep.ite | with_reducible apply Keep.foldl | with_reducible apply Keep.foldl_fst | with_reducible apply Keep.ite_fst | ((fail_if_success (simp only [Keep.mkF]; with_reducible apply And.intro)); split) | dsimp only | (with_reducible apply Keep.mk; iterate 6 exact rfl))

theorem latchIo_keep {s x2} (h : Keep p b s) :
    Keep p b (latchIo s x2) := by
  unfold latchIo
  try extract_lets
  repeat' (first | with_reducible assumption | intro _ | with_reducible apply Keep.ite | with_reducible apply Keep.foldl | with_reducible apply Keep.foldl_fst | with_reducible apply Keep.ite_fst | ((fail_if_success (simp only [Keep.mkF]; with_reducible apply And.intro)); split) | dsimp only | (with_reducible apply Keep.mk; iterate 6 exact rfl))

theorem sampleSensors_keep {s x2} (h : Keep p b s) :
    Keep p b (sampleSensors s x2) := by
  unfold sampleSensors
  try extract_lets
  repeat' (first | with_reducible assumption | intro _ | with_reducible apply setTemps_keep | with_reducible apply State.setWord_keep | with_reducible apply State.setFld_keep | with_reducible apply Keep.ite | with_reducible apply Keep.foldl | with_reducible apply Keep.foldl_fst | with_reducible apply Keep.ite_fst | ((fail_if_success (simp only [Keep.mkF]; with_reducible apply And.intro)); split) | dsimp only | (with_reducible apply Keep.mk; iterate 6 exact rfl))

theorem overrunStrike_keep {s} (h : Keep p b s) :
    Keep p b (overrunStrike s) := by
  unfold overrunStrike
  try extract_lets
  repeat' (first | with_reducible assumption | intro _ | with_reducible apply State.raise_keep | with_reducible apply State.inc_keep | with_reducible apply State.post_keep | with_reducible apply Keep.ite | with_reducible apply Keep.foldl | with_reducible apply Keep.foldl_fst | with_reducible apply Keep.ite_fst | ((fail_if_success (simp only [Keep.mkF]; with_reducible apply And.intro)); split) | dsimp only | (with_reducible apply Keep.mk; iterate 6 exact rfl))

theorem planBudget_keep {s x2} (h : Keep p b s) :
    Keep p b (planBudget s x2) := by
  unfold planBudget
  try extract_lets
  repeat' (first | with_reducible assumption | intro _ | with_reducible apply State.setFld_keep | with_reducible apply Keep.ite | with_reducible apply Keep.foldl | with_reducible apply Keep.foldl_fst | with_reducible apply Keep.ite_fst | ((fail_if_success (simp only [Keep.mkF]; with_reducible apply And.intro)); split) | dsimp only | (with_reducible apply Keep.mk; iterate 6 exact rfl))

theorem perHeat_keep {s} (h : Keep p b s) :
    Keep p b (perHeat s) := by
  unfold perHeat
  try extract_lets
  repeat' (first | with_reducible assumption | intro _ | with_reducible apply Keep.ite | with_reducible apply Keep.foldl | with_reducible apply Keep.foldl_fst | with_reducible apply Keep.ite_fst | ((fail_if_success (simp only [Keep.mkF]; with_reducible apply And.intro)); split) | dsimp only | (with_reducible apply Keep.mk; iterate 6 exact rfl))

theorem settings_keep {s} (h : Keep p b s) :
    Keep p b (settings s) := by
  unfold settings
  try extract_lets
  repeat' (first | with_reducible assumption | intro _ | with_reducible apply Keep.ite | with_reducible apply Keep.foldl | with_reducible apply Keep.foldl_fst | with_reducible apply Keep.ite_fst | ((fail_if_success (simp only [Keep.mkF]; with_reducible apply And.intro)); split) | dsimp only | (with_reducible apply Keep.mk; iterate 6 exact rfl))

theorem quenchStrike_keep {s} (h : Keep p b s) :
    Keep p b (quenchStrike s) := by
  unfold quenchStrike
  try extract_lets
  repeat' (first | with_reducible assumption | intro _ | with_reducible apply quenchLanes_keep | with_reducible apply Keep.ite | with_reducible apply Keep.foldl | with_reducible apply Keep.foldl_fst | with_reducible apply Keep.ite_fst | ((fail_if_success (simp only [Keep.mkF]; with_reducible apply And.intro)); split) | dsimp only | (with_reducible apply Keep.mk; iterate 6 exact rfl))

theorem timeClose_keep {s x2} (h : Keep p b s) :
    Keep p b (timeClose s x2) := by
  unfold timeClose
  try extract_lets
  repeat' (first | with_reducible assumption | intro _ | with_reducible apply timeLatch_keep | with_reducible apply Keep.ite | with_reducible apply Keep.foldl | with_reducible apply Keep.foldl_fst | with_reducible apply Keep.ite_fst | ((fail_if_success (simp only [Keep.mkF]; with_reducible apply And.intro)); split) | dsimp only | (with_reducible apply Keep.mk; iterate 6 exact rfl))

theorem timeEdge_keep {s x2} (h : Keep p b s) :
    Keep p b (timeEdge s x2) := by
  unfold timeEdge
  try extract_lets
  repeat' (first | with_reducible assumption | intro _ | with_reducible apply reclass_keep | with_reducible apply timeClose_keep | with_reducible apply timeStrike_keep | with_reducible apply Keep.ite | with_reducible apply Keep.foldl | with_reducible apply Keep.foldl_fst | with_reducible apply Keep.ite_fst | ((fail_if_success (simp only [Keep.mkF]; with_reducible apply And.intro)); split) | dsimp only | (with_reducible apply Keep.mk; iterate 6 exact rfl))

theorem edgeEnd_keep {s x2 x3} (h : Keep p b s) :
    Keep p b (edgeEnd s x2 x3) := by
  unfold edgeEnd
  try extract_lets
  repeat' (first | with_reducible assumption | intro _ | with_reducible apply hintsVisible_keep | with_reducible apply mboxVisible_keep | with_reducible apply sampleSensors_keep | with_reducible apply isolateStrike_keep | with_reducible apply sampleIo_keep | with_reducible apply triadsStrike_keep | with_reducible apply bandAtStrike_keep | with_reducible apply latchIo_keep | with_reducible apply sbLatch_keep | with_reducible apply virasLatch_keep | with_reducible apply quenchStrike_keep | with_reducible apply lanesStrike_keep | with_reducible apply perHeat_keep | with_reducible apply settings_keep | with_reducible apply reclass_keep | with_reducible apply State.raise_keep | with_reducible apply planBudget_keep | with_reducible apply overrunStrike_keep | with_reducible apply Keep.ite | with_reducible apply Keep.foldl | with_reducible apply Keep.foldl_fst | with_reducible apply Keep.ite_fst | ((fail_if_success (simp only [Keep.mkF]; with_reducible apply And.intro)); split) | dsimp only | (with_reducible apply Keep.mk; iterate 6 exact rfl))

theorem onEdge_keep {s x2} (h : Keep p b s) :
    Keep p b (onEdge s x2) := by
  unfold onEdge
  try extract_lets
  repeat' (first | with_reducible assumption | intro _ | with_reducible apply Keep.ite | with_reducible apply Keep.foldl | with_reducible apply Keep.foldl_fst | with_reducible apply Keep.ite_fst | ((fail_if_success (simp only [Keep.mkF]; with_reducible apply And.intro)); split) | dsimp only | (with_reducible apply Keep.mk; iterate 6 exact rfl))

theorem linkErrors_keep {s x2 x3} (h : Keep p b s) :
    Keep p b (linkErrors s x2 x3) := by
  unfold linkErrors
  try extract_lets
  repeat' (first | with_reducible assumption | intro _ | with_reducible apply aer_keep | with_reducible apply State.add_keep | with_reducible apply Keep.ite | with_reducible apply Keep.foldl | with_reducible apply Keep.foldl_fst | with_reducible apply Keep.ite_fst | ((fail_if_success (simp only [Keep.mkF]; with_reducible apply And.intro)); split) | dsimp only | (with_reducible apply Keep.mk; iterate 6 exact rfl))

theorem heatCounts_keep {s x2} (h : Keep p b s) :
    Keep p b (heatCounts s x2) := by
  unfold heatCounts
  try extract_lets
  repeat' (first | with_reducible assumption | intro _ | with_reducible apply lanesCount_keep | with_reducible apply linkErrors_keep | with_reducible apply Keep.ite | with_reducible apply Keep.foldl | with_reducible apply Keep.foldl_fst | with_reducible apply Keep.ite_fst | ((fail_if_success (simp only [Keep.mkF]; with_reducible apply And.intro)); split) | dsimp only | (with_reducible apply Keep.mk; iterate 6 exact rfl))

theorem strikeEdge_keep {s x2 x3} (h : Keep p b s) :
    Keep p b (strikeEdge s x2 x3) := by
  unfold strikeEdge
  try extract_lets
  repeat' (first | with_reducible assumption | intro _ | with_reducible apply onEdge_keep | with_reducible apply finishJobs_keep | with_reducible apply snapshot_keep | with_reducible apply heatCounts_keep | with_reducible apply triadsEdge_keep | with_reducible apply timeEdge_keep | with_reducible apply virasClose_keep | with_reducible apply logFails_keep | with_reducible apply State.dueNow_keep | with_reducible apply edgeEnd_keep | with_reducible apply gatesAtStrike_keep | with_reducible apply activate_keep | with_reducible apply releaseIdle_keep | with_reducible apply Keep.ite | with_reducible apply Keep.foldl | with_reducible apply Keep.foldl_fst | with_reducible apply Keep.ite_fst | ((fail_if_success (simp only [Keep.mkF]; with_reducible apply And.intro)); split) | dsimp only | (with_reducible apply Keep.mk; iterate 6 exact rfl))

theorem execStrike_keep {x1 s} (h : Keep p b s) :
    KeepO p b (execStrike x1 s) := by
  unfold execStrike
  try extract_lets
  repeat' (first | with_reducible assumption | intro _ | with_reducible apply KeepO.next | with_reducible apply strikeEdge_keep | with_reducible apply State.toEnd_keep | with_reducible apply Keep.ite | with_reducible apply Keep.foldl | with_reducible apply Keep.foldl_fst | with_reducible apply Keep.ite_fst | ((fail_if_success (simp only [Keep.mkF]; with_reducible apply And.intro)); split) | dsimp only | (with_reducible apply Keep.mk; iterate 6 exact rfl))

theorem abortOpenChains_keep {s} (h : Keep p b s) :
    Keep p b (abortOpenChains s) := by
  unfold abortOpenChains
  try extract_lets
  repeat' (first | with_reducible assumption | intro _ | with_reducible apply State.issueReply_keep | with_reducible apply dropChain_keep | with_reducible apply Keep.ite | with_reducible apply Keep.foldl | with_reducible apply Keep.foldl_fst | with_reducible apply Keep.ite_fst | ((fail_if_success (simp only [Keep.mkF]; with_reducible apply And.intro)); split) | dsimp only | (with_reducible apply Keep.mk; iterate 6 exact rfl))

theorem abortJob_keep {s x2} (h : Keep p b s) :
    Keep p b (abortJob s x2) := by
  unfold abortJob
  try extract_lets
  repeat' (first | with_reducible assumption | intro _ | with_reducible apply answer_keep | with_reducible apply dropUnit_keep | with_reducible apply Keep.ite | with_reducible apply Keep.foldl | with_reducible apply Keep.foldl_fst | with_reducible apply Keep.ite_fst | ((fail_if_success (simp only [Keep.mkF]; with_reducible apply And.intro)); split) | dsimp only | (with_reducible apply Keep.mk; iterate 6 exact rfl))

theorem abortJobs_keep {s} (h : Keep p b s) :
    Keep p b (abortJobs s) := by
  unfold abortJobs
  try extract_lets
  repeat' (first | with_reducible assumption | intro _ | with_reducible apply abortJob_keep | with_reducible apply Keep.ite | with_reducible apply Keep.foldl | with_reducible apply Keep.foldl_fst | with_reducible apply Keep.ite_fst | ((fail_if_success (simp only [Keep.mkF]; with_reducible apply And.intro)); split) | dsimp only | (with_reducible apply Keep.mk; iterate 6 exact rfl))

theorem jumpDiscard_keep {s} (h : Keep p b s) :
    Keep p b (jumpDiscard s) := by
  unfold jumpDiscard
  try extract_lets
  repeat' (first | with_reducible assumption | intro _ | with_reducible apply abortOpenChains_keep | with_reducible apply abortJobs_keep | with_reducible apply abortUnit_keep | with_reducible apply Keep.ite | with_reducible apply Keep.foldl | with_reducible apply Keep.foldl_fst | with_reducible apply Keep.ite_fst | ((fail_if_success (simp only [Keep.mkF]; with_reducible apply And.intro)); split) | dsimp only | (with_reducible apply Keep.mk; iterate 6 exact rfl))

theorem jumpState_keep {s} (h : Keep p b s) :
    Keep p b (jumpState s) := by
  unfold jumpState
  try extract_lets
  repeat' (first | with_reducible assumption | intro _ | with_reducible apply enterTime_keep | with_reducible apply reclass_keep | with_reducible apply Keep.ite | with_reducible apply Keep.foldl | with_reducible apply Keep.foldl_fst | with_reducible apply Keep.ite_fst | ((fail_if_success (simp only [Keep.mkF]; with_reducible apply And.intro)); split) | dsimp only | (with_reducible apply Keep.mk; iterate 6 exact rfl))

theorem jumpCarry_keep {s} (h : Keep p b s) :
    Keep p b (jumpCarry s) := by
  unfold jumpCarry
  try extract_lets
  repeat' (first | with_reducible assumption | intro _ | with_reducible apply Keep.ite | with_reducible apply Keep.foldl | with_reducible apply Keep.foldl_fst | with_reducible apply Keep.ite_fst | ((fail_if_success (simp only [Keep.mkF]; with_reducible apply And.intro)); split) | dsimp only | (with_reducible apply Keep.mk; iterate 6 exact rfl))

theorem jumpEdge_keep {s x2 x3 x4} (h : Keep p b s) :
    Keep p b (jumpEdge s x2 x3 x4) := by
  unfold jumpEdge
  try extract_lets
  repeat' (first | with_reducible assumption | intro _ | with_reducible apply onEdge_keep | with_reducible apply finishJobs_keep | with_reducible apply snapshot_keep | with_reducible apply heatCounts_keep | with_reducible apply triadsEdge_keep | with_reducible apply jumpCarry_keep | with_reducible apply timeClose_keep | with_reducible apply virasClose_keep | with_reducible apply setHeatLen_keep | with_reducible apply logFails_keep | with_reducible apply State.raise_keep | with_reducible apply State.post_keep | with_reducible apply State.inc_keep | with_reducible apply State.dueNow_keep | with_reducible apply edgeEnd_keep | with_reducible apply gatesAtJump_keep | with_reducible apply jumpState_keep | with_reducible apply jumpDiscard_keep | with_reducible apply releaseIdle_keep | with_reducible apply Keep.ite | with_reducible apply Keep.foldl | with_reducible apply Keep.foldl_fst | with_reducible apply Keep.ite_fst | ((fail_if_success (simp only [Keep.mkF]; with_reducible apply And.intro)); split) | dsimp only | (with_reducible apply Keep.mk; iterate 6 exact rfl))

theorem execTimeJump_keep {x1 s} (h : Keep p b s) :
    KeepO p b (execTimeJump x1 s) := by
  unfold execTimeJump
  try extract_lets
  repeat' (first | with_reducible assumption | intro _ | with_reducible apply KeepO.next | with_reducible apply State.upTo_keep | with_reducible apply jumpEdge_keep | with_reducible apply State.advance_keep | with_reducible apply Keep.ite | with_reducible apply Keep.foldl | with_reducible apply Keep.foldl_fst | with_reducible apply Keep.ite_fst | ((fail_if_success (simp only [Keep.mkF]; with_reducible apply And.intro)); split) | dsimp only | (with_reducible apply Keep.mk; iterate 6 exact rfl))

theorem execSealPoint_keep {x1 s} (h : Keep p b s) :
    KeepO p b (execSealPoint x1 s) := by
  unfold execSealPoint
  try extract_lets
  repeat' (first | with_reducible assumption | intro _ | with_reducible apply KeepO.next | with_reducible apply State.atNs_keep | with_reducible apply finishJobs_keep | with_reducible apply State.judge_keep | with_reducible apply Keep.ite | with_reducible apply Keep.foldl | with_reducible apply Keep.foldl_fst | with_reducible apply Keep.ite_fst | ((fail_if_success (simp only [Keep.mkF]; with_reducible apply And.intro)); split) | dsimp only | (with_reducible apply Keep.mk; iterate 6 exact rfl))

theorem execStrikeIoPulseEnd_keep {s} (h : Keep p b s) :
    KeepO p b (execStrikeIoPulseEnd s) := by
  unfold execStrikeIoPulseEnd
  try extract_lets
  repeat' (first | with_reducible assumption | intro _ | with_reducible apply KeepO.next | with_reducible apply State.atNs_keep | with_reducible apply State.endPulse_keep | with_reducible apply Keep.ite | with_reducible apply Keep.foldl | with_reducible apply Keep.foldl_fst | with_reducible apply Keep.ite_fst | ((fail_if_success (simp only [Keep.mkF]; with_reducible apply And.intro)); split) | dsimp only | (with_reducible apply Keep.mk; iterate 6 exact rfl))

end Sys2Proof.Machine
end

