-- ==== Sys2Proof/Laws/KeepIdle.lean ====
section
/-!
SUPPORT. What the operations of Machine/Idle.lean keep of the queue and the stores.
-/

set_option linter.all false

namespace Sys2Proof.Machine

variable {p : List Instr} {b : Prop}

theorem restLink_keep {s x2} (h : Keep p b s) :
    Keep p b (restLink s x2) := by
  unfold restLink
  try extract_lets
  repeat' (first | with_reducible assumption | intro _ | with_reducible apply State.setLink_keep | with_reducible apply Keep.ite | with_reducible apply Keep.foldl | with_reducible apply Keep.foldl_fst | with_reducible apply Keep.ite_fst | ((fail_if_success (simp only [Keep.mkF]; with_reducible apply And.intro)); split) | dsimp only | (with_reducible apply Keep.mk; iterate 6 exact rfl))

theorem romFlush_keep {s} (h : Keep p b s) :
    Keep p b (romFlush s) := by
  unfold romFlush
  try extract_lets
  repeat' (first | with_reducible assumption | intro _ | (with_reducible refine flushBegin_keep' ?_ (by assumption)) | with_reducible apply flushBegin_keep | with_reducible apply Keep.ite | with_reducible apply Keep.foldl | with_reducible apply Keep.foldl_fst | with_reducible apply Keep.ite_fst | ((fail_if_success (simp only [Keep.mkF]; with_reducible apply And.intro)); split) | dsimp only | (with_reducible apply Keep.mk; iterate 6 exact rfl))

theorem quietCycle_keep {s} (h : Keep p b s) :
    Keep p b (quietCycle s) := by
  unfold quietCycle
  try extract_lets
  repeat' (first | with_reducible assumption | intro _ | with_reducible apply romFlush_keep | with_reducible apply restLink_keep | with_reducible apply finishJobs_keep | with_reducible apply State.tick_keep | with_reducible apply governor_keep | with_reducible apply Keep.ite | with_reducible apply Keep.foldl | with_reducible apply Keep.foldl_fst | with_reducible apply Keep.ite_fst | ((fail_if_success (simp only [Keep.mkF]; with_reducible apply And.intro)); split) | dsimp only | (with_reducible apply Keep.mk; iterate 6 exact rfl))

theorem idleTick_keep {s} (h : Keep p b s) :
    Keep p b (idleTick s) := by
  unfold idleTick
  try extract_lets
  repeat' (first | with_reducible assumption | intro _ | with_reducible apply sbDrain_keep | with_reducible apply jumpEdge_keep | with_reducible apply State.advance_keep | with_reducible apply State.dueNow_keep | with_reducible apply autoRestore_keep | with_reducible apply strikeEdge_keep | with_reducible apply State.toEnd_keep | with_reducible apply quietCycle_keep | with_reducible apply Keep.ite | with_reducible apply Keep.foldl | with_reducible apply Keep.foldl_fst | with_reducible apply Keep.ite_fst | ((fail_if_success (simp only [Keep.mkF]; with_reducible apply And.intro)); split) | dsimp only | (with_reducible apply Keep.mk; iterate 6 exact rfl))

end Sys2Proof.Machine
end

