-- ==== Sys2Proof/Laws/KeepRegisters.lean ====
section
/-!
SUPPORT. What the operations of Machine/Registers.lean keep of the queue and the stores.
-/

set_option linter.all false

namespace Sys2Proof.Machine

variable {p : List Instr} {b : Prop}

theorem regEvent_keep {s x2 x3 x4} (h : Keep p b s) :
    Keep p b (regEvent s x2 x3 x4) := by
  unfold regEvent
  try extract_lets
  repeat' (first | with_reducible assumption | intro _ | with_reducible apply State.post_keep | with_reducible apply Keep.ite | with_reducible apply Keep.foldl | with_reducible apply Keep.foldl_fst | with_reducible apply Keep.ite_fst | ((fail_if_success (simp only [Keep.mkF]; with_reducible apply And.intro)); split) | dsimp only | (with_reducible apply Keep.mk; iterate 6 exact rfl))

theorem fieldWrite_keep {s x2 x3 x4 x5} (h : Keep p b s) :
    Keep p b (fieldWrite s x2 x3 x4 x5) := by
  unfold fieldWrite
  try extract_lets
  repeat' (first | with_reducible assumption | intro _ | with_reducible apply State.setWord_keep | with_reducible apply regEvent_keep | with_reducible apply Keep.ite | with_reducible apply Keep.foldl | with_reducible apply Keep.foldl_fst | with_reducible apply Keep.ite_fst | ((fail_if_success (simp only [Keep.mkF]; with_reducible apply And.intro)); split) | dsimp only | (with_reducible apply Keep.mk; iterate 6 exact rfl))

theorem afterWrite_keep {s x2 s2} (h : Keep p b s) (h2 : Keep p b s2) :
    Keep p b (afterWrite s x2 s2) := by
  unfold afterWrite
  try extract_lets
  repeat' (first | with_reducible assumption | intro _ | with_reducible apply leadChanged_keep | with_reducible apply alertBegin_keep | with_reducible apply withRatio_keep | with_reducible apply Keep.ite | with_reducible apply Keep.foldl | with_reducible apply Keep.foldl_fst | with_reducible apply Keep.ite_fst | ((fail_if_success (simp only [Keep.mkF]; with_reducible apply And.intro)); split) | dsimp only | (with_reducible apply Keep.mk; iterate 6 exact rfl))

theorem plainWrite_keep {s x2 x3 x4} (h : Keep p b s) :
    Keep p b (plainWrite s x2 x3 x4) := by
  unfold plainWrite
  try extract_lets
  repeat' (first | with_reducible assumption | intro _ | with_reducible apply regEvent_keep | with_reducible apply afterWrite_keep | with_reducible apply fieldWrite_keep | with_reducible apply Keep.ite | with_reducible apply Keep.foldl | with_reducible apply Keep.foldl_fst | with_reducible apply Keep.ite_fst | ((fail_if_success (simp only [Keep.mkF]; with_reducible apply And.intro)); split) | dsimp only | (with_reducible apply Keep.mk; iterate 6 exact rfl))

theorem sharesWrite_keep {s x2} (h : Keep p b s) :
    Keep p b (sharesWrite s x2) := by
  unfold sharesWrite
  try extract_lets
  repeat' (first | with_reducible assumption | intro _ | with_reducible apply regEvent_keep | with_reducible apply fieldWrite_keep | with_reducible apply Keep.ite | with_reducible apply Keep.foldl | with_reducible apply Keep.foldl_fst | with_reducible apply Keep.ite_fst | ((fail_if_success (simp only [Keep.mkF]; with_reducible apply And.intro)); split) | dsimp only | (with_reducible apply Keep.mk; iterate 6 exact rfl))

theorem mboxCtrlWrite_keep {s x2 x3} (h : Keep p b s) :
    Keep p b (mboxCtrlWrite s x2 x3) := by
  unfold mboxCtrlWrite
  try extract_lets
  repeat' (first | with_reducible assumption | intro _ | with_reducible apply mboxUndefined_keep | with_reducible apply Keep.ite | with_reducible apply Keep.foldl | with_reducible apply Keep.foldl_fst | with_reducible apply Keep.ite_fst | ((fail_if_success (simp only [Keep.mkF]; with_reducible apply And.intro)); split) | dsimp only | (with_reducible apply Keep.mk; iterate 6 exact rfl))

theorem queueBlockWrite_keep {s x2 x3 x4 x5} (h : Keep p b s) :
    Keep p b (queueBlockWrite s x2 x3 x4 x5) := by
  unfold queueBlockWrite
  try extract_lets
  repeat' (first | with_reducible assumption | intro _ | with_reducible apply State.modQueue_keep | with_reducible apply regEvent_keep | with_reducible apply queueOn_keep | with_reducible apply queueOff_keep | with_reducible apply Keep.ite | with_reducible apply Keep.foldl | with_reducible apply Keep.foldl_fst | with_reducible apply Keep.ite_fst | ((fail_if_success (simp only [Keep.mkF]; with_reducible apply And.intro)); split) | dsimp only | (with_reducible apply Keep.mk; iterate 6 exact rfl))

theorem pf0Write_keep {s x2 x3 x4 x5} (h : Keep p b s) :
    Keep p b (pf0Write s x2 x3 x4 x5) := by
  unfold pf0Write
  try extract_lets
  repeat' (first | with_reducible assumption | intro _ | with_reducible apply sharesWrite_keep | with_reducible apply plainWrite_keep | with_reducible apply queueBlockWrite_keep | with_reducible apply mboxOwnerWrite_keep | with_reducible apply mboxCtrlWrite_keep | with_reducible apply State.setWord_keep | with_reducible apply Keep.ite | with_reducible apply Keep.foldl | with_reducible apply Keep.foldl_fst | with_reducible apply Keep.ite_fst | ((fail_if_success (simp only [Keep.mkF]; with_reducible apply And.intro)); split) | dsimp only | (with_reducible apply Keep.mk; iterate 6 exact rfl))

theorem windowWrite_keep {s x2 x3 x4} (h : Keep p b s) :
    Keep p b (windowWrite s x2 x3 x4) := by
  unfold windowWrite
  try extract_lets
  repeat' (first | with_reducible assumption | intro _ | with_reducible apply queueBlockWrite_keep | with_reducible apply State.modIns_keep | with_reducible apply Keep.ite | with_reducible apply Keep.foldl | with_reducible apply Keep.foldl_fst | with_reducible apply Keep.ite_fst | ((fail_if_success (simp only [Keep.mkF]; with_reducible apply And.intro)); split) | dsimp only | (with_reducible apply Keep.mk; iterate 6 exact rfl))

theorem bellWrite_keep {s x2 x3 x4} (h : Keep p b s) :
    Keep p b (bellWrite s x2 x3 x4) := by
  unfold bellWrite
  try extract_lets
  repeat' (first | with_reducible assumption | intro _ | with_reducible apply producerBell_keep | with_reducible apply consumerBell_keep | with_reducible apply Keep.ite | with_reducible apply Keep.foldl | with_reducible apply Keep.foldl_fst | with_reducible apply Keep.ite_fst | ((fail_if_success (simp only [Keep.mkF]; with_reducible apply And.intro)); split) | dsimp only | (with_reducible apply Keep.mk; iterate 6 exact rfl))

theorem bar2Write_keep {s x2 x3 x4} (h : Keep p b s) :
    Keep p b (bar2Write s x2 x3 x4) := by
  unfold bar2Write
  try extract_lets
  repeat' (first | with_reducible assumption | intro _ | with_reducible apply State.modFunc_keep | with_reducible apply bellWrite_keep | with_reducible apply regEvent_keep | with_reducible apply Keep.ite | with_reducible apply Keep.foldl | with_reducible apply Keep.foldl_fst | with_reducible apply Keep.ite_fst | ((fail_if_success (simp only [Keep.mkF]; with_reducible apply And.intro)); split) | dsimp only | (with_reducible apply Keep.mk; iterate 6 exact rfl))

theorem cfgWrite_keep {s x2 x3 x4} (h : Keep p b s) :
    Keep p b (cfgWrite s x2 x3 x4) := by
  unfold cfgWrite
  try extract_lets
  repeat' (first | with_reducible assumption | intro _ | with_reducible apply State.modFunc_keep | with_reducible apply State.setLink_keep | with_reducible apply Keep.ite | with_reducible apply Keep.foldl | with_reducible apply Keep.foldl_fst | with_reducible apply Keep.ite_fst | ((fail_if_success (simp only [Keep.mkF]; with_reducible apply And.intro)); split) | dsimp only | (with_reducible apply Keep.mk; iterate 6 exact rfl))

theorem wordWrite_keep {s x2 x3 x4} (h : Keep p b s) :
    Keep p b (wordWrite s x2 x3 x4) := by
  unfold wordWrite
  try extract_lets
  repeat' (first | with_reducible assumption | intro _ | with_reducible apply cfgWrite_keep | with_reducible apply pf0Write_keep | with_reducible apply windowWrite_keep | with_reducible apply bar2Write_keep | with_reducible apply Keep.ite | with_reducible apply Keep.foldl | with_reducible apply Keep.foldl_fst | with_reducible apply Keep.ite_fst | ((fail_if_success (simp only [Keep.mkF]; with_reducible apply And.intro)); split) | dsimp only | (with_reducible apply Keep.mk; iterate 6 exact rfl))

theorem barWrite_keep {x1 s} (h : Keep p b s) :
    Keep p b (barWrite x1 s) := by
  unfold barWrite
  try extract_lets
  repeat' (first | with_reducible assumption | intro _ | with_reducible apply wordWrite_keep | with_reducible apply Keep.ite | with_reducible apply Keep.foldl | with_reducible apply Keep.foldl_fst | with_reducible apply Keep.ite_fst | ((fail_if_success (simp only [Keep.mkF]; with_reducible apply And.intro)); split) | dsimp only | (with_reducible apply Keep.mk; iterate 6 exact rfl))

theorem execRegisterWrite_keep {x1 s} (h : Keep p b s) :
    KeepO p b (execRegisterWrite x1 s) := by
  unfold execRegisterWrite
  try extract_lets
  repeat' (first | with_reducible assumption | intro _ | with_reducible apply KeepO.next | with_reducible apply wordWrite_keep | with_reducible apply State.post_keep | with_reducible apply State.inc_keep | with_reducible apply aer_keep | with_reducible apply mmioWrite_keep | with_reducible apply barWrite_keep | with_reducible apply Keep.ite | with_reducible apply Keep.foldl | with_reducible apply Keep.foldl_fst | with_reducible apply Keep.ite_fst | ((fail_if_success (simp only [Keep.mkF]; with_reducible apply And.intro)); split) | dsimp only | (with_reducible apply Keep.mk; iterate 6 exact rfl))

theorem execStkSharesWrite_keep {x1 s} (h : Keep p b s) :
    KeepO p b (execStkSharesWrite x1 s) := by
  unfold execStkSharesWrite
  try extract_lets
  repeat' (first | with_reducible assumption | intro _ | with_reducible apply KeepO.next | with_reducible apply sharesWrite_keep | with_reducible apply Keep.ite | with_reducible apply Keep.foldl | with_reducible apply Keep.foldl_fst | with_reducible apply Keep.ite_fst | ((fail_if_success (simp only [Keep.mkF]; with_reducible apply And.intro)); split) | dsimp only | (with_reducible apply Keep.mk; iterate 6 exact rfl))

end Sys2Proof.Machine
end

