-- ==== Sys2Proof/Laws/KeepReads.lean ====
section
/-!
SUPPORT. What the operations of Machine/Reads.lean keep of the queue and the stores.
-/

set_option linter.all false

namespace Sys2Proof.Machine

variable {p : List Instr} {b : Prop}

theorem takeShadow_keep {s x2 x3} (h : Keep p b s) :
    Keep p b (takeShadow s x2 x3) := by
  unfold takeShadow
  try extract_lets
  repeat' (first | with_reducible assumption | intro _ | with_reducible apply Keep.ite | with_reducible apply Keep.foldl | with_reducible apply Keep.foldl_fst | with_reducible apply Keep.ite_fst | ((fail_if_success (simp only [Keep.mkF]; with_reducible apply And.intro)); split) | dsimp only | (with_reducible apply Keep.mk; iterate 6 exact rfl))

theorem takeHeat_keep {s x2} (h : Keep p b s) :
    Keep p b (takeHeat s x2) := by
  unfold takeHeat
  try extract_lets
  repeat' (first | with_reducible assumption | intro _ | with_reducible apply Keep.ite | with_reducible apply Keep.foldl | with_reducible apply Keep.foldl_fst | with_reducible apply Keep.ite_fst | ((fail_if_success (simp only [Keep.mkF]; with_reducible apply And.intro)); split) | dsimp only | (with_reducible apply Keep.mk; iterate 6 exact rfl))

theorem readEffect_keep {s x2 x3 x4 x5 x6} (h : Keep p b s) :
    Keep p b (readEffect s x2 x3 x4 x5 x6) := by
  unfold readEffect
  try extract_lets
  repeat' (first | with_reducible assumption | intro _ | with_reducible apply takeHeat_keep | with_reducible apply takeShadow_keep | with_reducible apply Keep.ite | with_reducible apply Keep.foldl | with_reducible apply Keep.foldl_fst | with_reducible apply Keep.ite_fst | ((fail_if_success (simp only [Keep.mkF]; with_reducible apply And.intro)); split) | dsimp only | (with_reducible apply Keep.mk; iterate 6 exact rfl))

theorem readBar_keep {s x2 x3 x4 x5 x6} (h : Keep p b s) :
    Keep p b (readBar s x2 x3 x4 x5 x6) := by
  unfold readBar
  try extract_lets
  repeat' (first | with_reducible assumption | intro _ | with_reducible apply readEffect_keep | with_reducible apply State.emitLink_keep | with_reducible apply Keep.ite | with_reducible apply Keep.foldl | with_reducible apply Keep.foldl_fst | with_reducible apply Keep.ite_fst | ((fail_if_success (simp only [Keep.mkF]; with_reducible apply And.intro)); split) | dsimp only | (with_reducible apply Keep.mk; iterate 6 exact rfl))

theorem execMmioAccess_keep {x1 x2 x3 s} (h : Keep p b s) :
    KeepO p b (execMmioAccess x1 x2 x3 s) := by
  unfold execMmioAccess
  try extract_lets
  repeat' (first | with_reducible assumption | intro _ | with_reducible apply KeepO.next | with_reducible apply ecrcFails_keep | with_reducible apply State.emitLink_keep | with_reducible apply State.post_keep | with_reducible apply State.inc_keep | with_reducible apply aer_keep | with_reducible apply readBar_keep | with_reducible apply Keep.ite | with_reducible apply Keep.foldl | with_reducible apply Keep.foldl_fst | with_reducible apply Keep.ite_fst | ((fail_if_success (simp only [Keep.mkF]; with_reducible apply And.intro)); split) | dsimp only | (with_reducible apply Keep.mk; iterate 6 exact rfl))

theorem execStkNsRead_keep {x1 s} (h : Keep p b s) :
    KeepO p b (execStkNsRead x1 s) := by
  unfold execStkNsRead
  try extract_lets
  repeat' (first | with_reducible assumption | intro _ | with_reducible apply KeepO.next | with_reducible apply readBar_keep | with_reducible apply Keep.ite | with_reducible apply Keep.foldl | with_reducible apply Keep.foldl_fst | with_reducible apply Keep.ite_fst | ((fail_if_success (simp only [Keep.mkF]; with_reducible apply And.intro)); split) | dsimp only | (with_reducible apply Keep.mk; iterate 6 exact rfl))

theorem execCounterLowRead_keep {x1 x2 x3 s} (h : Keep p b s) :
    KeepO p b (execCounterLowRead x1 x2 x3 s) := by
  unfold execCounterLowRead
  try extract_lets
  repeat' (first | with_reducible assumption | intro _ | with_reducible apply KeepO.next | with_reducible apply takeShadow_keep | with_reducible apply State.emitLink_keep | with_reducible apply Keep.ite | with_reducible apply Keep.foldl | with_reducible apply Keep.foldl_fst | with_reducible apply Keep.ite_fst | ((fail_if_success (simp only [Keep.mkF]; with_reducible apply And.intro)); split) | dsimp only | (with_reducible apply Keep.mk; iterate 6 exact rfl))

end Sys2Proof.Machine
end

