-- ==== Sys2Proof/Laws/KeepReset.lean ====
section
/-!
SUPPORT. What the operations of Machine/Reset.lean keep of the queue and the stores.
-/

set_option linter.all false

namespace Sys2Proof.Machine

variable {p : List Instr} {b : Prop}

theorem linksDown_keep {s x2} (h : Keep p b s) :
    Keep p b (linksDown s x2) := by
  unfold linksDown
  try extract_lets
  repeat' (first | with_reducible assumption | intro _ | with_reducible apply State.inc_keep | with_reducible apply State.post_keep | with_reducible apply Keep.ite | with_reducible apply Keep.foldl | with_reducible apply Keep.foldl_fst | with_reducible apply Keep.ite_fst | ((fail_if_success (simp only [Keep.mkF]; with_reducible apply And.intro)); split) | dsimp only | (with_reducible apply Keep.mk; iterate 6 exact rfl))

theorem regsOk_nil : RegsOk [] := ⟨rfl, fun _ hx => nomatch hx⟩

theorem warmClear_keep {s} (h : Keep p b s) : Keep p b (warmClear s) := by
  have h1 := @linksDown_keep p b s false h
  refine ⟨h1.1, fun hb => ?_⟩
  obtain ⟨a1, a2, a3, a4, a5⟩ := h1.2 hb
  exact ⟨regsOk_nil, mWf_filter _ _ a2, rfl, a4, a5⟩

theorem withCause_keep {s x2} (h : Keep p b s) :
    Keep p b (withCause s x2) := by
  unfold withCause
  try extract_lets
  repeat' (first | with_reducible assumption | intro _ | with_reducible apply Keep.ite | with_reducible apply Keep.foldl | with_reducible apply Keep.foldl_fst | with_reducible apply Keep.ite_fst | ((fail_if_success (simp only [Keep.mkF]; with_reducible apply And.intro)); split) | dsimp only | (with_reducible apply Keep.mk; iterate 6 exact rfl))

theorem startBoot_keep {s} (h : Keep p b s) :
    Keep p b (startBoot s) := by
  unfold startBoot
  try extract_lets
  repeat' (first | with_reducible assumption | intro _ | with_reducible apply Keep.ite | with_reducible apply Keep.foldl | with_reducible apply Keep.foldl_fst | with_reducible apply Keep.ite_fst | ((fail_if_success (simp only [Keep.mkF]; with_reducible apply And.intro)); split) | dsimp only | (with_reducible apply Keep.mk; iterate 6 exact rfl))

theorem endTrip_keep {s} (h : Keep p b s) :
    Keep p b (endTrip s) := by
  unfold endTrip
  try extract_lets
  repeat' (first | with_reducible assumption | intro _ | with_reducible apply Keep.ite | with_reducible apply Keep.foldl | with_reducible apply Keep.foldl_fst | with_reducible apply Keep.ite_fst | ((fail_if_success (simp only [Keep.mkF]; with_reducible apply And.intro)); split) | dsimp only | (with_reducible apply Keep.mk; iterate 6 exact rfl))

theorem execPowerOnReset_keep {s} (h : Keep p b s) : KeepO p b (execPowerOnReset s) :=
  ⟨h.1, fun _ => ⟨regsOk_nil, rfl, rfl, Nat.zero_le _, Nat.zero_le _⟩⟩

theorem execStandbyRelease_keep {s} (h : Keep p b s) :
    KeepO p b (execStandbyRelease s) := by
  unfold execStandbyRelease
  try extract_lets
  repeat' (first | with_reducible assumption | intro _ | with_reducible apply KeepO.next | with_reducible apply Keep.ite | with_reducible apply Keep.foldl | with_reducible apply Keep.foldl_fst | with_reducible apply Keep.ite_fst | ((fail_if_success (simp only [Keep.mkF]; with_reducible apply And.intro)); split) | dsimp only | (with_reducible apply Keep.mk; iterate 6 exact rfl))

theorem execRstNAssert_keep {x1 s} (h : Keep p b s) :
    KeepO p b (execRstNAssert x1 s) := by
  unfold execRstNAssert
  try extract_lets
  repeat' (first | with_reducible assumption | intro _ | with_reducible apply KeepO.next | with_reducible apply endTrip_keep | with_reducible apply setTemps_keep | with_reducible apply warmClear_keep | with_reducible apply withCause_keep | with_reducible apply Keep.ite | with_reducible apply Keep.foldl | with_reducible apply Keep.foldl_fst | with_reducible apply Keep.ite_fst | ((fail_if_success (simp only [Keep.mkF]; with_reducible apply And.intro)); split) | dsimp only | (with_reducible apply Keep.mk; iterate 6 exact rfl))

theorem execRailDrop_keep {s} (h : Keep p b s) :
    KeepO p b (execRailDrop s) := by
  unfold execRailDrop
  try extract_lets
  repeat' (first | with_reducible assumption | intro _ | with_reducible apply KeepO.next | with_reducible apply warmClear_keep | with_reducible apply withCause_keep | with_reducible apply Keep.ite | with_reducible apply Keep.foldl | with_reducible apply Keep.foldl_fst | with_reducible apply Keep.ite_fst | ((fail_if_success (simp only [Keep.mkF]; with_reducible apply And.intro)); split) | dsimp only | (with_reducible apply Keep.mk; iterate 6 exact rfl))

theorem execRailReturn_keep {x1 s} (h : Keep p b s) :
    KeepO p b (execRailReturn x1 s) := by
  unfold execRailReturn
  try extract_lets
  repeat' (first | with_reducible assumption | intro _ | with_reducible apply KeepO.next | with_reducible apply startBoot_keep | with_reducible apply Keep.ite | with_reducible apply Keep.foldl | with_reducible apply Keep.foldl_fst | with_reducible apply Keep.ite_fst | ((fail_if_success (simp only [Keep.mkF]; with_reducible apply And.intro)); split) | dsimp only | (with_reducible apply Keep.mk; iterate 6 exact rfl))

theorem execRstNRelease_keep {x1 x2 x3 s} (h : Keep p b s) :
    KeepO p b (execRstNRelease x1 x2 x3 s) := by
  unfold execRstNRelease
  try extract_lets
  repeat' (first | with_reducible assumption | intro _ | with_reducible apply KeepO.next | with_reducible apply endTrip_keep | with_reducible apply setTemps_keep | with_reducible apply startBoot_keep | with_reducible apply Keep.ite | with_reducible apply Keep.foldl | with_reducible apply Keep.foldl_fst | with_reducible apply Keep.ite_fst | ((fail_if_success (simp only [Keep.mkF]; with_reducible apply And.intro)); split) | dsimp only | (with_reducible apply Keep.mk; iterate 6 exact rfl))

theorem registerReset_keep {s x2 x3} (h : Keep p b s) :
    Keep p b (registerReset s x2 x3) := by
  unfold registerReset
  try extract_lets
  repeat' (first | with_reducible assumption | intro _ | with_reducible apply flashStep_keep | with_reducible apply warmClear_keep | with_reducible apply withCause_keep | with_reducible apply startBoot_keep | with_reducible apply Keep.ite | with_reducible apply Keep.foldl | with_reducible apply Keep.foldl_fst | with_reducible apply Keep.ite_fst | ((fail_if_success (simp only [Keep.mkF]; with_reducible apply And.intro)); split) | dsimp only | (with_reducible apply Keep.mk; iterate 6 exact rfl))

theorem execIdResetWarm_keep {x1 x2 s} (h : Keep p b s) :
    KeepO p b (execIdResetWarm x1 x2 s) := by
  unfold execIdResetWarm
  try extract_lets
  repeat' (first | with_reducible assumption | intro _ | with_reducible apply KeepO.next | with_reducible apply registerReset_keep | with_reducible apply Keep.ite | with_reducible apply Keep.foldl | with_reducible apply Keep.foldl_fst | with_reducible apply Keep.ite_fst | ((fail_if_success (simp only [Keep.mkF]; with_reducible apply And.intro)); split) | dsimp only | (with_reducible apply Keep.mk; iterate 6 exact rfl))

theorem execIdResetLifeboat_keep {x1 x2 s} (h : Keep p b s) :
    KeepO p b (execIdResetLifeboat x1 x2 s) := by
  unfold execIdResetLifeboat
  try extract_lets
  repeat' (first | with_reducible assumption | intro _ | with_reducible apply KeepO.next | with_reducible apply registerReset_keep | with_reducible apply Keep.ite | with_reducible apply Keep.foldl | with_reducible apply Keep.foldl_fst | with_reducible apply Keep.ite_fst | ((fail_if_success (simp only [Keep.mkF]; with_reducible apply And.intro)); split) | dsimp only | (with_reducible apply Keep.mk; iterate 6 exact rfl))

theorem execResetKey_keep {x1 s} (h : Keep p b s) :
    KeepO p b (execResetKey x1 s) := by
  unfold execResetKey
  try extract_lets
  repeat' (first | with_reducible assumption | intro _ | with_reducible apply KeepO.next | with_reducible apply State.post_keep | with_reducible apply Keep.ite | with_reducible apply Keep.foldl | with_reducible apply Keep.foldl_fst | with_reducible apply Keep.ite_fst | ((fail_if_success (simp only [Keep.mkF]; with_reducible apply And.intro)); split) | dsimp only | (with_reducible apply Keep.mk; iterate 6 exact rfl))

theorem saveLog_keep {s x2} (h : Keep p b s) : Keep p b (saveLog s x2) := by
  unfold saveLog
  extract_lets live good l lost s1 z s2
  have h1 : Keep p b s1 := Keep.ite h (Keep.foldl _ (bootWrite_keep h) (fun _ _ h => putPage_keep h))
  have h2 : Keep p b s2 := by
    refine ⟨h1.1, fun hb => ?_⟩
    obtain ⟨a1, a2, a3, a4, a5⟩ := h1.2 hb
    exact ⟨a1, a2, a3, Nat.zero_le _, Nat.zero_le _⟩
  exact Keep.ite (Keep.of rfl rfl rfl rfl rfl rfl h2) h2

theorem undoTorn_keep {s} (h : Keep p b s) :
    Keep p b (undoTorn s) := by
  unfold undoTorn
  try extract_lets
  repeat' (first | with_reducible assumption | intro _ | with_reducible apply skipPage_keep | with_reducible apply State.raise_keep | with_reducible apply journalAdd_keep | with_reducible apply Keep.ite | with_reducible apply Keep.foldl | with_reducible apply Keep.foldl_fst | with_reducible apply Keep.ite_fst | ((fail_if_success (simp only [Keep.mkF]; with_reducible apply And.intro)); split) | dsimp only | (with_reducible apply Keep.mk; iterate 6 exact rfl))

theorem readProv_keep {s} (h : Keep p b s) :
    Keep p b (readProv s) := by
  unfold readProv
  try extract_lets
  repeat' (first | with_reducible assumption | intro _ | with_reducible apply Keep.ite | with_reducible apply Keep.foldl | with_reducible apply Keep.foldl_fst | with_reducible apply Keep.ite_fst | ((fail_if_success (simp only [Keep.mkF]; with_reducible apply And.intro)); split) | dsimp only | (with_reducible apply Keep.mk; iterate 6 exact rfl))

theorem flashStage_keep {s x2} (h : Keep p b s) :
    Keep p b (flashStage s x2) := by
  unfold flashStage
  try extract_lets
  repeat' (first | with_reducible assumption | intro _ | with_reducible apply saveLog_keep | with_reducible apply undoTorn_keep | with_reducible apply readProv_keep | with_reducible apply Keep.ite | with_reducible apply Keep.foldl | with_reducible apply Keep.foldl_fst | with_reducible apply Keep.ite_fst | ((fail_if_success (simp only [Keep.mkF]; with_reducible apply And.intro)); split) | dsimp only | (with_reducible apply Keep.mk; iterate 6 exact rfl))

theorem enterLifeboat_keep {s x2 x3} (h : Keep p b s) :
    Keep p b (enterLifeboat s x2 x3) := by
  unfold enterLifeboat
  try extract_lets
  repeat' (first | with_reducible assumption | intro _ | with_reducible apply flashStage_keep | with_reducible apply State.post_keep | with_reducible apply Keep.ite | with_reducible apply Keep.foldl | with_reducible apply Keep.foldl_fst | with_reducible apply Keep.ite_fst | ((fail_if_success (simp only [Keep.mkF]; with_reducible apply And.intro)); split) | dsimp only | (with_reducible apply Keep.mk; iterate 6 exact rfl))

theorem chooseImage_keep' {s t} (h : Keep p b s) (e : chooseImage s = some t) : Keep p b t := by
  unfold chooseImage at e
  extract_lets hd revert put s1 n k d1 src src2 n1 s2 n2 at e
  have hput : ∀ s h, Keep p b s → Keep p b (put s h) := fun s x hs =>
    Keep.of rfl rfl rfl rfl rfl rfl (bootWrite_keep (x2 := .header x false) hs)
  have h1 : Keep p b s1 := Keep.ite (hput _ _ h) (Keep.ite (hput _ _ h) h)
  clear_value put s1
  split at e
  · injection e with e
    rw [← e]
    exact Keep.of rfl rfl rfl rfl rfl rfl h1
  · split at e
    · injection e with e
      rw [← e]
      refine Keep.of rfl rfl rfl rfl rfl rfl (hput { s1 with nvm := n1 } (n1.nextHdr (1 - k) false 0)
        (Keep.of rfl rfl rfl rfl rfl rfl h1))
    · cases e

theorem loadImage_keep {s} (h : Keep p b s) :
    Keep p b (loadImage s) := by
  unfold loadImage
  try extract_lets
  repeat' (first | with_reducible assumption | intro _ | with_reducible apply Keep.ite | with_reducible apply Keep.foldl | with_reducible apply Keep.foldl_fst | with_reducible apply Keep.ite_fst | ((fail_if_success (simp only [Keep.mkF]; with_reducible apply And.intro)); split) | dsimp only | (with_reducible apply Keep.mk; iterate 6 exact rfl))

theorem execBootStageDone_keep {x1 s} (h : Keep p b s) :
    KeepO p b (execBootStageDone x1 s) := by
  unfold execBootStageDone
  try extract_lets
  repeat' (first | with_reducible assumption | intro _ | with_reducible apply KeepO.next | with_reducible apply setTemps_keep | with_reducible apply enterLifeboat_keep | with_reducible apply flashStage_keep | (with_reducible refine chooseImage_keep' ?_ (by assumption)) | with_reducible apply loadImage_keep | with_reducible apply Keep.ite | with_reducible apply Keep.foldl | with_reducible apply Keep.foldl_fst | with_reducible apply Keep.ite_fst | ((fail_if_success (simp only [Keep.mkF]; with_reducible apply And.intro)); split) | dsimp only | (with_reducible apply Keep.mk; iterate 6 exact rfl))

theorem execTempWaitRecheck_keep {x1 s} (h : Keep p b s) :
    KeepO p b (execTempWaitRecheck x1 s) := by
  unfold execTempWaitRecheck
  try extract_lets
  repeat' (first | with_reducible assumption | intro _ | with_reducible apply KeepO.next | with_reducible apply setTemps_keep | with_reducible apply Keep.ite | with_reducible apply Keep.foldl | with_reducible apply Keep.foldl_fst | with_reducible apply Keep.ite_fst | ((fail_if_success (simp only [Keep.mkF]; with_reducible apply And.intro)); split) | dsimp only | (with_reducible apply Keep.mk; iterate 6 exact rfl))

theorem haltCore_keep {s} (h : Keep p b s) :
    Keep p b (haltCore s) := by
  unfold haltCore
  try extract_lets
  repeat' (first | with_reducible assumption | intro _ | with_reducible apply linksDown_keep | with_reducible apply Keep.ite | with_reducible apply Keep.foldl | with_reducible apply Keep.foldl_fst | with_reducible apply Keep.ite_fst | ((fail_if_success (simp only [Keep.mkF]; with_reducible apply And.intro)); split) | dsimp only | (with_reducible apply Keep.mk; iterate 6 exact rfl))

theorem execQuench_keep {x1 s} (h : Keep p b s) :
    KeepO p b (execQuench x1 s) := by
  unfold execQuench
  try extract_lets
  repeat' (first | with_reducible assumption | intro _ | with_reducible apply KeepO.next | with_reducible apply setTemps_keep | with_reducible apply State.fireDev_keep | with_reducible apply State.post_keep | with_reducible apply State.inc_keep | with_reducible apply State.raise_keep | with_reducible apply setCeiling_keep | with_reducible apply Keep.ite | with_reducible apply Keep.foldl | with_reducible apply Keep.foldl_fst | with_reducible apply Keep.ite_fst | ((fail_if_success (simp only [Keep.mkF]; with_reducible apply And.intro)); split) | dsimp only | (with_reducible apply Keep.mk; iterate 6 exact rfl))

theorem execQuenchHalt_keep {x1 s} (h : Keep p b s) :
    KeepO p b (execQuenchHalt x1 s) := by
  unfold execQuenchHalt
  try extract_lets
  repeat' (first | with_reducible assumption | intro _ | with_reducible apply KeepO.next | with_reducible apply haltCore_keep | with_reducible apply flashStep_keep | with_reducible apply State.atRef_keep | with_reducible apply Keep.ite | with_reducible apply Keep.foldl | with_reducible apply Keep.foldl_fst | with_reducible apply Keep.ite_fst | ((fail_if_success (simp only [Keep.mkF]; with_reducible apply And.intro)); split) | dsimp only | (with_reducible apply Keep.mk; iterate 6 exact rfl))

theorem execHardTrip_keep {x1 s} (h : Keep p b s) :
    KeepO p b (execHardTrip x1 s) := by
  unfold execHardTrip
  try extract_lets
  repeat' (first | with_reducible assumption | intro _ | with_reducible apply KeepO.next | with_reducible apply setTemps_keep | with_reducible apply haltCore_keep | with_reducible apply State.inc_keep | with_reducible apply Keep.ite | with_reducible apply Keep.foldl | with_reducible apply Keep.foldl_fst | with_reducible apply Keep.ite_fst | ((fail_if_success (simp only [Keep.mkF]; with_reducible apply And.intro)); split) | dsimp only | (with_reducible apply Keep.mk; iterate 6 exact rfl))

end Sys2Proof.Machine
end

