-- ==== Sys2Proof/Laws/KeepTransmit.lean ====
section
/-!
SUPPORT. What the operations of Machine/Transmit.lean keep of the queue and the stores.
-/

set_option linter.all false

namespace Sys2Proof.Machine

variable {p : List Instr} {b : Prop}

theorem tlsTx_keep {s x2 x3 x4 x5} (h : Keep p b s) :
    Keep p b (tlsTx s x2 x3 x4 x5).1 := by
  unfold tlsTx
  try extract_lets
  repeat' (first | with_reducible assumption | intro _ | with_reducible apply State.add_keep | with_reducible apply tellMargin_keep | with_reducible apply Keep.ite | with_reducible apply Keep.foldl | with_reducible apply Keep.foldl_fst | with_reducible apply Keep.ite_fst | ((fail_if_success (simp only [Keep.mkF]; with_reducible apply And.intro)); split) | dsimp only | (with_reducible apply Keep.mk; iterate 6 exact rfl))

theorem tlsTx_keep' {s x2 x3 x4 x5 t y} (h : Keep p b s) (e : tlsTx s x2 x3 x4 x5 = (t, y)) : Keep p b t := by
  have := @tlsTx_keep p b s x2 x3 x4 x5 h
  rw [e] at this
  exact this

theorem txCipher_keep {s x2 x3 x4 x5 x6 x7} (h : Keep p b s) :
    Keep p b (txCipher s x2 x3 x4 x5 x6 x7).1 := by
  unfold txCipher
  try extract_lets
  repeat' (first | with_reducible assumption | intro _ | with_reducible apply countBadCtx_keep | with_reducible apply exhaustDrop_keep | with_reducible apply State.raise_keep | with_reducible apply State.inc_keep | (with_reducible refine espOut_keep' ?_ (by assumption)) | with_reducible apply espOut_keep | (with_reducible refine tlsTx_keep' ?_ (by assumption)) | with_reducible apply tlsTx_keep | with_reducible apply Keep.ite | with_reducible apply Keep.foldl | with_reducible apply Keep.foldl_fst | with_reducible apply Keep.ite_fst | ((fail_if_success (simp only [Keep.mkF]; with_reducible apply And.intro)); split) | dsimp only | (with_reducible apply Keep.mk; iterate 6 exact rfl))

theorem txCipher_keep' {s x2 x3 x4 x5 x6 x7 t y} (h : Keep p b s) (e : txCipher s x2 x3 x4 x5 x6 x7 = (t, y)) : Keep p b t := by
  have := @txCipher_keep p b s x2 x3 x4 x5 x6 x7 h
  rw [e] at this
  exact this

theorem txStorage_keep {s x2 x3 x4 x5 x6 x7} (h : Keep p b s) :
    Keep p b (txStorage s x2 x3 x4 x5 x6 x7).1 := by
  unfold txStorage
  try extract_lets
  repeat' (first | with_reducible assumption | intro _ | with_reducible apply State.post_keep | with_reducible apply State.raise_keep | with_reducible apply State.inc_keep | with_reducible apply State.setConn_keep | (with_reducible refine stoTx_keep' ?_ (by assumption)) | with_reducible apply stoTx_keep | with_reducible apply Keep.ite | with_reducible apply Keep.foldl | with_reducible apply Keep.foldl_fst | with_reducible apply Keep.ite_fst | ((fail_if_success (simp only [Keep.mkF]; with_reducible apply And.intro)); split) | dsimp only | (with_reducible apply Keep.mk; iterate 6 exact rfl))

theorem txStorage_keep' {s x2 x3 x4 x5 x6 x7 t y} (h : Keep p b s) (e : txStorage s x2 x3 x4 x5 x6 x7 = (t, y)) : Keep p b t := by
  have := @txStorage_keep p b s x2 x3 x4 x5 x6 x7 h
  rw [e] at this
  exact this

theorem txProcess_keep {s x2 x3} (h : Keep p b s) : Keep p b (txProcess s x2 x3).1 := by
  unfold txProcess
  extract_lets fl op sto cip
  have h1 : Keep p b sto.1 := Keep.ite_fst (txStorage_keep h) h
  clear_value sto
  obtain ⟨s1, d⟩ := sto
  have h2 : Keep p b cip.1 := by
    cases d with
    | go b1 c1 st => exact Keep.ite_fst (txCipher_keep h1) h1
    | stop c1 st => exact h1
    | sat => exact h1
  clear_value cip
  obtain ⟨s2, e⟩ := cip
  cases e with
  | go b1 c1 st => exact h2
  | stop c1 st => exact h2
  | sat => exact h2

theorem txProcess_keep' {s x2 x3 t y} (h : Keep p b s) (e : txProcess s x2 x3 = (t, y)) : Keep p b t := by
  have := @txProcess_keep p b s x2 x3 h
  rw [e] at this
  exact this

theorem cutTransmit_keep {s x2 x3 x4} (h : Keep p b s) :
    Keep p b (cutTransmit s x2 x3 x4) := by
  unfold cutTransmit
  try extract_lets
  repeat' (first | with_reducible assumption | intro _ | with_reducible apply State.inc_keep | with_reducible apply State.modFunc_keep | with_reducible apply State.setQp_keep | with_reducible apply Keep.ite | with_reducible apply Keep.foldl | with_reducible apply Keep.foldl_fst | with_reducible apply Keep.ite_fst | ((fail_if_success (simp only [Keep.mkF]; with_reducible apply And.intro)); split) | dsimp only | (with_reducible apply Keep.mk; iterate 6 exact rfl))

theorem execTxDescriptorFetchDone_keep {x1 s} (h : Keep p b s) :
    KeepO p b (execTxDescriptorFetchDone x1 s) := by
  unfold execTxDescriptorFetchDone
  try extract_lets
  repeat' (first | with_reducible assumption | intro _ | with_reducible apply KeepO.next | with_reducible apply cutTransmit_keep | with_reducible apply descInvalid_keep | (with_reducible refine readSpans_keep' ?_ (by assumption)) | with_reducible apply readSpans_keep | with_reducible apply seeTables_keep | with_reducible apply State.setQp_keep | with_reducible apply completeTx_keep | with_reducible apply overrunDrop_keep | (with_reducible refine txProcess_keep' ?_ (by assumption)) | with_reducible apply txProcess_keep | with_reducible apply meetEcc_keep | with_reducible apply pipeline_keep | with_reducible apply Keep.ite | with_reducible apply Keep.foldl | with_reducible apply Keep.foldl_fst | with_reducible apply Keep.ite_fst | ((fail_if_success (simp only [Keep.mkF]; with_reducible apply And.intro)); split) | dsimp only | (with_reducible apply Keep.mk; iterate 6 exact rfl))

theorem retireCell_keep {s x2 x3} (h : Keep p b s) :
    Keep p b (retireCell s x2 x3) := by
  unfold retireCell
  try extract_lets
  repeat' (first | with_reducible assumption | intro _ | with_reducible apply State.post_keep | with_reducible apply State.raise_keep | with_reducible apply State.inc_keep | with_reducible apply Keep.ite | with_reducible apply Keep.foldl | with_reducible apply Keep.foldl_fst | with_reducible apply Keep.ite_fst | ((fail_if_success (simp only [Keep.mkF]; with_reducible apply And.intro)); split) | dsimp only | (with_reducible apply Keep.mk; iterate 6 exact rfl))

theorem startSend_keep {s x2 x3} (h : Keep p b s) :
    Keep p b (startSend s x2 x3) := by
  unfold startSend
  try extract_lets
  repeat' (first | with_reducible assumption | intro _ | with_reducible apply Keep.ite | with_reducible apply Keep.foldl | with_reducible apply Keep.foldl_fst | with_reducible apply Keep.ite_fst | ((fail_if_success (simp only [Keep.mkF]; with_reducible apply And.intro)); split) | dsimp only | (with_reducible apply Keep.mk; iterate 6 exact rfl))

theorem txStamp_keep {s x2 x3 x4} (h : Keep p b s) :
    Keep p b (txStamp s x2 x3 x4).1 := by
  unfold txStamp
  try extract_lets
  repeat' (first | with_reducible assumption | intro _ | with_reducible apply State.macRaise_keep | with_reducible apply State.inc_keep | with_reducible apply Keep.ite | with_reducible apply Keep.foldl | with_reducible apply Keep.foldl_fst | with_reducible apply Keep.ite_fst | ((fail_if_success (simp only [Keep.mkF]; with_reducible apply And.intro)); split) | dsimp only | (with_reducible apply Keep.mk; iterate 6 exact rfl))

theorem txStamp_keep' {s x2 x3 x4 t y} (h : Keep p b s) (e : txStamp s x2 x3 x4 = (t, y)) : Keep p b t := by
  have := @txStamp_keep p b s x2 x3 x4 h
  rw [e] at this
  exact this

theorem macsecDrop_keep {s x2 x3} (h : Keep p b s) :
    Keep p b (macsecDrop s x2 x3) := by
  unfold macsecDrop
  try extract_lets
  repeat' (first | with_reducible assumption | intro _ | with_reducible apply completeTx_keep | with_reducible apply Keep.ite | with_reducible apply Keep.foldl | with_reducible apply Keep.foldl_fst | with_reducible apply Keep.ite_fst | ((fail_if_success (simp only [Keep.mkF]; with_reducible apply And.intro)); split) | dsimp only | (with_reducible apply Keep.mk; iterate 6 exact rfl))

theorem startWire_keep {s x2 x3 x4 x5} (h : Keep p b s) :
    Keep p b (startWire s x2 x3 x4 x5) := by
  unfold startWire
  try extract_lets
  repeat' (first | with_reducible assumption | intro _ | with_reducible apply reviewFrame_keep | with_reducible apply endFrame_keep | with_reducible apply State.inc_keep | (with_reducible refine macsecTx_keep' ?_ (by assumption)) | with_reducible apply macsecTx_keep | with_reducible apply macsecDrop_keep | (with_reducible refine txStamp_keep' ?_ (by assumption)) | with_reducible apply txStamp_keep | with_reducible apply startSend_keep | with_reducible apply Keep.ite | with_reducible apply Keep.foldl | with_reducible apply Keep.foldl_fst | with_reducible apply Keep.ite_fst | ((fail_if_success (simp only [Keep.mkF]; with_reducible apply And.intro)); split) | dsimp only | (with_reducible apply Keep.mk; iterate 6 exact rfl))

theorem execFrameTxStart_keep {x1 x2 x3 x4 s} (h : Keep p b s) :
    KeepO p b (execFrameTxStart x1 x2 x3 x4 s) := by
  unfold execFrameTxStart
  try extract_lets
  repeat' (first | with_reducible assumption | intro _ | with_reducible apply KeepO.next | with_reducible apply popHead_keep | with_reducible apply commitPick_keep | with_reducible apply reviewFrame_keep | with_reducible apply retireCell_keep | with_reducible apply meetEcc_keep | with_reducible apply chargePath_keep | with_reducible apply startWire_keep | with_reducible apply startSend_keep | with_reducible apply Keep.ite | with_reducible apply Keep.foldl | with_reducible apply Keep.foldl_fst | with_reducible apply Keep.ite_fst | ((fail_if_success (simp only [Keep.mkF]; with_reducible apply And.intro)); split) | dsimp only | (with_reducible apply Keep.mk; iterate 6 exact rfl))

theorem execFrameTxDone_keep {x1 s} (h : Keep p b s) :
    KeepO p b (execFrameTxDone x1 s) := by
  unfold execFrameTxDone
  try extract_lets
  repeat' (first | with_reducible assumption | intro _ | with_reducible apply KeepO.next | with_reducible apply resumeTop_keep | with_reducible apply State.inc_keep | with_reducible apply State.emit_keep | with_reducible apply State.add_keep | with_reducible apply reviewFrame_keep | with_reducible apply endFrame_keep | with_reducible apply Keep.ite | with_reducible apply Keep.foldl | with_reducible apply Keep.foldl_fst | with_reducible apply Keep.ite_fst | ((fail_if_success (simp only [Keep.mkF]; with_reducible apply And.intro)); split) | dsimp only | (with_reducible apply Keep.mk; iterate 6 exact rfl))

theorem freeBytes_keep {x1 x2 s x4} (h : Keep p b s) : Keep p b (freeBytes x1 x2 s x4).1 := by
  induction x1 generalizing s x2 x4 with
  | zero => exact h
  | succ n ih =>
    unfold freeBytes
    exact ih (State.draw_keep h)

theorem hostBytes_keep {s x2 x3} (h : Keep p b s) : Keep p b (hostBytes s x2 x3).1 := by
  unfold hostBytes
  refine Keep.foldl_fst _ h ?_
  intro a x ha
  exact freeBytes_keep ha

theorem hostBytes_keep' {s x2 x3 t y} (h : Keep p b s) (e : hostBytes s x2 x3 = (t, y)) : Keep p b t := by
  have := @hostBytes_keep p b s x2 x3 h
  rw [e] at this
  exact this

theorem endHost_keep {s x2} (h : Keep p b s) :
    Keep p b (endHost s x2) := by
  unfold endHost
  try extract_lets
  repeat' (first | with_reducible assumption | intro _ | with_reducible apply Keep.ite | with_reducible apply Keep.foldl | with_reducible apply Keep.foldl_fst | with_reducible apply Keep.ite_fst | ((fail_if_success (simp only [Keep.mkF]; with_reducible apply And.intro)); split) | dsimp only | (with_reducible apply Keep.mk; iterate 6 exact rfl))

theorem execHostWriteDone_keep {x1 x2 x3 s} (h : Keep p b s) :
    KeepO p b (execHostWriteDone x1 x2 x3 s) := by
  unfold execHostWriteDone
  try extract_lets
  repeat' (first | with_reducible assumption | intro _ | with_reducible apply KeepO.next | with_reducible apply reviewFrame_keep | with_reducible apply endFrame_keep | with_reducible apply State.inc_keep | with_reducible apply endHost_keep | with_reducible apply descInvalid_keep | (with_reducible refine hostBytes_keep' ?_ (by assumption)) | with_reducible apply hostBytes_keep | (with_reducible refine writeSpans_keep' ?_ (by assumption)) | with_reducible apply writeSpans_keep | with_reducible apply seeTables_keep | with_reducible apply State.setQp_keep | with_reducible apply cqIssue_keep | with_reducible apply Keep.ite | with_reducible apply Keep.foldl | with_reducible apply Keep.foldl_fst | with_reducible apply Keep.ite_fst | ((fail_if_success (simp only [Keep.mkF]; with_reducible apply And.intro)); split) | dsimp only | (with_reducible apply Keep.mk; iterate 6 exact rfl))

theorem execStaleDrop_keep {x1 x2 x3 s} (h : Keep p b s) :
    KeepO p b (execStaleDrop x1 x2 x3 s) := by
  unfold execStaleDrop
  try extract_lets
  repeat' (first | with_reducible assumption | intro _ | with_reducible apply KeepO.next | with_reducible apply State.atTimer_keep | with_reducible apply staleAct_keep | with_reducible apply Keep.ite | with_reducible apply Keep.foldl | with_reducible apply Keep.foldl_fst | with_reducible apply Keep.ite_fst | ((fail_if_success (simp only [Keep.mkF]; with_reducible apply And.intro)); split) | dsimp only | (with_reducible apply Keep.mk; iterate 6 exact rfl))

theorem execRefillTick_keep {s} (h : Keep p b s) : KeepO p b (execRefillTick s) :=
  State.atRef_keep h (fun _ h => h)

end Sys2Proof.Machine
end

