-- ==== Sys2Proof/Laws/State.lean ====
section
/-!
SUPPORT. What the updates of one part of the state leave as it is, one lemma for each update and each other field, so that no
proof unfolds a record update; and what a sparse map reads at a key after an entry is put.
-/

namespace Sys2Proof.Machine

/-- A read after a put: the value at the key put, and what was there at every other key. -/
theorem mGet?_mPut {α : Type} (m : SMap α) (q : Nat) (x : α) (j : Nat) :
    mGet? (mPut m q x) j = if j = q then some x else mGet? m j := by
  induction m with
  | nil => simp [mPut, mGet?]; split <;> simp_all [eq_comm]
  | cons a t ih =>
    obtain ⟨k, v⟩ := a
    simp only [mPut]; split
    · simp only [mGet?]; by_cases h : j = q
      · subst h; simp
      · simp [h, Ne.symm h]
    · split
      · simp only [mGet?]; by_cases h : j = q
        · subst h; simp
        · subst_vars; simp [h, Ne.symm h]
      · simp only [mGet?, ih]; split <;> simp_all; omega

namespace State

variable (s : State)

-- setWord
@[simp] theorem setWord_time (a v : Nat) : (s.setWord a v).time = s.time := rfl
@[simp] theorem setWord_io (a v : Nat) : (s.setWord a v).io = s.io := rfl
@[simp] theorem setWord_budget (a v : Nat) : (s.setWord a v).budget = s.budget := rfl
@[simp] theorem setWord_staging (a v : Nat) : (s.setWord a v).staging = s.staging := rfl
@[simp] theorem setWord_ctrs (a v : Nat) : (s.setWord a v).ctrs = s.ctrs := rfl
@[simp] theorem setWord_snap (a v : Nat) : (s.setWord a v).snap = s.snap := rfl
@[simp] theorem setWord_setAt (a v : Nat) : (s.setWord a v).setAt = s.setAt := rfl
@[simp] theorem setWord_setNow (a v : Nat) : (s.setWord a v).setNow = s.setNow := rfl
@[simp] theorem setWord_shadows (a v : Nat) : (s.setWord a v).shadows = s.shadows := rfl
@[simp] theorem setWord_links (a v : Nat) : (s.setWord a v).links = s.links := rfl
@[simp] theorem setWord_funcs (a v : Nat) : (s.setWord a v).funcs = s.funcs := rfl
@[simp] theorem setWord_cmd (a v : Nat) : (s.setWord a v).cmd = s.cmd := rfl
@[simp] theorem setWord_ins (a v : Nat) : (s.setWord a v).ins = s.ins := rfl
@[simp] theorem setWord_log (a v : Nat) : (s.setWord a v).log = s.log := rfl
@[simp] theorem setWord_viol (a v : Nat) : (s.setWord a v).viol = s.viol := rfl
@[simp] theorem setWord_ln (a v : Nat) : (s.setWord a v).ln = s.ln := rfl
@[simp] theorem setWord_macs (a v : Nat) : (s.setWord a v).macs = s.macs := rfl
@[simp] theorem setWord_rul (a v : Nat) : (s.setWord a v).rul = s.rul := rfl
@[simp] theorem setWord_tm (a v : Nat) : (s.setWord a v).tm = s.tm := rfl
@[simp] theorem setWord_cip (a v : Nat) : (s.setWord a v).cip = s.cip := rfl
@[simp] theorem setWord_sto (a v : Nat) : (s.setWord a v).sto = s.sto := rfl
@[simp] theorem setWord_pwr (a v : Nat) : (s.setWord a v).pwr = s.pwr := rfl
@[simp] theorem setWord_tri (a v : Nat) : (s.setWord a v).tri = s.tri := rfl
@[simp] theorem setWord_vrs (a v : Nat) : (s.setWord a v).vrs = s.vrs := rfl
@[simp] theorem setWord_tim (a v : Nat) : (s.setWord a v).tim = s.tim := rfl
@[simp] theorem setWord_nvm (a v : Nat) : (s.setWord a v).nvm = s.nvm := rfl
@[simp] theorem setWord_sb (a v : Nat) : (s.setWord a v).sb = s.sb := rfl
@[simp] theorem setWord_sbSeen (a v : Nat) : (s.setWord a v).sbSeen = s.sbSeen := rfl
@[simp] theorem setWord_boot (a v : Nat) : (s.setWord a v).boot = s.boot := rfl
@[simp] theorem setWord_env (a v : Nat) : (s.setWord a v).env = s.env := rfl
@[simp] theorem setWord_out (a v : Nat) : (s.setWord a v).out = s.out := rfl
@[simp] theorem setWord_free (a v : Nat) : (s.setWord a v).free = s.free := rfl
@[simp] theorem setWord_pending (a v : Nat) : (s.setWord a v).pending = s.pending := rfl

-- add
@[simp] theorem add_time (k n : Nat) : (s.add k n).time = s.time := rfl
@[simp] theorem add_io (k n : Nat) : (s.add k n).io = s.io := rfl
@[simp] theorem add_budget (k n : Nat) : (s.add k n).budget = s.budget := rfl
@[simp] theorem add_staging (k n : Nat) : (s.add k n).staging = s.staging := rfl
@[simp] theorem add_regs (k n : Nat) : (s.add k n).regs = s.regs := rfl
@[simp] theorem add_snap (k n : Nat) : (s.add k n).snap = s.snap := rfl
@[simp] theorem add_setAt (k n : Nat) : (s.add k n).setAt = s.setAt := rfl
@[simp] theorem add_setNow (k n : Nat) : (s.add k n).setNow = s.setNow := rfl
@[simp] theorem add_shadows (k n : Nat) : (s.add k n).shadows = s.shadows := rfl
@[simp] theorem add_links (k n : Nat) : (s.add k n).links = s.links := rfl
@[simp] theorem add_funcs (k n : Nat) : (s.add k n).funcs = s.funcs := rfl
@[simp] theorem add_cmd (k n : Nat) : (s.add k n).cmd = s.cmd := rfl
@[simp] theorem add_ins (k n : Nat) : (s.add k n).ins = s.ins := rfl
@[simp] theorem add_log (k n : Nat) : (s.add k n).log = s.log := rfl
@[simp] theorem add_viol (k n : Nat) : (s.add k n).viol = s.viol := rfl
@[simp] theorem add_ln (k n : Nat) : (s.add k n).ln = s.ln := rfl
@[simp] theorem add_macs (k n : Nat) : (s.add k n).macs = s.macs := rfl
@[simp] theorem add_rul (k n : Nat) : (s.add k n).rul = s.rul := rfl
@[simp] theorem add_tm (k n : Nat) : (s.add k n).tm = s.tm := rfl
@[simp] theorem add_cip (k n : Nat) : (s.add k n).cip = s.cip := rfl
@[simp] theorem add_sto (k n : Nat) : (s.add k n).sto = s.sto := rfl
@[simp] theorem add_pwr (k n : Nat) : (s.add k n).pwr = s.pwr := rfl
@[simp] theorem add_tri (k n : Nat) : (s.add k n).tri = s.tri := rfl
@[simp] theorem add_vrs (k n : Nat) : (s.add k n).vrs = s.vrs := rfl
@[simp] theorem add_tim (k n : Nat) : (s.add k n).tim = s.tim := rfl
@[simp] theorem add_nvm (k n : Nat) : (s.add k n).nvm = s.nvm := rfl
@[simp] theorem add_sb (k n : Nat) : (s.add k n).sb = s.sb := rfl
@[simp] theorem add_sbSeen (k n : Nat) : (s.add k n).sbSeen = s.sbSeen := rfl
@[simp] theorem add_boot (k n : Nat) : (s.add k n).boot = s.boot := rfl
@[simp] theorem add_env (k n : Nat) : (s.add k n).env = s.env := rfl
@[simp] theorem add_out (k n : Nat) : (s.add k n).out = s.out := rfl
@[simp] theorem add_free (k n : Nat) : (s.add k n).free = s.free := rfl
@[simp] theorem add_pending (k n : Nat) : (s.add k n).pending = s.pending := rfl

-- inc
@[simp] theorem inc_time (k : Nat) : (s.inc k).time = s.time := rfl
@[simp] theorem inc_io (k : Nat) : (s.inc k).io = s.io := rfl
@[simp] theorem inc_budget (k : Nat) : (s.inc k).budget = s.budget := rfl
@[simp] theorem inc_staging (k : Nat) : (s.inc k).staging = s.staging := rfl
@[simp] theorem inc_regs (k : Nat) : (s.inc k).regs = s.regs := rfl
@[simp] theorem inc_snap (k : Nat) : (s.inc k).snap = s.snap := rfl
@[simp] theorem inc_setAt (k : Nat) : (s.inc k).setAt = s.setAt := rfl
@[simp] theorem inc_setNow (k : Nat) : (s.inc k).setNow = s.setNow := rfl
@[simp] theorem inc_shadows (k : Nat) : (s.inc k).shadows = s.shadows := rfl
@[simp] theorem inc_links (k : Nat) : (s.inc k).links = s.links := rfl
@[simp] theorem inc_funcs (k : Nat) : (s.inc k).funcs = s.funcs := rfl
@[simp] theorem inc_cmd (k : Nat) : (s.inc k).cmd = s.cmd := rfl
@[simp] theorem inc_ins (k : Nat) : (s.inc k).ins = s.ins := rfl
@[simp] theorem inc_log (k : Nat) : (s.inc k).log = s.log := rfl
@[simp] theorem inc_viol (k : Nat) : (s.inc k).viol = s.viol := rfl
@[simp] theorem inc_ln (k : Nat) : (s.inc k).ln = s.ln := rfl
@[simp] theorem inc_macs (k : Nat) : (s.inc k).macs = s.macs := rfl
@[simp] theorem inc_rul (k : Nat) : (s.inc k).rul = s.rul := rfl
@[simp] theorem inc_tm (k : Nat) : (s.inc k).tm = s.tm := rfl
@[simp] theorem inc_cip (k : Nat) : (s.inc k).cip = s.cip := rfl
@[simp] theorem inc_sto (k : Nat) : (s.inc k).sto = s.sto := rfl
@[simp] theorem inc_pwr (k : Nat) : (s.inc k).pwr = s.pwr := rfl
@[simp] theorem inc_tri (k : Nat) : (s.inc k).tri = s.tri := rfl
@[simp] theorem inc_vrs (k : Nat) : (s.inc k).vrs = s.vrs := rfl
@[simp] theorem inc_tim (k : Nat) : (s.inc k).tim = s.tim := rfl
@[simp] theorem inc_nvm (k : Nat) : (s.inc k).nvm = s.nvm := rfl
@[simp] theorem inc_sb (k : Nat) : (s.inc k).sb = s.sb := rfl
@[simp] theorem inc_sbSeen (k : Nat) : (s.inc k).sbSeen = s.sbSeen := rfl
@[simp] theorem inc_boot (k : Nat) : (s.inc k).boot = s.boot := rfl
@[simp] theorem inc_env (k : Nat) : (s.inc k).env = s.env := rfl
@[simp] theorem inc_out (k : Nat) : (s.inc k).out = s.out := rfl
@[simp] theorem inc_free (k : Nat) : (s.inc k).free = s.free := rfl
@[simp] theorem inc_pending (k : Nat) : (s.inc k).pending = s.pending := rfl

-- setLink
@[simp] theorem setLink_time (l : Nat) (x : HostLink) : (s.setLink l x).time = s.time := rfl
@[simp] theorem setLink_io (l : Nat) (x : HostLink) : (s.setLink l x).io = s.io := rfl
@[simp] theorem setLink_budget (l : Nat) (x : HostLink) : (s.setLink l x).budget = s.budget := rfl
@[simp] theorem setLink_staging (l : Nat) (x : HostLink) : (s.setLink l x).staging = s.staging := rfl
@[simp] theorem setLink_regs (l : Nat) (x : HostLink) : (s.setLink l x).regs = s.regs := rfl
@[simp] theorem setLink_ctrs (l : Nat) (x : HostLink) : (s.setLink l x).ctrs = s.ctrs := rfl
@[simp] theorem setLink_snap (l : Nat) (x : HostLink) : (s.setLink l x).snap = s.snap := rfl
@[simp] theorem setLink_setAt (l : Nat) (x : HostLink) : (s.setLink l x).setAt = s.setAt := rfl
@[simp] theorem setLink_setNow (l : Nat) (x : HostLink) : (s.setLink l x).setNow = s.setNow := rfl
@[simp] theorem setLink_shadows (l : Nat) (x : HostLink) : (s.setLink l x).shadows = s.shadows := rfl
@[simp] theorem setLink_funcs (l : Nat) (x : HostLink) : (s.setLink l x).funcs = s.funcs := rfl
@[simp] theorem setLink_cmd (l : Nat) (x : HostLink) : (s.setLink l x).cmd = s.cmd := rfl
@[simp] theorem setLink_ins (l : Nat) (x : HostLink) : (s.setLink l x).ins = s.ins := rfl
@[simp] theorem setLink_log (l : Nat) (x : HostLink) : (s.setLink l x).log = s.log := rfl
@[simp] theorem setLink_viol (l : Nat) (x : HostLink) : (s.setLink l x).viol = s.viol := rfl
@[simp] theorem setLink_ln (l : Nat) (x : HostLink) : (s.setLink l x).ln = s.ln := rfl
@[simp] theorem setLink_macs (l : Nat) (x : HostLink) : (s.setLink l x).macs = s.macs := rfl
@[simp] theorem setLink_rul (l : Nat) (x : HostLink) : (s.setLink l x).rul = s.rul := rfl
@[simp] theorem setLink_tm (l : Nat) (x : HostLink) : (s.setLink l x).tm = s.tm := rfl
@[simp] theorem setLink_cip (l : Nat) (x : HostLink) : (s.setLink l x).cip = s.cip := rfl
@[simp] theorem setLink_sto (l : Nat) (x : HostLink) : (s.setLink l x).sto = s.sto := rfl
@[simp] theorem setLink_pwr (l : Nat) (x : HostLink) : (s.setLink l x).pwr = s.pwr := rfl
@[simp] theorem setLink_tri (l : Nat) (x : HostLink) : (s.setLink l x).tri = s.tri := rfl
@[simp] theorem setLink_vrs (l : Nat) (x : HostLink) : (s.setLink l x).vrs = s.vrs := rfl
@[simp] theorem setLink_tim (l : Nat) (x : HostLink) : (s.setLink l x).tim = s.tim := rfl
@[simp] theorem setLink_nvm (l : Nat) (x : HostLink) : (s.setLink l x).nvm = s.nvm := rfl
@[simp] theorem setLink_sb (l : Nat) (x : HostLink) : (s.setLink l x).sb = s.sb := rfl
@[simp] theorem setLink_sbSeen (l : Nat) (x : HostLink) : (s.setLink l x).sbSeen = s.sbSeen := rfl
@[simp] theorem setLink_boot (l : Nat) (x : HostLink) : (s.setLink l x).boot = s.boot := rfl
@[simp] theorem setLink_env (l : Nat) (x : HostLink) : (s.setLink l x).env = s.env := rfl
@[simp] theorem setLink_out (l : Nat) (x : HostLink) : (s.setLink l x).out = s.out := rfl
@[simp] theorem setLink_free (l : Nat) (x : HostLink) : (s.setLink l x).free = s.free := rfl
@[simp] theorem setLink_pending (l : Nat) (x : HostLink) : (s.setLink l x).pending = s.pending := rfl

-- setFunc
@[simp] theorem setFunc_time (f : Nat) (x : Func) : (s.setFunc f x).time = s.time := rfl
@[simp] theorem setFunc_io (f : Nat) (x : Func) : (s.setFunc f x).io = s.io := rfl
@[simp] theorem setFunc_budget (f : Nat) (x : Func) : (s.setFunc f x).budget = s.budget := rfl
@[simp] theorem setFunc_staging (f : Nat) (x : Func) : (s.setFunc f x).staging = s.staging := rfl
@[simp] theorem setFunc_regs (f : Nat) (x : Func) : (s.setFunc f x).regs = s.regs := rfl
@[simp] theorem setFunc_ctrs (f : Nat) (x : Func) : (s.setFunc f x).ctrs = s.ctrs := rfl
@[simp] theorem setFunc_snap (f : Nat) (x : Func) : (s.setFunc f x).snap = s.snap := rfl
@[simp] theorem setFunc_setAt (f : Nat) (x : Func) : (s.setFunc f x).setAt = s.setAt := rfl
@[simp] theorem setFunc_setNow (f : Nat) (x : Func) : (s.setFunc f x).setNow = s.setNow := rfl
@[simp] theorem setFunc_shadows (f : Nat) (x : Func) : (s.setFunc f x).shadows = s.shadows := rfl
@[simp] theorem setFunc_links (f : Nat) (x : Func) : (s.setFunc f x).links = s.links := rfl
@[simp] theorem setFunc_cmd (f : Nat) (x : Func) : (s.setFunc f x).cmd = s.cmd := rfl
@[simp] theorem setFunc_ins (f : Nat) (x : Func) : (s.setFunc f x).ins = s.ins := rfl
@[simp] theorem setFunc_log (f : Nat) (x : Func) : (s.setFunc f x).log = s.log := rfl
@[simp] theorem setFunc_viol (f : Nat) (x : Func) : (s.setFunc f x).viol = s.viol := rfl
@[simp] theorem setFunc_ln (f : Nat) (x : Func) : (s.setFunc f x).ln = s.ln := rfl
@[simp] theorem setFunc_macs (f : Nat) (x : Func) : (s.setFunc f x).macs = s.macs := rfl
@[simp] theorem setFunc_rul (f : Nat) (x : Func) : (s.setFunc f x).rul = s.rul := rfl
@[simp] theorem setFunc_tm (f : Nat) (x : Func) : (s.setFunc f x).tm = s.tm := rfl
@[simp] theorem setFunc_cip (f : Nat) (x : Func) : (s.setFunc f x).cip = s.cip := rfl
@[simp] theorem setFunc_sto (f : Nat) (x : Func) : (s.setFunc f x).sto = s.sto := rfl
@[simp] theorem setFunc_pwr (f : Nat) (x : Func) : (s.setFunc f x).pwr = s.pwr := rfl
@[simp] theorem setFunc_tri (f : Nat) (x : Func) : (s.setFunc f x).tri = s.tri := rfl
@[simp] theorem setFunc_vrs (f : Nat) (x : Func) : (s.setFunc f x).vrs = s.vrs := rfl
@[simp] theorem setFunc_tim (f : Nat) (x : Func) : (s.setFunc f x).tim = s.tim := rfl
@[simp] theorem setFunc_nvm (f : Nat) (x : Func) : (s.setFunc f x).nvm = s.nvm := rfl
@[simp] theorem setFunc_sb (f : Nat) (x : Func) : (s.setFunc f x).sb = s.sb := rfl
@[simp] theorem setFunc_sbSeen (f : Nat) (x : Func) : (s.setFunc f x).sbSeen = s.sbSeen := rfl
@[simp] theorem setFunc_boot (f : Nat) (x : Func) : (s.setFunc f x).boot = s.boot := rfl
@[simp] theorem setFunc_env (f : Nat) (x : Func) : (s.setFunc f x).env = s.env := rfl
@[simp] theorem setFunc_out (f : Nat) (x : Func) : (s.setFunc f x).out = s.out := rfl
@[simp] theorem setFunc_free (f : Nat) (x : Func) : (s.setFunc f x).free = s.free := rfl
@[simp] theorem setFunc_pending (f : Nat) (x : Func) : (s.setFunc f x).pending = s.pending := rfl

-- modFunc
@[simp] theorem modFunc_time (f : Nat) (g : Func → Func) : (s.modFunc f g).time = s.time := rfl
@[simp] theorem modFunc_io (f : Nat) (g : Func → Func) : (s.modFunc f g).io = s.io := rfl
@[simp] theorem modFunc_budget (f : Nat) (g : Func → Func) : (s.modFunc f g).budget = s.budget := rfl
@[simp] theorem modFunc_staging (f : Nat) (g : Func → Func) : (s.modFunc f g).staging = s.staging := rfl
@[simp] theorem modFunc_regs (f : Nat) (g : Func → Func) : (s.modFunc f g).regs = s.regs := rfl
@[simp] theorem modFunc_ctrs (f : Nat) (g : Func → Func) : (s.modFunc f g).ctrs = s.ctrs := rfl
@[simp] theorem modFunc_snap (f : Nat) (g : Func → Func) : (s.modFunc f g).snap = s.snap := rfl
@[simp] theorem modFunc_setAt (f : Nat) (g : Func → Func) : (s.modFunc f g).setAt = s.setAt := rfl
@[simp] theorem modFunc_setNow (f : Nat) (g : Func → Func) : (s.modFunc f g).setNow = s.setNow := rfl
@[simp] theorem modFunc_shadows (f : Nat) (g : Func → Func) : (s.modFunc f g).shadows = s.shadows := rfl
@[simp] theorem modFunc_links (f : Nat) (g : Func → Func) : (s.modFunc f g).links = s.links := rfl
@[simp] theorem modFunc_cmd (f : Nat) (g : Func → Func) : (s.modFunc f g).cmd = s.cmd := rfl
@[simp] theorem modFunc_ins (f : Nat) (g : Func → Func) : (s.modFunc f g).ins = s.ins := rfl
@[simp] theorem modFunc_log (f : Nat) (g : Func → Func) : (s.modFunc f g).log = s.log := rfl
@[simp] theorem modFunc_viol (f : Nat) (g : Func → Func) : (s.modFunc f g).viol = s.viol := rfl
@[simp] theorem modFunc_ln (f : Nat) (g : Func → Func) : (s.modFunc f g).ln = s.ln := rfl
@[simp] theorem modFunc_macs (f : Nat) (g : Func → Func) : (s.modFunc f g).macs = s.macs := rfl
@[simp] theorem modFunc_rul (f : Nat) (g : Func → Func) : (s.modFunc f g).rul = s.rul := rfl
@[simp] theorem modFunc_tm (f : Nat) (g : Func → Func) : (s.modFunc f g).tm = s.tm := rfl
@[simp] theorem modFunc_cip (f : Nat) (g : Func → Func) : (s.modFunc f g).cip = s.cip := rfl
@[simp] theorem modFunc_sto (f : Nat) (g : Func → Func) : (s.modFunc f g).sto = s.sto := rfl
@[simp] theorem modFunc_pwr (f : Nat) (g : Func → Func) : (s.modFunc f g).pwr = s.pwr := rfl
@[simp] theorem modFunc_tri (f : Nat) (g : Func → Func) : (s.modFunc f g).tri = s.tri := rfl
@[simp] theorem modFunc_vrs (f : Nat) (g : Func → Func) : (s.modFunc f g).vrs = s.vrs := rfl
@[simp] theorem modFunc_tim (f : Nat) (g : Func → Func) : (s.modFunc f g).tim = s.tim := rfl
@[simp] theorem modFunc_nvm (f : Nat) (g : Func → Func) : (s.modFunc f g).nvm = s.nvm := rfl
@[simp] theorem modFunc_sb (f : Nat) (g : Func → Func) : (s.modFunc f g).sb = s.sb := rfl
@[simp] theorem modFunc_sbSeen (f : Nat) (g : Func → Func) : (s.modFunc f g).sbSeen = s.sbSeen := rfl
@[simp] theorem modFunc_boot (f : Nat) (g : Func → Func) : (s.modFunc f g).boot = s.boot := rfl
@[simp] theorem modFunc_env (f : Nat) (g : Func → Func) : (s.modFunc f g).env = s.env := rfl
@[simp] theorem modFunc_out (f : Nat) (g : Func → Func) : (s.modFunc f g).out = s.out := rfl
@[simp] theorem modFunc_free (f : Nat) (g : Func → Func) : (s.modFunc f g).free = s.free := rfl
@[simp] theorem modFunc_pending (f : Nat) (g : Func → Func) : (s.modFunc f g).pending = s.pending := rfl

-- modQueue
@[simp] theorem modQueue_time (f : Nat) (g : Queue → Queue) : (s.modQueue f g).time = s.time := rfl
@[simp] theorem modQueue_io (f : Nat) (g : Queue → Queue) : (s.modQueue f g).io = s.io := rfl
@[simp] theorem modQueue_budget (f : Nat) (g : Queue → Queue) : (s.modQueue f g).budget = s.budget := rfl
@[simp] theorem modQueue_staging (f : Nat) (g : Queue → Queue) : (s.modQueue f g).staging = s.staging := rfl
@[simp] theorem modQueue_regs (f : Nat) (g : Queue → Queue) : (s.modQueue f g).regs = s.regs := rfl
@[simp] theorem modQueue_ctrs (f : Nat) (g : Queue → Queue) : (s.modQueue f g).ctrs = s.ctrs := rfl
@[simp] theorem modQueue_snap (f : Nat) (g : Queue → Queue) : (s.modQueue f g).snap = s.snap := rfl
@[simp] theorem modQueue_setAt (f : Nat) (g : Queue → Queue) : (s.modQueue f g).setAt = s.setAt := rfl
@[simp] theorem modQueue_setNow (f : Nat) (g : Queue → Queue) : (s.modQueue f g).setNow = s.setNow := rfl
@[simp] theorem modQueue_shadows (f : Nat) (g : Queue → Queue) : (s.modQueue f g).shadows = s.shadows := rfl
@[simp] theorem modQueue_links (f : Nat) (g : Queue → Queue) : (s.modQueue f g).links = s.links := rfl
@[simp] theorem modQueue_cmd (f : Nat) (g : Queue → Queue) : (s.modQueue f g).cmd = s.cmd := rfl
@[simp] theorem modQueue_ins (f : Nat) (g : Queue → Queue) : (s.modQueue f g).ins = s.ins := rfl
@[simp] theorem modQueue_log (f : Nat) (g : Queue → Queue) : (s.modQueue f g).log = s.log := rfl
@[simp] theorem modQueue_viol (f : Nat) (g : Queue → Queue) : (s.modQueue f g).viol = s.viol := rfl
@[simp] theorem modQueue_ln (f : Nat) (g : Queue → Queue) : (s.modQueue f g).ln = s.ln := rfl
@[simp] theorem modQueue_macs (f : Nat) (g : Queue → Queue) : (s.modQueue f g).macs = s.macs := rfl
@[simp] theorem modQueue_rul (f : Nat) (g : Queue → Queue) : (s.modQueue f g).rul = s.rul := rfl
@[simp] theorem modQueue_tm (f : Nat) (g : Queue → Queue) : (s.modQueue f g).tm = s.tm := rfl
@[simp] theorem modQueue_cip (f : Nat) (g : Queue → Queue) : (s.modQueue f g).cip = s.cip := rfl
@[simp] theorem modQueue_sto (f : Nat) (g : Queue → Queue) : (s.modQueue f g).sto = s.sto := rfl
@[simp] theorem modQueue_pwr (f : Nat) (g : Queue → Queue) : (s.modQueue f g).pwr = s.pwr := rfl
@[simp] theorem modQueue_tri (f : Nat) (g : Queue → Queue) : (s.modQueue f g).tri = s.tri := rfl
@[simp] theorem modQueue_vrs (f : Nat) (g : Queue → Queue) : (s.modQueue f g).vrs = s.vrs := rfl
@[simp] theorem modQueue_tim (f : Nat) (g : Queue → Queue) : (s.modQueue f g).tim = s.tim := rfl
@[simp] theorem modQueue_nvm (f : Nat) (g : Queue → Queue) : (s.modQueue f g).nvm = s.nvm := rfl
@[simp] theorem modQueue_sb (f : Nat) (g : Queue → Queue) : (s.modQueue f g).sb = s.sb := rfl
@[simp] theorem modQueue_sbSeen (f : Nat) (g : Queue → Queue) : (s.modQueue f g).sbSeen = s.sbSeen := rfl
@[simp] theorem modQueue_boot (f : Nat) (g : Queue → Queue) : (s.modQueue f g).boot = s.boot := rfl
@[simp] theorem modQueue_env (f : Nat) (g : Queue → Queue) : (s.modQueue f g).env = s.env := rfl
@[simp] theorem modQueue_out (f : Nat) (g : Queue → Queue) : (s.modQueue f g).out = s.out := rfl
@[simp] theorem modQueue_free (f : Nat) (g : Queue → Queue) : (s.modQueue f g).free = s.free := rfl
@[simp] theorem modQueue_pending (f : Nat) (g : Queue → Queue) : (s.modQueue f g).pending = s.pending := rfl

-- setIns
@[simp] theorem setIns_time (i : Nat) (x : Ins) : (s.setIns i x).time = s.time := rfl
@[simp] theorem setIns_io (i : Nat) (x : Ins) : (s.setIns i x).io = s.io := rfl
@[simp] theorem setIns_budget (i : Nat) (x : Ins) : (s.setIns i x).budget = s.budget := rfl
@[simp] theorem setIns_staging (i : Nat) (x : Ins) : (s.setIns i x).staging = s.staging := rfl
@[simp] theorem setIns_regs (i : Nat) (x : Ins) : (s.setIns i x).regs = s.regs := rfl
@[simp] theorem setIns_ctrs (i : Nat) (x : Ins) : (s.setIns i x).ctrs = s.ctrs := rfl
@[simp] theorem setIns_snap (i : Nat) (x : Ins) : (s.setIns i x).snap = s.snap := rfl
@[simp] theorem setIns_setAt (i : Nat) (x : Ins) : (s.setIns i x).setAt = s.setAt := rfl
@[simp] theorem setIns_setNow (i : Nat) (x : Ins) : (s.setIns i x).setNow = s.setNow := rfl
@[simp] theorem setIns_shadows (i : Nat) (x : Ins) : (s.setIns i x).shadows = s.shadows := rfl
@[simp] theorem setIns_links (i : Nat) (x : Ins) : (s.setIns i x).links = s.links := rfl
@[simp] theorem setIns_funcs (i : Nat) (x : Ins) : (s.setIns i x).funcs = s.funcs := rfl
@[simp] theorem setIns_cmd (i : Nat) (x : Ins) : (s.setIns i x).cmd = s.cmd := rfl
@[simp] theorem setIns_log (i : Nat) (x : Ins) : (s.setIns i x).log = s.log := rfl
@[simp] theorem setIns_viol (i : Nat) (x : Ins) : (s.setIns i x).viol = s.viol := rfl
@[simp] theorem setIns_ln (i : Nat) (x : Ins) : (s.setIns i x).ln = s.ln := rfl
@[simp] theorem setIns_macs (i : Nat) (x : Ins) : (s.setIns i x).macs = s.macs := rfl
@[simp] theorem setIns_rul (i : Nat) (x : Ins) : (s.setIns i x).rul = s.rul := rfl
@[simp] theorem setIns_tm (i : Nat) (x : Ins) : (s.setIns i x).tm = s.tm := rfl
@[simp] theorem setIns_cip (i : Nat) (x : Ins) : (s.setIns i x).cip = s.cip := rfl
@[simp] theorem setIns_sto (i : Nat) (x : Ins) : (s.setIns i x).sto = s.sto := rfl
@[simp] theorem setIns_pwr (i : Nat) (x : Ins) : (s.setIns i x).pwr = s.pwr := rfl
@[simp] theorem setIns_tri (i : Nat) (x : Ins) : (s.setIns i x).tri = s.tri := rfl
@[simp] theorem setIns_vrs (i : Nat) (x : Ins) : (s.setIns i x).vrs = s.vrs := rfl
@[simp] theorem setIns_tim (i : Nat) (x : Ins) : (s.setIns i x).tim = s.tim := rfl
@[simp] theorem setIns_nvm (i : Nat) (x : Ins) : (s.setIns i x).nvm = s.nvm := rfl
@[simp] theorem setIns_sb (i : Nat) (x : Ins) : (s.setIns i x).sb = s.sb := rfl
@[simp] theorem setIns_sbSeen (i : Nat) (x : Ins) : (s.setIns i x).sbSeen = s.sbSeen := rfl
@[simp] theorem setIns_boot (i : Nat) (x : Ins) : (s.setIns i x).boot = s.boot := rfl
@[simp] theorem setIns_env (i : Nat) (x : Ins) : (s.setIns i x).env = s.env := rfl
@[simp] theorem setIns_out (i : Nat) (x : Ins) : (s.setIns i x).out = s.out := rfl
@[simp] theorem setIns_free (i : Nat) (x : Ins) : (s.setIns i x).free = s.free := rfl
@[simp] theorem setIns_pending (i : Nat) (x : Ins) : (s.setIns i x).pending = s.pending := rfl

-- modIns
@[simp] theorem modIns_time (i : Nat) (g : Ins → Ins) : (s.modIns i g).time = s.time := rfl
@[simp] theorem modIns_io (i : Nat) (g : Ins → Ins) : (s.modIns i g).io = s.io := rfl
@[simp] theorem modIns_budget (i : Nat) (g : Ins → Ins) : (s.modIns i g).budget = s.budget := rfl
@[simp] theorem modIns_staging (i : Nat) (g : Ins → Ins) : (s.modIns i g).staging = s.staging := rfl
@[simp] theorem modIns_regs (i : Nat) (g : Ins → Ins) : (s.modIns i g).regs = s.regs := rfl
@[simp] theorem modIns_ctrs (i : Nat) (g : Ins → Ins) : (s.modIns i g).ctrs = s.ctrs := rfl
@[simp] theorem modIns_snap (i : Nat) (g : Ins → Ins) : (s.modIns i g).snap = s.snap := rfl
@[simp] theorem modIns_setAt (i : Nat) (g : Ins → Ins) : (s.modIns i g).setAt = s.setAt := rfl
@[simp] theorem modIns_setNow (i : Nat) (g : Ins → Ins) : (s.modIns i g).setNow = s.setNow := rfl
@[simp] theorem modIns_shadows (i : Nat) (g : Ins → Ins) : (s.modIns i g).shadows = s.shadows := rfl
@[simp] theorem modIns_links (i : Nat) (g : Ins → Ins) : (s.modIns i g).links = s.links := rfl
@[simp] theorem modIns_funcs (i : Nat) (g : Ins → Ins) : (s.modIns i g).funcs = s.funcs := rfl
@[simp] theorem modIns_cmd (i : Nat) (g : Ins → Ins) : (s.modIns i g).cmd = s.cmd := rfl
@[simp] theorem modIns_log (i : Nat) (g : Ins → Ins) : (s.modIns i g).log = s.log := rfl
@[simp] theorem modIns_viol (i : Nat) (g : Ins → Ins) : (s.modIns i g).viol = s.viol := rfl
@[simp] theorem modIns_ln (i : Nat) (g : Ins → Ins) : (s.modIns i g).ln = s.ln := rfl
@[simp] theorem modIns_macs (i : Nat) (g : Ins → Ins) : (s.modIns i g).macs = s.macs := rfl
@[simp] theorem modIns_rul (i : Nat) (g : Ins → Ins) : (s.modIns i g).rul = s.rul := rfl
@[simp] theorem modIns_tm (i : Nat) (g : Ins → Ins) : (s.modIns i g).tm = s.tm := rfl
@[simp] theorem modIns_cip (i : Nat) (g : Ins → Ins) : (s.modIns i g).cip = s.cip := rfl
@[simp] theorem modIns_sto (i : Nat) (g : Ins → Ins) : (s.modIns i g).sto = s.sto := rfl
@[simp] theorem modIns_pwr (i : Nat) (g : Ins → Ins) : (s.modIns i g).pwr = s.pwr := rfl
@[simp] theorem modIns_tri (i : Nat) (g : Ins → Ins) : (s.modIns i g).tri = s.tri := rfl
@[simp] theorem modIns_vrs (i : Nat) (g : Ins → Ins) : (s.modIns i g).vrs = s.vrs := rfl
@[simp] theorem modIns_tim (i : Nat) (g : Ins → Ins) : (s.modIns i g).tim = s.tim := rfl
@[simp] theorem modIns_nvm (i : Nat) (g : Ins → Ins) : (s.modIns i g).nvm = s.nvm := rfl
@[simp] theorem modIns_sb (i : Nat) (g : Ins → Ins) : (s.modIns i g).sb = s.sb := rfl
@[simp] theorem modIns_sbSeen (i : Nat) (g : Ins → Ins) : (s.modIns i g).sbSeen = s.sbSeen := rfl
@[simp] theorem modIns_boot (i : Nat) (g : Ins → Ins) : (s.modIns i g).boot = s.boot := rfl
@[simp] theorem modIns_env (i : Nat) (g : Ins → Ins) : (s.modIns i g).env = s.env := rfl
@[simp] theorem modIns_out (i : Nat) (g : Ins → Ins) : (s.modIns i g).out = s.out := rfl
@[simp] theorem modIns_free (i : Nat) (g : Ins → Ins) : (s.modIns i g).free = s.free := rfl
@[simp] theorem modIns_pending (i : Nat) (g : Ins → Ins) : (s.modIns i g).pending = s.pending := rfl

-- setQp
@[simp] theorem setQp_time (i k : Nat) (x : Qp) : (s.setQp i k x).time = s.time := rfl
@[simp] theorem setQp_io (i k : Nat) (x : Qp) : (s.setQp i k x).io = s.io := rfl
@[simp] theorem setQp_budget (i k : Nat) (x : Qp) : (s.setQp i k x).budget = s.budget := rfl
@[simp] theorem setQp_staging (i k : Nat) (x : Qp) : (s.setQp i k x).staging = s.staging := rfl
@[simp] theorem setQp_regs (i k : Nat) (x : Qp) : (s.setQp i k x).regs = s.regs := rfl
@[simp] theorem setQp_ctrs (i k : Nat) (x : Qp) : (s.setQp i k x).ctrs = s.ctrs := rfl
@[simp] theorem setQp_snap (i k : Nat) (x : Qp) : (s.setQp i k x).snap = s.snap := rfl
@[simp] theorem setQp_setAt (i k : Nat) (x : Qp) : (s.setQp i k x).setAt = s.setAt := rfl
@[simp] theorem setQp_setNow (i k : Nat) (x : Qp) : (s.setQp i k x).setNow = s.setNow := rfl
@[simp] theorem setQp_shadows (i k : Nat) (x : Qp) : (s.setQp i k x).shadows = s.shadows := rfl
@[simp] theorem setQp_links (i k : Nat) (x : Qp) : (s.setQp i k x).links = s.links := rfl
@[simp] theorem setQp_funcs (i k : Nat) (x : Qp) : (s.setQp i k x).funcs = s.funcs := rfl
@[simp] theorem setQp_cmd (i k : Nat) (x : Qp) : (s.setQp i k x).cmd = s.cmd := rfl
@[simp] theorem setQp_log (i k : Nat) (x : Qp) : (s.setQp i k x).log = s.log := rfl
@[simp] theorem setQp_viol (i k : Nat) (x : Qp) : (s.setQp i k x).viol = s.viol := rfl
@[simp] theorem setQp_ln (i k : Nat) (x : Qp) : (s.setQp i k x).ln = s.ln := rfl
@[simp] theorem setQp_macs (i k : Nat) (x : Qp) : (s.setQp i k x).macs = s.macs := rfl
@[simp] theorem setQp_rul (i k : Nat) (x : Qp) : (s.setQp i k x).rul = s.rul := rfl
@[simp] theorem setQp_tm (i k : Nat) (x : Qp) : (s.setQp i k x).tm = s.tm := rfl
@[simp] theorem setQp_cip (i k : Nat) (x : Qp) : (s.setQp i k x).cip = s.cip := rfl
@[simp] theorem setQp_sto (i k : Nat) (x : Qp) : (s.setQp i k x).sto = s.sto := rfl
@[simp] theorem setQp_pwr (i k : Nat) (x : Qp) : (s.setQp i k x).pwr = s.pwr := rfl
@[simp] theorem setQp_tri (i k : Nat) (x : Qp) : (s.setQp i k x).tri = s.tri := rfl
@[simp] theorem setQp_vrs (i k : Nat) (x : Qp) : (s.setQp i k x).vrs = s.vrs := rfl
@[simp] theorem setQp_tim (i k : Nat) (x : Qp) : (s.setQp i k x).tim = s.tim := rfl
@[simp] theorem setQp_nvm (i k : Nat) (x : Qp) : (s.setQp i k x).nvm = s.nvm := rfl
@[simp] theorem setQp_sb (i k : Nat) (x : Qp) : (s.setQp i k x).sb = s.sb := rfl
@[simp] theorem setQp_sbSeen (i k : Nat) (x : Qp) : (s.setQp i k x).sbSeen = s.sbSeen := rfl
@[simp] theorem setQp_boot (i k : Nat) (x : Qp) : (s.setQp i k x).boot = s.boot := rfl
@[simp] theorem setQp_env (i k : Nat) (x : Qp) : (s.setQp i k x).env = s.env := rfl
@[simp] theorem setQp_out (i k : Nat) (x : Qp) : (s.setQp i k x).out = s.out := rfl
@[simp] theorem setQp_free (i k : Nat) (x : Qp) : (s.setQp i k x).free = s.free := rfl
@[simp] theorem setQp_pending (i k : Nat) (x : Qp) : (s.setQp i k x).pending = s.pending := rfl

-- emit
@[simp] theorem emit_time (o : Output) : (s.emit o).time = s.time := rfl
@[simp] theorem emit_io (o : Output) : (s.emit o).io = s.io := rfl
@[simp] theorem emit_budget (o : Output) : (s.emit o).budget = s.budget := rfl
@[simp] theorem emit_staging (o : Output) : (s.emit o).staging = s.staging := rfl
@[simp] theorem emit_regs (o : Output) : (s.emit o).regs = s.regs := rfl
@[simp] theorem emit_ctrs (o : Output) : (s.emit o).ctrs = s.ctrs := rfl
@[simp] theorem emit_snap (o : Output) : (s.emit o).snap = s.snap := rfl
@[simp] theorem emit_setAt (o : Output) : (s.emit o).setAt = s.setAt := rfl
@[simp] theorem emit_setNow (o : Output) : (s.emit o).setNow = s.setNow := rfl
@[simp] theorem emit_shadows (o : Output) : (s.emit o).shadows = s.shadows := rfl
@[simp] theorem emit_links (o : Output) : (s.emit o).links = s.links := rfl
@[simp] theorem emit_funcs (o : Output) : (s.emit o).funcs = s.funcs := rfl
@[simp] theorem emit_cmd (o : Output) : (s.emit o).cmd = s.cmd := rfl
@[simp] theorem emit_ins (o : Output) : (s.emit o).ins = s.ins := rfl
@[simp] theorem emit_log (o : Output) : (s.emit o).log = s.log := rfl
@[simp] theorem emit_viol (o : Output) : (s.emit o).viol = s.viol := rfl
@[simp] theorem emit_ln (o : Output) : (s.emit o).ln = s.ln := rfl
@[simp] theorem emit_macs (o : Output) : (s.emit o).macs = s.macs := rfl
@[simp] theorem emit_rul (o : Output) : (s.emit o).rul = s.rul := rfl
@[simp] theorem emit_tm (o : Output) : (s.emit o).tm = s.tm := rfl
@[simp] theorem emit_cip (o : Output) : (s.emit o).cip = s.cip := rfl
@[simp] theorem emit_sto (o : Output) : (s.emit o).sto = s.sto := rfl
@[simp] theorem emit_pwr (o : Output) : (s.emit o).pwr = s.pwr := rfl
@[simp] theorem emit_tri (o : Output) : (s.emit o).tri = s.tri := rfl
@[simp] theorem emit_vrs (o : Output) : (s.emit o).vrs = s.vrs := rfl
@[simp] theorem emit_tim (o : Output) : (s.emit o).tim = s.tim := rfl
@[simp] theorem emit_nvm (o : Output) : (s.emit o).nvm = s.nvm := rfl
@[simp] theorem emit_sb (o : Output) : (s.emit o).sb = s.sb := rfl
@[simp] theorem emit_sbSeen (o : Output) : (s.emit o).sbSeen = s.sbSeen := rfl
@[simp] theorem emit_boot (o : Output) : (s.emit o).boot = s.boot := rfl
@[simp] theorem emit_env (o : Output) : (s.emit o).env = s.env := rfl
@[simp] theorem emit_free (o : Output) : (s.emit o).free = s.free := rfl
@[simp] theorem emit_pending (o : Output) : (s.emit o).pending = s.pending := rfl

-- setLane
@[simp] theorem setLane_time (n : Nat) (x : Lane) : (s.setLane n x).time = s.time := rfl
@[simp] theorem setLane_io (n : Nat) (x : Lane) : (s.setLane n x).io = s.io := rfl
@[simp] theorem setLane_budget (n : Nat) (x : Lane) : (s.setLane n x).budget = s.budget := rfl
@[simp] theorem setLane_staging (n : Nat) (x : Lane) : (s.setLane n x).staging = s.staging := rfl
@[simp] theorem setLane_regs (n : Nat) (x : Lane) : (s.setLane n x).regs = s.regs := rfl
@[simp] theorem setLane_ctrs (n : Nat) (x : Lane) : (s.setLane n x).ctrs = s.ctrs := rfl
@[simp] theorem setLane_snap (n : Nat) (x : Lane) : (s.setLane n x).snap = s.snap := rfl
@[simp] theorem setLane_setAt (n : Nat) (x : Lane) : (s.setLane n x).setAt = s.setAt := rfl
@[simp] theorem setLane_setNow (n : Nat) (x : Lane) : (s.setLane n x).setNow = s.setNow := rfl
@[simp] theorem setLane_shadows (n : Nat) (x : Lane) : (s.setLane n x).shadows = s.shadows := rfl
@[simp] theorem setLane_links (n : Nat) (x : Lane) : (s.setLane n x).links = s.links := rfl
@[simp] theorem setLane_funcs (n : Nat) (x : Lane) : (s.setLane n x).funcs = s.funcs := rfl
@[simp] theorem setLane_cmd (n : Nat) (x : Lane) : (s.setLane n x).cmd = s.cmd := rfl
@[simp] theorem setLane_ins (n : Nat) (x : Lane) : (s.setLane n x).ins = s.ins := rfl
@[simp] theorem setLane_log (n : Nat) (x : Lane) : (s.setLane n x).log = s.log := rfl
@[simp] theorem setLane_viol (n : Nat) (x : Lane) : (s.setLane n x).viol = s.viol := rfl
@[simp] theorem setLane_macs (n : Nat) (x : Lane) : (s.setLane n x).macs = s.macs := rfl
@[simp] theorem setLane_rul (n : Nat) (x : Lane) : (s.setLane n x).rul = s.rul := rfl
@[simp] theorem setLane_tm (n : Nat) (x : Lane) : (s.setLane n x).tm = s.tm := rfl
@[simp] theorem setLane_cip (n : Nat) (x : Lane) : (s.setLane n x).cip = s.cip := rfl
@[simp] theorem setLane_sto (n : Nat) (x : Lane) : (s.setLane n x).sto = s.sto := rfl
@[simp] theorem setLane_pwr (n : Nat) (x : Lane) : (s.setLane n x).pwr = s.pwr := rfl
@[simp] theorem setLane_tri (n : Nat) (x : Lane) : (s.setLane n x).tri = s.tri := rfl
@[simp] theorem setLane_vrs (n : Nat) (x : Lane) : (s.setLane n x).vrs = s.vrs := rfl
@[simp] theorem setLane_tim (n : Nat) (x : Lane) : (s.setLane n x).tim = s.tim := rfl
@[simp] theorem setLane_nvm (n : Nat) (x : Lane) : (s.setLane n x).nvm = s.nvm := rfl
@[simp] theorem setLane_sb (n : Nat) (x : Lane) : (s.setLane n x).sb = s.sb := rfl
@[simp] theorem setLane_sbSeen (n : Nat) (x : Lane) : (s.setLane n x).sbSeen = s.sbSeen := rfl
@[simp] theorem setLane_boot (n : Nat) (x : Lane) : (s.setLane n x).boot = s.boot := rfl
@[simp] theorem setLane_env (n : Nat) (x : Lane) : (s.setLane n x).env = s.env := rfl
@[simp] theorem setLane_out (n : Nat) (x : Lane) : (s.setLane n x).out = s.out := rfl
@[simp] theorem setLane_free (n : Nat) (x : Lane) : (s.setLane n x).free = s.free := rfl
@[simp] theorem setLane_pending (n : Nat) (x : Lane) : (s.setLane n x).pending = s.pending := rfl

-- setPort
@[simp] theorem setPort_time (p : Nat) (x : Port) : (s.setPort p x).time = s.time := rfl
@[simp] theorem setPort_io (p : Nat) (x : Port) : (s.setPort p x).io = s.io := rfl
@[simp] theorem setPort_budget (p : Nat) (x : Port) : (s.setPort p x).budget = s.budget := rfl
@[simp] theorem setPort_staging (p : Nat) (x : Port) : (s.setPort p x).staging = s.staging := rfl
@[simp] theorem setPort_regs (p : Nat) (x : Port) : (s.setPort p x).regs = s.regs := rfl
@[simp] theorem setPort_ctrs (p : Nat) (x : Port) : (s.setPort p x).ctrs = s.ctrs := rfl
@[simp] theorem setPort_snap (p : Nat) (x : Port) : (s.setPort p x).snap = s.snap := rfl
@[simp] theorem setPort_setAt (p : Nat) (x : Port) : (s.setPort p x).setAt = s.setAt := rfl
@[simp] theorem setPort_setNow (p : Nat) (x : Port) : (s.setPort p x).setNow = s.setNow := rfl
@[simp] theorem setPort_shadows (p : Nat) (x : Port) : (s.setPort p x).shadows = s.shadows := rfl
@[simp] theorem setPort_links (p : Nat) (x : Port) : (s.setPort p x).links = s.links := rfl
@[simp] theorem setPort_funcs (p : Nat) (x : Port) : (s.setPort p x).funcs = s.funcs := rfl
@[simp] theorem setPort_cmd (p : Nat) (x : Port) : (s.setPort p x).cmd = s.cmd := rfl
@[simp] theorem setPort_ins (p : Nat) (x : Port) : (s.setPort p x).ins = s.ins := rfl
@[simp] theorem setPort_log (p : Nat) (x : Port) : (s.setPort p x).log = s.log := rfl
@[simp] theorem setPort_viol (p : Nat) (x : Port) : (s.setPort p x).viol = s.viol := rfl
@[simp] theorem setPort_macs (p : Nat) (x : Port) : (s.setPort p x).macs = s.macs := rfl
@[simp] theorem setPort_rul (p : Nat) (x : Port) : (s.setPort p x).rul = s.rul := rfl
@[simp] theorem setPort_tm (p : Nat) (x : Port) : (s.setPort p x).tm = s.tm := rfl
@[simp] theorem setPort_cip (p : Nat) (x : Port) : (s.setPort p x).cip = s.cip := rfl
@[simp] theorem setPort_sto (p : Nat) (x : Port) : (s.setPort p x).sto = s.sto := rfl
@[simp] theorem setPort_pwr (p : Nat) (x : Port) : (s.setPort p x).pwr = s.pwr := rfl
@[simp] theorem setPort_tri (p : Nat) (x : Port) : (s.setPort p x).tri = s.tri := rfl
@[simp] theorem setPort_vrs (p : Nat) (x : Port) : (s.setPort p x).vrs = s.vrs := rfl
@[simp] theorem setPort_tim (p : Nat) (x : Port) : (s.setPort p x).tim = s.tim := rfl
@[simp] theorem setPort_nvm (p : Nat) (x : Port) : (s.setPort p x).nvm = s.nvm := rfl
@[simp] theorem setPort_sb (p : Nat) (x : Port) : (s.setPort p x).sb = s.sb := rfl
@[simp] theorem setPort_sbSeen (p : Nat) (x : Port) : (s.setPort p x).sbSeen = s.sbSeen := rfl
@[simp] theorem setPort_boot (p : Nat) (x : Port) : (s.setPort p x).boot = s.boot := rfl
@[simp] theorem setPort_env (p : Nat) (x : Port) : (s.setPort p x).env = s.env := rfl
@[simp] theorem setPort_out (p : Nat) (x : Port) : (s.setPort p x).out = s.out := rfl
@[simp] theorem setPort_free (p : Nat) (x : Port) : (s.setPort p x).free = s.free := rfl
@[simp] theorem setPort_pending (p : Nat) (x : Port) : (s.setPort p x).pending = s.pending := rfl

-- setMac
@[simp] theorem setMac_time (p : Nat) (x : MacPort) : (s.setMac p x).time = s.time := rfl
@[simp] theorem setMac_io (p : Nat) (x : MacPort) : (s.setMac p x).io = s.io := rfl
@[simp] theorem setMac_budget (p : Nat) (x : MacPort) : (s.setMac p x).budget = s.budget := rfl
@[simp] theorem setMac_staging (p : Nat) (x : MacPort) : (s.setMac p x).staging = s.staging := rfl
@[simp] theorem setMac_regs (p : Nat) (x : MacPort) : (s.setMac p x).regs = s.regs := rfl
@[simp] theorem setMac_ctrs (p : Nat) (x : MacPort) : (s.setMac p x).ctrs = s.ctrs := rfl
@[simp] theorem setMac_snap (p : Nat) (x : MacPort) : (s.setMac p x).snap = s.snap := rfl
@[simp] theorem setMac_setAt (p : Nat) (x : MacPort) : (s.setMac p x).setAt = s.setAt := rfl
@[simp] theorem setMac_setNow (p : Nat) (x : MacPort) : (s.setMac p x).setNow = s.setNow := rfl
@[simp] theorem setMac_shadows (p : Nat) (x : MacPort) : (s.setMac p x).shadows = s.shadows := rfl
@[simp] theorem setMac_links (p : Nat) (x : MacPort) : (s.setMac p x).links = s.links := rfl
@[simp] theorem setMac_funcs (p : Nat) (x : MacPort) : (s.setMac p x).funcs = s.funcs := rfl
@[simp] theorem setMac_cmd (p : Nat) (x : MacPort) : (s.setMac p x).cmd = s.cmd := rfl
@[simp] theorem setMac_ins (p : Nat) (x : MacPort) : (s.setMac p x).ins = s.ins := rfl
@[simp] theorem setMac_log (p : Nat) (x : MacPort) : (s.setMac p x).log = s.log := rfl
@[simp] theorem setMac_viol (p : Nat) (x : MacPort) : (s.setMac p x).viol = s.viol := rfl
@[simp] theorem setMac_ln (p : Nat) (x : MacPort) : (s.setMac p x).ln = s.ln := rfl
@[simp] theorem setMac_rul (p : Nat) (x : MacPort) : (s.setMac p x).rul = s.rul := rfl
@[simp] theorem setMac_tm (p : Nat) (x : MacPort) : (s.setMac p x).tm = s.tm := rfl
@[simp] theorem setMac_cip (p : Nat) (x : MacPort) : (s.setMac p x).cip = s.cip := rfl
@[simp] theorem setMac_sto (p : Nat) (x : MacPort) : (s.setMac p x).sto = s.sto := rfl
@[simp] theorem setMac_pwr (p : Nat) (x : MacPort) : (s.setMac p x).pwr = s.pwr := rfl
@[simp] theorem setMac_tri (p : Nat) (x : MacPort) : (s.setMac p x).tri = s.tri := rfl
@[simp] theorem setMac_vrs (p : Nat) (x : MacPort) : (s.setMac p x).vrs = s.vrs := rfl
@[simp] theorem setMac_tim (p : Nat) (x : MacPort) : (s.setMac p x).tim = s.tim := rfl
@[simp] theorem setMac_nvm (p : Nat) (x : MacPort) : (s.setMac p x).nvm = s.nvm := rfl
@[simp] theorem setMac_sb (p : Nat) (x : MacPort) : (s.setMac p x).sb = s.sb := rfl
@[simp] theorem setMac_sbSeen (p : Nat) (x : MacPort) : (s.setMac p x).sbSeen = s.sbSeen := rfl
@[simp] theorem setMac_boot (p : Nat) (x : MacPort) : (s.setMac p x).boot = s.boot := rfl
@[simp] theorem setMac_env (p : Nat) (x : MacPort) : (s.setMac p x).env = s.env := rfl
@[simp] theorem setMac_out (p : Nat) (x : MacPort) : (s.setMac p x).out = s.out := rfl
@[simp] theorem setMac_free (p : Nat) (x : MacPort) : (s.setMac p x).free = s.free := rfl
@[simp] theorem setMac_pending (p : Nat) (x : MacPort) : (s.setMac p x).pending = s.pending := rfl

-- setSb
@[simp] theorem setSb_time (p : Nat) (x : SbPort) : (s.setSb p x).time = s.time := rfl
@[simp] theorem setSb_io (p : Nat) (x : SbPort) : (s.setSb p x).io = s.io := rfl
@[simp] theorem setSb_budget (p : Nat) (x : SbPort) : (s.setSb p x).budget = s.budget := rfl
@[simp] theorem setSb_staging (p : Nat) (x : SbPort) : (s.setSb p x).staging = s.staging := rfl
@[simp] theorem setSb_regs (p : Nat) (x : SbPort) : (s.setSb p x).regs = s.regs := rfl
@[simp] theorem setSb_ctrs (p : Nat) (x : SbPort) : (s.setSb p x).ctrs = s.ctrs := rfl
@[simp] theorem setSb_snap (p : Nat) (x : SbPort) : (s.setSb p x).snap = s.snap := rfl
@[simp] theorem setSb_setAt (p : Nat) (x : SbPort) : (s.setSb p x).setAt = s.setAt := rfl
@[simp] theorem setSb_setNow (p : Nat) (x : SbPort) : (s.setSb p x).setNow = s.setNow := rfl
@[simp] theorem setSb_shadows (p : Nat) (x : SbPort) : (s.setSb p x).shadows = s.shadows := rfl
@[simp] theorem setSb_links (p : Nat) (x : SbPort) : (s.setSb p x).links = s.links := rfl
@[simp] theorem setSb_funcs (p : Nat) (x : SbPort) : (s.setSb p x).funcs = s.funcs := rfl
@[simp] theorem setSb_cmd (p : Nat) (x : SbPort) : (s.setSb p x).cmd = s.cmd := rfl
@[simp] theorem setSb_ins (p : Nat) (x : SbPort) : (s.setSb p x).ins = s.ins := rfl
@[simp] theorem setSb_log (p : Nat) (x : SbPort) : (s.setSb p x).log = s.log := rfl
@[simp] theorem setSb_viol (p : Nat) (x : SbPort) : (s.setSb p x).viol = s.viol := rfl
@[simp] theorem setSb_ln (p : Nat) (x : SbPort) : (s.setSb p x).ln = s.ln := rfl
@[simp] theorem setSb_macs (p : Nat) (x : SbPort) : (s.setSb p x).macs = s.macs := rfl
@[simp] theorem setSb_rul (p : Nat) (x : SbPort) : (s.setSb p x).rul = s.rul := rfl
@[simp] theorem setSb_tm (p : Nat) (x : SbPort) : (s.setSb p x).tm = s.tm := rfl
@[simp] theorem setSb_cip (p : Nat) (x : SbPort) : (s.setSb p x).cip = s.cip := rfl
@[simp] theorem setSb_sto (p : Nat) (x : SbPort) : (s.setSb p x).sto = s.sto := rfl
@[simp] theorem setSb_pwr (p : Nat) (x : SbPort) : (s.setSb p x).pwr = s.pwr := rfl
@[simp] theorem setSb_tri (p : Nat) (x : SbPort) : (s.setSb p x).tri = s.tri := rfl
@[simp] theorem setSb_vrs (p : Nat) (x : SbPort) : (s.setSb p x).vrs = s.vrs := rfl
@[simp] theorem setSb_tim (p : Nat) (x : SbPort) : (s.setSb p x).tim = s.tim := rfl
@[simp] theorem setSb_nvm (p : Nat) (x : SbPort) : (s.setSb p x).nvm = s.nvm := rfl
@[simp] theorem setSb_sbSeen (p : Nat) (x : SbPort) : (s.setSb p x).sbSeen = s.sbSeen := rfl
@[simp] theorem setSb_boot (p : Nat) (x : SbPort) : (s.setSb p x).boot = s.boot := rfl
@[simp] theorem setSb_env (p : Nat) (x : SbPort) : (s.setSb p x).env = s.env := rfl
@[simp] theorem setSb_out (p : Nat) (x : SbPort) : (s.setSb p x).out = s.out := rfl
@[simp] theorem setSb_free (p : Nat) (x : SbPort) : (s.setSb p x).free = s.free := rfl
@[simp] theorem setSb_pending (p : Nat) (x : SbPort) : (s.setSb p x).pending = s.pending := rfl

-- setTriad
@[simp] theorem setTriad_time (t : Nat) (x : Triad) : (s.setTriad t x).time = s.time := rfl
@[simp] theorem setTriad_io (t : Nat) (x : Triad) : (s.setTriad t x).io = s.io := rfl
@[simp] theorem setTriad_budget (t : Nat) (x : Triad) : (s.setTriad t x).budget = s.budget := rfl
@[simp] theorem setTriad_staging (t : Nat) (x : Triad) : (s.setTriad t x).staging = s.staging := rfl
@[simp] theorem setTriad_regs (t : Nat) (x : Triad) : (s.setTriad t x).regs = s.regs := rfl
@[simp] theorem setTriad_ctrs (t : Nat) (x : Triad) : (s.setTriad t x).ctrs = s.ctrs := rfl
@[simp] theorem setTriad_snap (t : Nat) (x : Triad) : (s.setTriad t x).snap = s.snap := rfl
@[simp] theorem setTriad_setAt (t : Nat) (x : Triad) : (s.setTriad t x).setAt = s.setAt := rfl
@[simp] theorem setTriad_setNow (t : Nat) (x : Triad) : (s.setTriad t x).setNow = s.setNow := rfl
@[simp] theorem setTriad_shadows (t : Nat) (x : Triad) : (s.setTriad t x).shadows = s.shadows := rfl
@[simp] theorem setTriad_links (t : Nat) (x : Triad) : (s.setTriad t x).links = s.links := rfl
@[simp] theorem setTriad_funcs (t : Nat) (x : Triad) : (s.setTriad t x).funcs = s.funcs := rfl
@[simp] theorem setTriad_cmd (t : Nat) (x : Triad) : (s.setTriad t x).cmd = s.cmd := rfl
@[simp] theorem setTriad_ins (t : Nat) (x : Triad) : (s.setTriad t x).ins = s.ins := rfl
@[simp] theorem setTriad_log (t : Nat) (x : Triad) : (s.setTriad t x).log = s.log := rfl
@[simp] theorem setTriad_viol (t : Nat) (x : Triad) : (s.setTriad t x).viol = s.viol := rfl
@[simp] theorem setTriad_ln (t : Nat) (x : Triad) : (s.setTriad t x).ln = s.ln := rfl
@[simp] theorem setTriad_macs (t : Nat) (x : Triad) : (s.setTriad t x).macs = s.macs := rfl
@[simp] theorem setTriad_rul (t : Nat) (x : Triad) : (s.setTriad t x).rul = s.rul := rfl
@[simp] theorem setTriad_tm (t : Nat) (x : Triad) : (s.setTriad t x).tm = s.tm := rfl
@[simp] theorem setTriad_cip (t : Nat) (x : Triad) : (s.setTriad t x).cip = s.cip := rfl
@[simp] theorem setTriad_sto (t : Nat) (x : Triad) : (s.setTriad t x).sto = s.sto := rfl
@[simp] theorem setTriad_pwr (t : Nat) (x : Triad) : (s.setTriad t x).pwr = s.pwr := rfl
@[simp] theorem setTriad_vrs (t : Nat) (x : Triad) : (s.setTriad t x).vrs = s.vrs := rfl
@[simp] theorem setTriad_tim (t : Nat) (x : Triad) : (s.setTriad t x).tim = s.tim := rfl
@[simp] theorem setTriad_nvm (t : Nat) (x : Triad) : (s.setTriad t x).nvm = s.nvm := rfl
@[simp] theorem setTriad_sb (t : Nat) (x : Triad) : (s.setTriad t x).sb = s.sb := rfl
@[simp] theorem setTriad_sbSeen (t : Nat) (x : Triad) : (s.setTriad t x).sbSeen = s.sbSeen := rfl
@[simp] theorem setTriad_boot (t : Nat) (x : Triad) : (s.setTriad t x).boot = s.boot := rfl
@[simp] theorem setTriad_env (t : Nat) (x : Triad) : (s.setTriad t x).env = s.env := rfl
@[simp] theorem setTriad_out (t : Nat) (x : Triad) : (s.setTriad t x).out = s.out := rfl
@[simp] theorem setTriad_free (t : Nat) (x : Triad) : (s.setTriad t x).free = s.free := rfl
@[simp] theorem setTriad_pending (t : Nat) (x : Triad) : (s.setTriad t x).pending = s.pending := rfl

-- setCtx
@[simp] theorem setCtx_time (k : Nat) (x : Ctx) : (s.setCtx k x).time = s.time := rfl
@[simp] theorem setCtx_io (k : Nat) (x : Ctx) : (s.setCtx k x).io = s.io := rfl
@[simp] theorem setCtx_budget (k : Nat) (x : Ctx) : (s.setCtx k x).budget = s.budget := rfl
@[simp] theorem setCtx_staging (k : Nat) (x : Ctx) : (s.setCtx k x).staging = s.staging := rfl
@[simp] theorem setCtx_regs (k : Nat) (x : Ctx) : (s.setCtx k x).regs = s.regs := rfl
@[simp] theorem setCtx_ctrs (k : Nat) (x : Ctx) : (s.setCtx k x).ctrs = s.ctrs := rfl
@[simp] theorem setCtx_snap (k : Nat) (x : Ctx) : (s.setCtx k x).snap = s.snap := rfl
@[simp] theorem setCtx_setAt (k : Nat) (x : Ctx) : (s.setCtx k x).setAt = s.setAt := rfl
@[simp] theorem setCtx_setNow (k : Nat) (x : Ctx) : (s.setCtx k x).setNow = s.setNow := rfl
@[simp] theorem setCtx_shadows (k : Nat) (x : Ctx) : (s.setCtx k x).shadows = s.shadows := rfl
@[simp] theorem setCtx_links (k : Nat) (x : Ctx) : (s.setCtx k x).links = s.links := rfl
@[simp] theorem setCtx_funcs (k : Nat) (x : Ctx) : (s.setCtx k x).funcs = s.funcs := rfl
@[simp] theorem setCtx_cmd (k : Nat) (x : Ctx) : (s.setCtx k x).cmd = s.cmd := rfl
@[simp] theorem setCtx_ins (k : Nat) (x : Ctx) : (s.setCtx k x).ins = s.ins := rfl
@[simp] theorem setCtx_log (k : Nat) (x : Ctx) : (s.setCtx k x).log = s.log := rfl
@[simp] theorem setCtx_viol (k : Nat) (x : Ctx) : (s.setCtx k x).viol = s.viol := rfl
@[simp] theorem setCtx_ln (k : Nat) (x : Ctx) : (s.setCtx k x).ln = s.ln := rfl
@[simp] theorem setCtx_macs (k : Nat) (x : Ctx) : (s.setCtx k x).macs = s.macs := rfl
@[simp] theorem setCtx_rul (k : Nat) (x : Ctx) : (s.setCtx k x).rul = s.rul := rfl
@[simp] theorem setCtx_tm (k : Nat) (x : Ctx) : (s.setCtx k x).tm = s.tm := rfl
@[simp] theorem setCtx_sto (k : Nat) (x : Ctx) : (s.setCtx k x).sto = s.sto := rfl
@[simp] theorem setCtx_pwr (k : Nat) (x : Ctx) : (s.setCtx k x).pwr = s.pwr := rfl
@[simp] theorem setCtx_tri (k : Nat) (x : Ctx) : (s.setCtx k x).tri = s.tri := rfl
@[simp] theorem setCtx_vrs (k : Nat) (x : Ctx) : (s.setCtx k x).vrs = s.vrs := rfl
@[simp] theorem setCtx_tim (k : Nat) (x : Ctx) : (s.setCtx k x).tim = s.tim := rfl
@[simp] theorem setCtx_nvm (k : Nat) (x : Ctx) : (s.setCtx k x).nvm = s.nvm := rfl
@[simp] theorem setCtx_sb (k : Nat) (x : Ctx) : (s.setCtx k x).sb = s.sb := rfl
@[simp] theorem setCtx_sbSeen (k : Nat) (x : Ctx) : (s.setCtx k x).sbSeen = s.sbSeen := rfl
@[simp] theorem setCtx_boot (k : Nat) (x : Ctx) : (s.setCtx k x).boot = s.boot := rfl
@[simp] theorem setCtx_env (k : Nat) (x : Ctx) : (s.setCtx k x).env = s.env := rfl
@[simp] theorem setCtx_out (k : Nat) (x : Ctx) : (s.setCtx k x).out = s.out := rfl
@[simp] theorem setCtx_free (k : Nat) (x : Ctx) : (s.setCtx k x).free = s.free := rfl
@[simp] theorem setCtx_pending (k : Nat) (x : Ctx) : (s.setCtx k x).pending = s.pending := rfl

-- setConn
@[simp] theorem setConn_time (k : Nat) (x : Conn) : (s.setConn k x).time = s.time := rfl
@[simp] theorem setConn_io (k : Nat) (x : Conn) : (s.setConn k x).io = s.io := rfl
@[simp] theorem setConn_budget (k : Nat) (x : Conn) : (s.setConn k x).budget = s.budget := rfl
@[simp] theorem setConn_staging (k : Nat) (x : Conn) : (s.setConn k x).staging = s.staging := rfl
@[simp] theorem setConn_regs (k : Nat) (x : Conn) : (s.setConn k x).regs = s.regs := rfl
@[simp] theorem setConn_ctrs (k : Nat) (x : Conn) : (s.setConn k x).ctrs = s.ctrs := rfl
@[simp] theorem setConn_snap (k : Nat) (x : Conn) : (s.setConn k x).snap = s.snap := rfl
@[simp] theorem setConn_setAt (k : Nat) (x : Conn) : (s.setConn k x).setAt = s.setAt := rfl
@[simp] theorem setConn_setNow (k : Nat) (x : Conn) : (s.setConn k x).setNow = s.setNow := rfl
@[simp] theorem setConn_shadows (k : Nat) (x : Conn) : (s.setConn k x).shadows = s.shadows := rfl
@[simp] theorem setConn_links (k : Nat) (x : Conn) : (s.setConn k x).links = s.links := rfl
@[simp] theorem setConn_funcs (k : Nat) (x : Conn) : (s.setConn k x).funcs = s.funcs := rfl
@[simp] theorem setConn_cmd (k : Nat) (x : Conn) : (s.setConn k x).cmd = s.cmd := rfl
@[simp] theorem setConn_ins (k : Nat) (x : Conn) : (s.setConn k x).ins = s.ins := rfl
@[simp] theorem setConn_log (k : Nat) (x : Conn) : (s.setConn k x).log = s.log := rfl
@[simp] theorem setConn_viol (k : Nat) (x : Conn) : (s.setConn k x).viol = s.viol := rfl
@[simp] theorem setConn_ln (k : Nat) (x : Conn) : (s.setConn k x).ln = s.ln := rfl
@[simp] theorem setConn_macs (k : Nat) (x : Conn) : (s.setConn k x).macs = s.macs := rfl
@[simp] theorem setConn_rul (k : Nat) (x : Conn) : (s.setConn k x).rul = s.rul := rfl
@[simp] theorem setConn_tm (k : Nat) (x : Conn) : (s.setConn k x).tm = s.tm := rfl
@[simp] theorem setConn_cip (k : Nat) (x : Conn) : (s.setConn k x).cip = s.cip := rfl
@[simp] theorem setConn_pwr (k : Nat) (x : Conn) : (s.setConn k x).pwr = s.pwr := rfl
@[simp] theorem setConn_tri (k : Nat) (x : Conn) : (s.setConn k x).tri = s.tri := rfl
@[simp] theorem setConn_vrs (k : Nat) (x : Conn) : (s.setConn k x).vrs = s.vrs := rfl
@[simp] theorem setConn_tim (k : Nat) (x : Conn) : (s.setConn k x).tim = s.tim := rfl
@[simp] theorem setConn_nvm (k : Nat) (x : Conn) : (s.setConn k x).nvm = s.nvm := rfl
@[simp] theorem setConn_sb (k : Nat) (x : Conn) : (s.setConn k x).sb = s.sb := rfl
@[simp] theorem setConn_sbSeen (k : Nat) (x : Conn) : (s.setConn k x).sbSeen = s.sbSeen := rfl
@[simp] theorem setConn_boot (k : Nat) (x : Conn) : (s.setConn k x).boot = s.boot := rfl
@[simp] theorem setConn_env (k : Nat) (x : Conn) : (s.setConn k x).env = s.env := rfl
@[simp] theorem setConn_out (k : Nat) (x : Conn) : (s.setConn k x).out = s.out := rfl
@[simp] theorem setConn_free (k : Nat) (x : Conn) : (s.setConn k x).free = s.free := rfl
@[simp] theorem setConn_pending (k : Nat) (x : Conn) : (s.setConn k x).pending = s.pending := rfl

-- setVlink
@[simp] theorem setVlink_time (k : Nat) (x : VLink) : (s.setVlink k x).time = s.time := rfl
@[simp] theorem setVlink_io (k : Nat) (x : VLink) : (s.setVlink k x).io = s.io := rfl
@[simp] theorem setVlink_budget (k : Nat) (x : VLink) : (s.setVlink k x).budget = s.budget := rfl
@[simp] theorem setVlink_staging (k : Nat) (x : VLink) : (s.setVlink k x).staging = s.staging := rfl
@[simp] theorem setVlink_regs (k : Nat) (x : VLink) : (s.setVlink k x).regs = s.regs := rfl
@[simp] theorem setVlink_ctrs (k : Nat) (x : VLink) : (s.setVlink k x).ctrs = s.ctrs := rfl
@[simp] theorem setVlink_snap (k : Nat) (x : VLink) : (s.setVlink k x).snap = s.snap := rfl
@[simp] theorem setVlink_setAt (k : Nat) (x : VLink) : (s.setVlink k x).setAt = s.setAt := rfl
@[simp] theorem setVlink_setNow (k : Nat) (x : VLink) : (s.setVlink k x).setNow = s.setNow := rfl
@[simp] theorem setVlink_shadows (k : Nat) (x : VLink) : (s.setVlink k x).shadows = s.shadows := rfl
@[simp] theorem setVlink_links (k : Nat) (x : VLink) : (s.setVlink k x).links = s.links := rfl
@[simp] theorem setVlink_funcs (k : Nat) (x : VLink) : (s.setVlink k x).funcs = s.funcs := rfl
@[simp] theorem setVlink_cmd (k : Nat) (x : VLink) : (s.setVlink k x).cmd = s.cmd := rfl
@[simp] theorem setVlink_ins (k : Nat) (x : VLink) : (s.setVlink k x).ins = s.ins := rfl
@[simp] theorem setVlink_log (k : Nat) (x : VLink) : (s.setVlink k x).log = s.log := rfl
@[simp] theorem setVlink_viol (k : Nat) (x : VLink) : (s.setVlink k x).viol = s.viol := rfl
@[simp] theorem setVlink_ln (k : Nat) (x : VLink) : (s.setVlink k x).ln = s.ln := rfl
@[simp] theorem setVlink_macs (k : Nat) (x : VLink) : (s.setVlink k x).macs = s.macs := rfl
@[simp] theorem setVlink_rul (k : Nat) (x : VLink) : (s.setVlink k x).rul = s.rul := rfl
@[simp] theorem setVlink_tm (k : Nat) (x : VLink) : (s.setVlink k x).tm = s.tm := rfl
@[simp] theorem setVlink_cip (k : Nat) (x : VLink) : (s.setVlink k x).cip = s.cip := rfl
@[simp] theorem setVlink_sto (k : Nat) (x : VLink) : (s.setVlink k x).sto = s.sto := rfl
@[simp] theorem setVlink_pwr (k : Nat) (x : VLink) : (s.setVlink k x).pwr = s.pwr := rfl
@[simp] theorem setVlink_tri (k : Nat) (x : VLink) : (s.setVlink k x).tri = s.tri := rfl
@[simp] theorem setVlink_tim (k : Nat) (x : VLink) : (s.setVlink k x).tim = s.tim := rfl
@[simp] theorem setVlink_nvm (k : Nat) (x : VLink) : (s.setVlink k x).nvm = s.nvm := rfl
@[simp] theorem setVlink_sb (k : Nat) (x : VLink) : (s.setVlink k x).sb = s.sb := rfl
@[simp] theorem setVlink_sbSeen (k : Nat) (x : VLink) : (s.setVlink k x).sbSeen = s.sbSeen := rfl
@[simp] theorem setVlink_boot (k : Nat) (x : VLink) : (s.setVlink k x).boot = s.boot := rfl
@[simp] theorem setVlink_env (k : Nat) (x : VLink) : (s.setVlink k x).env = s.env := rfl
@[simp] theorem setVlink_out (k : Nat) (x : VLink) : (s.setVlink k x).out = s.out := rfl
@[simp] theorem setVlink_free (k : Nat) (x : VLink) : (s.setVlink k x).free = s.free := rfl
@[simp] theorem setVlink_pending (k : Nat) (x : VLink) : (s.setVlink k x).pending = s.pending := rfl

-- setVchan
@[simp] theorem setVchan_time (c : Nat) (x : VChan) : (s.setVchan c x).time = s.time := rfl
@[simp] theorem setVchan_io (c : Nat) (x : VChan) : (s.setVchan c x).io = s.io := rfl
@[simp] theorem setVchan_budget (c : Nat) (x : VChan) : (s.setVchan c x).budget = s.budget := rfl
@[simp] theorem setVchan_staging (c : Nat) (x : VChan) : (s.setVchan c x).staging = s.staging := rfl
@[simp] theorem setVchan_regs (c : Nat) (x : VChan) : (s.setVchan c x).regs = s.regs := rfl
@[simp] theorem setVchan_ctrs (c : Nat) (x : VChan) : (s.setVchan c x).ctrs = s.ctrs := rfl
@[simp] theorem setVchan_snap (c : Nat) (x : VChan) : (s.setVchan c x).snap = s.snap := rfl
@[simp] theorem setVchan_setAt (c : Nat) (x : VChan) : (s.setVchan c x).setAt = s.setAt := rfl
@[simp] theorem setVchan_setNow (c : Nat) (x : VChan) : (s.setVchan c x).setNow = s.setNow := rfl
@[simp] theorem setVchan_shadows (c : Nat) (x : VChan) : (s.setVchan c x).shadows = s.shadows := rfl
@[simp] theorem setVchan_links (c : Nat) (x : VChan) : (s.setVchan c x).links = s.links := rfl
@[simp] theorem setVchan_funcs (c : Nat) (x : VChan) : (s.setVchan c x).funcs = s.funcs := rfl
@[simp] theorem setVchan_cmd (c : Nat) (x : VChan) : (s.setVchan c x).cmd = s.cmd := rfl
@[simp] theorem setVchan_ins (c : Nat) (x : VChan) : (s.setVchan c x).ins = s.ins := rfl
@[simp] theorem setVchan_log (c : Nat) (x : VChan) : (s.setVchan c x).log = s.log := rfl
@[simp] theorem setVchan_viol (c : Nat) (x : VChan) : (s.setVchan c x).viol = s.viol := rfl
@[simp] theorem setVchan_ln (c : Nat) (x : VChan) : (s.setVchan c x).ln = s.ln := rfl
@[simp] theorem setVchan_macs (c : Nat) (x : VChan) : (s.setVchan c x).macs = s.macs := rfl
@[simp] theorem setVchan_rul (c : Nat) (x : VChan) : (s.setVchan c x).rul = s.rul := rfl
@[simp] theorem setVchan_tm (c : Nat) (x : VChan) : (s.setVchan c x).tm = s.tm := rfl
@[simp] theorem setVchan_cip (c : Nat) (x : VChan) : (s.setVchan c x).cip = s.cip := rfl
@[simp] theorem setVchan_sto (c : Nat) (x : VChan) : (s.setVchan c x).sto = s.sto := rfl
@[simp] theorem setVchan_pwr (c : Nat) (x : VChan) : (s.setVchan c x).pwr = s.pwr := rfl
@[simp] theorem setVchan_tri (c : Nat) (x : VChan) : (s.setVchan c x).tri = s.tri := rfl
@[simp] theorem setVchan_tim (c : Nat) (x : VChan) : (s.setVchan c x).tim = s.tim := rfl
@[simp] theorem setVchan_nvm (c : Nat) (x : VChan) : (s.setVchan c x).nvm = s.nvm := rfl
@[simp] theorem setVchan_sb (c : Nat) (x : VChan) : (s.setVchan c x).sb = s.sb := rfl
@[simp] theorem setVchan_sbSeen (c : Nat) (x : VChan) : (s.setVchan c x).sbSeen = s.sbSeen := rfl
@[simp] theorem setVchan_boot (c : Nat) (x : VChan) : (s.setVchan c x).boot = s.boot := rfl
@[simp] theorem setVchan_env (c : Nat) (x : VChan) : (s.setVchan c x).env = s.env := rfl
@[simp] theorem setVchan_out (c : Nat) (x : VChan) : (s.setVchan c x).out = s.out := rfl
@[simp] theorem setVchan_free (c : Nat) (x : VChan) : (s.setVchan c x).free = s.free := rfl
@[simp] theorem setVchan_pending (c : Nat) (x : VChan) : (s.setVchan c x).pending = s.pending := rfl

end State

end Sys2Proof.Machine
end

