-- ==== Sys2Proof/Laws/Time.lean ====
section
/-!
SUPPORT. What the operations that bring time to an event's instant come to (log entry 7): an instant that has passed is now, one in
this heat is reached and the event acts there, and one beyond the strike leaves the state as it was.
-/

namespace Sys2Proof.Machine

variable {s s1 : State} {t t1 : Nat} {f : State → State} {due : State → Option Nat} {act : State → State}

theorem State.toRef_past (h : t ≤ s.time.refNow) : s.toRef t = some s := by
  unfold State.toRef
  rw [if_pos h]

/-- An event whose instant is reached acts in the state of that instant. -/
theorem State.atRef_reached (h : s.toRef t = some s1) : s.atRef t f = f s1 := by
  unfold State.atRef
  rw [h]

/-- An event whose instant lies beyond the strike does nothing. -/
theorem State.atRef_beyond (h : s.toRef t = none) : s.atRef t f = s := by
  unfold State.atRef
  rw [h]

/-- A timer that does not run has no event. -/
theorem State.atTimer_off (h : due s = none) : s.atTimer due act = s := by
  unfold State.atTimer
  rw [h]

/-- A timer whose instant is reached, and which still stands there, acts in the state of that instant. -/
theorem State.atTimer_acts (h : due s = some t) (h1 : s.toRef t = some s1) (h2 : due s1 = some t1) (h3 : t1 ≤ s1.time.refNow) :
    s.atTimer due act = act s1 := by
  unfold State.atTimer
  rw [h]
  simp only [State.atRef_reached h1, ifDue, h2, if_pos h3]

/-- An event at an instant of the heat acts there. -/
theorem State.atFine_reached (h : (s.near t).time.cyclesTo t < (s.near t).toStrike) :
    s.atFine t f = f ((s.near t).advance ((s.near t).time.cyclesTo t)) := by
  unfold State.atFine
  exact if_pos h

end Sys2Proof.Machine
end

