-- ==== Sys2Proof/Tests/Slice0.lean ====
section
/-!
SUPPORT. Witnesses that the hypotheses of the statements can be met (one theorem for each statement that has hypotheses,
one clause of it for each clause of the statement, at boundary values where the clause has a range), terms that WellFormed
refuses, and a few results that the spec's own examples state.
-/

namespace Sys2Proof.Tests

open Sys2Proof.Machine

set_option Elab.async false

-- Small states and commands.

/-- Parameter bytes: each pair puts a number at a byte offset. -/
def ps (l : List (Nat × Nat)) : BitVec 320 := BitVec.ofNat 320 (l.foldl (fun a x => a + x.2 * 2 ^ (8 * x.1)) 0)

/-- A command of PF0's queue with given parameters and data. -/
def qc (params : List (Nat × Nat)) (data : List Byte := []) (id : Nat := 0) : Cmd :=
  { src := .queue 0, flags := 0, tag := 7, inst := BitVec.ofNat 16 id, length := BitVec.ofNat 16 data.length, target := 0,
    resv := 0, params := ps params, data := data, ptrs := [], mem := [], spare := 0 }

/-- A PROTECTED tenant instance with grants. -/
def tenant : Ins :=
  { Ins.fresh with st := .attached, elastic := true, prot := true, clearExp := true, level := 1, weight := 16,
                   grants := [8, 64, 64, 64, 64, 64, 0] }

/-- Odjan runs, the queue of PF0 runs with commands waiting, instances 0 and 8 are attached; the command share holds 4,000
CU. -/
def up : State :=
  let b := State.reset.boot
  let k := State.reset.cmd
  let g := State.reset.budget
  let q : Queue := { Func.fresh.q with enable := true, st := .run, logSlots := 8, logReplies := 8, producer := 200, phase := true }
  let f : Func := { Func.fresh with bme := true, mse := true, q := q }
  let i : Ins := { tenant with prot := false, level := 0 }
  { State.reset with
    boot := { b with presented := true, stage := 8 }
    cmd := { k with fw := .run }
    budget := { g with full := true, runHeat := true, cmdLeft := 4000 }
    funcs := [(0, f), (8, f)]
    ins := { ins := [(0, i), (8, tenant)], qps := [], tlb := [], tables := [], faults := [] } }

/-- What the statements about a command assume of it and of the state can be met together. -/
def Met (op : Op) (ok : Cmd → State → Prop) : Prop :=
  ∃ c s target late, Admits op c s ∧ checkLate c (takenFrom op c s) = .ok (target, late) ∧ ok c (takenFrom op c s)

/-- And of a command that stages: there is room for its items. -/
def MetStage (op : Op) (ok : Cmd → State → Prop) (entries : Cmd → State → List (List Byte) := fun c _ => [c.data])
    (flow : Bool := false) (effect : Cmd → State → State := fun _ s => s) : Prop :=
  ∃ c s target late st, Admits op c s ∧ checkLate c (takenFrom op c s) = .ok (target, late) ∧ ok c (takenFrom op c s) ∧
    stagedAs op c (effect c (takenFrom op c s)) (entries c (takenFrom op c s)) flow target = some st

/-- A command of a queue that is taken next, by computation. -/
def isTaken (op : Op) (c : Cmd) (s : State) (f : Nat) : Bool :=
  let u := finishJobs s
  let q := (u.func f).q
  decide (c.src = .queue f) && (checkHeader op c u true 0).isNone && queueReady u f c.slots && q.chain.isNone && !q.loose &&
  decide ((if c.cluster then 2 else 1) ≤ State.replyRoom q) && costFits u f (listedCost op c) && chosen u f (headOf op c q u) &&
  (fetchCmd u f c true).2

/-- And that stands alone and is on time. -/
def mayTake (op : Op) (c : Cmd) (s : State) (f : Nat) : Bool :=
  isTaken op c s f && !c.chain && !outOfReach (takenFrom op c s) op.code

theorem takes {op : Op} {c : Cmd} {s : State} {f : Nat} (h : isTaken op c s f = true) : Takes op c s := by
  simp only [isTaken, Bool.and_eq_true, decide_eq_true_eq, Bool.not_eq_true', Option.isNone_iff_eq_none] at h
  obtain ⟨⟨⟨⟨⟨⟨⟨⟨h1, h2⟩, h3⟩, h4⟩, h5⟩, h6⟩, h7⟩, h8⟩, h9⟩ := h
  refine ⟨h2, ?_⟩
  rw [h1]
  exact ⟨h3, h4, h5, h6, h7, h8, h9⟩

theorem admits_of_mayTake {op : Op} {c : Cmd} {s : State} {f : Nat} (h : mayTake op c s f = true) : Admits op c s := by
  simp only [mayTake, Bool.and_eq_true, Bool.not_eq_true'] at h
  exact ⟨h.1.2, takes h.1.1, h.2⟩

theorem met {op : Op} {ok : Cmd → State → Prop} (c : Cmd) (s : State)
    (h : mayTake op c s 0 = true ∧ (checkLate c (takenFrom op c s)).toOption.isSome = true) (k : ok c (takenFrom op c s)) :
    Met op ok := by
  cases e : checkLate c (takenFrom op c s) with
  | error x => rw [e] at h; cases h.2
  | ok x => exact ⟨c, s, x.1, x.2, admits_of_mayTake h.1, e, k⟩

theorem metStage {op : Op} {ok : Cmd → State → Prop} {entries : Cmd → State → List (List Byte)} {flow : Bool}
    {effect : Cmd → State → State} (c : Cmd) (s : State) (target : Heat)
    (h : mayTake op c s 0 = true ∧ (checkLate c (takenFrom op c s)).toOption.map (·.1) = some target ∧
      (stagedAs op c (effect c (takenFrom op c s)) (entries c (takenFrom op c s)) flow target).isSome = true)
    (k : ok c (takenFrom op c s)) : MetStage op ok entries flow effect := by
  obtain ⟨x, hx⟩ := Option.isSome_iff_exists.mp h.2.2
  cases e : checkLate c (takenFrom op c s) with
  | error x => rw [e] at h; cases h.2.1
  | ok y =>
    rw [e] at h
    obtain rfl : y.1 = target := Option.some.inj h.2.1
    exact ⟨c, s, y.1, y.2, x, admits_of_mayTake h.1, e, k, hx⟩

/-- The same where a statement names the state after the take. -/
def MetAt (op : Cmd → State → Op) (ok : Cmd → State → State → Heat → Prop) : Prop :=
  ∃ c s target late, Admits (op c s) c s ∧ checkLate c (takenFrom (op c s) c s) = .ok (target, late) ∧
    ok c s (takenFrom (op c s) c s) target

theorem metAt {op : Cmd → State → Op} {ok : Cmd → State → State → Heat → Prop} (c : Cmd) (s : State) (target : Heat)
    (h : mayTake (op c s) c s 0 = true ∧ (checkLate c (takenFrom (op c s) c s)).toOption.map (·.1) = some target)
    (k : ok c s (takenFrom (op c s) c s) target) : MetAt op ok := by
  cases e : checkLate c (takenFrom (op c s) c s) with
  | error x => rw [e] at h; cases h.2
  | ok y =>
    rw [e] at h
    obtain rfl : y.1 = target := Option.some.inj h.2
    exact ⟨c, s, y.1, y.2, admits_of_mayTake h.1, e, k⟩

/-- The same of a command of either class, whose opcode's entry depends on NOW. -/
def MetOf (op : Cmd → Op) (ok : Cmd → State → Prop) : Prop :=
  ∃ o, Met o (fun c s => o = op c ∧ ok c s)

/-- And of one that stages. -/
def MetStageOf (op : Cmd → Op) (ok : Cmd → State → Prop)
    (entries : Cmd → State → List (List Byte) := fun c _ => [c.data]) (flow : Bool := false) : Prop :=
  ∃ o, MetStage o (fun c s => o = op c ∧ ok c s) entries flow

theorem metOf {op : Cmd → Op} {ok : Cmd → State → Prop} (c : Cmd) (s : State)
    (h : mayTake (op c) c s 0 = true ∧ (checkLate c (takenFrom (op c) c s)).toOption.isSome = true)
    (k : ok c (takenFrom (op c) c s)) : MetOf op ok :=
  ⟨op c, met c s h ⟨rfl, k⟩⟩

theorem metStageOf {op : Cmd → Op} {ok : Cmd → State → Prop} {entries : Cmd → State → List (List Byte)} {flow : Bool} (c : Cmd)
    (s : State) (target : Heat)
    (h : mayTake (op c) c s 0 = true ∧ (checkLate c (takenFrom (op c) c s)).toOption.map (·.1) = some target ∧
      (stagedAs (op c) c (takenFrom (op c) c s) (entries c (takenFrom (op c) c s)) flow target).isSome = true)
    (k : ok c (takenFrom (op c) c s)) : MetStageOf op ok entries flow :=
  ⟨op c, metStage c s target h ⟨rfl, k⟩⟩

/-- The state after an event or command. -/
def after (s : State) (i : Instr) : State := match exec i s with | .next t => t | _ => s

/-- An image of one node that transmits one slot, on channel A in BUS mode. -/
def oneNode : Img :=
  { id := 1, rev := 1, heatLen := 125000, modes := [1, 0, 0], starRate := 1, ap := 4000, gw := 1000, rxWin := 2000,
    slots := [{ start := 1000, owner := 0, sync := true, len := 60000, pmax := 30 }],
    nodes := [{ id := 0, sync := true, hub := 0, parents := [(false, 0, 0), (false, 0, 0), (false, 0, 0)] }] }

/-- The same with channel A in STAR mode, its top hub this node, and node 1 on its branch 0. -/
def starTop : Img :=
  { oneNode with
    modes := [2, 0, 0]
    slots := oneNode.slots ++ [{ start := 70000, owner := 1, sync := false, len := 40000, pmax := 30 }]
    nodes := [{ id := 0, sync := true, hub := 1, parents := [(false, 0, 0), (false, 0, 0), (false, 0, 0)] },
              { id := 1, sync := false, hub := 0, parents := [(true, 0, 0), (false, 0, 0), (false, 0, 0)] }] }

/-- A unit that no state holds. -/
def unit0 : CUnit :=
  { cid := 0, mask := 0, target := 0, unit := 0, owner := .mbox, tag := 0, quiet := false, isSealed := false, phase := 0, armed := 0, go := 0,
    committed := 0, aborted := 0, lost := false, cause := 0, failing := 0 }

def imaged (m : Img) : State := { up with vrs := { up.vrs with img := some m } }
/-- The device has joined cluster time. -/
def joined : State := { imaged oneNode with tim := { up.tim with st := 4 } }
/-- COMMIT_OPEN for heat 5 with commit ID 1. -/
def openCmd : Cmd := { qc [(0, 1), (8, 1)] with flags := 5, target := 5 }
def opened : State := after joined (.commitOpen openCmd)
/-- The same from PF0 of HB, with a chain left open. -/
def opening : State :=
  let f := up.func 0
  let s := { joined with
    funcs := joined.funcs ++ [(2, f)], ins := { joined.ins with ins := [(0, up.insOf 0), (2, up.insOf 0), (8, tenant)] } }
  after s (.commitOpen { openCmd with src := .queue 2, flags := 21 })

/-- A valid schedule image of one node. -/
def imgBytes : List Byte :=
  let b := [0x56, 0x53, 0x43, 0x48, 1, 0, 0, 0] ++ leBytes 4 84 ++ leBytes 3 125000 ++ [0, 1, 1, 1, 1, 1, 0] ++ leBytes 2 4000 ++
    leBytes 2 1000 ++ leBytes 2 2000 ++ leBytes 4 1 ++ leBytes 32 0 ++
    leBytes 3 1000 ++ [64] ++ leBytes 3 60000 ++ [30] ++ [64, 0, 0, 0, 0, 0, 0, 0]
  b ++ leBytes 4 (crc32c b)

def staged : State := after up (.parserPorts (qc [(2, 4789)]))

def qpCmd : Cmd := qc [(2, 6), (3, 6), (4, 6)]
def stopped : State := after up (.qpConfig qpCmd)
def running : State := after stopped (.qpStart (qc []))
def fault0 : FaultRec := { addr := 4096, inst := 8, reason := 1, write := true, level := 2, heat := 3 }

def portCfg : PortCfg := { flags := 0, rate := 1, width := 0, minWidth := 0, fec := 0, adv := 2 }
/-- Port 0 is configured, in a given state. -/
def ported (st : PState) : State :=
  { up with ln := { up.ln with ports := [(0, { Port.fresh with st := st, cfg := some portCfg, rate := 1 })] } }
def diag (m : Nat) : Diag := { anchor := 0, width := 0, mode := m, rate := 1, pattern := 0, best := 0, ended := false, since := 0 }
def testing (m : Nat) : State := { up with ln := { up.ln with diags := [diag m] } }

def ruleBytes : List Byte := leBytes 176 0
def flowBytes : List Byte := [2] ++ leBytes 63 0

/-- Key slot 5 is loaded for instance 0. -/
def keyed : State := after up (.kekLoad (qc [(4, 5)] (List.replicate 32 1)))
/-- Context 3 of instance 0, of a kind and an algorithm, under slot 5. -/
def ctxCmd (kind alg now : Nat) : Cmd := qc [(0, now), (1, 3), (4, kind), (5, alg), (7, 63), (8, 5)] (leBytes 88 9)
def ctxed (kind alg : Nat) : State := after keyed (.ctxSet (ctxCmd kind alg 1))
/-- The binding data of an ESP_IN context. -/
def espBind : List Byte := leBytes 20 77
def bound (kind alg : Nat) (d : List Byte) : State := after (ctxed kind alg) (.ctxBind (qc [(0, 1), (1, 3)] d))
def resyncing : State :=
  let s := ctxed 6 1
  s.setCtx (ctxKey 0 3) { s.ctx (ctxKey 0 3) with st := .resync }
/-- An image of context 3 in clear, EXPORT_CNT 1. -/
def ctxImage : List Byte :=
  [0x50, 0x4B, 0x43, 0x49, 1, 0, 0, 0, 0, 0] ++ leBytes 4 3 ++ leBytes 6 1 ++ leBytes 12 0 ++ ((ctxed 3 1).ctx (ctxKey 0 3)).image ++
    leBytes 32 0

/-- A connection of queue pair 0, IPv4. -/
def connData : List Byte := [4] ++ leBytes 36 5
def connected : State := after up (.stoConnSet (qc [(0, 1), (6, 4)] connData))
def connResync : State :=
  connected.setConn (State.qpKey 0 0) { (connected.conn? (State.qpKey 0 0)).getD Conn.fresh with st := .resync }
def quotaed : State := { up with sto := { up.sto with quotas := [(0, 4)] } }
def nsCmd (act : Nat) : Cmd := qc [(0, act), (10, 9)]
def nsHeld : State := after quotaed (.stoNsSet (nsCmd 1))
def flow0 : Flow := { ktype := 0, key := 0, owner := 0, action := Action.ofBytes [], learned := false, hit := false, idle := 0,
                      frames := 0, bytes := 0, sframes := 0, sbytes := 0 }
def flow2 : Flow := { flow0 with ktype := (imageKey flowBytes).1, key := (imageKey flowBytes).2 }
def flowAt : State := { up with rul := { up.rul with flows := [(0, flow2)] } }
def saveClear : Cmd := qc [(1, 3), (4, 1), (8, 4096)]
def saveWrapped : Cmd := qc [(1, 3), (6, 5), (8, 4096)]
/-- CTX_SAVE taken. -/
def saveAt (c : Cmd) : State := takenFrom Op.ctxSave c (ctxed 3 1)
def wrapHead : List Byte :=
  [0x50, 0x4B, 0x43, 0x49, 1] ++ leBytes 1 1 ++ leBytes 2 5 ++ leBytes 2 0 ++ leBytes 4 3 ++ leBytes 6 1 ++
    leBytes 12 (saveAt saveWrapped).draw.1
/-- The wrapped image: its cipher text and tag are the standard's (log entry 3). -/
def wrapped : List Byte :=
  let s := saveAt saveWrapped
  let key := ((mGet? s.cip.slots (pf saveWrapped.params 7 6)).map (·.key)).getD []
  wrapHead ++ (gcmSeal key (leBytes 12 s.draw.1) wrapHead (s.ctx (ctxOf saveWrapped)).image).1 ++
    (gcmSeal key (leBytes 12 s.draw.1) wrapHead (s.ctx (ctxOf saveWrapped)).image).2 ++ leBytes 16 0

def triCfg : TriCfg :=
  { triad := 1, nodes := [0, 1, 2], ssp := true, announce := 3, port := 0, mac := 2, tci := 0, svc := 0, ipv4 := 7, ipv6 := [] }
/-- A triad slot of which this node is the owner. -/
def owning : Triad :=
  { cfg := triCfg, st := .owner, epoch := 1, owner := 0, named := 0, fresh := false, word := 0, heard := [], seen := 0,
    missed := 0, unconf := 0, conf := 0, virasCause := false, causes := 0, inGap := false, gap := [], decided := none,
    relieved := false, claimOk := false, stepDown := none, handover := none, forced := false, ownerHeat := 2,
    announceLeft := 3, announceAt := 500 }
def threeNodes : Img :=
  { oneNode with nodes := [0, 1, 2].map (fun n => { id := n, sync := n == 0, hub := 0, parents := [] }) }
def triaded : State := { imaged threeNodes with tri := { up.tri with slots := [(0, owning)] }, ln := (ported .up).ln }

/-- A flash of 64 MiB without a header. -/
def flashed : State := { up with nvm := { up.nvm with mib := 64 } }
def session : Session := { owner := .command (.queue 0), img := 1, nextOff := 0, stepAt := 0 }
def updating : State := { flashed with nvm := { flashed.nvm with session := some session } }
def rec1 : NvmRec := { key := 1, version := 1, value := [5, 6] }
/-- The mailbox holds FW_END, and its owner is HA. Where the image that has been written is one that the fused hash and the signature
accept, it passes: which bytes they accept is the standards' (log entry 3). -/
def endingBase : State :=
  let s := updating
  { s with
    nvm := { s.nvm with session := some { session with owner := .command .mbox } }
    regs := [(0x040400, 0x0E12)]
    cmd := { s.cmd with mbox := { owner := 1, busy := true, done := false, reply := none } } }
def ending (p : ImgPart) : State := { endingBase with nvm := endingBase.nvm.setImg 1 p }
def endCmd0 : Cmd := { (mboxCmd endingBase).2 with spare := 0 }

theorem finishJobs_none (s : State) (h : s.cmd.jobs = [] ∧ s.cmd.busyOps = []) : finishJobs s = s := by
  have e : ({ s with cmd := { s.cmd with jobs := [] } } : State) = s := by rw [← h.1]
  have f : finishStops s = s := by
    unfold finishStops
    simp only [h.2, List.filter_nil, List.foldl_nil]
    rw [← h.2]
  unfold finishJobs
  simp only [h.1, List.filter_nil, List.foldl_nil]
  rw [e, f]

theorem ending_takes (p : ImgPart) : Admits Op.fwEnd endCmd0 (ending p) := by
  have e : finishJobs (ending p) = ending p := finishJobs_none _ ⟨rfl, rfl⟩
  refine ⟨by decide +kernel, ⟨?_, ?_⟩, ?_⟩
  · rw [e]
    exact (by decide +kernel : checkHeader Op.fwEnd endCmd0 endingBase true 0 = none)
  · rw [show endCmd0.src = .mbox by decide +kernel]
    simp only [e]
    refine ⟨(by decide +kernel : (mboxCmd endingBase).1 = Op.fwEnd.code),
      (by decide +kernel : { (mboxCmd endingBase).2 with spare := endCmd0.spare } = endCmd0),
      (by decide +kernel : mboxServed endingBase = true), rfl,
      fun _ => (by decide +kernel : listedCost Op.fwEnd endCmd0 ≤ shareLeft endingBase), fun h => by cases h⟩
  · unfold outOfReach takenFrom fetched
    rw [show endCmd0.src = .mbox by decide +kernel]
    simp only [e]
    rfl

theorem ending_taken (p : ImgPart) : (takenFrom Op.fwEnd endCmd0 (ending p)).nvm = (ending p).nvm ∧
    (takenFrom Op.fwEnd endCmd0 (ending p)).time = up.time := by
  have e : finishJobs (ending p) = ending p := finishJobs_none _ ⟨rfl, rfl⟩
  unfold takenFrom fetched
  rw [show endCmd0.src = .mbox by decide +kernel]
  simp only [e]
  exact ⟨rfl, rfl⟩

-- States for the events.

/-- One part of the state changed. -/
def withPwr (f : PwrUnit → PwrUnit) : State := { up with pwr := f up.pwr }
def withTim (m : Img) (f : TimUnit → TimUnit) : State := { imaged m with tim := f up.tim }
def withBoot (f : Boot → Boot) : State := { up with boot := f up.boot }
def withFw (x : FwState) : State := { up with cmd := { up.cmd with fw := x } }
/-- A member of a chain waits on PF0 of HB; 64 strikes have passed. -/
def chain64 : Chain :=
  { members := [{ op := 0x0725, tag := 1, result := 0, quiet := false }], flags := 16, target := 1, lateRun := false, unit := 0, age := 64, cluster := false }
def opened64 : State := opening.modQueue 2 (fun q => { q with chain := some chain64 })
/-- A stage of the boot after power-on. -/
def atStage (n : Nat) : State := { State.reset with boot := { State.reset.boot with stage := n } }
def bootIn (failed : Nat) : BootIn :=
  { failed := failed, temps := List.replicate 12 400, mib := 64, badSeqs := [], ringBad := false, ms := 1 }
/-- Queue pair 0 of instance 0 runs, with a receive descriptor posted. -/
def dma (fate : Option ReadFault) (got : DmaGot) : DmaRead :=
  { func := 0, qp := some 0, addr := 4096, mem := [], fate := fate, got := got }
def linked (f : HostLink → HostLink) : State := { up with links := [(0, f HostLink.fresh)] }
def later (s : State) (n : Nat := 2000000) : State := { s with time := { s.time with refNow := n } }
def withQ (f : Queue → Queue) : State := up.modQueue 0 f
def reply0 : Reply := { tag := 1, status := 0, detail := 0, heat := 0, phase := false, result := 0 }
def withVec (f : Vec → Vec) : State :=
  up.modFunc 0 (fun x => { x with msixEn := true, vecs := [(2, f { Vec.fresh with pending := true, mask := false })] })
def regWrite (off size : Nat) : RegWrite := { link := 0, func := 0, space := .bar0, offset := off, size := size, value := 0 }
def frame (n : Nat) : RxFrame :=
  { port := 0, bytes := leBytes n 0, smd := 0, frags := 1, assyErr := false, fcsOk := true, abort := false, ecc := [],
    sat := false, overrun := false }
def macUp (f : MacPort → MacPort) : State := { ported .up with macs := [(0, f MacPort.fresh)] }
def cutUp : State := macUp (fun m => { m with cfg := { m.cfg with cut := true } })
def cutHead : CutHead := { port := 0, head := leBytes 256 0, len := 500, smd := 0, ecc := [], overrun := false }
def cutTail : CutTail := { port := 0, rest := leBytes 240 0, frags := 0, fcsOk := true, abort := false, ecc := [], sat := false }
def paused (f : PauseClass → PauseClass) : State :=
  macUp (fun m => { m with cfg := { m.cfg with fcMode := 2 }, pause := [(0, f PauseClass.fresh)] })
/-- Port 0 is above its thresholds for class 0. -/
def pressed : State :=
  let s := paused (fun x => { x with xoff := true })
  { s with tm := { s.tm with above := [(0, 1)] }, macs := s.macs.map (fun x => (x.1, { x.2 with cfg := { x.2.cfg with generate := 1 } })) }
def gates (op : Nat) : GateList :=
  { locked := false, entries := [{ interval := 500, gates := 255, op := 0 }, { interval := 500, gates := 255, op := op }],
    cycle := 1000, baseHeat := 0, baseNs := 0, startHeat := 0, startNs := 0, startRef := 0 }
def gated (op : Nat) : State := macUp (fun m => { m with gate := some (gates op), next := some (gates op), preActive := true })

theorem chooseImage_some (s : State) (h : s.nvm.govern.trial = false)
    (k : (s.nvm.img s.nvm.govern.active).check s.nvm.floor = none) : (chooseImage s).isSome = true := by
  unfold chooseImage
  simp only [h, Bool.false_and, Bool.false_eq_true, if_false, k]
  rfl

theorem setTemps_keeps (s : State) (l : List Int) : (setTemps s l).nvm = s.nvm ∧ (setTemps s l).boot = s.boot := by
  have h (x : State) : (setRegion x).nvm = x.nvm ∧ (setRegion x).boot = x.boot := by
    unfold setRegion
    dsimp only
    repeat' split
    all_goals exact ⟨rfl, rfl⟩
  unfold setTemps
  dsimp only
  rw [(h _).1, (h _).2]
  split <;> exact ⟨rfl, rfl⟩

/-- Stage IMAGE with an image in partition A. -/
def imageA (p : ImgPart) : State := { atStage 6 with nvm := { (atStage 6).nvm with imgA := p } }

/-- A frame of 64 bytes from host queue pair 0, for port 0 or for queue pair 0 of instance 0. -/
def frameFor (d : Dest) : Frame :=
  { id := 1, bytes := leBytes 60 0, len := 64, edits := [], src := 0, owner := 0, region := 0, cells := 1, ing := none, cls := 0,
    colour := 0, dest := d, tail := true, slag := false, hash := 0, record := leBytes 32 0, stamp := none, lateTs := false,
    cip := noCip, sto := noSto, placed := [], holes := [], tx := none, crypt := false, inner := false }
def queued : State :=
  let s := ported .up
  { s with tm := { s.tm with queues := [(queueKey 0 0 0, { frames := [frameFor (.port 0)], since := 0 })] } }
def grant0 (d : Dest) : Grant := { frame := frameFor d, preemptable := false, cutShort := false, freeAt := 0, frags := 1, since := 0, sent := 0 }
def sending : State := { queued with tm := { queued.tm with sending := [(0, [grant0 (.port 0)])] } }
/-- A receive descriptor of queue pair 0 is posted, and a frame goes to it over HA. -/
def delivering : State :=
  let s := running.setQp 0 0 { running.qp 0 0 with rxProd := 1, txProd := 1 }
  { s with tm := { s.tm with sending := [(16, [grant0 (.queue 0 0 0)])] } }
/-- A transmit descriptor of one buffer of 60 bytes. -/
def txDesc : List Byte := leBytes 8 4096 ++ leBytes 4 60 ++ leBytes 52 0
def txFetch : TxFetch :=
  { func := 0, qp := 0, descs := [txDesc], data := leBytes 60 0, recs := [], mem := [], ecc := [], sat := false, overrun := false }

/-- The link of branch 0 of channel A, or with k = 24 the uplink, in a given condition. -/
def starLink (k : Nat) (f : VLink → VLink) : State :=
  { imaged starTop with vrs := { (imaged starTop).vrs with links := [(k, f VLink.fresh)] } }
def laddering (k : Nat) (p : LadderStep) : State := starLink k (fun x => { x with st := 1, step := p })
def chanAt (f : VChan → VChan) : State :=
  { imaged oneNode with vrs := { (imaged oneNode).vrs with chans := [(0, f VChan.fresh)] } }
def copy0 : VirasRx := { chan := 0, branch := none, ok := true, words := [], at_ := 256000 }

def withLane (f : Lane → Lane) (st : PState := .training) : State :=
  { ported st with ln := { (ported st).ln with lanes := [(0, f Lane.fresh)] } }
def withPort (f : Port → Port) : State :=
  { up with ln := { up.ln with
      lanes := [(0, { Lane.fresh with powered := true })], ports := [(0, f { Port.fresh with st := .training, rate := 1 })] } }
def anCfg : PortCfg := { portCfg with flags := 5 }
def anPage : AnPage := { selector := 1, reservedBit := false, earlyAck := false, speeds := 2 }

def withSb (f : SbPort → SbPort) : State := up.setSb 0 (f (up.sbPort 0))
def pldmSession : Session := { owner := .port 0, img := 1, nextOff := 0, stepAt := 0 }
def msg0 : SbMsg := { peer := 8, kind := 1, cmd := 2, request := false, cc := 0, data := [] }
def temps (t : Int) : List Int := List.replicate 12 t
/-- Lane 0 waits to be powered on, while LOAD_HINT asks for nothing. -/
def powering : State :=
  { up with ln := { up.ln with power := [(0, true)] }, pwr := { up.pwr with pins := 0, hintHeld := false } }

/-- Where the static current, which is fused, fills a band, the lane's power step must be announced. -/
theorem powering_band (h : 1000 * powering.fld Reg.hintStep ≤ Config.iStatic powering.pwr.temp) :
    powering.pwr.pins < bandOf powering (targetMa powering) := by
  have h1 : 1000 * powering.fld Reg.hintStep ≤ targetMa powering :=
    Nat.le_trans h (Nat.le_trans (Nat.le_add_right _ _) (Nat.le_add_right _ _))
  have h2 : 0 < powering.fld Reg.hintStep := by decide +kernel
  have h3 : 1 ≤ targetMa powering / (1000 * powering.fld Reg.hintStep) := (Nat.le_div_iff_mul_le (by omega)).2 (by omega)
  show 0 < min 7 (targetMa powering / (1000 * powering.fld Reg.hintStep))
  omega

theorem no_vote (l : List VCopy) (ws : List Nat) (h : (voteOf l).1.isNone = true) : (voteOf l).1 ≠ some ws := by
  intro e
  rw [e] at h
  cases h

/-- PARSER_PORTS, and a chain of queue 0 that one of it opened. -/
def portsCmd : Cmd := qc [(2, 4789)]
def chainCmd : Cmd := { portsCmd with flags := 16 }
def chained : State := after up (.parserPorts chainCmd)
def openChain : Chain := ((chained.func 0).q.chain).getD
  { members := [], flags := 0, target := 0, lateRun := false, unit := 0, age := 0, cluster := false }
/-- And items for 64 other landing heats wait. -/
def crowded : State :=
  { chained with staging := { chained.staging with items := chained.staging.items ++ (List.range 64).map (fun k =>
      { op := 0x0725, inst := 0, params := 0, data := [], sub := 0, owner := .queue 0, tag := 0, unit := 1000 + k, mem := 0,
        target := BitVec.ofNat 48 (100 + k), landing := BitVec.ofNat 48 (100 + k), isSealed := true,
        resv := [0, 0, 0, 0, 0, 0, 0], flow := false, commit := none }) } }

/-- A completion entry of queue pair 0 waits for room. -/
def runningHeld : State := running.setQp 0 0 { running.qp 0 0 with held := [leBytes 32 0] }
/-- A descriptor of both rings of queue pair 0 waits to be read; in the second instance 0 is PROTECTED and has no root. -/
def reading : State := running.setQp 0 0 { running.qp 0 0 with rxProd := 1, txProd := 1 }
def readingProt : State := reading.modIns 0 (fun i => { i with prot := true })

/-- A write for an instance that is not PROTECTED does not fault (R222). -/
theorem writeSpans_direct (f : Nat) (k : Option Nat) (l : List (Nat × Nat)) :
    ∀ (s : State) (d : List Byte), (s.insOf f).prot = false → (writeSpans s f k d l).2 = true := by
  induction l with
  | nil => intros; rfl
  | cons x t ih =>
    intro s d h
    have e (r : List (Req × List Byte)) (u : State) :
        (r.foldl (fun s r => s.emitLink (s.linkOf f) (.hostData r.1 r.2)) u).ins = u.ins := by
      induction r generalizing u with
      | nil => rfl
      | cons a b ih => exact (ih _).trans rfl
    have p : (passReq s f x.1).1.ins = s.ins := by
      unfold passReq
      dsimp only
      repeat' split
      all_goals rfl
    unfold writeSpans access
    simp only [h, Bool.not_false, if_true]
    refine ih _ _ ?_
    rw [← h]
    unfold State.insOf
    rw [e, p]

/-- The state at a nanosecond of the heat. -/
def nsState (s : State) (n : Nat) : State := let s1 := s.near (256 * n); s1.advance (s1.time.cyclesTo (256 * n))

theorem atNs_at (s : State) (n : Nat) (h : (s.near (256 * n)).time.cyclesTo (256 * n) < (s.near (256 * n)).toStrike)
    (f : State → State) : s.atNs n f = f (nsState s n) := by
  unfold State.atNs State.atFine
  exact if_pos h

/-- The device transmits on channel A; its next action is the one at place k of its heat's plan. -/
def busAt (k : Nat) : State :=
  let s := withTim oneNode (fun t => { t with txOn := true })
  { s with vrs := { s.vrs with pos := k, chans := [(0, { VChan.fresh with txUp := true })] } }
/-- A copy of node 1's frame comes from branch 0, at the start of its slot. -/
def branchCopy (words : List Nat) : VirasRx := { copy0 with branch := some 0, at_ := 18944000, words := words }

theorem atRef_at (s : State) (t : Nat) (h : (s.toRef t).isSome = true) (f : State → State) :
    s.atRef t f = f ((s.toRef t).getD s) := by
  unfold State.atRef
  cases e : s.toRef t with
  | none => rw [e] at h; cases h
  | some u => rfl

/-- One second after reset, on the edge of a strike. -/
def struck (s : State) : State :=
  let t := later s 1000000000
  { t with ln := { t.ln with strikeAt := 1000000000 } }

/-- Lane 0 is powered, and no port holds it. -/
def lit : State := { up with ln := { up.ln with lanes := [(0, { Lane.fresh with powered := true })] } }

/-- More management work waits than the heat serves: a command's end is not assured. -/
def loaded (s : State) : State := { s with budget := { s.budget with todo := { s.budget.todo with cmds := 1000000000 } } }
/-- Queue 2 is of level 0 as queue 0 is, and its head comes first. -/
def rivals : State :=
  let f := up.func 0
  { up with
    funcs := [(0, f), (2, { f with q := { f.q with head := some { cost := 1, slots := 1, cluster := false } } })]
    ins := { up.ins with ins := [(0, up.insOf 0), (2, up.insOf 0)] } }
/-- A log entry of heat 3. -/
def entry (code seq : Nat) : LogEntry :=
  { seq := BitVec.ofNat 32 seq, code := code, flags := 0, cls := 0, heat := 3, ns := 0, data := [] }

theorem meets_StepRunsTheFrontCommand :
    ∃ (s : State), s.pending ≠ [] :=
  ⟨{ up with pending := [.refillTick] }, by decide +kernel⟩

theorem meets_EmptyQueueIsOneReferenceCycle :
    (∃ (s : State), s.pending = []) ∧
    (∃ (s : State), s.pending = [] ∧ (s.sbPort 0).tx = [] ∧ (s.sbPort 1).tx = [] ∧ s.boot.stopped = true) ∧
    (∃ (s : State), s.pending = [] ∧ (s.sbPort 0).tx = [] ∧ (s.sbPort 1).tx = [] ∧ s.boot.stopped = false ∧ s.tim.adopt = none ∧ 1 < s.toStrike) ∧
    (∃ (s : State), s.pending = [] ∧ (s.sbPort 0).tx = [] ∧ (s.sbPort 1).tx = [] ∧ s.boot.stopped = false ∧ s.tim.adopt = none ∧ s.toStrike ≤ 1) ∧
    (∃ (s : State) (n : _) (t : _), s.pending = [] ∧ (s.sbPort 0).tx = [] ∧ (s.sbPort 1).tx = [] ∧ s.boot.stopped = false ∧ s.tim.adopt = some (n, t) ∧ t ≤ s.time.refNow + 1 ∧ t - s.time.refNow ≤ s.toStrike) :=
  ⟨⟨up, by decide +kernel⟩,
   ⟨withBoot (fun b => { b with stopped := true }), by decide +kernel⟩,
   ⟨up, by decide +kernel⟩,
   ⟨up.advance 124999, by decide +kernel⟩,
   ⟨withTim oneNode (fun t => { t with adopt := some (5, 1) }), 5, 1, by decide +kernel⟩⟩

theorem meets_EveryStepKeepsCanonicalForm : ∃ s t : State, Canon s ∧ step s = .next t :=
  ⟨{ up with pending := [.refillTick] }, _, ⟨⟨rfl, by intro x hx; cases hx⟩, rfl, rfl, by decide, by decide⟩, rfl⟩

theorem meets_ExecLeavesTheQueue : ∃ (c : Instr) (s t : State), exec c s = .next t :=
  ⟨.refillTick, up, _, rfl⟩

theorem meets_DeviceCommandsComplete :
    (MetAt (fun _ _ => Op.nop) (fun _ _ _ _ => True)) ∧
    (MetAt (fun _ _ => Op.getDeviceInfo) (fun _ _ _ _ => True)) ∧
    (MetAt (fun _ _ => Op.getSerial) (fun _ _ _ _ => True)) ∧
    (MetAt (fun _ _ => Op.getQueueInfo) (fun c _ t _ => (t.insOf c.id).st ≠ .free)) ∧
    (MetAt (fun _ _ => Op.echo) (fun _ _ _ _ => True)) ∧
    (∃ (n : _), MetAt (fun c _ => Op.burn c) (fun c _ _ _ => pf c.params 3 0 = n ∧ 1 ≤ n)) :=
  ⟨metAt (qc []) (up) 1 (by decide +kernel) (by decide +kernel),
   metAt (qc []) (up) 1 (by decide +kernel) (by decide +kernel),
   metAt (qc []) (up) 1 (by decide +kernel) (by decide +kernel),
   metAt (qc []) (up) 1 (by decide +kernel) (by decide +kernel),
   metAt (qc [(0, 5)]) (up) 1 (by decide +kernel) (by decide +kernel),
   ⟨1, metAt (qc [(0, 1)]) (up) 1 (by decide +kernel) (by decide +kernel)⟩⟩

theorem meets_StrikeCommandsComplete :
    (MetStage Op.setHeatLength (fun c s => pf c.params 3 3 = 0 ∧ 20000 ≤ pf c.params 2 0 ∧ pf c.params 2 0 ≤ 16000000 ∧ needsCluster c s = false ∧ (∀ m, s.vrs.img = some m → s.tim.st = 0 ∨ m.lastEnd + idleMin (pf c.params 2 0) ≤ pf c.params 2 0))) ∧
    (Met Op.getTime (fun _ _ => True)) ∧
    (∃ (h : Heat), Met Op.queryStaged (fun c s => h = BitVec.ofNat 48 (pf c.params 5 0) ∧ ((∃ i ∈ seenItems s c, i.landing = h) ∨ (isManager c.src = true ∧ ∃ b ∈ s.staging.barriers, b.2 = h)))) ∧
    (∃ (h : Heat) (tag : BitVec 32), Met Op.cancelStaged (fun c s => h = BitVec.ofNat 48 (pf c.params 5 0) ∧ tag = BitVec.ofNat 32 (pf c.params 9 6) ∧ (∃ i ∈ s.staging.items, i.isSealed = true ∧ i.landing = h ∧ i.tag = tag ∧ i.owner = c.src) ∧ (∀ i ∈ s.staging.items, i.isSealed = true → i.landing = h → i.tag = tag → i.owner = c.src → i.commit = none) ∧ (h ≠ s.time.heat + 1 ∨ s.pastSeal = false))) ∧
    (MetStage Op.barrier (fun c _ => c.atStrike = true) (fun _ _ => [])) :=
  ⟨metStage (qc [(0, 20000)]) (up) 1 (by decide +kernel) (by decide +kernel),
   met (qc []) (up) (by decide +kernel) (by decide +kernel),
   ⟨1, met (qc [(0, 1)]) (staged) (by decide +kernel) (by decide +kernel)⟩,
   ⟨1, 7, met (qc [(0, 1), (6, 7)]) (staged) (by decide +kernel) (by decide +kernel)⟩,
   metStage ({ qc [] with flags := 1, target := 5 }) (up) 5 (by decide +kernel) (by decide +kernel)⟩

theorem meets_CommitCommandsComplete :
    (MetStage Op.commitOpen (fun c s => pf c.params 0 0 ≠ 0 ∧ bit (pf c.params 15 8) s.vrs.node = true ∧ (∃ m, s.vrs.img = some m ∧ ∀ n ∈ bitList (pf c.params 15 8) 64, (m.node? n).isSome = true) ∧ s.tim.st ≠ 0 ∧ s.tim.units.length < 4 ∧ ∀ u ∈ s.tim.units, u.target ≠ c.target) (fun _ _ => []) false (fun c s =>
      let u : CUnit :=
        { cid := pf c.params 0 0, mask := pf c.params 15 8, target := c.target, unit := s.staging.nextUnit, owner := c.src,
          tag := c.tag, quiet := c.noReply, isSealed := false, phase := 0, armed := 0, go := 0, committed := 0, aborted := 0, lost := false,
          cause := 0, failing := 0xFF }
      let s1 := { s with tim := { s.tim with units := s.tim.units ++ [u] } }
      match c.src with
      | .queue f => s1.modQueue f (fun q => { q with promised := q.promised + 1 })
      | .mbox => s1)) ∧
    (∃ (u : _), Met Op.commitCancel (fun c s => findUnit s (pf c.params 0 0) (BitVec.ofNat 48 (pf c.params 6 1)) = some u ∧ s.time.heat.toNat + 2 < u.target.toNat)) ∧
    (∃ (u : _), Met Op.commitQuery (fun c s => findUnit s (pf c.params 0 0) (BitVec.ofNat 48 (pf c.params 6 1)) = some u)) :=
  ⟨metStage (openCmd) (joined) 5 (by decide +kernel) (by decide +kernel),
   ⟨(findUnit opened 1 5).getD unit0, met (qc [(0, 1), (1, 5)]) (opened) (by decide +kernel) (by decide +kernel)⟩,
   ⟨(findUnit opened 1 5).getD unit0, met (qc [(0, 1), (1, 5)]) (opened) (by decide +kernel) (by decide +kernel)⟩⟩

theorem meets_ClusterTimeCommandsComplete :
    (MetStage Op.schedLoad (fun c s => needsCluster c s = false ∧ imgCheck s c.data = none)) ∧
    (Met Op.timJoin (fun _ s => s.vrs.img.isSome = true ∧ s.tim.st = 0)) ∧
    (Met Op.timJoin (fun _ s => s.vrs.img.isSome = true ∧ s.tim.st ≠ 0)) ∧
    (Met Op.timLeave (fun _ _ => True)) ∧
    (Met Op.timQuery (fun _ _ => True)) ∧
    (MetStage Op.timSteer (fun c s => -100000 ≤ toInt 32 (pf c.params 3 0) ∧ toInt 32 (pf c.params 3 0) ≤ 100000 ∧ needsCluster c s = false)) ∧
    (MetStage Op.timPtpMap (fun c s => pf c.params 15 12 ≤ 999999999 ∧ needsCluster c s = false)) :=
  ⟨metStage (qc [] imgBytes) (up) 1 (by decide +kernel) (by decide +kernel),
   met (qc []) (imaged oneNode) (by decide +kernel) (by decide +kernel),
   met (qc []) (joined) (by decide +kernel) (by decide +kernel),
   met (qc []) (opened) (by decide +kernel) (by decide +kernel),
   met (qc []) (up) (by decide +kernel) (by decide +kernel),
   metStage (qc []) (up) 1 (by decide +kernel) (by decide +kernel),
   metStage (qc []) (up) 1 (by decide +kernel) (by decide +kernel)⟩

theorem meets_DeviceTimeEventsComplete :
    (∃ (s : State), s.boot.stopped = false ∧ s.tim.adopt = none) ∧
    (∃ (s : State) (n : _) (t : _), s.boot.stopped = false ∧ s.tim.adopt = some (n, t) ∧ s.time.refNow + s.toStrike < t) ∧
    (∃ (s : State) (n : _) (t : _), s.boot.stopped = false ∧ s.tim.adopt = some (n, t) ∧ t - (s.upTo t).time.refNow ≤ (s.upTo t).toStrike) ∧
    (∃ (s : State), s.time.sealDone = false ∧ s.boot.stopped = false) ∧
    (∃ (s : State), s.time.sealDone = false ∧ s.budget.full = true) ∧
    (∃ (s : State), s.io.pulsing ≠ 0 ∧ s.boot.stopped = false) :=
  ⟨⟨up, by decide +kernel⟩,
   ⟨withTim oneNode (fun t => { t with adopt := some (5, 200000) }), 5, 200000, by decide +kernel⟩,
   ⟨withTim oneNode (fun t => { t with adopt := some (5, 100000) }), 5, 100000, by decide +kernel⟩,
   ⟨up, by decide +kernel⟩,
   ⟨up, by decide +kernel⟩,
   ⟨{ up with io := { up.io with pulsing := 1 } }, by decide +kernel⟩⟩

theorem meets_FirmwareEventsComplete :
    (∃ (f : _) (ch : Chain) (s : State), (s.func f).q.chain = some ch ∧ 64 ≤ ch.age ∧ (∀ h, (s.func f).q.head = some h → State.backlog (s.func f).q < h.slots)) ∧
    (∃ (s : State), s.cmd.fw = .run ∧ s.boot.stopped = false ∧ (s.budget.stallFrom).isSome = true) ∧
    (∃ (s : State), s.boot.stopped = false ∧ s.cmd.fw = .restart) ∧
    (∃ (s : State), s.boot.stopped = false ∧ s.cmd.fw = .boot ∧ s.boot.stage = 8) ∧
    (∃ (s : State), s.time.refHold = false ∧ s.boot.stopped = false) ∧
    (∃ (s : State), s.time.refHold = true ∧ s.boot.stopped = false) ∧
    (∃ (s : State), s.boot.stopped = false) :=
  ⟨⟨2, chain64, opened64, by decide +kernel⟩,
   ⟨{ up with budget := { up.budget with stallFrom := some 0 } }, by decide +kernel⟩,
   ⟨withFw .restart, by decide +kernel⟩,
   ⟨withFw .boot, by decide +kernel⟩,
   ⟨up, by decide +kernel⟩,
   ⟨{ up with time := { up.time with refHold := true } }, by decide +kernel⟩,
   ⟨up, by decide +kernel⟩⟩

theorem meets_ResetEventsComplete :
    (∃ (s : State), s.boot.rstN = false) ∧
    (∃ (s : State), s.boot.rstN = true) ∧
    (∃ (s : State), s.boot.railHold = false) ∧
    (∃ (s : State), s.boot.railHold = true) ∧
    (∃ (l : _) (s : State), idReset s l = true) :=
  ⟨⟨up, by decide +kernel⟩,
   ⟨withBoot (fun b => { b with rstN := true }), by decide +kernel⟩,
   ⟨up, by decide +kernel⟩,
   ⟨withBoot (fun b => { b with railHold := true }), by decide +kernel⟩,
   ⟨0, up, by decide +kernel⟩⟩

theorem meets_BootAndShutdownEventsComplete :
    (∃ (b : BootIn) (s : State), s.boot.stopped = false ∧ s.cmd.fw = .boot ∧ s.boot.hot = false ∧ (setTemps s b.temps).boot.stage = 1 ∧ b.failed % 32 / 2 = 0 ∧ (setTemps s b.temps).boot.strapBoot = false ∧ (setTemps s b.temps).boot.lbRequest = false) ∧
    (∃ (b : BootIn) (s : State), s.boot.stopped = false ∧ s.cmd.fw = .boot ∧ s.boot.hot = false ∧ (setTemps s b.temps).boot.stage = 3) ∧
    (∃ (b : BootIn) (s : State), s.boot.stopped = false ∧ s.cmd.fw = .boot ∧ s.boot.hot = false ∧ (setTemps s b.temps).boot.stage = 4) ∧
    (∃ (b : BootIn) (s : State), s.boot.stopped = false ∧ s.cmd.fw = .boot ∧ s.boot.hot = false ∧ (setTemps s b.temps).boot.stage = 5) ∧
    (∀ p : ImgPart, p.check 0 = none → ∃ (b : BootIn) (s : State), s.boot.stopped = false ∧ s.cmd.fw = .boot ∧ s.boot.hot = false ∧ (setTemps s b.temps).boot.stage = 6 ∧ (chooseImage (setTemps s b.temps)).isSome = true) ∧
    (∃ (b : BootIn) (s : State), s.boot.stopped = false ∧ s.cmd.fw = .boot ∧ s.boot.hot = false ∧ (setTemps s b.temps).boot.stage = 6 ∧ chooseImage (setTemps s b.temps) = none) ∧
    (∃ (b : BootIn) (s : State), s.boot.stopped = false ∧ s.cmd.fw = .boot ∧ s.boot.hot = false ∧ (setTemps s b.temps).boot.stage = 7) ∧
    (∃ (b : BootIn) (s : State), s.boot.stopped = false ∧ s.cmd.fw = .boot ∧ s.boot.hot = false ∧ (setTemps s b.temps).boot.stage = 1 ∧ (b.failed % 32 / 2 ≠ 0 ∨ (setTemps s b.temps).boot.strapBoot = true ∨ (setTemps s b.temps).boot.lbRequest = true)) ∧
    (∃ (s : State), s.boot.stopped = false ∧ s.cmd.fw = .boot ∧ s.boot.stage = 2) ∧
    (∃ (t : _) (s : State), 1840 ≤ (setTemps s t).pwr.temp ∧ (setTemps s t).boot.stopped = false ∧ (setTemps s t).pwr.quench = 0 ∧ (setTemps s t).cmd.fw ≠ .boot) ∧
    (∃ (s : State), (s.pwr.quench = 4 ∨ s.pwr.quench = 5) ∧ s.ln.power = []) ∧
    (∃ (t : _) (s : State), (setTemps s t).pwr.tripHold = false ∧ (setTemps s t).boot.standby = true) :=
  ⟨⟨bootIn 0, atStage 1, by decide +kernel⟩,
   ⟨bootIn 0, atStage 3, by decide +kernel⟩,
   ⟨bootIn 0, atStage 4, by decide +kernel⟩,
   ⟨bootIn 0, atStage 5, by decide +kernel⟩,
   fun p hp => ⟨bootIn 0, imageA p, rfl, rfl, rfl, by rw [(setTemps_keeps _ _).2]; rfl, chooseImage_some _ (by rw [(setTemps_keeps _ _).1]; rfl) (by rw [(setTemps_keeps _ _).1]; exact hp)⟩,
   ⟨bootIn 0, atStage 6, by decide +kernel⟩,
   ⟨bootIn 0, atStage 7, by decide +kernel⟩,
   ⟨bootIn 2, atStage 1, by decide +kernel⟩,
   ⟨atStage 2, by decide +kernel⟩,
   ⟨List.replicate 12 1840, up, by decide +kernel⟩,
   ⟨withPwr (fun p => { p with quench := 4 }), by decide +kernel⟩,
   ⟨List.replicate 12 2000, up, by decide +kernel⟩⟩

theorem meets_InstanceCommandsComplete :
    (MetAt (fun _ _ => Op.insCreate) (fun c _ t target => (t.boot.strapLink = false ∨ (c.id ≠ 2 ∧ c.id ≠ 3)) ∧ State.isPf0 c.id = false ∧ (t.insOf c.id).st = .free ∧ creating t c.id = false ∧ 1 ≤ pf c.params 1 1 ∧ pf c.params 1 1 ≤ 3 ∧ weightOk (pf c.params 3 2) = true ∧ capOk (pf c.params 7 4) = true ∧ grantTooBig c.params c.id false = none ∧ (stagedAs Op.insCreate c t [c.data] false target).isSome = true)) ∧
    (MetAt (fun _ _ => Op.insDestroy) (fun c _ t target => State.isPf0 c.id = false ∧ destroying t c.id = false ∧ (stagedAs Op.insDestroy c t [c.data] false target).isSome = true)) ∧
    (MetAt (fun _ _ => Op.insResize) (fun c _ t target => destroying t c.id = false ∧ (t.insOf c.id).elastic = true ∧ grantTooBig c.params c.id true = none ∧ (stagedAs Op.insResize c t [c.data] false target).isSome = true)) ∧
    (MetAt (fun _ _ => Op.insSetLimits) (fun c _ t target => destroying t c.id = false ∧ (bit (pf c.params 24 24) 0 = true → pf c.params 3 0 ≤ 1600000 ∧ 1 ≤ pf c.params 11 8 ∧ pf c.params 11 8 ≤ 16384) ∧ (bit (pf c.params 24 24) 1 = true → pf c.params 7 4 ≤ 1600000 ∧ 1 ≤ pf c.params 15 12 ∧ pf c.params 15 12 ≤ 16384) ∧ (bit (pf c.params 24 24) 2 = true → weightOk (pf c.params 17 16) = true) ∧ (bit (pf c.params 24 24) 3 = true → pf c.params 18 18 ≤ 3 ∧ (pf c.params 18 18 = 0 → State.isPf0 c.id = true)) ∧ (bit (pf c.params 24 24) 4 = true → capOk (pf c.params 23 20) = true) ∧ (stagedAs Op.insSetLimits c t [c.data] false target).isSome = true)) ∧
    (MetAt (fun _ _ => Op.insQuery) (fun c _ _ _ => pf c.params 0 0 ≤ 2)) ∧
    (MetAt (fun _ _ => Op.poolQuery) (fun c _ _ _ => pf c.params 0 0 ≤ 6)) :=
  ⟨metAt (qc [(1, 1), (2, 16)] [] 9) (up) 1 (by decide +kernel) (by decide +kernel),
   metAt (qc [] [] 8) (up) 1 (by decide +kernel) (by decide +kernel),
   metAt (qc [] [] 8) (up) 1 (by decide +kernel) (by decide +kernel),
   metAt (qc [] [] 8) (up) 1 (by decide +kernel) (by decide +kernel),
   metAt (qc []) (up) 1 (by decide +kernel) (by decide +kernel),
   metAt (qc []) (up) 1 (by decide +kernel) (by decide +kernel)⟩

theorem meets_QueuePairCommandsComplete :
    (MetAt (fun _ _ => Op.qpConfig) (fun c _ t _ => pf c.params 1 0 < (t.insOf c.id).grants.getD 0 0 ∧ retiring t c.id 0 (pf c.params 1 0) = false ∧ (t.qp c.id (pf c.params 1 0)).st ≠ .running ∧ (t.qp c.id (pf c.params 1 0)).st ≠ .error ∧ logOk (pf c.params 2 2) = true ∧ logOk (pf c.params 3 3) = true ∧ logOk (pf c.params 4 4) = true ∧ pf c.params 7 6 < t.vecCount c.id ∧ pf c.params 15 8 % 4096 = 0 ∧ pf c.params 23 16 % 4096 = 0 ∧ pf c.params 31 24 % 4096 = 0)) ∧
    (MetAt (fun _ _ => Op.qpStart) (fun c _ t _ => pf c.params 1 0 < (t.insOf c.id).grants.getD 0 0 ∧ retiring t c.id 0 (pf c.params 1 0) = false ∧ (t.qp c.id (pf c.params 1 0)).st = .stopped ∧ (t.qp c.id (pf c.params 1 0)).held = [])) ∧
    (MetAt (fun _ _ => Op.qpStop) (fun c _ t _ => pf c.params 1 0 < (t.insOf c.id).grants.getD 0 0 ∧ (t.qp c.id (pf c.params 1 0)).st ≠ .unconfigured ∧ (t.qp c.id (pf c.params 1 0)).held = [])) ∧
    (MetAt (fun _ _ => Op.qpStop) (fun c _ t _ => pf c.params 1 0 < (t.insOf c.id).grants.getD 0 0 ∧ (t.qp c.id (pf c.params 1 0)).st ≠ .unconfigured ∧ (t.qp c.id (pf c.params 1 0)).held ≠ [])) ∧
    (MetAt (fun _ _ => Op.qpState) (fun c _ t _ => pf c.params 1 0 < (t.insOf c.id).grants.getD 0 0)) ∧
    (MetAt (fun _ _ => Op.ituSetRoot) (fun c _ t _ => (t.insOf c.id).prot = true ∧ pf c.params 7 0 % 4096 = 0)) ∧
    (MetAt (fun _ _ => Op.ituInvalidate) (fun c _ _ _ => pf c.params 0 0 ≤ 2 ∧ (pf c.params 0 0 = 0 → pf c.params 15 8 % 4096 = 0 ∧ 1 ≤ pf c.params 19 16 ∧ pf c.params 19 16 ≤ 1048576))) ∧
    (MetAt (fun _ _ => Op.ituProbe) (fun c _ t _ => (t.insOf c.id).prot = true ∧ pf c.params 8 8 ≤ 1)) ∧
    (∃ (r : _) (rest : _), MetAt (fun _ _ => Op.ituFaultRead) (fun _ _ t _ => t.ins.faults = r :: rest)) :=
  ⟨metAt (qpCmd) (up) 1 (by decide +kernel) (by decide +kernel),
   metAt (qc []) (stopped) 1 (by decide +kernel) (by decide +kernel),
   metAt (qc []) (running) 1 (by decide +kernel) (by decide +kernel),
   metAt (qc []) (runningHeld) 1 (by decide +kernel) (by decide +kernel),
   metAt (qc []) (up) 1 (by decide +kernel) (by decide +kernel),
   metAt (qc [] [] 8) (up) 1 (by decide +kernel) (by decide +kernel),
   metAt (qc [(0, 1)] [] 8) (up) 1 (by decide +kernel) (by decide +kernel),
   metAt (qc [] [] 8) (up) 1 (by decide +kernel) (by decide +kernel),
   ⟨fault0, [], metAt (qc []) ({ up with ins := { up.ins with faults := [fault0] } }) 1 (by decide +kernel) (by decide +kernel)⟩⟩

theorem meets_LaneCommandsComplete :
    (MetStage Op.portConfig (fun c s => pf c.params 0 0 ≤ 15 ∧ (bit (pf c.params 1 1) 3 = true ∨ (1 ≤ pf c.params 2 2 ∧ pf c.params 2 2 ≤ 5 ∧ pf c.params 3 3 ≤ 3 ∧ pf c.params 4 4 ≤ 3 ∧ pf c.params 5 5 ≤ 3 ∧ anchorOf (pf c.params 0 0) % 2 ^ pf c.params 3 3 = 0 ∧ (∀ q < 16, q ≠ pf c.params 0 0 → ∀ x ∈ portShapes s q (targetOfCmd c s).toNat, ∀ n ∈ groupLanes (anchorOf q) x.2, n ∉ groupLanes (anchorOf (pf c.params 0 0)) (pf c.params 3 3)) ∧ (∀ n ∈ groupLanes (anchorOf (pf c.params 0 0)) (pf c.params 3 3), inDiag s n = false) ∧ (∀ x ∈ portShapes s (pf c.params 0 0) (targetOfCmd c s).toNat, x.2 = pf c.params 3 3) ∧ (∀ q < 4, (quadRates s (pf c.params 0 0) (pf c.params 2 2) (groupLanes (anchorOf (pf c.params 0 0)) (pf c.params 3 3)) (targetOfCmd c s).toNat q).length ≤ 2) ∧ (if bit (pf c.params 1 1) 0 then pf c.params 7 6 ≠ 0 ∧ ∀ sp ∈ bitList (pf c.params 7 6) 16, (resolveRate sp (pf c.params 2 2) (pf c.params 3 3)).isSome = true else speedOf (pf c.params 2 2) (pf c.params 3 3) ≠ 0))))) ∧
    (MetStage Op.portBank (fun c s => pf c.params 0 0 ≤ 15 ∧ pf c.params 1 1 ≤ 1 ∧ (pf c.params 1 1 = 1 → (s.port (pf c.params 0 0)).st ≠ .disabled))) ∧
    (Met Op.portStatus (fun c _ => pf c.params 0 0 ≤ 15)) ∧
    (∃ (y : Lane), Met Op.lnSetEq (fun c s => pf c.params 0 0 ≤ 15 ∧ pf c.params 1 1 ≤ 1 ∧ (pf c.params 1 1 = 1 → tapsOk (pf c.params 5 2) = true) ∧ y = if pf c.params 1 1 = 1 then { s.lane (pf c.params 0 0) with fixed := true, eqTx := pf c.params 5 2, eqRx := pf c.params 9 6 } else { s.lane (pf c.params 0 0) with fixed := false })) ∧
    (Met Op.lnGetEq (fun c _ => pf c.params 0 0 ≤ 15)) ∧
    (MetStage Op.portRestore (fun c s => pf c.params 0 0 ≤ 15 ∧ (s.port (pf c.params 0 0)).st = .degraded)) ∧
    (∃ (a : _) (w : _) (mode : _), Met Op.lnDiag (fun c s => a = pf c.params 0 0 ∧ w = pf c.params 1 1 ∧ mode = pf c.params 2 2 ∧ a ≤ 15 ∧ w ≤ 3 ∧ a % 2 ^ w = 0 ∧ a + 2 ^ w ≤ 16 ∧ mode ≤ 4 ∧ pf c.params 3 3 ≤ 5 ∧ (1 ≤ mode → mode ≤ 3 → 1 ≤ pf c.params 3 3) ∧ pf c.params 4 4 ≤ 4 ∧ (∀ n ∈ groupLanes a w, portOfLane s n = none) ∧ (∀ d ∈ s.ln.diags, d.anchor ≠ a → d.runs = true → ∀ n ∈ groupLanes d.anchor d.width, n ∉ groupLanes a w))) ∧
    (∃ (d : _), Met Op.lnDiagResult (fun c s => pf c.params 0 0 ≤ 15 ∧ s.ln.diags.find? (fun d => d.anchor == pf c.params 0 0) = some d ∧ d.mode ≠ 3)) ∧
    (∃ (d : _), Met Op.lnDiagResult (fun c s => pf c.params 0 0 ≤ 15 ∧ s.ln.diags.find? (fun d => d.anchor == pf c.params 0 0) = some d ∧ d.mode = 3)) :=
  ⟨metStage (qc [(2, 1)]) (up) 1 (by decide +kernel) (by decide +kernel),
   metStage (qc []) (up) 1 (by decide +kernel) (by decide +kernel),
   met (qc []) (up) (by decide +kernel) (by decide +kernel),
   ⟨{ up.lane 0 with fixed := true }, met (qc [(1, 1)]) (up) (by decide +kernel) (by decide +kernel)⟩,
   met (qc []) (up) (by decide +kernel) (by decide +kernel),
   metStage (qc []) (ported .degraded) 1 (by decide +kernel) (by decide +kernel),
   ⟨0, 0, 1, met (qc [(2, 1), (3, 1)]) (up) (by decide +kernel) (by decide +kernel)⟩,
   ⟨diag 4, met (qc []) (testing 4) (by decide +kernel) (by decide +kernel)⟩,
   ⟨diag 3, met (qc []) (testing 3) (by decide +kernel) (by decide +kernel)⟩⟩

theorem meets_RequestErrorEventsComplete :
    (∃ (a : BarAccess) (ecrc : _) (s : State), (s.present a.func = true ∨ lifeboatFunc s a.func = true) ∧ (ecrc && ecrcOn s (s.linkOf a.func)) = false) ∧
    (∃ (a : BarAccess) (ecrc : _) (s : State), (s.present a.func = true ∨ lifeboatFunc s a.func = true) ∧ (ecrc && ecrcOn s (s.linkOf a.func)) = false ∧ a.space ≠ .cfg ∧ memOpen s a.func = false ∧ (a.size = 4 ∨ a.size = 8) ∧ a.offset % a.size = 0) ∧
    (∃ (a : BarAccess) (ecrc : _) (s : State), (s.present a.func = true ∨ lifeboatFunc s a.func = true) ∧ (ecrc && ecrcOn s (s.linkOf a.func)) = false ∧ a.space ≠ .cfg ∧ ((a.size ≠ 4 ∧ a.size ≠ 8) ∨ a.offset % a.size ≠ 0)) ∧
    (∃ (a : BarAccess) (ecrc : _) (s : State), (s.present a.func = true ∨ lifeboatFunc s a.func = true) ∧ (ecrc && ecrcOn s (s.linkOf a.func)) = false ∧ a.space ≠ .cfg ∧ memOpen s a.func = true ∧ (a.size = 4 ∨ a.size = 8) ∧ a.offset % a.size = 0) ∧
    (∃ (f : _) (ecrc : _) (s : State), s.present f = true ∧ (ecrc && ecrcOn s (s.linkOf f)) = false) ∧
    (∃ (l : _) (ecrc : _) (s : State), (ecrc && ecrcOn s l) = false) ∧
    (∃ (s : State) (a : BarAccess), s.present (a.func) = true ∧ ecrcOn s (s.linkOf (a.func)) = true) ∧
    (∃ (f : _) (s : State), s.present f = true ∧ ecrcOn s (s.linkOf f) = true) ∧
    (∃ (l : _) (s : State), ecrcOn s l = true) ∧
    (∃ (d : DmaRead) (s : State), s.present d.func = true ∧ s.canDma d.func = true ∧ queueLive s d.func d.qp = true ∧ readCovered s d = true ∧ (access (seeTables s d.mem) d.func d.qp d.addr false).2.isSome = true ∧ d.fate = none ∧ d.got = .data) ∧
    (∃ (d : DmaRead) (s : State) (slot : _) (ptrs : _), s.present d.func = true ∧ s.canDma d.func = true ∧ queueLive s d.func d.qp = true ∧ readCovered s d = true ∧ (access (seeTables s d.mem) d.func d.qp d.addr false).2.isSome = true ∧ d.fate = none ∧ d.got = .header slot ptrs) ∧
    (∃ (d : DmaRead) (s : State) (r : _), s.present d.func = true ∧ s.canDma d.func = true ∧ queueLive s d.func d.qp = true ∧ readCovered s d = true ∧ (access (seeTables s d.mem) d.func d.qp d.addr false).2.isSome = true ∧ d.fate = none ∧ d.got = .rx r ∧ (d.qp).isSome = true) ∧
    (∃ (d : DmaRead) (s : State), s.present d.func = true ∧ s.canDma d.func = true ∧ queueLive s d.func d.qp = true ∧ readCovered s d = true ∧ (access (seeTables s d.mem) d.func d.qp d.addr false).2 = none) ∧
    (∃ (d : DmaRead) (s : State) (r : _), s.present d.func = true ∧ s.canDma d.func = true ∧ queueLive s d.func d.qp = true ∧ readCovered s d = true ∧ (access (seeTables s d.mem) d.func d.qp d.addr false).2.isSome = true ∧ d.fate = some r ∧ (r = .ecrc → ecrcOn (access (seeTables s d.mem) d.func d.qp d.addr false).1 ((access (seeTables s d.mem) d.func d.qp d.addr false).1.linkOf d.func) = true)) ∧
    (∃ (f : _) (k : _) (s : State), s.present f = true ∧ queueLive s f k = true ∧ (s.func f).cplOff = false) ∧
    (∃ (f : _) (s : State), s.present f = true) :=
  ⟨⟨{ func := 0, space := .bar0, offset := 0, size := 4 }, false, up, by decide +kernel⟩,
   ⟨{ func := 0, space := .bar0, offset := 0, size := 4 }, false, up.modFunc 0 (fun x => { x with mse := false }), by decide +kernel⟩,
   ⟨{ func := 0, space := .bar0, offset := 0, size := 2 }, false, up, by decide +kernel⟩,
   ⟨{ func := 0, space := .bar0, offset := 0, size := 4 }, false, up, by decide +kernel⟩,
   ⟨0, true, up, by decide +kernel⟩,
   ⟨0, true, up, by decide +kernel⟩,
   ⟨linked (fun l => { l with ecrc := true }), { func := 0, space := .bar0, offset := 0, size := 4 }, by decide +kernel⟩,
   ⟨0, linked (fun l => { l with ecrc := true }), by decide +kernel⟩,
   ⟨0, linked (fun l => { l with ecrc := true }), by decide +kernel⟩,
   ⟨dma none .data, reading, by decide +kernel⟩,
   ⟨{ dma none (.header [] []) with qp := none, addr := 0 }, up, [], [], by decide +kernel⟩,
   ⟨dma none (.rx { addr := 0, len := 64, resv := 0 }), reading, { addr := 0, len := 64, resv := 0 }, by decide +kernel⟩,
   ⟨dma none .data, readingProt, by decide +kernel⟩,
   ⟨dma (some .timeout) .data, reading, .timeout, by decide +kernel⟩,
   ⟨0, none, up, by decide +kernel⟩,
   ⟨0, up, by decide +kernel⟩⟩

theorem meets_LinkAndFunctionEventsComplete :
    (∃ (l : _) (width : _) (speed : _) (flit : _) (s : State), s.enabledLinks.contains l = true ∧ (s.link l).trained = false ∧ (s.link l).perst = false ∧ s.boot.rstN = false ∧ s.boot.railHold = false ∧ 1000000 ≤ s.time.refNow ∧ (width = 1 ∨ width = 4 ∨ width = 8 ∨ width = 15) ∧ 1 ≤ speed ∧ speed ≤ 6 ∧ (speed = 6 → flit = true)) ∧
    (∃ (l : _) (s : State), s.enabledLinks.contains l = true) ∧
    (∃ (f : _) (s : State), s.present f = true ∧ f ≠ 2 * s.linkOf f + 1) ∧
    (∃ (f : _) (s : State), s.present f = true ∧ f = 2 * (s.linkOf f) + 1 ∧ State.isPf0 f = false) ∧
    (∃ (f : _) (s : State), (s.func f).inFlr = true) ∧
    (∃ (f : _) (s : State), s.present f = true ∧ (s.func f).bme = true) ∧
    (∃ (f : _) (s : State), s.present f = true) ∧
    (∃ (l : _) (n : _) (s : State), l ≤ 1 ∧ s.present (2 * l + 1) = true ∧ (s.link l).vfEnable = false ∧ n ≤ totalVfs s l) ∧
    (∃ (l : _) (s : State), (s.link l).vfEnable = true) :=
  ⟨⟨0, 15, 6, true, later up, by decide +kernel⟩,
   ⟨0, up, by decide +kernel⟩,
   ⟨0, up, by decide +kernel⟩,
   ⟨1, up, by decide +kernel⟩,
   ⟨0, up.modFunc 0 (fun x => { x with inFlr := true }), by decide +kernel⟩,
   ⟨0, up, by decide +kernel⟩,
   ⟨0, up, by decide +kernel⟩,
   ⟨0, 2, up, by decide +kernel⟩,
   ⟨0, linked (fun l => { l with vfEnable := true }), by decide +kernel⟩⟩

theorem meets_QueueEventsComplete :
    (∃ (r : _) (s : State), r ≤ 1 ∧ lifeboatFunc s (2 * r) = false) ∧
    (∃ (f : _) (s : State), s.present f = true ∧ memOpen s f = true ∧ (s.func f).q.enable = false) ∧
    (∃ (f : _) (s : State), s.present f = true ∧ memOpen s f = true ∧ (s.func f).q.enable = true) ∧
    (∃ (f : _) (s : State), (s.func f).q.st ≠ .idle ∧ ((s.func f).q.enable = false ∨ (s.func f).q.again = true) ∧ inWork s (.queue f) = false ∧ (s.func f).q.held = []) ∧
    (∃ (f : _) (idx : BitVec 16) (s : State), bellsLive s f = true ∧ memOpen s f = true ∧ (s.func f).q.enable = true ∧ (s.func f).q.again = false ∧ (s.func f).q.st = .run ∧ bellSpan (s.func f).q.producer (s.func f).q.consumer idx ≤ 2 ^ (s.func f).q.logSlots - 1) ∧
    (∃ (f : _) (k : _) (idx : BitVec 16) (s : State), bellsLive s f = true ∧ memOpen s f = true ∧ k < (s.insOf f).grants.getD 0 0 ∧ (s.qp f k).st = .running ∧ s.rul.dramDown = false ∧ bellSpan (s.qp f k).rxProd (s.qp f k).rxCons idx ≤ 2 ^ (s.qp f k).logRx - 1) ∧
    (∃ (f : _) (k : _) (idx : BitVec 16) (s : State), bellsLive s f = true ∧ memOpen s f = true ∧ k < (s.insOf f).grants.getD 0 0 ∧ (s.qp f k).st = .running ∧ s.rul.dramDown = false ∧ bellSpan (s.qp f k).txProd (s.qp f k).txCons idx ≤ 2 ^ (s.qp f k).logTx - 1) ∧
    (∃ (f : _) (k : _) (rx : Bool) (idx : BitVec 16) (s : State), bellsLive s f = true ∧ memOpen s f = true ∧ k < (s.insOf f).grants.getD 0 0 ∧ (s.qp f k).st = .running ∧ s.rul.dramDown = false ∧ (if rx then 2 ^ (s.qp f k).logRx - 1 < bellSpan (s.qp f k).rxProd (s.qp f k).rxCons idx else 2 ^ (s.qp f k).logTx - 1 < bellSpan (s.qp f k).txProd (s.qp f k).txCons idx)) ∧
    (∃ (f : _) (idx : BitVec 16) (s : State), bellsLive s f = true ∧ memOpen s f = true ∧ (s.func f).q.enable = true ∧ (s.func f).q.again = false ∧ (s.func f).q.st = .run ∧ (idx.toNat + 65536 - (s.func f).q.replyCons) % 65536 ≤ State.replyUsed (s.func f).q) ∧
    (∃ (f : _) (k : _) (idx : BitVec 16) (s : State), bellsLive s f = true ∧ memOpen s f = true ∧ k < (s.insOf f).grants.getD 0 0 ∧ (s.qp f k).st = .running ∧ s.rul.dramDown = false ∧ (idx.toNat + 65536 - (s.qp f k).cqCons) % 65536 ≤ cqUsed (s.qp f k)) ∧
    (∃ (f : _) (s : State), (s.func f).q.held ≠ [] ∧ s.canDma f = true ∧ State.replyUsed (s.func f).q < 2 ^ (s.func f).q.logReplies - 1) ∧
    (∃ (f : _) (v : _) (s : State), vecOpen s f (mGetD (s.func f).vecs v Vec.fresh) = true ∧ pastHoldoff s (mGetD (s.func f).vecs v Vec.fresh) = true ∧ ((mGetD (s.func f).vecs v Vec.fresh).maxPerHeat = 0 ∨ (mGetD (s.func f).vecs v Vec.fresh).sentInHeat < (mGetD (s.func f).vecs v Vec.fresh).maxPerHeat)) ∧
    (∃ (f : _) (v : _) (s : State), vecOpen s f (mGetD (s.func f).vecs v Vec.fresh) = true ∧ pastHoldoff s (mGetD (s.func f).vecs v Vec.fresh) = true ∧ (mGetD (s.func f).vecs v Vec.fresh).maxPerHeat ≠ 0 ∧ (mGetD (s.func f).vecs v Vec.fresh).maxPerHeat ≤ (mGetD (s.func f).vecs v Vec.fresh).sentInHeat ∧ (mGetD (s.func f).vecs v Vec.fresh).counted = false) ∧
    (∃ (l : _) (s : State), l ≤ 1 ∧ memOpen s (2 * l) = true ∧ s.cmd.mbox.owner = 0) ∧
    (∃ (l : _) (s : State), l ≤ 1 ∧ memOpen s (2 * l) = true ∧ s.cmd.mbox.owner = l + 1 ∧ s.cmd.mbox.busy = false) :=
  ⟨⟨0, up, by decide +kernel⟩,
   ⟨0, withQ (fun q => { q with enable := false }), by decide +kernel⟩,
   ⟨0, up, by decide +kernel⟩,
   ⟨0, withQ (fun q => { q with enable := false }), by decide +kernel⟩,
   ⟨0, 255, up, by decide +kernel⟩,
   ⟨0, 0, 63, running, by decide +kernel⟩,
   ⟨0, 0, 63, running, by decide +kernel⟩,
   ⟨0, 0, true, 64, running, by decide +kernel⟩,
   ⟨0, 3, withQ (fun q => { q with replyProd := 3 }), by decide +kernel⟩,
   ⟨0, 0, 0, running, by decide +kernel⟩,
   ⟨0, withQ (fun q => { q with held := [(reply0, false)] }), by decide +kernel⟩,
   ⟨0, 2, withVec id, by decide +kernel⟩,
   ⟨0, 2, withVec (fun v => { v with maxPerHeat := 1, sentInHeat := 1 }), by decide +kernel⟩,
   ⟨0, up, by decide +kernel⟩,
   ⟨0, { up with cmd := { up.cmd with mbox := { up.cmd.mbox with owner := 1 } } }, by decide +kernel⟩⟩

theorem meets_RegisterWriteEventsComplete :
    (∃ (w : RegWrite) (s : State), (s.present w.func = true ∨ lifeboatFunc s w.func = true) ∧ s.linkOf w.func = w.link ∧ w.space = .cfg) ∧
    (∃ (w : RegWrite) (s : State), (s.present w.func = true ∨ lifeboatFunc s w.func = true) ∧ s.linkOf w.func = w.link ∧ w.space ≠ .cfg ∧ memOpen s w.func = true ∧ w.size = 4 ∧ w.offset % 4 = 0) ∧
    (∃ (w : RegWrite) (s : State), (s.present w.func = true ∨ lifeboatFunc s w.func = true) ∧ s.linkOf w.func = w.link ∧ w.space ≠ .cfg ∧ memOpen s w.func = true ∧ w.size = 8 ∧ w.offset % 8 = 0) ∧
    (∃ (w : RegWrite) (s : State), (s.present w.func = true ∨ lifeboatFunc s w.func = true) ∧ s.linkOf w.func = w.link ∧ w.space ≠ .cfg ∧ ((w.size ≠ 4 ∧ w.size ≠ 8) ∨ w.offset % w.size ≠ 0)) ∧
    (∃ (w : RegWrite) (s : State), (s.present w.func = true ∨ lifeboatFunc s w.func = true) ∧ s.linkOf w.func = w.link ∧ w.space ≠ .cfg ∧ memOpen s w.func = false ∧ (w.size = 4 ∨ w.size = 8) ∧ w.offset % w.size = 0) :=
  ⟨⟨{ regWrite 0 4 with space := .cfg }, up, by decide +kernel⟩,
   ⟨regWrite 0x010028 4, up, by decide +kernel⟩,
   ⟨regWrite 0x010028 8, up, by decide +kernel⟩,
   ⟨regWrite 0x010028 2, up, by decide +kernel⟩,
   ⟨regWrite 0x010028 4, up.modFunc 0 (fun x => { x with mse := false }), by decide +kernel⟩⟩

theorem meets_MacCommandsComplete :
    (MetStage Op.macSetRx (fun c _ => pf c.params 0 0 ≤ 15 ∧ pf c.params 1 1 ≤ 1 ∧ 1518 ≤ pf c.params 3 2 ∧ pf c.params 3 2 ≤ 16384)) ∧
    (MetStage Op.macSetFc (fun c _ => pf c.params 0 0 ≤ 15 ∧ pf c.params 1 1 ≤ 2 ∧ 1 ≤ pf c.params 5 4 ∧ 1 ≤ pf c.params 7 6 ∧ pf c.params 7 6 ≤ 1000 ∧ 1 ≤ pf c.params 9 8 ∧ pf c.params 9 8 ≤ 10000)) ∧
    (MetStage Op.macSetPreempt (fun c _ => pf c.params 0 0 ≤ 15 ∧ pf c.params 2 2 ≤ 3 ∧ 1 ≤ pf c.params 4 4 ∧ pf c.params 4 4 ≤ 128 ∧ pf c.params 7 6 ≤ 10000 ∧ pf c.params 9 8 ≤ 10000)) ∧
    (MetStage Op.gateSet (fun c s => pf c.params 0 0 ≤ 15 ∧ 1 ≤ pf c.params 3 2 ∧ pf c.params 3 2 ≤ 1024 ∧ c.data.length = 8 * pf c.params 3 2 ∧ (bit (pf c.params 1 1) 0 = true ∨ (pf c.params 12 10 < s.time.heatLen ∧ 64 ≤ pf c.params 15 13)) ∧ (∀ k < pf c.params 3 2, gateEntryOk c.data k = true))) ∧
    (MetStage Op.gateDisable (fun c _ => pf c.params 0 0 ≤ 15)) ∧
    (Met Op.gateStatus (fun c _ => pf c.params 0 0 ≤ 15)) ∧
    (Met Op.fcStatus (fun c _ => pf c.params 0 0 ≤ 15)) ∧
    (Met Op.fcWdRelease (fun c _ => pf c.params 0 0 ≤ 15)) :=
  ⟨metStage (qc [(2, 1518)]) (up) 1 (by decide +kernel) (by decide +kernel),
   metStage (qc [(4, 1), (6, 1), (8, 1)]) (up) 1 (by decide +kernel) (by decide +kernel),
   metStage (qc [(4, 1)]) (up) 1 (by decide +kernel) (by decide +kernel),
   metStage (qc [(2, 1), (13, 64)] (leBytes 8 8)) (up) 1 (by decide +kernel) (by decide +kernel),
   metStage (qc []) (up) 1 (by decide +kernel) (by decide +kernel),
   met (qc []) (up) (by decide +kernel) (by decide +kernel),
   met (qc []) (up) (by decide +kernel) (by decide +kernel),
   met (qc []) (up) (by decide +kernel) (by decide +kernel)⟩

theorem meets_ReceptionEventsComplete :
    (∃ (x : RxFrame) (s : State), x.port ≤ 15 ∧ s.portLive x.port = true ∧ s.rul.dramDown = false ∧ smdBad ((if x.smd = 1 ∨ 1 < x.frags then s.add (macCtr x.port 0x180) x.frags else s)) x.port x.smd = false ∧ x.assyErr = false ∧ netAt x.bytes 12 2 ≠ 0x8808 ∧ rxDiscard ((if x.smd = 1 ∨ 1 < x.frags then s.add (macCtr x.port 0x180) x.frags else s)) x = none ∧ (cutMode ((if x.smd = 1 ∨ 1 < x.frags then s.add (macCtr x.port 0x180) x.frags else s)) x.port = false ∨ x.bytes.length + 4 ≤ 256) ∧ x.overrun = false ∧ (x.sat = false ∨ (((if x.smd = 1 ∨ 1 < x.frags then s.add (macCtr x.port 0x180) x.frags else s)).secy x.port).enable = false ∨ netAt x.bytes 12 2 ≠ 0x88E5) ∧ (macsecRx (meetEcc ((if x.smd = 1 ∨ 1 < x.frags then s.add (macCtr x.port 0x180) x.frags else s)) x.ecc) x.port x.ecc x.bytes).2.isSome = true) ∧
    (∃ (x : RxFrame) (s : State), x.port ≤ 15 ∧ (s.portLive x.port = true ∨ (x.abort = true ∧ (s.port x.port).st = .down)) ∧ s.rul.dramDown = false ∧ smdBad ((if x.smd = 1 ∨ 1 < x.frags then s.add (macCtr x.port 0x180) x.frags else s)) x.port x.smd = false ∧ x.assyErr = false ∧ (rxDiscard ((if x.smd = 1 ∨ 1 < x.frags then s.add (macCtr x.port 0x180) x.frags else s)) x).isSome = true) ∧
    (∃ (x : RxFrame) (s : State), x.port ≤ 15 ∧ s.portLive x.port = true ∧ s.rul.dramDown = false ∧ smdBad ((if x.smd = 1 ∨ 1 < x.frags then s.add (macCtr x.port 0x180) x.frags else s)) x.port x.smd = false ∧ x.assyErr = false ∧ rxDiscard ((if x.smd = 1 ∨ 1 < x.frags then s.add (macCtr x.port 0x180) x.frags else s)) x = none ∧ netAt x.bytes 12 2 = 0x8808) ∧
    (∃ (h : CutHead) (s : State), h.port ≤ 15 ∧ s.portLive h.port = true ∧ s.rul.dramDown = false ∧ cutMode s h.port = true ∧ 256 < h.len ∧ h.head.length = 256 ∧ mGet? s.tm.cuts h.port = none ∧ netAt h.head 12 2 ≠ 0x8808 ∧ smdBad s h.port h.smd = false ∧ h.overrun = false) ∧
    (∃ (t : CutTail) (s : State) (c : _), mGet? s.tm.cuts t.port = some c ∧ s.rul.dramDown = false ∧ (c.head ++ t.rest).length + 4 = c.len) ∧
    (∃ (p : _) (s : State), p ≤ 15 ∧ s.portLive p = true ∧ (s.mac p).cfg.fcMode = 1 ∧ bit (s.mac p).cfg.honour 0 = true) ∧
    (∃ (p : _) (s : State), p ≤ 15 ∧ s.portLive p = true ∧ (s.mac p).cfg.fcMode = 2) ∧
    (∃ (p : _) (s : State), p ≤ 15 ∧ s.portLive p = true) :=
  ⟨⟨frame 60, ported .up, by decide +kernel⟩,
   ⟨frame 59, ported .up, by decide +kernel⟩,
   ⟨{ frame 60 with bytes := leBytes 12 0 ++ [0x88, 0x08] ++ leBytes 46 0 }, ported .up, by decide +kernel⟩,
   ⟨cutHead, cutUp, by decide +kernel⟩,
   ⟨cutTail, after cutUp (.cutHandoff cutHead), (mGet? (after cutUp (.cutHandoff cutHead)).tm.cuts 0).get (by decide +kernel), by decide +kernel⟩,
   ⟨0, macUp (fun m => { m with cfg := { m.cfg with fcMode := 1 } }), by decide +kernel⟩,
   ⟨0, paused id, by decide +kernel⟩,
   ⟨0, ported .up, by decide +kernel⟩⟩

theorem meets_PauseAndGateEventsComplete :
    (∃ (p : _) (c : _) (s : State) (t : _) (t1 : _), (s.pc p c).pausedTo = some t ∧ (s.toRef t).isSome = true ∧ (((s.toRef t).getD s).pc p c).pausedTo = some t1 ∧ t1 ≤ ((s.toRef t).getD s).time.refNow) ∧
    (∃ (p : _) (c : _) (s : State), (s.pc p (pauseIdx s p c)).xoff = true ∧ presses s p c = true ∧ (s.toRef (s.pc p (pauseIdx s p c)).repeatAt).isSome = true ∧ (((s.toRef (s.pc p (pauseIdx s p c)).repeatAt).getD s).pc p (pauseIdx ((s.toRef (s.pc p (pauseIdx s p c)).repeatAt).getD s) p c)).xoff = true ∧ presses ((s.toRef (s.pc p (pauseIdx s p c)).repeatAt).getD s) p c = true ∧ (((s.toRef (s.pc p (pauseIdx s p c)).repeatAt).getD s).pc p (pauseIdx ((s.toRef (s.pc p (pauseIdx s p c)).repeatAt).getD s) p c)).repeatAt ≤ ((s.toRef (s.pc p (pauseIdx s p c)).repeatAt).getD s).time.refNow) ∧
    (∃ (p : _) (c : _) (s : State), (s.pc p (pauseIdx s p c)).xoff = true ∧ (s.pc p (pauseIdx s p c)).capped = false ∧ (s.toRef (s.time.refNow + (500000 - pauseTime s (s.pc p (pauseIdx s p c))))).isSome = true ∧ (((s.toRef (s.time.refNow + (500000 - pauseTime s (s.pc p (pauseIdx s p c))))).getD s).pc p (pauseIdx ((s.toRef (s.time.refNow + (500000 - pauseTime s (s.pc p (pauseIdx s p c))))).getD s) p c)).xoff = true ∧ (((s.toRef (s.time.refNow + (500000 - pauseTime s (s.pc p (pauseIdx s p c))))).getD s).pc p (pauseIdx ((s.toRef (s.time.refNow + (500000 - pauseTime s (s.pc p (pauseIdx s p c))))).getD s) p c)).capped = false ∧ 500000 ≤ pauseTime ((s.toRef (s.time.refNow + (500000 - pauseTime s (s.pc p (pauseIdx s p c))))).getD s) (((s.toRef (s.time.refNow + (500000 - pauseTime s (s.pc p (pauseIdx s p c))))).getD s).pc p (pauseIdx ((s.toRef (s.time.refNow + (500000 - pauseTime s (s.pc p (pauseIdx s p c))))).getD s) p c))) ∧
    (∃ (p : _) (s : State), s.portLive p = true ∧ (s.toRef ((s.mac p).winFrom + 1000000)).isSome = true ∧ ((s.toRef ((s.mac p).winFrom + 1000000)).getD s).portLive p = true ∧ (((s.toRef ((s.mac p).winFrom + 1000000)).getD s).mac p).winFrom + 1000000 ≤ ((s.toRef ((s.mac p).winFrom + 1000000)).getD s).time.refNow) ∧
    (∃ (p : _) (c : _) (s : State) (t : _) (u : _) (t1 : _) (u1 : _), (s.pc p c).heldFrom = some t ∧ (s.pc p c).pausedTo = some u ∧ t + (s.mac p).cfg.wdLimit * 1000000 < u ∧ (s.toRef (t + (s.mac p).cfg.wdLimit * 1000000)).isSome = true ∧ (((s.toRef (t + (s.mac p).cfg.wdLimit * 1000000)).getD s).pc p c).heldFrom = some t1 ∧ (((s.toRef (t + (s.mac p).cfg.wdLimit * 1000000)).getD s).pc p c).pausedTo = some u1 ∧ t1 + (((s.toRef (t + (s.mac p).cfg.wdLimit * 1000000)).getD s).mac p).cfg.wdLimit * 1000000 < u1 ∧ t1 + (((s.toRef (t + (s.mac p).cfg.wdLimit * 1000000)).getD s).mac p).cfg.wdLimit * 1000000 ≤ ((s.toRef (t + (s.mac p).cfg.wdLimit * 1000000)).getD s).time.refNow) ∧
    (∃ (p : _) (c : _) (s : State) (t : _) (t1 : _), (s.pc p c).recoverTo = some t ∧ (s.toRef t).isSome = true ∧ (((s.toRef t).getD s).pc p c).recoverTo = some t1 ∧ t1 ≤ ((s.toRef t).getD s).time.refNow) ∧
    (∃ (p : _) (s : State), (s.mac p).verify = 2 ∧ s.portLive p = true ∧ (s.toRef (s.mac p).verifyAt).isSome = true ∧ (((s.toRef (s.mac p).verifyAt).getD s).mac p).verify = 2 ∧ ((s.toRef (s.mac p).verifyAt).getD s).portLive p = true ∧ (((s.toRef (s.mac p).verifyAt).getD s).mac p).verifyAt ≤ ((s.toRef (s.mac p).verifyAt).getD s).time.refNow ∧ (((s.toRef (s.mac p).verifyAt).getD s).mac p).verifySent < 3) ∧
    (∃ (p : _) (s : State), (s.mac p).verify = 2 ∧ s.portLive p = true ∧ (s.toRef (s.mac p).verifyAt).isSome = true ∧ (((s.toRef (s.mac p).verifyAt).getD s).mac p).verify = 2 ∧ ((s.toRef (s.mac p).verifyAt).getD s).portLive p = true ∧ (((s.toRef (s.mac p).verifyAt).getD s).mac p).verifyAt ≤ ((s.toRef (s.mac p).verifyAt).getD s).time.refNow ∧ 3 ≤ (((s.toRef (s.mac p).verifyAt).getD s).mac p).verifySent) ∧
    (∃ (p : _) (s : State), (s.mac p).verify = 2 ∧ s.portLive p = true) ∧
    (∃ (p : _) (s : State), (s.mac p).cfg.preEn = true ∧ s.portLive p = true) ∧
    (∃ (p : _) (s : State), (holdAhead s p).isSome = true) ∧
    (∃ (p : _) (s : State), (releaseAhead s p).isSome = true) ∧
    (∃ (p : _) (s : State), ((s.mac p).gate).isSome = true) ∧
    (∃ (p : _) (s : State), ((s.mac p).next).isSome = true) :=
  ⟨⟨0, 0, paused (fun x => { x with pausedTo := some 500 }), 500, 500, by decide +kernel⟩,
   ⟨0, 0, pressed, by decide +kernel⟩,
   ⟨0, 0, later (paused (fun x => { x with xoff := true, xoffFrom := 0, xoffAccum := 499000 })), by decide +kernel⟩,
   ⟨0, later (ported .up), by decide +kernel⟩,
   ⟨0, 0, later (paused (fun x => { x with heldFrom := some 0, pausedTo := some 200000000 })) 100000000, 0, 200000000, 0, 200000000, by decide +kernel⟩,
   ⟨0, 0, paused (fun x => { x with recoverTo := some 500 }), 500, 500, by decide +kernel⟩,
   ⟨0, macUp (fun m => { m with verify := 2, verifyAt := 500 }), by decide +kernel⟩,
   ⟨0, macUp (fun m => { m with verify := 2, verifyAt := 500, verifySent := 3 }), by decide +kernel⟩,
   ⟨0, macUp (fun m => { m with verify := 2 }), by decide +kernel⟩,
   ⟨0, macUp (fun m => { m with cfg := { m.cfg with preEn := true } }), by decide +kernel⟩,
   ⟨0, gated 1, by decide +kernel⟩,
   ⟨0, gated 2, by decide +kernel⟩,
   ⟨0, gated 1, by decide +kernel⟩,
   ⟨0, gated 1, by decide +kernel⟩⟩

theorem meets_OrderedRuleCommandsComplete :
    (MetOf Op.ruleWrite (fun c s => isNow c = true ∧ 1 ≤ pf c.params 5 4 ∧ c.data.length = 176 * pf c.params 5 4 ∧ (eachEntry (fun s i b => checkRule s c.id (pf c.params 3 2 + i) b) (fun s i b => putRule s c.id (pf c.params 3 2 + i) b) s 0 (chunks 176 (pf c.params 5 4) c.data)).2.2 = none)) ∧
    (MetStageOf Op.ruleWrite (fun c s => isNow c = false ∧ 1 ≤ pf c.params 5 4 ∧ c.data.length = 176 * pf c.params 5 4 ∧ (eachEntry (fun s i b => checkRule s c.id (pf c.params 3 2 + i) b) (fun s i b => putRule s c.id (pf c.params 3 2 + i) b) s 0 (chunks 176 (pf c.params 5 4) c.data)).2.2 = none) (fun c _ => chunks 176 (pf c.params 5 4) c.data) false) ∧
    (MetOf Op.ruleDelete (fun c s => isNow c = true ∧ 1 ≤ pf c.params 5 4 ∧ pf c.params 3 2 + pf c.params 5 4 ≤ (s.insOf c.id).grants.getD 1 0)) ∧
    (MetStageOf Op.ruleDelete (fun c s => isNow c = false ∧ 1 ≤ pf c.params 5 4 ∧ pf c.params 3 2 + pf c.params 5 4 ≤ (s.insOf c.id).grants.getD 1 0) (fun c _ => List.replicate (pf c.params 5 4) []) false) ∧
    (Met Op.ruleRead (fun c s => pf c.params 3 2 < (s.insOf c.id).grants.getD 1 0 ∧ (hostWrite s (cmdFunc s c) none (pf c.params 15 8) (match mGet? s.rul.rules (c.id * 65536 + pf c.params 3 2) with | some r => r.image | none => leBytes 176 0)).2 = true)) ∧
    (Met Op.ruleCount (fun c s => pf c.params 3 2 < (s.insOf c.id).grants.getD 1 0 ∧ pf c.params 4 4 ≤ 1)) :=
  ⟨metOf (qc [(0, 1), (4, 1)] ruleBytes) (up) (by decide +kernel) (by decide +kernel),
   metStageOf (qc [(4, 1)] ruleBytes) (up) 1 (by decide +kernel) (by decide +kernel),
   metOf (qc [(0, 1), (4, 1)]) (up) (by decide +kernel) (by decide +kernel),
   metStageOf (qc [(4, 1)]) (up) 1 (by decide +kernel) (by decide +kernel),
   met (qc []) (up) (by decide +kernel) (by decide +kernel),
   met (qc []) (up) (by decide +kernel) (by decide +kernel)⟩

theorem meets_FlowCommandsComplete :
    (MetOf Op.flowInsert (fun c s => isNow c = true ∧ c.data ≠ [] ∧ c.data.length % 64 = 0 ∧ (eachEntry (fun s _ b => checkFlow c s b) (fun s _ b => putFlow s b) s 0 (chunks 64 (c.data.length / 64) c.data)).2.2 = none)) ∧
    (MetStageOf Op.flowInsert (fun c s => isNow c = false ∧ c.data ≠ [] ∧ c.data.length % 64 = 0 ∧ (eachEntry (fun s _ b => checkFlow c s b) (fun s _ b => putFlow s b) s 0 (chunks 64 (c.data.length / 64) c.data)).2.2 = none) (fun c _ => chunks 64 (c.data.length / 64) c.data) true) ∧
    (MetOf Op.flowDelete (fun c s => isNow c = true ∧ c.data ≠ [] ∧ c.data.length % 64 = 0 ∧ (eachEntry (fun s _ b => checkDelete c s b) (fun s _ b => dropFlow c s b) s 0 (chunks 64 (c.data.length / 64) c.data)).2.2 = none)) ∧
    (MetStageOf Op.flowDelete (fun c s => isNow c = false ∧ c.data ≠ [] ∧ c.data.length % 64 = 0 ∧ (eachEntry (fun s _ b => checkDelete c s b) (fun s _ b => dropFlow c s b) s 0 (chunks 64 (c.data.length / 64) c.data)).2.2 = none) (fun c _ => chunks 64 (c.data.length / 64) c.data) true) ∧
    (∃ (pos : _) (f : _), Met Op.flowLookup (fun c s => c.data.length = 64 ∧ pf c.params 15 8 = 0 ∧ flowOf s c c.data = some (pos, f))) ∧
    (∃ (pos : _) (f : _), Met Op.flowLookup (fun c s => c.data.length = 64 ∧ pf c.params 15 8 ≠ 0 ∧ flowOf s c c.data = some (pos, f) ∧ (hostWrite s (cmdFunc s c) none (pf c.params 15 8) (f.image ++ leBytes 8 f.frames.toNat ++ leBytes 8 f.bytes.toNat)).2 = true)) ∧
    (Met Op.flowFlush (fun _ s => s.rul.flush = none)) ∧
    (∃ (n : _) (t : _), Met Op.flowAgedRead (fun c s => s.rul.aged = n :: t ∧ (hostWrite { s with rul := { s.rul with aged := t } } (cmdFunc s c) none (pf c.params 15 8) n).2 = true)) ∧
    (∃ (r : _) (b : _) (t : _), Met Op.captureRead (fun c s => s.rul.capture = (r, b) :: t ∧ (hostWrite { s with rul := { s.rul with capture := t } } (cmdFunc s c) none (pf c.params 15 8) (r ++ b)).2 = true)) :=
  ⟨metOf (qc [(0, 1)] flowBytes) (up) (by decide +kernel) (by decide +kernel),
   metStageOf (qc [] flowBytes) (up) 1 (by decide +kernel) (by decide +kernel),
   metOf (qc [(0, 1)] flowBytes) (flowAt) (by decide +kernel) (by decide +kernel),
   metStageOf (qc [] flowBytes) (flowAt) 1 (by decide +kernel) (by decide +kernel),
   ⟨0, flow2, met (qc [] flowBytes) (flowAt) (by decide +kernel) (by decide +kernel)⟩,
   ⟨0, flow2, met (qc [(8, 4096)] flowBytes) (flowAt) (by decide +kernel) (by decide +kernel)⟩,
   met (qc []) (up) (by decide +kernel) (by decide +kernel),
   ⟨[1, 2], [], met (qc [(8, 4096)]) ({ up with rul := { up.rul with aged := [[1, 2]] } }) (by decide +kernel) (by decide +kernel)⟩,
   ⟨[1], [2], [], met (qc [(8, 4096)]) ({ up with rul := { up.rul with capture := [([1], [2])] } }) (by decide +kernel) (by decide +kernel)⟩⟩

theorem meets_PipelineTableCommandsComplete :
    (MetStage Op.srcConfig (fun c _ => sourceOk (pf c.params 3 2) = true ∧ 1 ≤ pf c.params 5 4 ∧ pf c.params 5 4 ≤ 4095 ∧ pf c.params 7 7 ≤ 2 ∧ pf c.params 8 8 ≤ 8)) ∧
    (MetStage Op.bdConfig (fun c _ => pf c.params 3 2 ≤ 4095 ∧ pf c.params 4 4 ≤ 2 ∧ (pf c.params 12 12 = 0 ∨ pf c.params 12 12 = 2) ∧ pf c.params 13 13 ≤ 64 ∧ c.data.length = 4 * pf c.params 13 13 ∧ (chunks 4 (pf c.params 13 13) c.data).all memberOk = true)) ∧
    (MetStage Op.rewriteSet (fun c _ => pf c.params 3 2 ≤ 4095 ∧ c.data.length = 32 ∧ rewriteOk c.data = true)) ∧
    (MetStage Op.tunnelSet (fun c _ => pf c.params 3 2 ≤ 4095 ∧ c.data.length = 64 ∧ tunnelOk c.data = true)) ∧
    (MetStage Op.mirrorSet (fun c _ => pf c.params 2 2 ≤ 63 ∧ 1 ≤ pf c.params 3 3 ∧ pf c.params 3 3 ≤ 3 ∧ pf c.params 5 4 ≤ 4095 ∧ (pf c.params 3 3 = 1 → pf c.params 5 4 ≤ 15) ∧ (pf c.params 9 8 = 0 ∨ (64 ≤ pf c.params 9 8 ∧ pf c.params 9 8 ≤ 16384)) ∧ 1 ≤ pf c.params 13 10 ∧ pf c.params 13 10 ≤ 65536)) ∧
    (MetStage Op.parserPorts (fun _ _ => True)) :=
  ⟨metStage (qc [(4, 1)]) (up) 1 (by decide +kernel) (by decide +kernel),
   metStage (qc [(2, 1), (13, 1)] [1, 16, 0, 0]) (up) 1 (by decide +kernel) (by decide +kernel),
   metStage (qc [] (leBytes 32 0)) (up) 1 (by decide +kernel) (by decide +kernel),
   metStage (qc [] (leBytes 64 1)) (up) 1 (by decide +kernel) (by decide +kernel),
   metStage (qc [(3, 1), (10, 1)]) (up) 1 (by decide +kernel) (by decide +kernel),
   metStage (qc [(2, 4789)]) (up) 1 (by decide +kernel) (by decide +kernel)⟩

theorem meets_TrafficCommandsComplete :
    (MetStage Op.tmShaperSet (fun c s => shaperRange c.params = none ∧ match pf c.params 0 0 with | 0 => rootOk (pf c.params 3 2) = true | 1 => rootOk (pf c.params 3 2) = true ∧ 1 ≤ pf c.params 5 4 ∧ pf c.params 5 4 ≤ 1023 ∧ groupHere s (pf c.params 3 2) (pf c.params 5 4) = true | 2 => rootOk (pf c.params 3 2) = true ∧ sourceOk (pf c.params 5 4) = true ∧ pf c.params 6 6 ≤ 7 ∧ nodeOwner c.id (pf c.params 5 4) = true ∧ (nodeCheck s c.id (pf c.params 9 8) (.cls (pf c.params 3 2) (pf c.params 5 4) (pf c.params 6 6))).isNone = true ∧ (bit (pf c.params 1 1) 0 = true → (s.node c.id (pf c.params 9 8)).use = some (.cls (pf c.params 3 2) (pf c.params 5 4) (pf c.params 6 6))) | 3 => pf c.params 5 4 < 4096 ∧ (s.insOf (pf c.params 5 4)).st ≠ .free ∧ pf c.params 6 6 ≤ 1 ∧ pf c.params 18 18 = 0 ∧ pf c.params 19 19 = 0 | _ => False)) ∧
    (MetStage Op.tmGroupSet (fun c s => rootOk (pf c.params 1 0) = true ∧ 1 ≤ pf c.params 3 2 ∧ pf c.params 3 2 ≤ 1023 ∧ (if bit (pf c.params 7 7) 0 = true then groupHere s (pf c.params 1 0) (pf c.params 3 2) = true else 1 ≤ pf c.params 5 4 ∧ pf c.params 5 4 ≤ 1024 ∧ pf c.params 6 6 ≤ 7 ∧ mgrOwner c.id = true ∧ (nodeCheck s c.id (pf c.params 9 8) (.group (pf c.params 1 0) (pf c.params 3 2))).isNone = true))) ∧
    (MetStage Op.tmOwnerSet (fun c s => rootOk (pf c.params 1 0) = true ∧ sourceOk (pf c.params 3 2) = true ∧ pf c.params 5 4 ≤ 1023 ∧ (pf c.params 3 2 < 4096 ∨ (1 ≤ pf c.params 7 6 ∧ pf c.params 7 6 ≤ 1024)) ∧ groupHere s (pf c.params 1 0) (pf c.params 5 4) = true)) ∧
    (MetStage Op.tmClassSched (fun c _ => rootOk (pf c.params 1 0) = true ∧ (∀ k < 8, pf c.params (3 + k) (3 + k) ≠ 0))) ∧
    (MetStage Op.tmAdmitSet (fun c _ => pf c.params 0 0 ≤ 15 ∧ pf c.params 5 2 ≤ pf c.params 9 6 ∧ pf c.params 9 6 ≤ pf c.params 13 10 ∧ pf c.params 13 10 ≤ pf c.params 17 14 ∧ pf c.params 17 14 ≤ 131072)) ∧
    (MetStage Op.tmQlimSet (fun c _ => rootOk (pf c.params 1 0) = true ∧ pf c.params 7 4 ≤ 131072)) ∧
    (MetStage Op.tmSrcClass (fun c _ => sourceOk (pf c.params 1 0) = true ∧ pf c.params 2 2 ≤ 2 ∧ pf c.params 3 3 ≤ 7)) ∧
    (MetStage Op.tmPolicerSet (fun c s => (policerCheck s c.id (pf c.params 3 0)).isNone = true ∧ policerRange c.params = none)) ∧
    (Met Op.tmPolicerRead (fun c s => (policerCheck s c.id (pf c.params 3 0)).isNone = true ∧ pf c.params 4 4 ≤ 1 ∧ (hostWrite s (cmdFunc s c) none (pf c.params 15 8) (let x := mGetD s.tm.policers (policerKey c.id (pf c.params 3 0)) Policer.fresh; padTo 64 ((if pf c.params 4 4 = 0 then x.counts else x.scounts).flatMap (leBytes 8)))).2 = true)) ∧
    (Met Op.tmShaperRead (fun c s => pf c.params 10 10 ≤ 1 ∧ match pf c.params 0 0 with | 0 => rootOk (pf c.params 3 2) = true ∧ isManager c.src = true | 1 => rootOk (pf c.params 3 2) = true ∧ isManager c.src = true ∧ pf c.params 5 4 ≠ 0 ∧ groupHere s (pf c.params 3 2) (pf c.params 5 4) = true | 2 => rootOk (pf c.params 3 2) = true ∧ (isManager c.src = true ∨ pf c.params 5 4 = ownOf c.src) ∧ pf c.params 9 8 < (s.insOf c.id).grants.getD 4 0 ∧ retiring s c.id 4 (pf c.params 9 8) = false ∧ (s.node c.id (pf c.params 9 8)).use = some (.cls (pf c.params 3 2) (pf c.params 5 4) (pf c.params 6 6)) | 3 => (isManager c.src = true ∨ pf c.params 5 4 = ownOf c.src) ∧ pf c.params 5 4 < 4096 ∧ (s.insOf (pf c.params 5 4)).st ≠ .free ∧ pf c.params 6 6 ≤ 1 | _ => False)) :=
  ⟨metStage (qc [(14, 1)]) (up) 1 (by decide +kernel) (by refine ⟨by decide +kernel, ?_⟩; rw [show pf (qc [(14, 1)]).params 0 0 = 0 by decide +kernel]; show rootOk _ = true; decide +kernel),
   metStage (qc [(2, 1), (4, 1)]) (up) 1 (by decide +kernel) (by decide +kernel),
   metStage (qc []) (up) 1 (by decide +kernel) (by decide +kernel),
   metStage (qc [(3, 1), (4, 1), (5, 1), (6, 1), (7, 1), (8, 1), (9, 1), (10, 1)]) (up) 1 (by decide +kernel) (by decide +kernel),
   metStage (qc []) (up) 1 (by decide +kernel) (by decide +kernel),
   metStage (qc []) (up) 1 (by decide +kernel) (by decide +kernel),
   metStage (qc []) (up) 1 (by decide +kernel) (by decide +kernel),
   metStage (qc [(6, 1), (14, 64)]) (up) 1 (by decide +kernel) (by decide +kernel),
   met (qc []) (up) (by decide +kernel) (by decide +kernel),
   met (qc []) (up) (by decide +kernel) (by refine ⟨by decide +kernel, ?_⟩; rw [show pf (qc []).params 0 0 = 0 by decide +kernel]; show rootOk _ = true ∧ isManager _ = true; decide +kernel)⟩

theorem meets_ClusterTimeEventsComplete :
    (∃ (s : State) (m : Img), s.vrs.img = some m ∧ s.tim.st = 1 ∧ s.tim.cold = true ∧ isSync s = true ∧ s.tim.adopt = none ∧ 3 + (m.syncs.filter (fun n => n < s.vrs.node)).length ≤ s.tim.heats ∧ s.onStrike = true) ∧
    (∃ (s : State), s.tim.st = 4 ∧ 8 ≤ s.tim.bad ∧ s.onStrike = true) ∧
    (∃ (s : State), s.tim.st = 5) ∧
    (∃ (s : State), s.boot.stopped = false) ∧
    (∃ (s : State) (t : _), (s.vrs.img).isSome = true ∧ nextBus s = some (t, .last) ∧ s.tim.closed = false) ∧
    (∃ (s : State), s.tri.isoA ≠ s.tri.isoB ∧ s.tri.latched = false ∧ s.tri.isoEn = true ∧ s.boot.stopped = false) ∧
    (∃ (n : _) (x : _) (s : State), s.triad n = some x ∧ x.announceLeft ≠ 0 ∧ x.st = .owner ∧ x.cfg.ssp = true) :=
  ⟨⟨withTim oneNode (fun t => { t with st := 1, cold := true, heats := 3 }), oneNode, by decide +kernel⟩,
   ⟨withTim oneNode (fun t => { t with st := 4, bad := 8 }), by decide +kernel⟩,
   ⟨withTim oneNode (fun t => { t with st := 5 }), by decide +kernel⟩,
   ⟨imaged oneNode, by decide +kernel⟩,
   ⟨{ imaged oneNode with vrs := { (imaged oneNode).vrs with pos := 3 } }, 15616000, by decide +kernel⟩,
   ⟨{ up with tri := { up.tri with isoA := true } }, by decide +kernel⟩,
   ⟨0, owning, triaded, by decide +kernel⟩⟩

theorem meets_BackgroundEventsComplete :
    (∃ (s : State), s.boot.stopped = false) ∧
    (∃ (s : State), (s.nvm.session).isSome = true) ∧
    (∃ (s : State), s.boot.autoConfirm = true ∧ s.cmd.fw = .run ∧ s.nvm.govern.trial = true ∧ s.nvm.session = none ∧ s.nvm.mib ≠ 0) ∧
    (∃ (s : State), s.log.flushDue = true ∧ s.nvm.mib ≠ 0 ∧ s.boot.stopped = false ∧ s.logWriting = false ∧ s.cmd.fw = .lifeboat) ∧
    (∃ (s : State), s.log.flushDue = true ∧ s.nvm.mib ≠ 0 ∧ s.boot.stopped = false ∧ s.logWriting = false ∧ s.cmd.fw = .run ∧ s.budget.full = true ∧ s.budget.open_.log = 0 ∧ s.budget.logBooked ≠ 0) ∧
    (∃ (s : State), (s.rul.flush).isSome = true ∧ s.rul.dramDown = true) ∧
    (∃ (s : State), (s.rul.flush).isSome = true ∧ s.rul.dramDown = false) :=
  ⟨⟨up, by decide +kernel⟩,
   ⟨updating, by decide +kernel⟩,
   ⟨withBoot (fun b => { b with autoConfirm := true }) |> fun s => { s with nvm := { flashed.nvm with hdrA := some { seq := 1, active := 0, trial := true, count := 1 } } }, by decide +kernel⟩,
   ⟨{ withFw .lifeboat with log := { up.log with flushDue := true }, nvm := flashed.nvm }, by decide +kernel⟩,
   ⟨{ up with log := { up.log with flushDue := true }, nvm := flashed.nvm, budget := { up.budget with logBooked := 1 } }, by decide +kernel⟩,
   ⟨{ after up (.flowFlush (qc [])) with rul := { (after up (.flowFlush (qc []))).rul with dramDown := true } }, by decide +kernel⟩,
   ⟨after up (.flowFlush (qc [])), by decide +kernel⟩⟩

theorem meets_TransmitEventsComplete :
    (∃ (t : TxFetch) (s : State) (s3 : _) (b : List Byte) (c : _) (st : List Byte), t.descs ≠ [] ∧ (s.func t.func).cut.contains t.qp = false ∧ s.canDma t.func = true ∧ (s.qp t.func t.qp).st = .running ∧ cqFull (s.qp t.func t.qp) = false ∧ (s.qp t.func t.qp).held = [] ∧ s.pwr.quench < 2 ∧ s.rul.dramDown = false ∧ t.descs.length ≤ ((s.qp t.func t.qp).txProd + 65536 - (s.qp t.func t.qp).txCons) % 65536 ∧ (∀ d ∈ t.descs, d.length = 64) ∧ (∀ d ∈ t.descs.dropLast, bit (txFlags d) 0 = true) ∧ txChainOk t.descs = true ∧ t.recs.length = recCount (t.descs.headD []) ∧ t.recs.all recOk = true ∧ t.data.length = t.descs.foldl (fun a d => a + dn d 11 8) 0 ∧ (readSpans (seeTables s t.mem) t.func (some t.qp) (ringSpans (s.qp t.func t.qp).txAddr 64 (2 ^ (s.qp t.func t.qp).logTx) (s.qp t.func t.qp).txCons t.descs.length ++ t.descs.flatMap (fun d => spanOf (dn d 7 0) (dn d 11 8)) ++ recSpans (t.descs.headD []) t.recs)).2 = true ∧ t.overrun = false ∧ txProcess (meetEcc ((readSpans (seeTables s t.mem) t.func (some t.qp) (ringSpans (s.qp t.func t.qp).txAddr 64 (2 ^ (s.qp t.func t.qp).logTx) (s.qp t.func t.qp).txCons t.descs.length ++ t.descs.flatMap (fun d => spanOf (dn d 7 0) (dn d 11 8)) ++ recSpans (t.descs.headD []) t.recs)).1.setQp t.func t.qp { (s.qp t.func t.qp) with txCons := ((s.qp t.func t.qp).txCons + t.descs.length) % 65536 }) t.ecc) t (t.descs.headD []) = (s3, .go b c st)) ∧
    (∃ (t : TxFetch) (s : State), t.descs ≠ [] ∧ (s.func t.func).cut.contains t.qp = true ∧ t.descs.length ≤ ((s.qp t.func t.qp).txProd + 65536 - (s.qp t.func t.qp).txCons) % 65536 ∧ (∀ d ∈ t.descs, d.length = 64) ∧ (∀ d ∈ t.descs.dropLast, bit (txFlags d) 0 = true)) ∧
    (∃ (root : _) (s : State) (p : _), root ≤ 17 ∧ s.rul.dramDown = false ∧ pickRoot s root = some p ∧ (mGetD s.tm.queues (queueKey root p.owner p.cls) { frames := [], since := 0 }).frames ≠ []) ∧
    (∃ (root : _) (g : _) (rest : _) (s : State), root < 16 ∧ s.rul.dramDown = false ∧ mGetD s.tm.sending root [] = g :: rest ∧ g.cutShort = false) ∧
    (∃ (l : _) (d : _) (mem : _) (g : _) (rest : _) (s : State) (i : _) (k : _) (exc : _), l ≤ 1 ∧ s.rul.dramDown = false ∧ mGetD s.tm.sending (16 + l) [] = g :: rest ∧ g.frame.dest = .queue i k exc ∧ (s.insOf i).st = .attached ∧ (s.qp i k).st = .running ∧ (s.func i).d3 = false ∧ (s.func i).inFlr = false ∧ (s.func i).bme = true ∧ cqFull (s.qp i k) = false ∧ (s.qp i k).rxProd ≠ (s.qp i k).rxCons ∧ rxDescOk d = true ∧ ((hostBytes s g.frame exc).2).length ≤ d.len ∧ (writeSpans (seeTables ((hostBytes s g.frame exc).1) mem) i (some k) (((d.addr, ((hostBytes s g.frame exc).2).take d.len) :: g.frame.placed).flatMap (·.2)) (((d.addr, ((hostBytes s g.frame exc).2).take d.len) :: g.frame.placed).flatMap (fun w => spanOf w.1 w.2.length))).2 = true) ∧
    (∃ (root : _) (owner : _) (cls : _) (q : _) (q1 : _) (s : State), mGet? s.tm.queues (queueKey root owner cls) = some q ∧ s.rul.dramDown = false ∧ (s.toRef (q.since + s.tm.stale * 1000000)).isSome = true ∧ mGet? ((s.toRef (q.since + s.tm.stale * 1000000)).getD s).tm.queues (queueKey root owner cls) = some q1 ∧ ((s.toRef (q.since + s.tm.stale * 1000000)).getD s).rul.dramDown = false ∧ q1.since + ((s.toRef (q.since + s.tm.stale * 1000000)).getD s).tm.stale * 1000000 ≤ ((s.toRef (q.since + s.tm.stale * 1000000)).getD s).time.refNow ∧ q1.frames ≠ []) :=
  ⟨⟨txFetch, delivering, _, _, _, _, by refine ⟨?_, ?_, ?_, ?_, ?_, ?_, ?_, ?_, ?_, ?_, ?_, ?_, ?_, ?_, ?_, ?_, ?_, rfl⟩ <;> decide +kernel⟩,
   ⟨txFetch, delivering.modFunc 0 (fun f => { f with cut := [0] }), by decide +kernel⟩,
   ⟨0, queued, _, by refine ⟨by decide +kernel, by decide +kernel, Option.eq_some_of_isSome (by decide +kernel), by decide +kernel⟩⟩,
   ⟨0, grant0 (.port 0), [], sending, by decide +kernel⟩,
   ⟨0, { addr := 4096, len := 2048, resv := 0 }, [], grant0 (.queue 0 0 0), [], delivering, 0, 0, 0, by decide +kernel⟩,
   ⟨0, 0, 0, { frames := [frameFor (.port 0)], since := 0 }, { frames := [frameFor (.port 0)], since := 0 }, later queued 1000000000, by decide +kernel⟩⟩

theorem meets_CipherKeyCommandsComplete :
    (∃ (key : _) (under : _), Met Op.kekLoad (fun c s => 1 ≤ pf c.params 5 4 ∧ pf c.params 5 4 ≤ 4095 ∧ pf c.params 7 6 ≤ 4095 ∧ (s.insOf (pf c.params 7 6)).st ≠ .free ∧ pf c.params 8 8 ≤ 1 ∧ c.data.length = (if pf c.params 8 8 = 0 then 32 else 60) ∧ mGet? s.cip.slots (pf c.params 5 4) = none ∧ (if pf c.params 8 8 = 0 then key = c.data ∧ under = none else slotOk s (pf c.params 7 6) (pf c.params 11 10) = true ∧ under = some (pf c.params 11 10) ∧ unwrapKey s (pf c.params 11 10) (leBytes 2 (pf c.params 5 4) ++ leBytes 2 (pf c.params 7 6)) c.data = some key))) ∧
    (Met Op.kekErase (fun c s => pf c.params 5 4 ≠ 0 ∧ (mGet? s.cip.slots (pf c.params 5 4)).isSome = true ∧ slotUsed s (pf c.params 5 4) = false)) ∧
    (MetOf Op.ctxSet (fun c s => isNow c = true ∧ HasCtx c s ∧ 1 ≤ pf c.params 4 4 ∧ pf c.params 4 4 ≤ 7 ∧ algOk (pf c.params 4 4) (pf c.params 5 5) = true ∧ (pf c.params 4 4 = 4 → 31 ≤ pf c.params 7 7) ∧ pf c.params 10 10 ≤ 1 ∧ slotOk s c.id (pf c.params 9 8) = true ∧ c.data.length = 24 + keysLen (pf c.params 10 10) ∧ (takeKeys s c.id (ctxIdx c) (pf c.params 9 8) (pf c.params 10 10 == 1) (pf c.params 4 4 == 7) (c.data.drop 24)).isSome = true ∧ (true = true → (s.ctx (ctxOf c)).binding = none))) ∧
    (MetStageOf Op.ctxSet (fun c s => isNow c = false ∧ HasCtx c s ∧ 1 ≤ pf c.params 4 4 ∧ pf c.params 4 4 ≤ 7 ∧ algOk (pf c.params 4 4) (pf c.params 5 5) = true ∧ (pf c.params 4 4 = 4 → 31 ≤ pf c.params 7 7) ∧ pf c.params 10 10 ≤ 1 ∧ slotOk s c.id (pf c.params 9 8) = true ∧ c.data.length = 24 + keysLen (pf c.params 10 10) ∧ (takeKeys s c.id (ctxIdx c) (pf c.params 9 8) (pf c.params 10 10 == 1) (pf c.params 4 4 == 7) (c.data.drop 24)).isSome = true ∧ (false = true → (s.ctx (ctxOf c)).binding = none))) ∧
    (∃ (k1 : _) (k2 : _), MetAt (fun c s => Op.ctxKey c s) (fun c _ t _ => HasCtx c t ∧ pf c.params 16 16 ≤ 1 ∧ (t.ctx (ctxOf c)).st ≠ .unset ∧ (t.ctx (ctxOf c)).kind = 6 ∧ c.data.length = 12 + keysLen (pf c.params 16 16) ∧ takeKeys t c.id (ctxIdx c) (t.ctx (ctxOf c)).slot (pf c.params 16 16 == 1) false (c.data.drop 12) = some (k1, k2) ∧ (t.ctx (ctxOf c)).nextSeq ≤ pf c.params 11 4)) ∧
    (MetAt (fun c s => Op.ctxKey c s) (fun c s t target => HasCtx c t ∧ pf c.params 16 16 ≤ 1 ∧ (t.ctx (ctxOf c)).st ≠ .unset ∧ ((t.ctx (ctxOf c)).kind = 3 ∨ (t.ctx (ctxOf c)).kind = 5 ∨ ((t.ctx (ctxOf c)).kind = 7 ∧ oldKeyKept t c.id (ctxIdx c) = false)) ∧ c.data.length = 12 + keysLen (pf c.params 16 16) ∧ (takeKeys t c.id (ctxIdx c) (t.ctx (ctxOf c)).slot (pf c.params 16 16 == 1) ((t.ctx (ctxOf c)).kind == 7) (c.data.drop 12)).isSome = true ∧ (stagedAs (Op.ctxKey c s) c t [c.data] false target).isSome = true)) ∧
    (∃ (b : _), MetOf Op.ctxBind (fun c s => isNow c = true ∧ bit (pf c.params 0 0) 1 = false ∧ HasCtx c s ∧ (isManager c.src = true ∨ (s.ctx (ctxOf c)).kind = 4 ∨ (s.ctx (ctxOf c)).kind = 6) ∧ (s.ctx (ctxOf c)).kind ∈ [1, 2, 4, 6] ∧ bindingOf (s.ctx (ctxOf c)).kind c.data = some b ∧ (s.ctx (ctxOf c)).binding = none ∧ keyTaken s b = false ∧ scFull s b = false)) ∧
    (∃ (b : _), MetStageOf Op.ctxBind (fun c s => isNow c = false ∧ bit (pf c.params 0 0) 1 = false ∧ HasCtx c s ∧ (isManager c.src = true ∨ (s.ctx (ctxOf c)).kind = 4 ∨ (s.ctx (ctxOf c)).kind = 6) ∧ (s.ctx (ctxOf c)).kind ∈ [1, 2, 4, 6] ∧ bindingOf (s.ctx (ctxOf c)).kind c.data = some b ∧ (s.ctx (ctxOf c)).binding = none ∧ keyTaken s b = false ∧ scFull s b = false)) ∧
    (MetOf Op.ctxBind (fun c s => isNow c = true ∧ bit (pf c.params 0 0) 1 = true ∧ HasCtx c s ∧ (isManager c.src = true ∨ (s.ctx (ctxOf c)).kind = 4 ∨ (s.ctx (ctxOf c)).kind = 6) ∧ (s.ctx (ctxOf c)).kind ∈ [1, 2, 4, 6] ∧ (s.ctx (ctxOf c)).binding ≠ none)) ∧
    (MetStageOf Op.ctxBind (fun c s => isNow c = false ∧ bit (pf c.params 0 0) 1 = true ∧ HasCtx c s ∧ (isManager c.src = true ∨ (s.ctx (ctxOf c)).kind = 4 ∨ (s.ctx (ctxOf c)).kind = 6) ∧ (s.ctx (ctxOf c)).kind ∈ [1, 2, 4, 6] ∧ (s.ctx (ctxOf c)).binding ≠ none)) :=
  ⟨⟨List.replicate 32 1, none, met (qc [(4, 5)] (List.replicate 32 1)) (up) (by decide +kernel) (by decide +kernel)⟩,
   met (qc [(4, 5)]) (keyed) (by decide +kernel) (by decide +kernel),
   metOf (ctxCmd 3 1 1) (keyed) (by decide +kernel) (by unfold Machine.HasCtx; decide +kernel),
   metStageOf (ctxCmd 3 1 0) (keyed) 1 (by decide +kernel) (by unfold Machine.HasCtx; decide +kernel),
   ⟨leBytes 32 0, [], metAt (qc [(1, 3)] (leBytes 76 0)) (ctxed 6 1) 1 (by decide +kernel) (by unfold Machine.HasCtx; decide +kernel)⟩,
   metAt (qc [(1, 3)] (leBytes 76 0)) (ctxed 3 1) 1 (by decide +kernel) (by unfold Machine.HasCtx; decide +kernel),
   ⟨.espIn 77 0, metOf (qc [(0, 1), (1, 3)] espBind) (ctxed 4 1) (by decide +kernel) (by unfold Machine.HasCtx; decide +kernel)⟩,
   ⟨.espIn 77 0, metStageOf (qc [(1, 3)] espBind) (ctxed 4 1) 1 (by decide +kernel) (by unfold Machine.HasCtx; decide +kernel)⟩,
   metOf (qc [(0, 3), (1, 3)]) (bound 4 1 espBind) (by decide +kernel) (by unfold Machine.HasCtx; decide +kernel),
   metStageOf (qc [(0, 2), (1, 3)]) (bound 4 1 espBind) 1 (by decide +kernel) (by unfold Machine.HasCtx; decide +kernel)⟩

theorem meets_CipherContextCommandsComplete :
    (Met Op.ctxQuery (fun c s => ctxIdx c < (s.insOf c.id).grants.getD 3 0 ∧ pf c.params 4 4 ≤ 1)) ∧
    (∃ (n : _) (s2 : _) (d : _), Met Op.ctxSave (fun c s => HasCtx c s ∧ pf c.params 4 4 = 1 ∧ (s.insOf c.id).clearExp = true ∧ (s.ctx (ctxOf c)).st ≠ .unset ∧ (s.ctx (ctxOf c)).st ≠ .fault ∧ n = ((countsOf s c.id).1 + 1) % 2 ^ 48 ∧ s2 = { s with cip := { s.cip with counts := mPut s.cip.counts c.id (n, (countsOf s c.id).2) } } ∧ d = [0x50, 0x4B, 0x43, 0x49, 1] ++ leBytes 1 0 ++ leBytes 2 0 ++ leBytes 2 c.id ++ leBytes 4 (ctxIdx c) ++ leBytes 6 n ++ leBytes 12 0 ++ (s.ctx (ctxOf c)).image ++ leBytes 16 0 ++ leBytes 16 0 ∧ (hostWrite s2 (cmdFunc s2 c) none (pf c.params 15 8) d).2 = true)) ∧
    (∃ (n : _) (s2 : _) (head : _) (d : _), Met Op.ctxSave (fun c s => HasCtx c s ∧ pf c.params 4 4 = 0 ∧ slotOk s c.id (pf c.params 7 6) = true ∧ (s.ctx (ctxOf c)).st ≠ .unset ∧ (s.ctx (ctxOf c)).st ≠ .fault ∧ n = ((countsOf s c.id).1 + 1) % 2 ^ 48 ∧ s2 = { s.draw.2 with cip := { s.cip with counts := mPut s.cip.counts c.id (n, (countsOf s c.id).2) } } ∧ head = [0x50, 0x4B, 0x43, 0x49, 1] ++ leBytes 1 1 ++ leBytes 2 (pf c.params 7 6) ++ leBytes 2 c.id ++ leBytes 4 (ctxIdx c) ++ leBytes 6 n ++ leBytes 12 s.draw.1 ∧ d = head ++ (gcmSeal (((mGet? s.cip.slots (pf c.params 7 6)).map (·.key)).getD []) (leBytes 12 s.draw.1) head (s.ctx (ctxOf c)).image).1 ++ (gcmSeal (((mGet? s.cip.slots (pf c.params 7 6)).map (·.key)).getD []) (leBytes 12 s.draw.1) head (s.ctx (ctxOf c)).image).2 ++ leBytes 16 0 ∧ (hostWrite s2 (cmdFunc s2 c) none (pf c.params 15 8) d).2 = true)) ∧
    (∃ (b : _) (x : _), Met Op.ctxRestore (fun c s => HasCtx c s ∧ c.data.length = 320 ∧ (s.ctx (ctxOf c)).binding = none ∧ dn c.data 3 0 = 0x49434B50 ∧ byteAt c.data 4 = 1 ∧ byteAt c.data 5 ≤ 1 ∧ dn c.data 9 8 < 4096 ∧ allZero (c.data.drop 304) = true ∧ (if byteAt c.data 5 = 0 then dn c.data 7 6 = 0 ∧ dn c.data 31 20 = 0 ∧ dn c.data 303 288 = 0 ∧ (s.insOf c.id).clearExp = true ∧ b = (c.data.drop 32).take 256 else slotOk s c.id (dn c.data 7 6) = true ∧ gcmOpen (((mGet? s.cip.slots (dn c.data 7 6)).map (·.key)).getD []) ((c.data.drop 20).take 12) (c.data.take 32) ((c.data.drop 32).take 256) ((c.data.drop 288).take 16) = some b) ∧ (dn c.data 9 8 = c.id ∨ (isManager c.src = true ∧ pf c.params 4 4 = 1)) ∧ (countsOf s (dn c.data 9 8)).2 ≤ dn c.data 19 14 ∧ ctxOfImage b (dn c.data 7 6) s.draw.1 = some x)) ∧
    (Met Op.ctxClear (fun c s => HasCtx c s ∧ (s.ctx (ctxOf c)).binding = none)) ∧
    (Met Op.tlsResync (fun c s => HasCtx c s ∧ (s.ctx (ctxOf c)).st = .resync)) ∧
    (Met Op.replaySet (fun _ _ => True)) ∧
    (MetStage Op.secySet (fun c _ => pf c.params 1 1 ≤ 15 ∧ 1 ≤ pf c.params 3 3 ∧ pf c.params 3 3 ≤ 4 ∧ pf c.params 4 4 ≤ 2 ∧ pf c.params 5 5 ∈ [0, 30, 50] ∧ pf c.params 6 6 ≤ 3)) :=
  ⟨met (qc []) (up) (by decide +kernel) (by decide +kernel),
   ⟨1, { saveAt saveClear with cip := { (ctxed 3 1).cip with counts := [(0, (1, 0))] } }, ctxImage, met (saveClear) (ctxed 3 1) (by decide +kernel) (by unfold Machine.HasCtx; (repeat' apply And.intro) <;> first | decide +kernel | rfl)⟩,
   ⟨1, { (saveAt saveWrapped).draw.2 with cip := { (ctxed 3 1).cip with counts := [(0, (1, 0))] } }, wrapHead, wrapped, met (saveWrapped) (ctxed 3 1) (by decide +kernel) (by exact ⟨by unfold HasCtx; decide +kernel, by decide +kernel, by decide +kernel, by decide +kernel, by decide +kernel, by decide +kernel, by decide +kernel, rfl, rfl, writeSpans_direct _ _ _ _ _ (by decide +kernel)⟩)⟩,
   ⟨(ctxImage.drop 32).take 256, (ctxOfImage ((ctxImage.drop 32).take 256) 0 (Config.freeNat 0)).getD Ctx.fresh, met (qc [(1, 3)] ctxImage) (up) (by decide +kernel) (by unfold Machine.HasCtx; (repeat' apply And.intro) <;> first | decide +kernel | rfl)⟩,
   met (qc [(1, 3)]) (ctxed 3 1) (by decide +kernel) (by unfold Machine.HasCtx; decide +kernel),
   met (qc [(1, 3)]) (resyncing) (by decide +kernel) (by unfold Machine.HasCtx; decide +kernel),
   met (qc []) (up) (by decide +kernel) (by decide +kernel),
   metStage (qc [(3, 1)]) (up) 1 (by decide +kernel) (by decide +kernel)⟩

theorem meets_ConnectionCommandsComplete :
    (MetOf Op.stoConnSet (fun c s => isNow c = true ∧ pf c.params 3 2 < (s.insOf c.id).grants.getD 0 0 ∧ retiring s c.id 0 (pf c.params 3 2) = false ∧ pf c.params 5 5 ≤ 31 ∧ 4 ≤ pf c.params 6 6 ∧ pf c.params 6 6 ≤ 10 ∧ c.data.length = 37 ∧ (byteAt c.data 0 = 4 ∨ byteAt c.data 0 = 6) ∧ (true = true → connIdle s c = true) ∧ connTaken s (connOf c) (connBinding c.data) = false ∧ slotsBut s (connOf c) + 2 ^ pf c.params 6 6 ≤ 2097152)) ∧
    (MetStageOf Op.stoConnSet (fun c s => isNow c = false ∧ pf c.params 3 2 < (s.insOf c.id).grants.getD 0 0 ∧ retiring s c.id 0 (pf c.params 3 2) = false ∧ pf c.params 5 5 ≤ 31 ∧ 4 ≤ pf c.params 6 6 ∧ pf c.params 6 6 ≤ 10 ∧ c.data.length = 37 ∧ (byteAt c.data 0 = 4 ∨ byteAt c.data 0 = 6) ∧ (false = true → connIdle s c = true) ∧ connTaken s (connOf c) (connBinding c.data) = false ∧ slotsBut s (connOf c) + 2 ^ pf c.params 6 6 ≤ 2097152)) ∧
    (MetOf Op.stoConnClear (fun c s => isNow c = true ∧ (s.conn? (connOf c)).isSome = true ∧ (true = true → connIdle s c = true))) ∧
    (MetStageOf Op.stoConnClear (fun c s => isNow c = false ∧ (s.conn? (connOf c)).isSome = true ∧ (false = true → connIdle s c = true))) ∧
    (∃ (x : _) (v : _), Met Op.stoConnQuery (fun c s => pf c.params 4 4 ≤ 1 ∧ s.conn? (connOf c) = some x ∧ v = (if pf c.params 4 4 = 0 then x.view else x.snap))) ∧
    (∃ (x : _), Met Op.stoResync (fun c s => s.conn? (connOf c) = some x ∧ x.st = .resync)) :=
  ⟨metOf (qc [(0, 1), (6, 4)] connData) (up) (by decide +kernel) (by decide +kernel),
   metStageOf (qc [(6, 4)] connData) (up) 1 (by decide +kernel) (by decide +kernel),
   metOf (qc [(0, 1)]) (connected) (by decide +kernel) (by decide +kernel),
   metStageOf (qc []) (connected) 1 (by decide +kernel) (by decide +kernel),
   ⟨(connected.conn? (State.qpKey 0 0)).getD Conn.fresh, ((connected.conn? (State.qpKey 0 0)).getD Conn.fresh).view, met (qc []) (connected) (by decide +kernel) (by decide +kernel)⟩,
   ⟨(connResync.conn? (State.qpKey 0 0)).getD Conn.fresh, met (qc []) (connResync) (by decide +kernel) (by decide +kernel)⟩⟩

theorem meets_NamespaceCommandsComplete :
    (MetOf Op.stoNsSet (fun c s => isNow c = true ∧ bit (pf c.params 0 0) 1 = false ∧ pf c.params 3 2 < nsQuota s c.id ∧ (pf c.params 10 10 = 9 ∨ pf c.params 10 10 = 12) ∧ (nsOf c.params).pi ≤ 2 ∧ ((nsOf c.params).pi = 0 ∨ (1 ≤ (nsOf c.params).piType ∧ (nsOf c.params).piType ≤ 3)) ∧ (nsOf c.params).txAct ≤ 2 ∧ (nsOf c.params).rxAct ≤ 1 ∧ xtsOk s c.id (nsOf c.params).xts = true ∧ (∀ k, (nsOf c.params).xts = some k → retiring s c.id 3 k = false) ∧ nsTaken s c.id (pf c.params 3 2) (nsOf c.params) = false)) ∧
    (MetStageOf Op.stoNsSet (fun c s => isNow c = false ∧ bit (pf c.params 0 0) 1 = false ∧ pf c.params 3 2 < nsQuota s c.id ∧ (pf c.params 10 10 = 9 ∨ pf c.params 10 10 = 12) ∧ (nsOf c.params).pi ≤ 2 ∧ ((nsOf c.params).pi = 0 ∨ (1 ≤ (nsOf c.params).piType ∧ (nsOf c.params).piType ≤ 3)) ∧ (nsOf c.params).txAct ≤ 2 ∧ (nsOf c.params).rxAct ≤ 1 ∧ xtsOk s c.id (nsOf c.params).xts = true ∧ (∀ k, (nsOf c.params).xts = some k → retiring s c.id 3 k = false) ∧ nsTaken s c.id (pf c.params 3 2) (nsOf c.params) = false)) ∧
    (MetOf Op.stoNsSet (fun c s => isNow c = true ∧ bit (pf c.params 0 0) 1 = true ∧ pf c.params 3 2 < nsQuota s c.id ∧ (mGet? s.sto.nss (nsKey c.id (pf c.params 3 2))).isSome = true)) ∧
    (MetStageOf Op.stoNsSet (fun c s => isNow c = false ∧ bit (pf c.params 0 0) 1 = true ∧ pf c.params 3 2 < nsQuota s c.id ∧ (mGet? s.sto.nss (nsKey c.id (pf c.params 3 2))).isSome = true)) ∧
    (MetStage Op.stoNsQuota (fun c s => claimedBut s s.sto.quotas 0x0A11 c.id (·.inst) (fun it => pf it.params 3 0) + pf c.params 3 0 ≤ 65536)) ∧
    (∃ (n : _), Met Op.stoNsQuery (fun c s => mGet? s.sto.nss (nsKey c.id (pf c.params 3 2)) = some n)) :=
  ⟨metOf (nsCmd 1) (quotaed) (by decide +kernel) (by decide +kernel),
   metStageOf (nsCmd 0) (quotaed) 1 (by decide +kernel) (by decide +kernel),
   metOf (nsCmd 3) (nsHeld) (by decide +kernel) (by decide +kernel),
   metStageOf (nsCmd 2) (nsHeld) 1 (by decide +kernel) (by decide +kernel),
   metStage (qc [(0, 9)]) (up) 1 (by decide +kernel) (by decide +kernel),
   ⟨(nsOf (nsCmd 1).params), met (qc []) (nsHeld) (by decide +kernel) (by decide +kernel)⟩⟩

theorem meets_BusFrameEventsComplete :
    (∃ (i : Nat) (s : State), mayTransmit s = true ∧ planOpen s (isSend i) = true) ∧
    (∃ (p : BusAct → Bool) (s : State) (k : _) (t : _), planLast p (busPlan s) = some (k, t) ∧ s.vrs.pos ≤ k) ∧
    (∃ (p : BusAct → Bool) (s : State) (k : _) (t : _), planLast p (busPlan s) = some (k, t) ∧ k < s.vrs.pos) ∧
    (∃ (i : Nat) (c : _) (s : State) (m : Img) (x : _) (t : _) (ws : _), s.vrs.img = some m ∧ nextBus s = some (t, .send i c) ∧ m.slots[i]? = some x ∧ mayTransmit s = true ∧ (s.vchan c).txUp = true ∧ 256 * (mGetD s.vrs.lags i 0) ≤ frameTime (m.rate c) x.pmax + 256 * m.gw ∧ (mGet? s.vrs.sent i = some ws ∨ (mGet? s.vrs.sent i = none ∧ ws = frameWords { s with vrs := { s.vrs with pos := s.vrs.pos + 1 } } m i))) ∧
    (∃ (i : Nat) (c : _) (s : State) (t : _), (s.vrs.img).isSome = true ∧ nextBus s = some (t, .close i c)) ∧
    (∃ (i : Nat) (s : State) (m : Img) (x : _) (t : _) (s1 : State) (s2 : State), s.vrs.img = some m ∧ nextBus s = some (t, .vote i) ∧ m.slots[i]? = some x ∧ (∀ ws, (voteOf (s.vrs.copies.filter (fun (k : VCopy) => fSlot k.words == i))).1 = some ws → s1 = consume (match (voteOf (s.vrs.copies.filter (fun (k : VCopy) => fSlot k.words == i))).2 with | some c => (if (s.vrs.copies.filter (fun (k : VCopy) => fSlot k.words == i)).length = 1 then (({ s with vrs := { s.vrs with pos := s.vrs.pos + 1, copies := [] } }).inc 0x100308).vrsRaise 2 else ({ s with vrs := { s.vrs with pos := s.vrs.pos + 1, copies := [] } }).inc 0x100300).inc (vrsCtr c 0x28) | none => if (s.vrs.copies.filter (fun (k : VCopy) => fSlot k.words == i)).length = 1 then (({ s with vrs := { s.vrs with pos := s.vrs.pos + 1, copies := [] } }).inc 0x100308).vrsRaise 2 else ({ s with vrs := { s.vrs with pos := s.vrs.pos + 1, copies := [] } }).inc 0x100300) ws (decide ((s.vrs.copies.filter (fun (k : VCopy) => fSlot k.words == i)).length = 1)) ∧ s2 = (match deviationOf (((s.vrs.copies.filter (fun (k : VCopy) => fSlot k.words == i)).filter (fun (k : VCopy) => k.words == ws)).map (·.dev)) with | some d => if x.sync ∧ x.owner ≠ s.vrs.node then { s1 with tim := { s1.tim with devs := mPut s1.tim.devs x.owner d } } else s1 | none => s1)) ∧ ((voteOf (s.vrs.copies.filter (fun (k : VCopy) => fSlot k.words == i))).1 = none → s2 = if (s.vrs.copies.filter (fun (k : VCopy) => fSlot k.words == i)).isEmpty then ({ s with vrs := { s.vrs with pos := s.vrs.pos + 1, copies := [] } }) else (({ s with vrs := { s.vrs with pos := s.vrs.pos + 1, copies := [] } }).inc 0x100310).vrsRaise 3)) ∧
    (∃ (s : State), (s.vrs.img).isSome = true ∧ s.vrs.guardCrc = false) ∧
    (∃ (x : VirasRx) (s : State) (m : Img) (t : _), s.vrs.img = some m ∧ x.chan < 3 ∧ s.boot.stopped = false ∧ x.branch = none ∧ (∀ f, s.atNs (x.at_ / 256) f = f t) ∧ chanCarries t m x.chan x.at_ = true) ∧
    (∃ (x : VirasRx) (s : State) (m : Img) (b : Nat) (t : _), s.vrs.img = some m ∧ x.chan < 3 ∧ s.boot.stopped = false ∧ x.branch = some b ∧ b < 8 ∧ (∀ f, s.atNs (x.at_ / 256) f = f t) ∧ t.hubOn x.chan = true ∧ linkCarries t m (brKey x.chan b) x.at_ = true ∧ relayUntil t m x.chan b (x.at_ - groupsTime m.starRate 2) = none) ∧
    (∃ (x : VirasRx) (s : State) (m : Img) (b : Nat) (t : _) (close : _), s.vrs.img = some m ∧ x.chan < 3 ∧ s.boot.stopped = false ∧ x.branch = some b ∧ b < 8 ∧ (∀ f, s.atNs (x.at_ / 256) f = f t) ∧ t.hubOn x.chan = true ∧ linkCarries t m (brKey x.chan b) x.at_ = true ∧ relayUntil t m x.chan b (x.at_ - groupsTime m.starRate 2) = some close ∧ (x.at_ - groupsTime m.starRate 2) + groupsTime m.starRate (3 * x.words.length + 4) ≤ close) ∧
    (∃ (x : VirasRx) (s : State) (m : Img) (b : Nat) (t : _) (close : _), s.vrs.img = some m ∧ x.chan < 3 ∧ s.boot.stopped = false ∧ x.branch = some b ∧ b < 8 ∧ (∀ f, s.atNs (x.at_ / 256) f = f t) ∧ t.hubOn x.chan = true ∧ linkCarries t m (brKey x.chan b) x.at_ = true ∧ relayUntil t m x.chan b (x.at_ - groupsTime m.starRate 2) = some close ∧ close < (x.at_ - groupsTime m.starRate 2) + groupsTime m.starRate (3 * x.words.length + 4)) ∧
    (∃ (c : _) (b : Nat) (s : State), s.hubOn c = true ∧ b < 8 ∧ (s.vlink (brKey c b)).st = 2) ∧
    (∃ (c : _) (b : Nat) (s : State), s.hubOn c = true ∧ (s.vlink (brKey c b)).shut = false ∧ 16 ≤ (s.vlink (brKey c b)).cutRun + b2n (s.vlink (brKey c b)).cutNow) ∧
    (∃ (c : _) (b : Nat) (s : State), s.hubOn c = true ∧ (s.vlink (brKey c b)).shut = true) ∧
    (∃ (c : _) (s : State), s.vmode c ≠ 0 ∧ (s.vchan c).down = false ∧ 8 ≤ (s.vchan c).miss ∧ s.onStrike = true) ∧
    (∃ (c : _) (s : State), (s.vchan c).down = true ∧ 2 ≤ (s.vchan c).run ∧ s.onStrike = true) :=
  ⟨⟨0, busAt 0, by decide +kernel⟩,
   ⟨fun _ => true, busAt 0, 3, 15616000, by decide +kernel⟩,
   ⟨isSend 0, busAt 1, 0, 1280000, by decide +kernel⟩,
   ⟨0, 0, busAt 0, oneNode, { start := 1000, owner := 0, sync := true, len := 60000, pmax := 30 }, 1280000, _, by refine ⟨by decide +kernel, by decide +kernel, by decide +kernel, by decide +kernel, by decide +kernel, by decide +kernel, Or.inr ⟨by decide +kernel, rfl⟩⟩⟩,
   ⟨0, 0, busAt 1, 12083200, by decide +kernel⟩,
   ⟨0, busAt 2, oneNode, { start := 1000, owner := 0, sync := true, len := 60000, pmax := 30 }, 15616000, up, _, by exact ⟨rfl, by decide +kernel, by decide +kernel, fun ws h => absurd h (no_vote _ ws (by decide +kernel)), fun _ => rfl⟩⟩,
   ⟨imaged oneNode, by decide +kernel⟩,
   ⟨copy0, imaged oneNode, oneNode, nsState (imaged oneNode) 1000, by refine ⟨by decide +kernel, by decide +kernel, by decide +kernel, by decide +kernel, atNs_at _ _ (by decide +kernel), by decide +kernel⟩⟩,
   ⟨{ copy0 with branch := some 0 }, starLink 0 (fun x => { x with st := 2 }), starTop, 0, nsState (starLink 0 (fun x => { x with st := 2 })) 1000, by refine ⟨by decide +kernel, by decide +kernel, by decide +kernel, by decide +kernel, by decide +kernel, atNs_at _ _ (by decide +kernel), by decide +kernel, by decide +kernel, by decide +kernel⟩⟩,
   ⟨branchCopy [], starLink 0 (fun x => { x with st := 2 }), starTop, 0, nsState (starLink 0 (fun x => { x with st := 2 })) 74000, 21309440, by refine ⟨by decide +kernel, by decide +kernel, by decide +kernel, by decide +kernel, by decide +kernel, atNs_at _ _ (by decide +kernel), by decide +kernel, by decide +kernel, by decide +kernel, by decide +kernel⟩⟩,
   ⟨branchCopy (List.replicate 40 0), starLink 0 (fun x => { x with st := 2 }), starTop, 0, nsState (starLink 0 (fun x => { x with st := 2 })) 74000, 21309440, by refine ⟨by decide +kernel, by decide +kernel, by decide +kernel, by decide +kernel, by decide +kernel, atNs_at _ _ (by decide +kernel), by decide +kernel, by decide +kernel, by decide +kernel, by decide +kernel⟩⟩,
   ⟨0, 0, starLink 0 (fun x => { x with st := 2 }), by decide +kernel⟩,
   ⟨0, 0, starLink 0 (fun x => { x with st := 2, cutRun := 15, cutNow := true }), by decide +kernel⟩,
   ⟨0, 0, starLink 0 (fun x => { x with shut := true }), by decide +kernel⟩,
   ⟨0, chanAt (fun x => { x with miss := 8 }), by decide +kernel⟩,
   ⟨0, chanAt (fun x => { x with down := true, run := 2 }), by decide +kernel⟩⟩

theorem meets_LadderEventsComplete :
    (∃ (c : _) (b : _) (s : State), (s.vrs.img).isSome = true ∧ s.hubOn c = true ∧ b < 8 ∧ atHello (s.vlink (brKey c b)) = true) ∧
    (∃ (c : _) (s : State), (s.vrs.img).isSome = true ∧ s.vmode c = 2 ∧ atHello (s.vlink (upKey c)) = true) ∧
    (∃ (c : _) (w0 : _) (s : State), s.vmode c = 2 ∧ (s.vlink (upKey c)).st = 1 ∧ (s.vlink (upKey c)).step = .rate ∧ bits w0 11 8 = (s.vlink (upKey c)).rate + 1) ∧
    (∃ (c : _) (b : _) (w0 : _) (s : State), s.hubOn c = true ∧ b < 8 ∧ (s.vlink (brKey c b)).st = 1 ∧ (s.vlink (brKey c b)).step = .rate ∧ bits w0 11 8 = (s.vlink (brKey c b)).rate + 1) ∧
    (∃ (k : _) (s : State), (s.vlink k).st = 1 ∧ (s.vlink k).step = .switching) ∧
    (∃ (c : _) (s : State), s.vmode c = 2 ∧ (s.vlink (upKey c)).st = 1 ∧ (s.vlink (upKey c)).step = .ping) ∧
    (∃ (c : _) (s : State), ((s.vlink (upKey c)).pongAt).isSome = true) ∧
    (∃ (c : _) (b : _) (s : State), s.hubOn c = true ∧ b < 8 ∧ (s.vlink (brKey c b)).st = 1 ∧ (s.vlink (brKey c b)).step = .ping ∧ (s.vlink (brKey c b)).pongs < 15) ∧
    (∃ (c : _) (b : _) (s : State), s.hubOn c = true ∧ b < 8 ∧ (s.vlink (brKey c b)).st = 1 ∧ (s.vlink (brKey c b)).step = .ping ∧ 15 ≤ (s.vlink (brKey c b)).pongs) ∧
    (∃ (c : _) (s : State), s.vmode c = 2 ∧ (s.vlink (upKey c)).st ≠ 0 ∧ (s.vlink (upKey c)).step ≠ .hold) ∧
    (∃ (k : _) (s : State), k < 27 ∧ (s.vlink k).st ≠ 0) ∧
    (∃ (c : _) (s : State), s.vmode c = 2 ∧ atHello (s.vlink (upKey c)) = true ∧ (s.vlink (upKey c)).helloAt = none) ∧
    (∃ (c : _) (s : State), s.vmode c = 2 ∧ atHello (s.vlink (upKey c)) = true ∧ ((s.vlink (upKey c)).helloAt).isSome = true) ∧
    (∃ (k : _) (s : State), k < 27 ∧ (s.vlink k).st = 1 ∧ (s.vlink k).step = .lock) ∧
    (∃ (k : _) (s : State), k < 27 ∧ (s.vlink k).st = 1 ∧ (s.vlink k).step = .hello false ∧ 24 ≤ k) ∧
    (∃ (k : _) (s : State), k < 27 ∧ (s.vlink k).st = 1 ∧ (s.vlink k).step = .hello true) ∧
    (∃ (k : _) (s : State), k < 27 ∧ (s.vlink k).st = 1 ∧ (s.vlink k).step = .ping ∧ k < 24) ∧
    (∃ (k : _) (s : State), k < 27 ∧ (((s.vlink k).st = 1 ∧ (s.vlink k).step = .hold) ∨ (s.vlink k).st = 3)) ∧
    (∃ (k : _) (s : State), k < 27 ∧ s.vmode (if 24 ≤ k then k - 24 else k / 8) = 2 ∧ (s.vlink k).st ≠ 0) :=
  ⟨⟨0, 0, laddering 0 .lock, by decide +kernel⟩,
   ⟨0, laddering 24 .lock, by decide +kernel⟩,
   ⟨0, 0x200, laddering 24 .rate, by decide +kernel⟩,
   ⟨0, 0, 0x200, laddering 0 .rate, by decide +kernel⟩,
   ⟨0, laddering 0 .switching, by decide +kernel⟩,
   ⟨0, laddering 24 .ping, by decide +kernel⟩,
   ⟨0, starLink 24 (fun x => { x with pongAt := some 5 }), by decide +kernel⟩,
   ⟨0, 0, laddering 0 .ping, by decide +kernel⟩,
   ⟨0, 0, starLink 0 (fun x => { x with st := 1, step := .ping, pongs := 15 }), by decide +kernel⟩,
   ⟨0, laddering 24 .ping, by decide +kernel⟩,
   ⟨0, laddering 0 .ping, by decide +kernel⟩,
   ⟨0, laddering 24 .lock, by decide +kernel⟩,
   ⟨0, starLink 24 (fun x => { x with st := 1, step := .lock, helloAt := some 0 }), by decide +kernel⟩,
   ⟨0, laddering 0 .lock, by decide +kernel⟩,
   ⟨24, laddering 24 (.hello false), by decide +kernel⟩,
   ⟨0, laddering 0 (.hello true), by decide +kernel⟩,
   ⟨0, laddering 0 .ping, by decide +kernel⟩,
   ⟨0, laddering 0 .hold, by decide +kernel⟩,
   ⟨0, laddering 0 .ping, by decide +kernel⟩⟩

theorem meets_TriadCommandsComplete :
    (MetStage Op.triSet (fun c s => pf c.params 0 0 < 8 ∧ needsCluster c s = false ∧ (bit (pf c.params 5 5) 0 = true ∨ ((c.data.length = 0 ∨ c.data.length = 16) ∧ pf c.params 1 1 ≠ 0 ∧ (∀ x ∈ s.tri.slots, x.1 ≠ pf c.params 0 0 → x.2.cfg.triad ≠ pf c.params 1 1) ∧ membersOk s [pf c.params 2 2, pf c.params 3 3, pf c.params 4 4] = true ∧ pf c.params 6 6 ≤ 8 ∧ pf c.params 7 7 ≤ 15)))) ∧
    (∃ (x : _), Met Op.triQuery (fun c s => pf c.params 0 0 < 8 ∧ s.triad (pf c.params 0 0) = some x)) ∧
    (∃ (x : _), MetStage Op.triHandover (fun c s => pf c.params 0 0 < 8 ∧ pf c.params 1 1 ≤ 3 ∧ s.triad (pf c.params 0 0) = some x ∧ x.st = .owner)) ∧
    (Met Op.triRearm (fun _ _ => True)) ∧
    (Met Op.triIsoClear (fun c s => s.tri.isoA = false ∧ s.tri.isoB = false)) ∧
    (∃ (x : _), Met Op.triForce (fun c s => pf c.params 0 0 < 8 ∧ s.triad (pf c.params 0 0) = some x ∧ fit s x = true)) :=
  ⟨metStage (qc [(1, 1), (2, 0), (3, 1), (4, 2)]) (imaged threeNodes) 1 (by decide +kernel) (by decide +kernel),
   ⟨owning, met (qc []) (triaded) (by decide +kernel) (by decide +kernel)⟩,
   ⟨owning, metStage (qc []) (triaded) 1 (by decide +kernel) (by decide +kernel)⟩,
   met (qc []) (up) (by decide +kernel) (by decide +kernel),
   met (qc []) (up) (by decide +kernel) (by decide +kernel),
   ⟨owning, met (qc []) (triaded) (by decide +kernel) (by decide +kernel)⟩⟩

theorem meets_PowerCommandsComplete :
    (MetStage Op.pwrSet (fun c _ => (bit (pf c.params 0 0) 1 = true → 1 ≤ pf c.params 2 2 ∧ pf c.params 2 2 ≤ 40 ∧ pf c.params 3 3 ≤ 100) ∧ (bit (pf c.params 0 0) 2 = true → 500 ≤ pf c.params 6 5 ∧ pf c.params 6 5 ≤ 10000 ∧ 5 ≤ pf c.params 7 7 ∧ pf c.params 7 7 ≤ 31) ∧ (bit (pf c.params 0 0) 3 = true → 10 ≤ pf c.params 9 9 ∧ pf c.params 9 9 ≤ 100 ∧ pf c.params 10 10 ≤ 150 ∧ 100 ≤ pf c.params 13 11 ∧ pf c.params 13 11 ≤ 50000 ∧ 100 ≤ pf c.params 15 14 ∧ pf c.params 15 14 ≤ 10000 ∧ pf c.params 9 9 + 10 ≤ pf c.params 10 10))) ∧
    (MetStage Op.thmSet (fun c _ => (bit (pf c.params 0 0) 0 = true → 60 ≤ pf c.params 1 1 ∧ pf c.params 1 1 ≤ 100 ∧ 70 ≤ pf c.params 2 2 ∧ pf c.params 2 2 ≤ 105 ∧ pf c.params 1 1 ≤ pf c.params 2 2) ∧ (bit (pf c.params 0 0) 1 = true → 10 ≤ pf c.params 4 3 ∧ pf c.params 4 3 ≤ 1000))) ∧
    (Met Op.pwrQuery (fun _ _ => True)) ∧
    (Met Op.thmQuery (fun _ _ => True)) ∧
    (Met Op.pwrInject (fun c _ => 1 ≤ pf c.params 0 0 ∧ pf c.params 0 0 ≤ 3 ∧ 10 ≤ pf c.params 4 1 ∧ pf c.params 4 1 ≤ 100000)) ∧
    (Met Op.thmClearLatch (fun _ _ => True)) :=
  ⟨metStage (qc []) (up) 1 (by decide +kernel) (by decide +kernel),
   metStage (qc []) (up) 1 (by decide +kernel) (by decide +kernel),
   met (qc []) (up) (by decide +kernel) (by decide +kernel),
   met (qc []) (up) (by decide +kernel) (by decide +kernel),
   met (qc [(0, 1), (1, 10)]) (up) (by decide +kernel) (by decide +kernel),
   met (qc []) (up) (by decide +kernel) (by decide +kernel)⟩

theorem meets_SupplyEventsComplete :
    (∃ (d : _) (s : State), watched s d = true) ∧
    (∃ (s : State), softNow s = true) ∧
    (∃ (s : State), s.pwr.stepAt = none ∧ alertNow s = false ∧ hardNow s = false ∧ mGet? s.pwr.inject 1 = none) ∧
    (∃ (s : State), (s.pwr.stepAt).isSome = true) ∧
    (∃ (s : State), s.pwr.alert = false) ∧
    (∃ (s : State), s.pwr.alert = true) ∧
    (∃ (s : State), (s.pwr.wait).isSome = true) ∧
    (∃ (d : _) (s : State), watched s d = true ∧ (bitList (State.post { (setSoft { s with pwr := { s.pwr with failed := setBits s.pwr.failed d d 1, belowHard := setBits s.pwr.belowHard d d 0 } } (setBits s.pwr.belowSoft d d 0)) with pwr := { (setSoft { s with pwr := { s.pwr with failed := setBits s.pwr.failed d d 1, belowHard := setBits s.pwr.belowHard d d 0 } } (setBits s.pwr.belowSoft d d 0)).pwr with hardSag := hardNow (setSoft { s with pwr := { s.pwr with failed := setBits s.pwr.failed d d 1, belowHard := setBits s.pwr.belowHard d d 0 } } (setBits s.pwr.belowSoft d d 0)) && (setSoft { s with pwr := { s.pwr with failed := setBits s.pwr.failed d d 1, belowHard := setBits s.pwr.belowHard d d 0 } } (setBits s.pwr.belowSoft d d 0)).pwr.hardSag } } 0x9005 []).pwr.failed 16).length ≤ 8) ∧
    (∃ (d : _) (s : State), watched s d = true ∧ 8 < (bitList (State.post { (setSoft { s with pwr := { s.pwr with failed := setBits s.pwr.failed d d 1, belowHard := setBits s.pwr.belowHard d d 0 } } (setBits s.pwr.belowSoft d d 0)) with pwr := { (setSoft { s with pwr := { s.pwr with failed := setBits s.pwr.failed d d 1, belowHard := setBits s.pwr.belowHard d d 0 } } (setBits s.pwr.belowSoft d d 0)).pwr with hardSag := hardNow (setSoft { s with pwr := { s.pwr with failed := setBits s.pwr.failed d d 1, belowHard := setBits s.pwr.belowHard d d 0 } } (setBits s.pwr.belowSoft d d 0)) && (setSoft { s with pwr := { s.pwr with failed := setBits s.pwr.failed d d 1, belowHard := setBits s.pwr.belowHard d d 0 } } (setBits s.pwr.belowSoft d d 0)).pwr.hardSag } } 0x9005 []).pwr.failed 16).length ∧ (State.post { (setSoft { s with pwr := { s.pwr with failed := setBits s.pwr.failed d d 1, belowHard := setBits s.pwr.belowHard d d 0 } } (setBits s.pwr.belowSoft d d 0)) with pwr := { (setSoft { s with pwr := { s.pwr with failed := setBits s.pwr.failed d d 1, belowHard := setBits s.pwr.belowHard d d 0 } } (setBits s.pwr.belowSoft d d 0)).pwr with hardSag := hardNow (setSoft { s with pwr := { s.pwr with failed := setBits s.pwr.failed d d 1, belowHard := setBits s.pwr.belowHard d d 0 } } (setBits s.pwr.belowSoft d d 0)) && (setSoft { s with pwr := { s.pwr with failed := setBits s.pwr.failed d d 1, belowHard := setBits s.pwr.belowHard d d 0 } } (setBits s.pwr.belowSoft d d 0)).pwr.hardSag } } 0x9005 []).pwr.blind = false) ∧
    (∃ (d : _) (s : State), watched s d = true ∧ (s.cmd.fw == .boot) = true) ∧
    (∃ (d : _) (s : State), watched s d = true ∧ (s.cmd.fw == .boot) = false ∧ bit s.pwr.belowSoft d = true ∧ 8 ≤ ((List.range 16).filter (fun k => k != d && watched s k && !bit s.pwr.belowSoft k)).length) ∧
    (∃ (s : State), s.pwr.belowHard ≠ 0 ∧ s.pwr.lowTold = false) ∧
    (∃ (s : State), s.boot.stopped = false) ∧
    (∃ (src : _) (s : State), (mGet? s.pwr.inject src).isSome = true) :=
  ⟨⟨0, up, by decide +kernel⟩,
   ⟨withPwr (fun p => { p with belowSoft := 1 }), by decide +kernel⟩,
   ⟨up, by decide +kernel⟩,
   ⟨withPwr (fun p => { p with stepAt := some 5 }), by decide +kernel⟩,
   ⟨up, by decide +kernel⟩,
   ⟨withPwr (fun p => { p with alert := true }), by decide +kernel⟩,
   ⟨withPwr (fun p => { p with wait := some (5, 1) }), by decide +kernel⟩,
   ⟨0, up, by decide +kernel⟩,
   ⟨0, withPwr (fun p => { p with failed := 0x1FE }), by decide +kernel⟩,
   ⟨0, withFw .boot, by decide +kernel⟩,
   ⟨0, withPwr (fun p => { p with belowSoft := 1 }), by decide +kernel⟩,
   ⟨withPwr (fun p => { p with belowHard := 1 }), by decide +kernel⟩,
   ⟨up, by decide +kernel⟩,
   ⟨1, withPwr (fun p => { p with inject := [(1, 5)] }), by decide +kernel⟩⟩

theorem meets_TemperatureEventsComplete :
    (∃ (t : _) (s : State), (setTemps s t).pwr.warn = false ∧ warnAt (setTemps s t) ≤ warnTemp (setTemps s t)) ∧
    (∃ (t : _) (s : State), ((setTemps s t).pwr.warn = true ∨ warnTemp (setTemps s t) < warnAt (setTemps s t))) ∧
    (∃ (t : _) (s : State), (setTemps s t).pwr.throttled = false ∧ throttleAt (setTemps s t) ≤ throttleTemp (setTemps s t)) ∧
    (∃ (s : State), s.pwr.throttled = false) ∧
    (∃ (s : State), s.pwr.throttled = true) ∧
    (∃ (k : _) (t : _) (s : State), k < 12 ∧ sensorBad s k = false ∧ readsBad s t k = true) ∧
    (∃ (s : State) (t : _) (n : _) (on : _) (rest : _), (∀ f, s.atRef s.ln.powerAt f = f t) ∧ t.ln.power = (n, on) :: rest ∧ ((on = false ∧ sendsOn t n = false) ∨ (on = true ∧ t.pwr.wait = none ∧ bandOf t (targetMa t) ≤ t.pwr.pins))) ∧
    (1000 * powering.fld Reg.hintStep ≤ Config.iStatic powering.pwr.temp → ∃ (s : State) (t : _) (n : _) (rest : _), (∀ f, s.atRef s.ln.powerAt f = f t) ∧ t.ln.power = (n, (true)) :: rest ∧ t.pwr.wait = none ∧ t.pwr.pins < bandOf t (targetMa t)) :=
  ⟨⟨temps 1600, up, by decide +kernel⟩,
   ⟨temps 400, up, by decide +kernel⟩,
   ⟨temps 1800, up, by decide +kernel⟩,
   ⟨up, by decide +kernel⟩,
   ⟨withPwr (fun p => { p with throttled := true }), by decide +kernel⟩,
   ⟨0, 2000 :: List.replicate 11 400, up, by decide +kernel⟩,
   ⟨{ up with ln := { up.ln with power := [(0, false)] } }, (State.toRef ({ up with ln := { up.ln with power := [(0, false)] } }) 0).getD ({ up with ln := { up.ln with power := [(0, false)] } }), 0, false, [], by exact ⟨atRef_at _ _ (by decide +kernel), by decide +kernel, by decide +kernel⟩⟩,
   fun h => ⟨powering, (powering.toRef powering.ln.powerAt).getD powering, 0, [], atRef_at _ _ (by decide +kernel), rfl, rfl, powering_band h⟩⟩

theorem meets_LaneEventsComplete :
    (∃ (p : _) (c : PortCfg) (up : _) (r : _) (w : _) (fec : _) (speed : _) (rs : _) (s : State), (s.port p).cfg = some c ∧ (s.port p).st = .training ∧ s.time.refHold = false ∧ speed ≠ 0 ∧ s.time.refNow ≤ (if (s.port p).fromStore then (s.port p).exitAt + 5000000 else (s.port p).trainAt + 500000000) ∧ (if (s.port p).fromStore then ∃ y, (s.port p).stored = some y ∧ y.speed = speed ∧ up = y.up ∧ r = y.rate ∧ w = y.width ∧ fec = y.fec else fec = fecOf c r w rs ∧ (if (s.port p).reduced then speedOf (s.port p).rate (s.port p).width = speed ∧ up = false ∧ r = (s.port p).rate ∧ w = (s.port p).width else if c.an then bit c.adv speed = true ∧ up = true ∧ resolveRate speed c.rate c.width = some (r, w) else speedOf c.rate c.width = speed ∧ up = true ∧ r = c.rate ∧ w = c.width)) ∧ (∀ n ∈ groupLanes (s.port p).base w, (s.lane n).failed = false ∧ (s.lane n).powered = true)) ∧
    (∃ (n : _) (s : State), n ≤ 15 ∧ (s.lane n).powered = true ∧ portOfLane s n = none) ∧
    (∃ (n : _) (s : State), n ≤ 15 ∧ (s.lane n).powered = true ∧ (portOfLane s n).isSome = true) ∧
    (∃ (n : _) (s : State), n ≤ 15 ∧ (s.lane n).powered = true ∧ s.time.refHold = false ∧ portOfLane ((if lossDue s n then failLanes s [(n, (s.lane n).lossReason)] else s)) n = none) ∧
    (∃ (n : _) (s : State) (p : _), n ≤ 15 ∧ (s.lane n).powered = true ∧ s.time.refHold = false ∧ portOfLane ((if lossDue s n then failLanes s [(n, (s.lane n).lossReason)] else s)) n = some p ∧ ((((if lossDue s n then failLanes s [(n, (s.lane n).lossReason)] else s)).setLane n { ((if lossDue s n then failLanes s [(n, (s.lane n).lossReason)] else s)).lane n with sig := true, cdr := true, align := true, lossAt := none, backAt := if (((if lossDue s n then failLanes s [(n, (s.lane n).lossReason)] else s)).lane n).failed then some ((((if lossDue s n then failLanes s [(n, (s.lane n).lossReason)] else s)).lane n).backAt.getD ((if lossDue s n then failLanes s [(n, (s.lane n).lossReason)] else s)).time.refNow) else none }).port p).lossFrom = none) ∧
    (∃ (n : _) (s : State) (p : _), n ≤ 15 ∧ (s.lane n).powered = true ∧ s.time.refHold = false ∧ portOfLane ((if lossDue s n then failLanes s [(n, (s.lane n).lossReason)] else s)) n = some p ∧ (((((if lossDue s n then failLanes s [(n, (s.lane n).lossReason)] else s)).setLane n { ((if lossDue s n then failLanes s [(n, (s.lane n).lossReason)] else s)).lane n with sig := true, cdr := true, align := true, lossAt := none, backAt := if (((if lossDue s n then failLanes s [(n, (s.lane n).lossReason)] else s)).lane n).failed then some ((((if lossDue s n then failLanes s [(n, (s.lane n).lossReason)] else s)).lane n).backAt.getD ((if lossDue s n then failLanes s [(n, (s.lane n).lossReason)] else s)).time.refNow) else none }).port p).lossFrom).isSome = true) ∧
    (∃ (n : _) (p : _) (s : State), portOfLane s n = some p ∧ (s.port p).st = .training) ∧
    (∃ (ns : _) (t : _) (s : State), ns ≠ [] ∧ (∀ n ∈ ns, (s.lane n).failed = false ∧ (s.lane n).lossAt = some t)) ∧
    (∃ (n : _) (s : State), n ≤ 15 ∧ (s.lane n).failed = true ∧ 1 ≤ (s.lane n).reason ∧ (s.lane n).reason ≤ 3 ∧ ((s.lane n).backAt).isSome = true) ∧
    (∃ (p : _) (s : State), (s.port p).st = .training ∧ (s.port p).fromStore = false) ∧
    (∃ (n : _) (t : _) (s : State), (s.lane n).upAt = some t ∧ s.time.refNow ≤ t + 500000) ∧
    (∃ (p : _) (c : PortCfg) (t : _) (s : State), (s.port p).cfg = some c ∧ (s.port p).st = .degraded ∧ c.autoRestore = true ∧ s.onStrike = true ∧ (s.port p).healthyFrom = some t ∧ t + 1000000000 ≤ s.time.refNow ∧ (∀ it ∈ s.staging.items, it.op = 0x0506 → pf it.params 0 0 ≠ p)) ∧
    (∃ (a : _) (s : State), (s.ln.diags.find? (fun d => d.anchor == a && d.mode == 4 && d.runs)).isSome = true) ∧
    (∃ (p : _) (c : PortCfg) (g : AnPage) (s : State), (s.port p).cfg = some c ∧ (s.port p).st = .training ∧ (s.port p).fromStore = false ∧ c.an = true ∧ g.selector = 1 ∧ g.reservedBit = false ∧ g.earlyAck = false) ∧
    (∃ (p : _) (c : PortCfg) (g : AnPage) (s : State), (s.port p).cfg = some c ∧ (s.port p).st = .training ∧ (s.port p).fromStore = false ∧ c.an = true ∧ (g.selector ≠ 1 ∨ g.reservedBit = true ∨ g.earlyAck = true)) ∧
    (∃ (n : _) (tap : _) (p : _) (lo : _) (mn : _) (mx : _) (s : State), n ≤ 15 ∧ tap ≤ 3 ∧ portOfLane s n = some p ∧ (s.lane n).fixed = false ∧ (s.port p).st = .training ∧ tapField tap = (lo, mn, mx)) ∧
    (∃ (p : _) (s : State), ((s.port p).cfg).isSome = true ∧ (s.port p).st = .training ∧ (s.port p).fromStore = true) :=
  ⟨⟨0, portCfg, true, 1, 0, fecOf portCfg 1 0 false, 1, false, withPort (fun x => { x with cfg := some portCfg }), by refine ⟨by decide +kernel, by decide +kernel, by decide +kernel, by decide +kernel, by decide +kernel, ?_, by decide +kernel⟩; rw [if_neg (by decide +kernel)]; decide +kernel⟩,
   ⟨0, lit, by decide +kernel⟩,
   ⟨0, withPort (fun x => { x with cfg := some portCfg }), by decide +kernel⟩,
   ⟨0, lit, by decide +kernel⟩,
   ⟨0, withPort (fun x => { x with cfg := some portCfg }), 0, by decide +kernel⟩,
   ⟨0, withPort (fun x => { x with cfg := some portCfg, st := .down, lossFrom := some .up }), 0, by decide +kernel⟩,
   ⟨0, 0, withPort (fun x => { x with cfg := some portCfg }), by decide +kernel⟩,
   ⟨[0], 0, withLane (fun x => { x with lossAt := some 0 }), by decide +kernel⟩,
   ⟨0, withLane (fun x => { x with failed := true, reason := 1, backAt := some 0 }), by decide +kernel⟩,
   ⟨0, withPort (fun x => { x with cfg := some portCfg }), by decide +kernel⟩,
   ⟨0, 0, withLane (fun x => { x with upAt := some 0 }), by decide +kernel⟩,
   ⟨0, anCfg, 0, struck (withPort (fun x => { x with cfg := some anCfg, st := .degraded, healthyFrom := some 0 })), by decide +kernel⟩,
   ⟨0, testing 4, by decide +kernel⟩,
   ⟨0, anCfg, anPage, withPort (fun x => { x with cfg := some anCfg }), by decide +kernel⟩,
   ⟨0, anCfg, { anPage with earlyAck := true }, withPort (fun x => { x with cfg := some anCfg }), by decide +kernel⟩,
   ⟨0, 0, 0, (tapField 0).1, (tapField 0).2.1, (tapField 0).2.2, ported .training, by decide +kernel⟩,
   ⟨0, withPort (fun x => { x with cfg := some portCfg, fromStore := true }), by decide +kernel⟩⟩

theorem meets_FlashCommandsComplete :
    (Met Op.nvmInfo (fun _ _ => True)) ∧
    (Met Op.nvmCfgWrite (fun c s => pf c.params 1 0 ≠ 0 ∧ (pf c.params 1 0 < 3 ∨ 0x8000 ≤ pf c.params 1 0) ∧ c.data.length ≤ 4096 ∧ s.nvm.mib ≠ 0)) ∧
    (∃ (v : _), Met Op.nvmCfgRead (fun c s => recValue s.nvm.cfg (pf c.params 1 0) = some v ∧ (hostWrite s (cmdFunc s c) none (pf c.params 15 8) (v)).2 = true)) ∧
    (Met Op.nvmProvWrite (fun c s => c.data.length = 16 ∧ provOk c.data = true ∧ s.nvm.mib ≠ 0 ∧ s.nvm.provUsed + nvmLen 16 ≤ provSize)) ∧
    (Met Op.fwBegin (fun c s => s.nvm.mib ≠ 0 ∧ lockedOut s c = false)) ∧
    (∃ (x : _), Met Op.fwWrite (fun c s => s.nvm.mib ≠ 0 ∧ s.nvm.session = some x ∧ x.owner = .command c.src ∧ 256 ≤ c.data.length ∧ c.data.length ≤ 4096 ∧ c.data.length % 256 = 0 ∧ pf c.params 3 0 % 256 = 0 ∧ x.nextOff ≤ pf c.params 3 0 ∧ pf c.params 3 0 + c.data.length ≤ 16777216)) ∧
    (∀ p : ImgPart, p.check 0 = none → ∃ (x : _), Met Op.fwEnd (fun c s => s.nvm.mib ≠ 0 ∧ s.nvm.session = some x ∧ x.owner = .command c.src ∧ (s.nvm.img x.img).check s.nvm.floor = none)) ∧
    (Met Op.fwActivate (fun c s => s.nvm.mib ≠ 0 ∧ lockedOut s c = false ∧ (s.nvm.img s.nvm.inactive).mark = 2)) ∧
    (Met Op.fwConfirm (fun _ s => s.nvm.mib ≠ 0 ∧ s.nvm.session = none ∧ s.nvm.govern.trial = true)) ∧
    (∃ (x : _), Met Op.fwAbort (fun c s => s.nvm.mib ≠ 0 ∧ s.nvm.session = some x ∧ x.owner = .command c.src)) ∧
    (∃ (r : _), Met Op.svnCommit (fun c s => s.nvm.session = none ∧ s.nvm.running = some r ∧ r.1 = s.nvm.govern.active ∧ s.nvm.govern.trial = false ∧ (pf c.params 0 0 = 1 ∨ (s.nvm.img (1 - r.1)).check s.nvm.floor ≠ none ∨ r.2.2.1 ≤ (s.nvm.img (1 - r.1)).svn))) :=
  ⟨met (qc []) (up) (by decide +kernel) (by decide +kernel),
   met (qc [(0, 1)] [1, 2]) (flashed) (by decide +kernel) (by decide +kernel),
   ⟨[5, 6], met (qc [(0, 1), (8, 4096)]) ({ flashed with nvm := { flashed.nvm with cfg := [rec1] } }) (by decide +kernel) (by decide +kernel)⟩,
   met (qc [] (leBytes 16 0x10000)) (flashed) (by decide +kernel) (by decide +kernel),
   met (qc []) (flashed) (by decide +kernel) (by decide +kernel),
   ⟨session, met (qc [] (List.replicate 256 0)) (updating) (by decide +kernel) (by decide +kernel)⟩,
   fun p hp => ⟨{ session with owner := .command .mbox }, endCmd0, ending p, 1, false, ending_takes p, by unfold checkLate; rw [(ending_taken p).2]; rfl, by have e := (ending_taken p).1; dsimp only; rw [e]; exact ⟨Nat.succ_ne_zero _, rfl, (by decide +kernel : SessOwner.command .mbox = SessOwner.command endCmd0.src), hp⟩⟩,
   met (qc []) ({ flashed with nvm := flashed.nvm.mark 1 2 }) (by decide +kernel) (by decide +kernel),
   met (qc []) ({ flashed with nvm := { flashed.nvm with hdrA := some { seq := 1, active := 0, trial := true, count := 1 } } }) (by decide +kernel) (by decide +kernel),
   ⟨session, met (qc []) (updating) (by decide +kernel) (by decide +kernel)⟩,
   ⟨(0, 1, 3, []), met (qc [(0, 1)]) ({ flashed with nvm := { flashed.nvm with running := some (0, 1, 3, []) } }) (by decide +kernel) (by decide +kernel)⟩⟩

theorem meets_LogAndIdentityCommandsComplete :
    (Met Op.logRead (fun c s => 1 ≤ pf c.params 5 4 ∧ pf c.params 5 4 ≤ 4096 ∧ s.log.fallback = false ∧ (hostWrite s (cmdFunc s c) none (pf c.params 15 8) ((logFrom s (BitVec.ofNat 32 (pf c.params 3 0)) (pf c.params 5 4)).flatMap LogEntry.bytes)).2 = true)) ∧
    (MetAt (fun _ _ => Op.logRead) (fun c _ t _ => 1 ≤ pf c.params 5 4 ∧ pf c.params 5 4 ≤ 4096 ∧ t.log.fallback = true ∧ (hostWrite t (cmdFunc t c) none (pf c.params 15 8) ((logFrom t (BitVec.ofNat 32 (pf c.params 3 0)) (pf c.params 5 4)).flatMap LogEntry.bytes)).2 = true)) ∧
    (Met Op.logFlush (fun _ s => s.nvm.mib ≠ 0)) ∧
    (Met Op.logClearFail (fun _ s => s.log.fallback = false)) ∧
    (Met Op.logMark (fun _ _ => True)) ∧
    (∃ (d : _), Met Op.idCertRead (fun c s => s.nvm.cert = some d ∧ (hostWrite s (cmdFunc s c) none (pf c.params 15 8) (d)).2 = true)) ∧
    (Met Op.idAttest (fun c s => c.data.length = 32 ∧ (hostWrite s (cmdFunc s c) none (pf c.params 15 8) (attestBody s c.data ++ padTo 96 (Config.ecdsaSign (attestBody s c.data)))).2 = true)) :=
  ⟨met (qc [(4, 1), (8, 4096)]) (up) (by decide +kernel) (by decide +kernel),
   metAt (qc [(4, 1), (8, 4096)]) ({ up with log := { up.log with fallback := true } }) 1 (by decide +kernel) (by decide +kernel),
   met (qc []) (flashed) (by decide +kernel) (by decide +kernel),
   met (qc []) (up) (by decide +kernel) (by decide +kernel),
   met (qc [(0, 9)]) (up) (by decide +kernel) (by decide +kernel),
   ⟨[1, 2], met (qc [(8, 4096)]) ({ up with nvm := { up.nvm with cert := some [1, 2] } }) (by decide +kernel) (by decide +kernel)⟩,
   met (qc [(8, 4096)] (leBytes 32 1)) (up) (by decide +kernel) (by exact ⟨by decide +kernel, writeSpans_direct _ _ _ _ _ (by decide +kernel)⟩)⟩

theorem meets_SidebandMessagesComplete :
    (∃ (p : _) (s : State) (op : _) (eid : _), p ≤ 1 ∧ s.boot.standby = true ∧ op ≤ 1 ∧ 8 ≤ eid ∧ eid ≤ 254) ∧
    (∃ (p : _) (s : State) (op : _) (eid : _), p ≤ 1 ∧ s.boot.standby = true ∧ (1 < op ∨ eid < 8 ∨ 254 < eid)) ∧
    (∃ (p : _) (s : State), p ≤ 1 ∧ s.boot.standby = true) ∧
    (∃ (p : _) (s : State) (tid : _), p ≤ 1 ∧ s.boot.standby = true ∧ 1 ≤ tid ∧ tid ≤ 254) ∧
    (∃ (p : _) (s : State) (tid : _), p ≤ 1 ∧ s.boot.standby = true ∧ (tid = 0 ∨ 254 < tid)) ∧
    (∃ (p : _) (s : State) (k : _), p ≤ 1 ∧ s.boot.standby = true ∧ 1 ≤ k ∧ k ≤ 16) ∧
    (∃ (p : _) (s : State) (k : _), p ≤ 1 ∧ s.boot.standby = true ∧ 17 ≤ k ∧ k ≤ 33) ∧
    (∃ (p : _) (s : State) (enable : _), p ≤ 1 ∧ s.boot.standby = true ∧ enable ≤ 3) :=
  ⟨⟨0, up, 0, 8, by decide +kernel⟩,
   ⟨0, up, 0, 7, by decide +kernel⟩,
   ⟨0, up, by decide +kernel⟩,
   ⟨0, up, 254, by decide +kernel⟩,
   ⟨0, up, 255, by decide +kernel⟩,
   ⟨0, up, 16, by decide +kernel⟩,
   ⟨0, up, 33, by decide +kernel⟩,
   ⟨0, up, 3, by decide +kernel⟩⟩

theorem meets_UpdateMessagesComplete :
    (∃ (p : _) (s : State), p ≤ 1 ∧ s.boot.standby = true ∧ fdLive ((sbDrain s p).inc (sbCtr p 0)) = true) ∧
    (∃ (p : _) (s : State), p ≤ 1 ∧ s.boot.standby = true ∧ fdLive ((sbDrain s p).inc (sbCtr p 0)) = true ∧ (((sbDrain s p).inc (sbCtr p 0)).sbPort p).fd = .idle ∧ fdTaken ((sbDrain s p).inc (sbCtr p 0)) p = false) ∧
    (∃ (p : _) (s : State), p ≤ 1 ∧ s.boot.standby = true ∧ fdLive ((sbDrain s p).inc (sbCtr p 0)) = true ∧ ((((sbDrain s p).inc (sbCtr p 0)).sbPort p).fd ≠ .idle ∨ fdTaken ((sbDrain s p).inc (sbCtr p 0)) p = true)) ∧
    (∃ (p : _) (s : State), p ≤ 1 ∧ s.boot.standby = true ∧ fdLive ((sbDrain s p).inc (sbCtr p 0)) = true ∧ heldByOther ((sbDrain s p).inc (sbCtr p 0)) p = false ∧ (((sbDrain s p).inc (sbCtr p 0)).sbPort p).fd = .learn) ∧
    (∃ (p : _) (s : State) (size : _), p ≤ 1 ∧ s.boot.standby = true ∧ fdLive ((sbDrain s p).inc (sbCtr p 0)) = true ∧ (((sbDrain s p).inc (sbCtr p 0)).sbPort p).fd = .ready ∧ ((sbDrain s p).inc (sbCtr p 0)).nvm.mib ≠ 0 ∧ 1 ≤ size ∧ size ≤ 16777216 ∧ fdTaken ((sbDrain s p).inc (sbCtr p 0)) p = false) ∧
    (∃ (p : _) (s : State) (x : Session) (data : List Byte), p ≤ 1 ∧ s.boot.standby = true ∧ fdLive ((sbDrain s p).inc (sbCtr p 0)) = true ∧ ((sbDrain s p).inc (sbCtr p 0)).nvm.session = some x ∧ x.owner = .port p ∧ (((sbDrain s p).inc (sbCtr p 0)).sbPort p).fd = .download ∧ data.length = 2048 ∧ ((sbDrain s p).inc (sbCtr p 0)).nvm.cur = none ∧ ((sbDrain s p).inc (sbCtr p 0)).nvm.waiting = [] ∧ x.nextOff + 2048 ≤ 16777216) ∧
    (∃ (p : _) (s : State), p ≤ 1 ∧ s.boot.standby = true ∧ fdLive ((sbDrain s p).inc (sbCtr p 0)) = true ∧ heldByOther ((sbDrain s p).inc (sbCtr p 0)) p = false ∧ (((sbDrain s p).inc (sbCtr p 0)).sbPort p).fd = .activate) ∧
    (∃ (p : _) (s : State), p ≤ 1 ∧ s.boot.standby = true ∧ fdLive ((sbDrain s p).inc (sbCtr p 0)) = true ∧ heldByOther ((sbDrain s p).inc (sbCtr p 0)) p = false ∧ ((((sbDrain s p).inc (sbCtr p 0)).sbPort p).fd = .download ∨ (((sbDrain s p).inc (sbCtr p 0)).sbPort p).fd = .verify)) ∧
    (∃ (p : _) (s : State), p ≤ 1 ∧ s.boot.standby = true ∧ fdLive ((sbDrain s p).inc (sbCtr p 0)) = true ∧ heldByOther ((sbDrain s p).inc (sbCtr p 0)) p = false ∧ (((sbDrain s p).inc (sbCtr p 0)).sbPort p).fd ≠ .idle) ∧
    (∃ (p : _) (s : State), p ≤ 1 ∧ s.boot.standby = true ∧ fdLive ((sbDrain s p).inc (sbCtr p 0)) = true ∧ heldByOther ((sbDrain s p).inc (sbCtr p 0)) p = false ∧ (((sbDrain s p).inc (sbCtr p 0)).sbPort p).fd = .idle) ∧
    (∃ (p : _) (s : State), p ≤ 1 ∧ s.boot.standby = true ∧ fdLive ((sbDrain s p).inc (sbCtr p 0)) = true ∧ heldByOther ((sbDrain s p).inc (sbCtr p 0)) p = true) :=
  ⟨⟨0, up, by decide +kernel⟩,
   ⟨0, up, by decide +kernel⟩,
   ⟨0, withSb (fun x => { x with fd := .learn }), by decide +kernel⟩,
   ⟨0, withSb (fun x => { x with fd := .learn }), by decide +kernel⟩,
   ⟨0, { withSb (fun x => { x with fd := .ready }) with nvm := flashed.nvm }, 16777216, by decide +kernel⟩,
   ⟨0, { withSb (fun x => { x with fd := .download }) with nvm := { flashed.nvm with session := some pldmSession } }, pldmSession, List.replicate 2048 0, by decide +kernel⟩,
   ⟨0, withSb (fun x => { x with fd := .activate }), by decide +kernel⟩,
   ⟨0, withSb (fun x => { x with fd := .verify }), by decide +kernel⟩,
   ⟨0, withSb (fun x => { x with fd := .apply }), by decide +kernel⟩,
   ⟨0, up, by decide +kernel⟩,
   ⟨0, { up with nvm := { up.nvm with session := some { pldmSession with owner := .port 1 } } }, by decide +kernel⟩⟩

theorem meets_SmbusEventsComplete :
    (∃ (p : _) (s : State), p ≤ 1 ∧ s.boot.standby = true) ∧
    (∃ (p : _) (s : State), p ≤ 1 ∧ s.boot.standby = true ∧ (s.sbPort p).eid ≠ 0) ∧
    (∃ (p : _) (s : State), p ≤ 1 ∧ s.boot.standby = true ∧ (s.sbPort p).tx ≠ [] ∧ (s.sbPort p).backoff = false) ∧
    (∃ (p : _) (s : State), p ≤ 1 ∧ s.boot.standby = true ∧ (s.sbPort p).backoff = true) ∧
    (∃ (p : _) (s : State), p ≤ 1 ∧ s.boot.standby = true ∧ (s.sbPort p).backoff = true ∧ (s.sbPort p).retries < 7) ∧
    (∃ (p : _) (s : State), p ≤ 1 ∧ s.boot.standby = true ∧ (s.sbPort p).backoff = true ∧ 7 ≤ (s.sbPort p).retries) ∧
    (∃ (p : _) (s : State), p ≤ 1 ∧ s.boot.standby = true ∧ (s.sbPort p).tx ≠ []) :=
  ⟨⟨0, up, by decide +kernel⟩,
   ⟨0, withSb (fun x => { x with eid := 9 }), by decide +kernel⟩,
   ⟨0, withSb (fun x => { x with tx := [msg0] }), by decide +kernel⟩,
   ⟨0, withSb (fun x => { x with backoff := true }), by decide +kernel⟩,
   ⟨0, withSb (fun x => { x with backoff := true, retries := 6 }), by decide +kernel⟩,
   ⟨0, withSb (fun x => { x with backoff := true, retries := 7 }), by decide +kernel⟩,
   ⟨0, withSb (fun x => { x with tx := [msg0] }), by decide +kernel⟩⟩

theorem meets_CountersWrap :
    (∃ (s : State) (k : Nat), s.ctr k = BitVec.ofNat 64 (2 ^ 64 - 1)) ∧ (∃ j k : Nat, j ≠ k) :=
  ⟨⟨up.add 5 (2 ^ 64 - 1), 5, by decide +kernel⟩, ⟨0, 1, by decide⟩⟩

theorem meets_LateCommandsChangeNothing :
    (∃ (row : Cmd → Instr) (op : Op) (body : Cmd → State → Body) (c : Cmd) (s : State), (∀ c s, exec (row c) s = runCmd op c body s) ∧ Takes op c s ∧ c.atStrike = true ∧ c.cluster = true ∧
      c.target.toNat < (takenFrom op c s).time.heat.toNat + 3) ∧
    (∃ (row : Cmd → Instr) (op : Op) (body : Cmd → State → Body) (c : Cmd) (s : State), (∀ c s, exec (row c) s = runCmd op c body s) ∧ Takes op c s ∧ c.atStrike = true ∧ c.cluster = false ∧ c.ifLateRun = false ∧
      c.target.toNat ≤ (takenFrom op c s).time.heat.toNat) ∧
    (∃ (row : Cmd → Instr) (op : Op) (body : Cmd → State → Body) (c : Cmd) (s : State), (∀ c s, exec (row c) s = runCmd op c body s) ∧ Takes op c s ∧ c.atStrike = true ∧
      (takenFrom op c s).time.heat.toNat + 1048576 < c.target.toNat) :=
  ⟨⟨.commitOpen, Op.commitOpen, bodyCommitOpen, { openCmd with target := 2 }, joined, fun _ _ => rfl, takes (f := 0) (by decide +kernel), by decide +kernel⟩,
   ⟨.parserPorts, Op.parserPorts, bodyParserPorts, { portsCmd with flags := 1 }, up, fun _ _ => rfl, takes (f := 0) (by decide +kernel), by decide +kernel⟩,
   ⟨.parserPorts, Op.parserPorts, bodyParserPorts, { portsCmd with flags := 1, target := 1048577 }, up, fun _ _ => rfl, takes (f := 0) (by decide +kernel), by decide +kernel⟩⟩

/-- A command of a queue, in the state in which it is taken. -/
def QCase (p : Op → Nat → State → Queue → Cmd → Prop) : Prop :=
  ∃ (row : Cmd → Instr) (op : Op) (body : Cmd → State → Body) (c0 : Cmd) (s0 : State) (f : Nat), (∀ c s, exec (row c) s = runCmd op c body s) ∧ c0.src = .queue f ∧ p op f (finishJobs s0) ((finishJobs s0).func f).q (asTaken ((finishJobs s0).func f).q c0)

theorem meets_QueuedCommandsWaitOrFailWhole :
    QCase (fun _ f s _ c => queueReady s f c.slots = false) ∧
    QCase (fun _ f s q c => queueReady s f c.slots = true ∧ q.chain = none ∧
      State.replyRoom q < (if c.cluster then 2 else 1)) ∧
    QCase (fun op f s q c => queueReady s f c.slots = true ∧ q.chain = none ∧ (if c.cluster then 2 else 1) ≤ State.replyRoom q ∧
      (checkHeader op c s true 0).isSome = true ∧ (fetchCmd s f c false).2 = true) ∧
    QCase (fun op f s q c => queueReady s f c.slots = true ∧ q.chain = none ∧ (if c.cluster then 2 else 1) ≤ State.replyRoom q ∧
      (checkHeader op c s true 0).isSome = true ∧ (fetchCmd s f c false).2 = false) ∧
    QCase (fun op f s q c => queueReady s f c.slots = true ∧ q.chain = none ∧ (if c.cluster then 2 else 1) ≤ State.replyRoom q ∧
      checkHeader op c s true 0 = none ∧ costFits s f (listedCost op c) = false) ∧
    QCase (fun op f s q c => queueReady s f c.slots = true ∧ q.chain = none ∧ (if c.cluster then 2 else 1) ≤ State.replyRoom q ∧
      checkHeader op c s true 0 = none ∧ chosen s f (headOf op c q s) = false) ∧
    QCase (fun op f s q c => queueReady s f c.slots = true ∧ q.chain = none ∧ (if c.cluster then 2 else 1) ≤ State.replyRoom q ∧
      checkHeader op c s true 0 = none ∧ costFits s f (listedCost op c) = true ∧ chosen s f (headOf op c q s) = true ∧
      (fetchCmd s f c true).2 = false) :=
  ⟨⟨.parserPorts, Op.parserPorts, bodyParserPorts, portsCmd, withQ (fun q => { q with enable := false }), 0, fun _ _ => rfl, by decide +kernel, by decide +kernel⟩,
   ⟨.parserPorts, Op.parserPorts, bodyParserPorts, portsCmd, withQ (fun q => { q with logReplies := 0 }), 0, fun _ _ => rfl, by decide +kernel, by decide +kernel⟩,
   ⟨.parserPorts, Op.parserPorts, bodyParserPorts, { portsCmd with resv := 1 }, up, 0, fun _ _ => rfl, by decide +kernel, by decide +kernel⟩,
   ⟨.parserPorts, Op.parserPorts, bodyParserPorts, { portsCmd with resv := 1 }, up.modIns 0 (fun i => { i with prot := true }), 0, fun _ _ => rfl, by decide +kernel, by decide +kernel⟩,
   ⟨.parserPorts, Op.parserPorts, bodyParserPorts, portsCmd, { up with budget := { up.budget with cmdLeft := 0 } }, 0, fun _ _ => rfl, by decide +kernel, by decide +kernel⟩,
   ⟨.parserPorts, Op.parserPorts, bodyParserPorts, portsCmd, rivals, 0, fun _ _ => rfl, by decide +kernel, by decide +kernel⟩,
   ⟨.parserPorts, Op.parserPorts, bodyParserPorts, portsCmd, up.modIns 0 (fun i => { i with prot := true }), 0, fun _ _ => rfl, by decide +kernel, by decide +kernel⟩⟩

theorem meets_SealingFixesTheLandingHeat :
    (∃ st past unit target t land, sealUnit st past unit target = .ok (t, land) ∧ past = false) ∧
    (∃ st past unit target t land, sealUnit st past unit target = .ok (t, land) ∧ past = true) :=
  ⟨⟨chained, false, openChain.unit, 5, _, _, rfl, rfl⟩, ⟨chained, true, openChain.unit, 5, _, _, rfl, rfl⟩⟩

theorem meets_RegisterFieldsTakeTheirRange :
    (∃ (s : State) (x : Nat) (f : Fld) (h l off o : Nat), f.lo ≤ f.hi ∧ f.w1c = false ∧ f.mn ≤ bits x f.hi f.lo ∧
      bits x f.hi f.lo ≤ fldMax s f ∧ l ≤ h ∧ h < f.lo ∧ o ≠ off) ∧
    (∃ (s : State) (x : Nat) (f : Fld) (h l : Nat), f.lo ≤ f.hi ∧ f.w1c = false ∧ f.mn ≤ bits x f.hi f.lo ∧
      bits x f.hi f.lo ≤ fldMax s f ∧ l ≤ h ∧ f.hi < l) ∧
    (∃ (s : State) (x : Nat) (f : Fld), f.lo ≤ f.hi ∧ f.w1c = false ∧ f.mn ≤ fldMax s f ∧ bits x f.hi f.lo < f.mn) ∧
    (∃ (s : State) (x : Nat) (f : Fld), f.lo ≤ f.hi ∧ f.w1c = false ∧ f.mn ≤ fldMax s f ∧ fldMax s f < bits x f.hi f.lo) ∧
    (∃ (f : Fld) (i off o : Nat), f.lo ≤ f.hi ∧ f.w1c = true ∧ i ≤ f.hi - f.lo ∧ o ≠ off) :=
  ⟨⟨up, 1000 * 256, { Reg.guard with lo := 8, hi := 23 }, 7, 0, 0, 4, by decide +kernel⟩,
   ⟨up, 20000, Reg.guard, 31, 24, by decide +kernel⟩,
   ⟨up, 999, Reg.guard, by decide +kernel⟩,
   ⟨up, 20001, Reg.guard, by decide +kernel⟩,
   ⟨{ addr := 0, hi := 5, lo := 0, w1c := true }, 5, 0, 4, by decide⟩⟩

theorem meets_VoteAcceptsTheMajority :
    ∃ (l : List VCopy), 1 ≤ l.length ∧ l.length ≤ 3 :=
  ⟨[{ chan := 0, words := [], dev := 0 }], by decide +kernel⟩

theorem meets_PostedEventIsTheNewestEntry :
    (∃ (s : State), s.log.fallback = false ∧ s.log.main.length ≤ 4096) ∧
    (∃ (s : State), s.log.fallback = false ∧ s.log.main.length ≤ 4096 ∧ s.time.edge = none) ∧
    (∃ (s : State), s.log.fallback = false ∧ s.log.main.length ≤ 4096 ∧ (s.time.edge).isSome = true) ∧
    (∃ (e : LogEntry) (kept : List LogEntry), (∀ p ∈ kept.getLast?, e.sameEdge p = false ∨ p.rank ≤ e.rank)) ∧
    (∃ (e : LogEntry) (p : LogEntry), e.sameEdge p = true ∧ e.rank < p.rank ∧ p.settled = false ∧ e.settled = false) :=
  ⟨⟨up, by decide +kernel⟩,
   ⟨up, by decide +kernel⟩,
   ⟨{ up with time := { up.time with edge := some 3 } }, by decide +kernel⟩,
   ⟨entry 0x1001 1, [entry 0x1000 0], by decide +kernel⟩,
   ⟨entry 0x1000 1, entry 0x1001 0, by decide +kernel⟩⟩

theorem meets_TakingAndAnsweringFrame :
    (∃ (c : Cmd) (s : State), (∀ f, c.src = .queue f → (fetchCmd (finishJobs s) f c true).2 = true)) ∧
    (∃ (c : Cmd) (s0 st : State), assured s0 = true ∧
      (∀ f, c.src = .queue f → (access st f none ((st.func f).q.replyBase +
        32 * ((st.func f).q.replyProd % 2 ^ (st.func f).q.logReplies)) true).2.isSome = true)) ∧
    (∃ s0, assured s0 = false) :=
  ⟨⟨qc [], up, fun f h => by cases h; decide +kernel⟩, ⟨qc [], up, up, by decide +kernel, fun f h => by cases h; decide +kernel⟩,
   ⟨loaded up, by decide +kernel⟩⟩

theorem meets_RepliesReachTheirSender :
    (∃ (c : Cmd) (st : State) (status f : Nat), c.src = .queue f ∧ f < 4096 ∧ (c.noReply = false ∨ 1 < status) ∧
      st.canDma f = true ∧ (st.func f).q.held = [] ∧
      State.replyUsed (st.func f).q < 2 ^ (st.func f).q.logReplies - 1 ∧
      (access (if status ≤ 1 then st else st.inc Ctr.err) f none ((st.func f).q.replyBase +
        32 * ((st.func f).q.replyProd % 2 ^ (st.func f).q.logReplies)) true).2.isSome = true) ∧
    (∃ (c : Cmd) (f status : Nat), c.src = .queue f ∧ c.noReply = true ∧ status ≤ 1) ∧
    (∃ (c : Cmd) (status : Nat), c.src = .mbox ∧ (c.noReply = false ∨ 1 < status)) :=
  ⟨⟨qc [], up, 0, 0, by decide +kernel⟩, ⟨{ qc [] with flags := 8 }, 0, 1, by decide +kernel⟩,
   ⟨{ qc [] with src := .mbox }, 0, by decide +kernel⟩⟩

theorem meets_WarmResetKeepsOnlySticky :
    ∃ (s t : State) (k l : Nat), s.boot.railHold = false ∧ exec .railDrop s = .next t ∧ k ≠ Ctr.linkDown 0 ∧
      k ≠ Ctr.linkDown 2 ∧ l ≤ 1 :=
  ⟨up, _, 0, 1, rfl, rfl, by decide +kernel⟩

/-- A member of the chain that is open on queue `f` is taken. -/
def Joins (op : Op) (c : Cmd) (s : State) (f : Nat) (ch : Chain) : Prop :=
  let u := finishJobs s
  (u.func f).q.chain = some ch ∧ (u.func f).q.loose = false ∧ queueReady u f c.slots = true ∧
    checkHeader op c u false ch.members.length = none ∧ costFits u f (listedCost op c) = true ∧
    chosen u f (headOf op c (u.func f).q u) = true ∧ (fetchCmd u f c true).2 = true

theorem meets_ChainMembersSealTogether :
    (∃ (row : Cmd → Instr) (op : Op) (body : Cmd → State → Body) (c : Cmd) (s : State) (f : Nat) (st : State) (entries : List (List Byte)) (flow : Bool) (r : Nat) (target : Heat) (late : Bool), (∀ c s, exec (row c) s = runCmd op c body s) ∧ c.src = .queue f ∧
      Takes op c s ∧ c.chain = true ∧ checkLate c (takenFrom op c s) = .ok (target, late) ∧
      reach op body c (takenFrom op c s) = .stage st entries flow r ∧
      (stageItems { st with staging := { st.staging with nextUnit := st.staging.nextUnit + 1 } } op c st.staging.nextUnit 0
        target entries flow).isSome = true) ∧
    (∃ (row : Cmd → Instr) (op : Op) (body : Cmd → State → Body) (c : Cmd) (s : State) (f : Nat) (ch : Chain) (fl : Fail), (∀ c s, exec (row c) s = runCmd op c body s) ∧ c.src = .queue f ∧ Joins op c s f ch ∧ reach op body c (takenFrom op c s) = .fail fl) ∧
    (∃ (row : Cmd → Instr) (op : Op) (body : Cmd → State → Body) (c : Cmd) (s : State) (f : Nat) (ch : Chain) (st : State) (entries : List (List Byte)) (flow : Bool) (r : Nat) (s1 : State), (∀ c s, exec (row c) s = runCmd op c body s) ∧ c.src = .queue f ∧ Joins op c s f ch ∧ reach op body c (takenFrom op c s) = .stage st entries flow r ∧
      stageItems st op c ch.unit ch.members.length ch.target entries flow = some s1 ∧ c.chain = true) ∧
    (∃ (row : Cmd → Instr) (op : Op) (body : Cmd → State → Body) (c : Cmd) (s : State) (f : Nat) (ch : Chain) (st : State) (entries : List (List Byte)) (flow : Bool) (r : Nat) (s1 : State), (∀ c s, exec (row c) s = runCmd op c body s) ∧ c.src = .queue f ∧ Joins op c s f ch ∧ reach op body c (takenFrom op c s) = .stage st entries flow r ∧
      stageItems st op c ch.unit ch.members.length ch.target entries flow = some s1 ∧ c.chain = false ∧ assured (takenFrom op c s) = false) ∧
    (∃ (row : Cmd → Instr) (op : Op) (body : Cmd → State → Body) (c : Cmd) (s : State) (f : Nat) (ch : Chain) (st : State) (entries : List (List Byte)) (flow : Bool) (r : Nat) (s1 : State) (s3 : State) (land : Heat), (∀ c s, exec (row c) s = runCmd op c body s) ∧ c.src = .queue f ∧ Joins op c s f ch ∧ reach op body c (takenFrom op c s) = .stage st entries flow r ∧
      stageItems st op c ch.unit ch.members.length ch.target entries flow = some s1 ∧ c.chain = false ∧ assured (takenFrom op c s) = true ∧
      sealUnit (s1.modQueue f (fun q => { q with chain := some { ch with members := ch.members ++ [memberOf op c r], age := 0 } }))
        (s1.modQueue f (fun q => { q with chain := some { ch with members := ch.members ++ [memberOf op c r], age := 0 } })).pastSeal ch.unit ch.target = .ok (s3, land)) ∧
    (∃ (row : Cmd → Instr) (op : Op) (body : Cmd → State → Body) (c : Cmd) (s : State) (f : Nat) (ch : Chain) (st : State) (entries : List (List Byte)) (flow : Bool) (r : Nat) (s1 : State) (t : Option Nat) (p : Fail), (∀ c s, exec (row c) s = runCmd op c body s) ∧ c.src = .queue f ∧ Joins op c s f ch ∧ reach op body c (takenFrom op c s) = .stage st entries flow r ∧
      stageItems st op c ch.unit ch.members.length ch.target entries flow = some s1 ∧ c.chain = false ∧ assured (takenFrom op c s) = true ∧
      sealUnit (s1.modQueue f (fun q => { q with chain := some { ch with members := ch.members ++ [memberOf op c r], age := 0 } }))
        (s1.modQueue f (fun q => { q with chain := some { ch with members := ch.members ++ [memberOf op c r], age := 0 } })).pastSeal ch.unit ch.target = .error (t, p)) :=
  ⟨⟨.parserPorts, Op.parserPorts, bodyParserPorts, chainCmd, up, 0, takenFrom Op.parserPorts chainCmd up, [[]], false, 0, 1, false, fun _ _ => rfl, rfl, takes (f := 0) (by decide +kernel), by decide +kernel, rfl, rfl, by decide +kernel⟩,
   ⟨.macSetRx, Op.macSetRx, bodyMacSetRx, qc [(0, 16)], chained, 0, openChain, _, fun _ _ => rfl, rfl, by unfold Joins; decide +kernel, rfl⟩,
   ⟨.parserPorts, Op.parserPorts, bodyParserPorts, chainCmd, chained, 0, openChain, takenFrom Op.parserPorts (chainCmd) (chained), [[]], false, 0, _, fun _ _ => rfl, rfl, by unfold Joins; decide +kernel, rfl, rfl, by decide +kernel⟩,
   ⟨.parserPorts, Op.parserPorts, bodyParserPorts, portsCmd, loaded chained, 0, openChain, takenFrom Op.parserPorts (portsCmd) (loaded chained), [[]], false, 0, _, fun _ _ => rfl, rfl, by unfold Joins; decide +kernel, rfl, rfl, by decide +kernel, by decide +kernel⟩,
   ⟨.parserPorts, Op.parserPorts, bodyParserPorts, portsCmd, chained, 0, openChain, takenFrom Op.parserPorts (portsCmd) (chained), [[]], false, 0, _, _, _, fun _ _ => rfl, rfl, by unfold Joins; decide +kernel, rfl, rfl, by decide +kernel, by decide +kernel, rfl⟩,
   ⟨.parserPorts, Op.parserPorts, bodyParserPorts, portsCmd, crowded, 0, openChain, takenFrom Op.parserPorts (portsCmd) (crowded), [[]], false, 0, _, _, _, fun _ _ => rfl, rfl, by unfold Joins; decide +kernel, rfl, rfl, by decide +kernel, by decide +kernel, rfl⟩⟩

/-- What a strike brings on a quiet device. -/
def strikeIn : StrikeIn :=
  { pins := 0, sensors := temps 400, minMv := 750, telemCu := 0, stall := none, logFail := none, links := [(0, 0), (0, 0)],
    lanes := List.replicate 16 { corr := 0, recv := 0, uncorr := 0, hiBer := false } }

-- Ill-formed terms are refused, one for each check of WellFormed.

theorem test_wf_src : Src.wf (.queue 4096) = false := by decide
theorem test_wf_cmd_length : Cmd.wf { qc [] [1, 2] with length := 1 } = false := by decide +kernel
theorem test_wf_cmd_ptrs :
    Cmd.wf { qc [] (leBytes 16 0) with flags := 32, ptrs := [{ addr := 0, len := 15, resv := 0 }] } = false := by decide +kernel
theorem test_wf_cmd_entries : Cmd.wf { qc [] (leBytes 16 0) with flags := 32, ptrs := [] } = false := by decide +kernel
theorem test_wf_cmd_entry_length :
    Cmd.wf { qc [] with flags := 32, length := 16, ptrs := [{ addr := 0, len := 2 ^ 32, resv := 0 }] } = false := by decide +kernel
theorem test_wf_cmd_too_long : Cmd.wf { qc [] [1] with length := 4097 } = false := by decide +kernel
theorem test_wf_strike_sensors : StrikeIn.wf { strikeIn with sensors := [] } = false := by decide
theorem test_wf_strike_lanes : StrikeIn.wf { strikeIn with lanes := [] } = false := by decide
theorem test_wf_strike_links : StrikeIn.wf { strikeIn with links := [] } = false := by decide
theorem test_wf_strike_good : StrikeIn.wf strikeIn = true := by decide
theorem test_wf_access_func :
    BarAccess.wf { func := 4096, space := .bar0, offset := 0, size := 4 } = false := by decide
theorem test_wf_access_size :
    BarAccess.wf { func := 0, space := .bar0, offset := 0, size := 4097 } = false := by decide
theorem test_wf_regWrite_link : RegWrite.wf { regWrite 0 4 with link := 2 } = false := by decide
theorem test_wf_regWrite_func : RegWrite.wf { regWrite 0 4 with func := 4096 } = false := by decide
theorem test_wf_regWrite_small : RegWrite.wf (regWrite 0 0) = false := by decide
theorem test_wf_regWrite_large : RegWrite.wf (regWrite 0 65) = false := by decide
theorem test_wf_rx_port : RxFrame.wf { frame 60 with port := 16 } = false := by decide
theorem test_wf_rx_smd : RxFrame.wf { frame 60 with smd := 3 } = false := by decide
theorem test_wf_rx_frags : RxFrame.wf { frame 60 with frags := 0 } = false := by decide
theorem test_wf_cutHead_length : CutHead.wf { cutHead with head := leBytes 255 0 } = false := by decide +kernel
theorem test_wf_cutHead_port : CutHead.wf { cutHead with port := 16 } = false := by decide +kernel
theorem test_wf_cutHead_smd : CutHead.wf { cutHead with smd := 3 } = false := by decide +kernel
theorem test_wf_txFetch_func : TxFetch.wf { txFetch with func := 4096 } = false := by decide +kernel
theorem test_wf_txFetch_desc : TxFetch.wf { txFetch with descs := [leBytes 63 0] } = false := by decide +kernel
theorem test_wf_viras_chan : VirasRx.wf { copy0 with chan := 3 } = false := by decide
theorem test_wf_viras_branch : VirasRx.wf { copy0 with branch := some 8 } = false := by decide
theorem test_wf_link : Instr.wellFormed (.perstDeassert 2) = false := by decide
theorem test_wf_func : Instr.wellFormed (.flr 4096) = false := by decide
theorem test_wf_port : Instr.wellFormed (.trainFail 16) = false := by decide
theorem test_wf_class : Instr.wellFormed (.pauseExpiry 0 8) = false := by decide
theorem test_wf_quanta : Instr.wellFormed (.ctrlFramePfc 0 0 []) = false := by decide
theorem test_wf_root : Instr.wellFormed (.frameTxDone 18) = false := by decide
theorem test_wf_lane : Instr.wellFormed (.laneSignalReturn 16) = false := by decide
theorem test_wf_channel : Instr.wellFormed (.chanUp 3) = false := by decide
theorem test_wf_branch : Instr.wellFormed (.branchShut 0 8) = false := by decide
theorem test_wf_starLink : Instr.wellFormed (.starLinkDown 27) = false := by decide
theorem test_wf_detector : Instr.wellFormed (.droopHard 16) = false := by decide
theorem test_wf_sensor : Instr.wellFormed (.sensorFail 12 (temps 400)) = false := by decide
theorem test_wf_temps : Instr.wellFormed (.throttle []) = false := by decide
theorem test_wf_owner : Instr.wellFormed (.mboxClaim 0 3) = false := by decide
theorem test_wf_inject : Instr.wellFormed (.injectEnd 0) = false := by decide
theorem test_wf_sideband : Instr.wellFormed (.getEndpointId 2) = false := by decide
theorem test_wf_command : Instr.wellFormed (.nop { qc [] with src := .queue 4096 }) = false := by decide +kernel
theorem test_wf_good : Instr.wellFormed (.parserPorts (qc [(2, 4789)])) = true := by decide +kernel

-- Results that the spec's own examples state.

/-- Chapter 2: at 125,000 ns and a seal guard of 2,000 ns the planned budget is 4,920 CU. -/
theorem test_planned_budget : plannedCu State.reset = 4920 := by decide +kernel

/-- Chapter 7: quanta 0xFFFF hold a class for 20,971 ns at 1.6TbE, and for 3,355,392 ns at 10GbE. -/
theorem test_pause_time_fast : quantaNs (withPort (fun x => { x with speed := 8 })) 0 0xFFFF = 20971 := by decide +kernel
theorem test_pause_time_slow : quantaNs (withPort (fun x => { x with speed := 1 })) 0 0xFFFF = 3355392 := by decide +kernel

/-- Chapter 0: where a value lies below its field's range, the nearest limit is stored (R18). -/
theorem test_guard_clamps : (fieldWrite up 0x010024 0x010024 999 Reg.guard).word 0x010024 = 1000 := by decide +kernel

/-- Chapter 9: a shaper of 2,000 Mb/s at -72,160,000 millibits stands at 0 after 4,510 ticks of 8 ns. -/
theorem test_shaper_refill :
    (Shaper.refill 4510 { rate := 2000, burst := 64, overhead := 20, zero := true, tok := -72160000, forgiven := 0,
                          stok := 0, sforgiven := 0 }).tok = 0 := by decide

/-- The published check value of CRC-32C, which R351 and R516 name: of the nine ASCII digits 1 to 9. -/
theorem test_crc32c : crc32c [49, 50, 51, 52, 53, 54, 55, 56, 57] = 0xE3069283 := by decide +kernel

/-- Chapter 8: a scan of 16,777,216 positions in 8,000 heats visits 2,098 a heat. -/
theorem test_aging_rate : ceilDiv 16777216 8000 = 2098 := by decide +kernel

end Sys2Proof.Tests
end

section
/-! SUPPORT. What the 64-bit counters read after one of them advances (R15), and the statement about them. -/

namespace Sys2Proof.Machine

/-- A read with a default after a put. -/
theorem mGetD_mPut {α : Type} (m : SMap α) (q : Nat) (x : α) (j : Nat) (d : α) :
    mGetD (mPut m q x) j d = if j = q then x else mGetD m j d := by
  unfold mGetD
  rw [mGet?_mPut]
  split
  · rfl
  · rfl

namespace State

variable (s : State)

@[simp] theorem ctr_add_same (k n : Nat) : (s.add k n).ctr k = s.ctr k + BitVec.ofNat 64 n :=
  (mGetD_mPut ..).trans (if_pos rfl)

@[simp] theorem ctr_add_of_ne {j k : Nat} (h : j ≠ k) (n : Nat) : (s.add k n).ctr j = s.ctr j :=
  (mGetD_mPut ..).trans (if_neg h)

@[simp] theorem ctr_inc_same (k : Nat) : (s.inc k).ctr k = s.ctr k + 1 := s.ctr_add_same k 1

/-- R15: the advance is modulo 2^64, so the greatest value is followed by 0. -/
theorem ctr_inc_of_max {k : Nat} (h : s.ctr k = BitVec.ofNat 64 (2 ^ 64 - 1)) : (s.inc k).ctr k = 0 := by
  rw [ctr_inc_same, h]
  decide

/-- An advance touches the counter bank alone. -/
theorem inc_with_ctrs (k : Nat) : { s.inc k with ctrs := s.ctrs } = s := rfl

end State

/-- Settles O49: an advance is a put at the counter's own key of its value plus one, modulo 2^64 (R15). -/
theorem countersWrap : Obligations.CountersWrap := by
  intro s k
  exact ⟨s.ctr_inc_same k, s.ctr_inc_of_max, fun _ n hne => s.ctr_add_of_ne hne n, s.inc_with_ctrs k⟩

end Sys2Proof.Machine
end

section
/-!
SUPPORT. A command that its lateness check refuses (R79, R81, R82): what the check answers, what its answer counts, and the state
in which such a command ends; and the statement about it.
-/

namespace Sys2Proof.Machine

namespace State

variable (s : State)

@[simp] theorem fire_time (f v : Nat) : (s.fire f v).time = s.time := by
  simp only [fire, apply_ite State.time, modFunc_time, ite_self]

@[simp] theorem fireDev_time (v : Nat) : (s.fireDev v).time = s.time :=
  List.foldlRecOn (motive := fun t : State => t.time = s.time) s.enabledLinks _ rfl
    fun t ht l _ => (t.fire_time (2 * l) v).trans ht

@[simp] theorem mark_time (a bits : Nat) : (s.mark a bits).time = s.time := rfl

/-- An interrupt that a status bit fires moves no time. -/
@[simp] theorem raise_time (f : Fld) (b vec i : Nat) : (s.raise f b vec i).time = s.time := by
  simp only [raise, apply_ite State.time, fireDev_time, setWord_time, mark_time, ite_self]

end State

/-- R79 and R81: a target that is late, or with CLUSTER less than three heats ahead. -/
def IsLate (c : Cmd) (s : State) : Prop :=
  (c.cluster = true ∧ c.target.toNat < s.time.heat.toNat + 3) ∨
  (c.cluster = false ∧ c.ifLateRun = false ∧ c.target.toNat ≤ s.time.heat.toNat)

/-- The state once a command has failed to open its chain: the members that follow are taken as separate commands (R178). -/
def unchained (c : Cmd) (s : State) : State :=
  match c.src with
  | .queue f => if c.chain then s.modQueue f (fun q => { q with loose := true }) else s
  | .mbox => s

variable {op : Op} {c : Cmd} {s : State} {body : Cmd → State → Body}

@[simp] theorem unchained_time : (unchained c s).time = s.time := by
  unfold unchained
  split
  · split <;> simp
  · rfl

theorem checkLate_of_isLate (ha : c.atStrike = true) (h : IsLate c s) : checkLate c s = .error { status := St.late } := by
  obtain ⟨hc, ht⟩ | ⟨hc, hr, ht⟩ := h
  · simp [checkLate, ha, hc, ht]
  · simp [checkLate, ha, hc, hr, ht]

/-- R82. The check for lateness comes first, and such a target does not fail it. -/
theorem checkLate_of_far (ha : c.atStrike = true) (h : s.time.heat.toNat + 1048576 < c.target.toNat) :
    checkLate c s = .error { status := St.badParam, field := 12 } := by
  have h3 : ¬ c.target.toNat < s.time.heat.toNat + 3 := by omega
  have h0 : ¬ c.target.toNat ≤ s.time.heat.toNat := by omega
  simp [checkLate, ha, h3, h0, h, Cause.none]

/-- R79: the reply carries the present heat, the counter advances and the status bit is set. -/
theorem failAnswer_countLate_late : failAnswer (countLate s { status := St.late }) c { status := St.late } =
    answer ((s.inc Ctr.late).raise Reg.stkStatus 3 1) c St.late 0 { status := St.late } s.time.heat 0 := by
  simp [failAnswer, countLate]

theorem countLate_of_ne {f : Fail} (h : f.status ≠ St.late) : countLate s f = s := if_neg h

/-- A command that is taken and fails step 5, alone or as the first of a chain, is answered in the state right after its take,
whatever its own part would do; what it leaves of its listed cost comes back (R170). -/
theorem runCmd_of_checkLate_error {f : Fail} (ht : Takes op c s) (hl : checkLate c (takenFrom op c s) = .error f) :
    runCmd op c body s =
      .next (refund (failAnswer (countLate (unchained c (takenFrom op c s)) f) c f) c.src (spareOf op c)) := by
  rw [runCmd_taken ht]
  cases hs : c.src with
  | mbox => simp [unchained, runAlone, hl, hs]
  | queue n =>
    cases hc : c.chain with
    | true => simp [unchained, openChain, hl, hs, hc]
    | false => simp [unchained, runAlone, hl, hs, hc]

/-- Settles O50: the check for lateness decides before the command's own part, which never runs. -/
theorem lateCommandsChangeNothing : Obligations.LateCommandsChangeNothing := by
  intro row op body hrow c s s0 u ht hs0 ha hu
  obtain rfl : u = unchained c s0 := hu
  subst hs0
  rw [hrow]
  constructor
  · intro hlate
    rw [runCmd_of_checkLate_error ht (checkLate_of_isLate ha hlate), failAnswer_countLate_late, unchained_time]
  · intro hfar
    rw [runCmd_of_checkLate_error ht (checkLate_of_far ha hfar), countLate_of_ne (by decide), failAnswer, unchained_time]

end Sys2Proof.Machine
end

section
/-!
SUPPORT. How time comes to the strike where nothing is scheduled before it, and the statement about the time of a device that has
just been reset (R53).
-/

namespace Sys2Proof.Machine

theorem planLast_nil (p : BusAct → Bool) : planLast p [] = none := rfl

namespace State

variable (s : State)

theorem bookFlush_vrs : s.bookFlush.vrs = s.vrs := by
  simp only [bookFlush, apply_ite State.vrs, ite_self]

theorem judge_vrs : s.judge.vrs = s.vrs := by
  simp only [judge, apply_ite State.vrs, ite_self]

theorem ledger_vrs (dt : Nat) : (s.ledger dt).vrs = s.vrs := by
  simp only [ledger, spend, apply_ite State.vrs, judge_vrs, bookFlush_vrs, ite_self]

theorem pulseDue_vrs : s.pulseDue.vrs = s.vrs := by
  simp only [pulseDue, endPulse, apply_ite State.vrs, ite_self]

theorem advance_vrs (dt : Nat) : (s.advance dt).vrs = s.vrs := by
  simp only [advance, refillAll, apply_ite State.vrs, add_vrs, pulseDue_vrs, ledger_vrs, ite_self]

variable {s}

theorem runDue_of_idle (h : nextDue s = none) (n lim : Nat) : s.runDue n lim = s := by
  cases n with
  | zero => rfl
  | succ n => rw [runDue, h]

theorem near_of_idle (h : nextDue s = none) (t : Nat) : s.near t = s := by
  simp only [near, upTo, runDue_of_idle h]

/-- Where nothing comes due before the strike and no schedule image is loaded, time runs straight to it. -/
theorem toEnd_of_idle (h : nextDue s = none) (hi : s.vrs.img = none) : s.toEnd = s.advance s.toStrike := by
  have hb : busPlan (s.advance s.toStrike) = [] := by rw [busPlan, advance_vrs, hi]
  unfold toEnd
  simp only [near_of_idle h, hb, List.filter_nil, planLast_nil]

end State

theorem exec_strike_of_runs {s : State} (x : StrikeIn) (hb : s.boot.stopped = false) (ha : s.tim.adopt = none) :
    exec (.strike x) s = .next (strikeEdge s.toEnd (s.time.heat + 1) x) := by
  change execStrike x s = _
  simp [execStrike, hb, ha]

theorem toStrike_reset : State.reset.toStrike = 125000 := by decide +kernel

/-- Nothing is scheduled after a reset: no image, no gate list, no running timer, no frame held. -/
theorem nextDue_reset : nextDue State.reset = none := by decide +kernel

/-- Settles O3: the first strike ends a heat of 125,000 cycles with nothing due in it. -/
theorem resetTime : Obligations.ResetTime := by
  refine ⟨rfl, rfl, rfl, toStrike_reset, fun x => ?_⟩
  rw [exec_strike_of_runs x rfl rfl, State.toEnd_of_idle nextDue_reset rfl, toStrike_reset]
  rfl

end Sys2Proof.Machine
end

section
/-!
SUPPORT. What one step does, whatever its row: it runs the command in front, it answers a next state, and it keeps the queue and the
canonical form of the stores. The last rests on the lemmas of Laws/Keep*.lean, one for each row.
-/

namespace Sys2Proof.Machine

theorem step_cons {s : State} {c : Instr} {rest : List Instr} (h : s.pending = c :: rest) :
    step s = exec c { s with pending := rest } := by
  rw [step, h]

theorem step_nil {s : State} (h : s.pending = []) : step s = .next (idleTick s) := by
  rw [step, h]

/-- Settles O1: the definition of a step. -/
theorem stepRunsTheFrontCommand : Obligations.StepRunsTheFrontCommand := fun _ _ _ h => step_cons h

theorem sbDrain_of_silent {s : State} {p : Nat} (h : (s.sbPort p).tx = []) : sbDrain s p = s := by
  simp [sbDrain, h]

theorem idleTick_stopped {s : State} (h0 : (s.sbPort 0).tx = []) (h1 : (s.sbPort 1).tx = []) (hb : s.boot.stopped = true) :
    idleTick s = s := by
  rw [idleTick, sbDrain_of_silent h0, sbDrain_of_silent h1, if_pos hb]

/-- An idle cycle in which no message waits on a sideband port and no adoption is due. -/
theorem idleTick_of_none {s : State} (h0 : (s.sbPort 0).tx = []) (h1 : (s.sbPort 1).tx = []) (hb : s.boot.stopped = false)
    (ha : adoptionDue s = none) :
    idleTick s =
      if s.toStrike ≤ 1 then (List.range 16).foldl autoRestore (strikeEdge s.toEnd (s.time.heat + 1) s.env)
      else quietCycle s := by
  simp only [idleTick, sbDrain_of_silent h0, sbDrain_of_silent h1, hb, ha, Bool.false_eq_true, if_false]

theorem idleTick_of_some {s : State} {n : Heat} (h0 : (s.sbPort 0).tx = []) (h1 : (s.sbPort 1).tx = [])
    (hb : s.boot.stopped = false) (ha : adoptionDue s = some n) :
    idleTick s = jumpEdge (s.dueNow.advance (min 1 s.toStrike)) n s.tim.adoptLen s.env := by
  simp only [idleTick, sbDrain_of_silent h0, sbDrain_of_silent h1, hb, ha, Bool.false_eq_true, if_false]

theorem adoptionDue_none {s : State} (h : s.tim.adopt = none) : adoptionDue s = none := by
  rw [adoptionDue, h]

theorem adoptionDue_some {s : State} {n : Heat} {t : Nat} (h : s.tim.adopt = some (n, t)) (ht : t ≤ s.time.refNow + 1)
    (hs : t - s.time.refNow ≤ s.toStrike) : adoptionDue s = some n := by
  simp only [adoptionDue, h]
  exact if_pos ⟨ht, hs⟩

/-- Settles O2: the branches of an idle cycle, each under the condition that chooses it. -/
theorem emptyQueueIsOneReferenceCycle : Obligations.EmptyQueueIsOneReferenceCycle := by
  refine ⟨fun s h => step_nil h, ?stopped, ?quiet, ?strike, ?adoption⟩
  case stopped =>
    intro s h h0 h1 hb
    rw [step_nil h, idleTick_stopped h0 h1 hb]
  case quiet =>
    intro s h h0 h1 hb ha ht
    rw [step_nil h, idleTick_of_none h0 h1 hb (adoptionDue_none ha), if_neg (Nat.not_le.mpr ht)]
  case strike =>
    intro s h h0 h1 hb ha ht
    rw [step_nil h, idleTick_of_none h0 h1 hb (adoptionDue_none ha), if_pos ht]
  case adoption =>
    intro s n t h h0 h1 hb ha ht hs
    rw [step_nil h, idleTick_of_some h0 h1 hb (adoptionDue_some ha ht hs)]

/-- The outcome is a next state. -/
def Answers (o : Host.Outcome State Fault Refusal) : Prop := ∃ t, o = .next t

theorem Answers.next (t : State) : Answers (.next t) := ⟨t, rfl⟩

theorem Answers.ite {c : Prop} [Decidable c] {x y : Host.Outcome State Fault Refusal} (hx : Answers x) (hy : Answers y) :
    Answers (if c then x else y) := by
  split <;> assumption

theorem runCmd_answers (op : Op) (c : Cmd) (body : Cmd → State → Body) (s : State) : Answers (runCmd op c body s) := by
  unfold runCmd
  split <;> exact .next _

/-- Every row answers a next state: a command by `runCmd`; an event at once, or by the branches of its meaning. -/
theorem exec_answers (i : Instr) (s : State) : Answers (exec i s) := by
  cases i
  case
      nop | getDeviceInfo | getSerial | getQueueInfo | setHeatLength | getTime | queryStaged | cancelStaged | barrier |
      commitOpen | commitCancel | commitQuery | insCreate | insDestroy | insResize | insSetLimits | insQuery | poolQuery |
      qpConfig | qpStart | qpStop | qpState | ituSetRoot | ituInvalidate | ituProbe | ituFaultRead | portConfig | portBank |
      portStatus | lnSetEq | lnGetEq | portRestore | lnDiag | lnDiagResult | macSetRx | macSetFc | macSetPreempt | gateSet |
      gateDisable | gateStatus | fcStatus | fcWdRelease | ruleWrite | ruleDelete | ruleRead | ruleCount | flowInsert |
      flowDelete | flowLookup | flowFlush | flowAgedRead | captureRead | srcConfig | bdConfig | rewriteSet | tunnelSet |
      mirrorSet | parserPorts | tmShaperSet | tmGroupSet | tmOwnerSet | tmClassSched | tmAdmitSet | tmQlimSet | tmSrcClass |
      tmPolicerSet | tmPolicerRead | tmShaperRead | kekLoad | kekErase | ctxSet | ctxKey | ctxBind | ctxQuery | ctxSave |
      ctxRestore | ctxClear | tlsResync | replaySet | secySet | stoConnSet | stoConnClear | stoConnQuery | stoResync |
      stoNsSet | stoNsQuota | stoNsQuery | schedLoad | timJoin | timLeave | timQuery | timSteer | timPtpMap | triSet |
      triQuery | triHandover | triRearm | triIsoClear | triForce | pwrSet | thmSet | pwrQuery | thmQuery | pwrInject |
      thmClearLatch | nvmInfo | nvmCfgWrite | nvmCfgRead | nvmProvWrite | fwBegin | fwWrite | fwEnd | fwActivate | fwConfirm |
      fwAbort | svnCommit | logRead | logFlush | logClearFail | logMark | idCertRead | idAttest | echo | burn =>
    exact runCmd_answers _ _ _ _
  case
      stkNsRead | stkSharesWrite | mboxClaim | mboxRelease | queueEnable | queueDisable | doorbellProducer | doorbellConsumer
      | arm | malformed | perstDeassert | ctrlFramePause | ctrlFramePfc | ctrlMalformed | pauseExpiry | pfcRepeat |
      pauseCapHit | pauseWindowEnd | pauseStorm | recoveryEnd | verifyTimer | holdAssert | holdRelease | gateEntryBoundary |
      gateActive | staleDrop | lanePowerStep | autoRestore | guardWindowClose | slotEndVote | hardEnd | brdAlertDeassert |
      standbyRelease | setEndpointId | getEndpointId | getMctpVersionSupport | getMessageTypeSupport | getEndpointUuid |
      gettid | settid | getpldmversion | getpldmtypes | getpldmcommands | getpdr | getsensorreading | getstatesensorreadings |
      seteventreceiver | querydeviceidentifiers | getfirmwareparameters | requestupdate | passcomponenttable | updatecomponent
      | requestfirmwaredata | activatefirmware | getstatus | cancelupdatecomponent | cancelupdate | unsupportedMessage |
      refillTick | governorTick | dramUnavailable =>
    exact .next _
  case
      strike | timeJump | sealPoint | counterLowRead | registerWrite | strikeIoPulseEnd | queueIdle | replyHeldWrite |
      msixMessage | mmioAccess | mmioPoison | unsupportedRequest | unexpectedCompletion | dmaReadCompletion | dmaTimeout |
      atsInvalidate | linkUp | linkReset | flr | flrComplete | busMasterClear | d3hotEntry | d0Return | vfEnableSet |
      vfEnableClear | txDescriptorFetchDone | frameReceived | cutHandoff | frameTail | respondMpacket | verifyMpacket |
      frameTxStart | frameTxDone | hostWriteDone | agingSlice | flushDone | logFlushWork | chainOpen | fwRestart | fwRun |
      injectEnd | flashOpDone | sessionTimeout | autoConfirm | portUp | laneSignalLoss | laneSignalReturn | laneFailed |
      laneRecovered | trainFail | pllLockFail | sweepStep | anPage | coeffRequest | refLost | refReturned | virasFrameTx |
      virasCopyReceived | slotViolation | branchShut | branchRestart | lastSlotEnd | chanDown | chanUp | hello | helloAck |
      rateReq | rateAck | rateSwitch | ping | pongSend | pong | ready | reject | ladderBad | helloTimer | ladderTimeout |
      ladderHoldEnd | coldstart | syncLost | holdoverEnd | isolateLevelChange | isoDiscrepancy | announcement | droopSoft |
      droopSoftStep | droopHard | holdExpiry | stepUp | brdAlert | hintLeadExpiry | detectorFail | supplyLow | supplyHigh |
      tempWarn | throttle | thmStep | sensorFail | quench | quenchHalt | hardTrip | powerOnReset | rstNAssert | railDrop |
      rstNRelease | bootStageDone | tempWaitRecheck | idResetWarm | idResetLifeboat | resetKey | smbusBadPec | mctpBadPacket |
      mctpForeignEid | arbitrationLost | arbitrationRetry | smbusSclTimeout | smbusSdaStuck | busMasterSet | bankedExitTimeout
      | starLinkDown | guardCrc | tempWarnEnd | railReturn | managementSramError =>
    simp only [exec,
      execStrike, execTimeJump, execSealPoint, execCounterLowRead, execRegisterWrite, execStrikeIoPulseEnd, execQueueIdle,
      execReplyHeldWrite, execMsixMessage, execMmioAccess, execMmioPoison, execUnsupportedRequest, execUnexpectedCompletion,
      execDmaReadCompletion, execDmaTimeout, execAtsInvalidate, execLinkUp, execLinkReset, execFlr, execFlrComplete,
      execBusMasterClear, execD3hotEntry, execD0Return, execVfEnableSet, execVfEnableClear, execTxDescriptorFetchDone,
      execFrameReceived, execCutHandoff, execFrameTail, execRespondMpacket, execVerifyMpacket, execFrameTxStart,
      execFrameTxDone, execHostWriteDone, execAgingSlice, execFlushDone, execLogFlushWork, execChainOpen, execFwRestart,
      execFwRun, execInjectEnd, execFlashOpDone, execSessionTimeout, execAutoConfirm, execPortUp, execLaneSignalLoss,
      execLaneSignalReturn, execLaneFailed, execLaneRecovered, execTrainFail, execPllLockFail, execSweepStep, execAnPage,
      execCoeffRequest, execRefLost, execRefReturned, execVirasFrameTx, execVirasCopyReceived, execSlotViolation,
      execBranchShut, execBranchRestart, execLastSlotEnd, execChanDown, execChanUp, execHello, execHelloAck, execRateReq,
      execRateAck, execRateSwitch, execPing, execPongSend, execPong, execReady, execReject, execLadderBad, execHelloTimer,
      execLadderTimeout, execLadderHoldEnd, execColdstart, execSyncLost, execHoldoverEnd, execIsolateLevelChange,
      execIsoDiscrepancy, execAnnouncement, execDroopSoft, execDroopSoftStep, execDroopHard, execHoldExpiry, execStepUp,
      execBrdAlert, execHintLeadExpiry, execDetectorFail, execSupplyLow, execSupplyHigh, execTempWarn, execThrottle,
      execThmStep, execSensorFail, execQuench, execQuenchHalt, execHardTrip, execPowerOnReset, execRstNAssert, execRailDrop,
      execRstNRelease, execBootStageDone, execTempWaitRecheck, execIdResetWarm, execIdResetLifeboat, execResetKey,
      execSmbusBadPec, execMctpBadPacket, execMctpForeignEid, execArbitrationLost, execArbitrationRetry, execSmbusSclTimeout,
      execSmbusSdaStuck, execBusMasterSet, execBankedExitTimeout, execStarLinkDown, execGuardCrc, execTempWarnEnd,
      execRailReturn, execManagementSramError]
    repeat' first | exact .next _ | apply Answers.ite | split

/-- Settles O7. -/
theorem everyRowAnswersANextState : Obligations.EveryRowAnswersANextState := exec_answers

/-- Every row keeps the queue of commands and the canonical form of the stores. -/
theorem exec_keep {p : List Instr} {b : Prop} {s : State} (i : Instr) (h : Keep p b s) : KeepO p b (exec i s) := by
  cases i with
  | strike => exact execStrike_keep h
  | timeJump => exact execTimeJump_keep h
  | sealPoint => exact execSealPoint_keep h
  | stkNsRead => exact execStkNsRead_keep h
  | counterLowRead => exact execCounterLowRead_keep h
  | registerWrite => exact execRegisterWrite_keep h
  | stkSharesWrite => exact execStkSharesWrite_keep h
  | strikeIoPulseEnd => exact execStrikeIoPulseEnd_keep h
  | mboxClaim => exact execMboxClaim_keep h
  | mboxRelease => exact execMboxRelease_keep h
  | queueEnable => exact execQueueEnable_keep h
  | queueDisable => exact execQueueDisable_keep h
  | queueIdle => exact execQueueIdle_keep h
  | doorbellProducer => exact execDoorbellProducer_keep h
  | doorbellConsumer => exact execDoorbellConsumer_keep h
  | arm => exact execArm_keep h
  | replyHeldWrite => exact execReplyHeldWrite_keep h
  | msixMessage => exact execMsixMessage_keep h
  | mmioAccess => exact execMmioAccess_keep h
  | mmioPoison => exact execMmioPoison_keep h
  | unsupportedRequest => exact execUnsupportedRequest_keep h
  | malformed => exact execMalformed_keep h
  | unexpectedCompletion => exact execUnexpectedCompletion_keep h
  | dmaReadCompletion => exact execDmaReadCompletion_keep h
  | dmaTimeout => exact execDmaTimeout_keep h
  | atsInvalidate => exact execAtsInvalidate_keep h
  | linkUp => exact execLinkUp_keep h
  | linkReset => exact execLinkReset_keep h
  | perstDeassert => exact execPerstDeassert_keep h
  | flr => exact execFlr_keep h
  | flrComplete => exact execFlrComplete_keep h
  | busMasterClear => exact execBusMasterClear_keep h
  | d3hotEntry => exact execD3hotEntry_keep h
  | d0Return => exact execD0Return_keep h
  | vfEnableSet => exact execVfEnableSet_keep h
  | vfEnableClear => exact execVfEnableClear_keep h
  | txDescriptorFetchDone => exact execTxDescriptorFetchDone_keep h
  | frameReceived => exact execFrameReceived_keep h
  | cutHandoff => exact execCutHandoff_keep h
  | frameTail => exact execFrameTail_keep h
  | ctrlFramePause => exact execCtrlFramePause_keep h
  | ctrlFramePfc => exact execCtrlFramePfc_keep h
  | ctrlMalformed => exact execCtrlMalformed_keep h
  | pauseExpiry => exact execPauseExpiry_keep h
  | pfcRepeat => exact execPfcRepeat_keep h
  | pauseCapHit => exact execPauseCapHit_keep h
  | pauseWindowEnd => exact execPauseWindowEnd_keep h
  | pauseStorm => exact execPauseStorm_keep h
  | recoveryEnd => exact execRecoveryEnd_keep h
  | verifyTimer => exact execVerifyTimer_keep h
  | respondMpacket => exact execRespondMpacket_keep h
  | verifyMpacket => exact execVerifyMpacket_keep h
  | holdAssert => exact execHoldAssert_keep h
  | holdRelease => exact execHoldRelease_keep h
  | gateEntryBoundary => exact execGateEntryBoundary_keep h
  | gateActive => exact execGateActive_keep h
  | frameTxStart => exact execFrameTxStart_keep h
  | frameTxDone => exact execFrameTxDone_keep h
  | hostWriteDone => exact execHostWriteDone_keep h
  | staleDrop => exact execStaleDrop_keep h
  | agingSlice => exact execAgingSlice_keep h
  | flushDone => exact execFlushDone_keep h
  | logFlushWork => exact execLogFlushWork_keep h
  | chainOpen => exact execChainOpen_keep h
  | fwRestart => exact execFwRestart_keep h
  | fwRun => exact execFwRun_keep h
  | nop => exact execNop_keep h
  | getDeviceInfo => exact execGetDeviceInfo_keep h
  | getSerial => exact execGetSerial_keep h
  | getQueueInfo => exact execGetQueueInfo_keep h
  | setHeatLength => exact execSetHeatLength_keep h
  | getTime => exact execGetTime_keep h
  | queryStaged => exact execQueryStaged_keep h
  | cancelStaged => exact execCancelStaged_keep h
  | barrier => exact execBarrier_keep h
  | commitOpen => exact execCommitOpen_keep h
  | commitCancel => exact execCommitCancel_keep h
  | commitQuery => exact execCommitQuery_keep h
  | insCreate => exact execInsCreate_keep h
  | insDestroy => exact execInsDestroy_keep h
  | insResize => exact execInsResize_keep h
  | insSetLimits => exact execInsSetLimits_keep h
  | insQuery => exact execInsQuery_keep h
  | poolQuery => exact execPoolQuery_keep h
  | qpConfig => exact execQpConfig_keep h
  | qpStart => exact execQpStart_keep h
  | qpStop => exact execQpStop_keep h
  | qpState => exact execQpState_keep h
  | ituSetRoot => exact execItuSetRoot_keep h
  | ituInvalidate => exact execItuInvalidate_keep h
  | ituProbe => exact execItuProbe_keep h
  | ituFaultRead => exact execItuFaultRead_keep h
  | portConfig => exact execPortConfig_keep h
  | portBank => exact execPortBank_keep h
  | portStatus => exact execPortStatus_keep h
  | lnSetEq => exact execLnSetEq_keep h
  | lnGetEq => exact execLnGetEq_keep h
  | portRestore => exact execPortRestore_keep h
  | lnDiag => exact execLnDiag_keep h
  | lnDiagResult => exact execLnDiagResult_keep h
  | macSetRx => exact execMacSetRx_keep h
  | macSetFc => exact execMacSetFc_keep h
  | macSetPreempt => exact execMacSetPreempt_keep h
  | gateSet => exact execGateSet_keep h
  | gateDisable => exact execGateDisable_keep h
  | gateStatus => exact execGateStatus_keep h
  | fcStatus => exact execFcStatus_keep h
  | fcWdRelease => exact execFcWdRelease_keep h
  | ruleWrite => exact execRuleWrite_keep h
  | ruleDelete => exact execRuleDelete_keep h
  | ruleRead => exact execRuleRead_keep h
  | ruleCount => exact execRuleCount_keep h
  | flowInsert => exact execFlowInsert_keep h
  | flowDelete => exact execFlowDelete_keep h
  | flowLookup => exact execFlowLookup_keep h
  | flowFlush => exact execFlowFlush_keep h
  | flowAgedRead => exact execFlowAgedRead_keep h
  | captureRead => exact execCaptureRead_keep h
  | srcConfig => exact execSrcConfig_keep h
  | bdConfig => exact execBdConfig_keep h
  | rewriteSet => exact execRewriteSet_keep h
  | tunnelSet => exact execTunnelSet_keep h
  | mirrorSet => exact execMirrorSet_keep h
  | parserPorts => exact execParserPorts_keep h
  | tmShaperSet => exact execTmShaperSet_keep h
  | tmGroupSet => exact execTmGroupSet_keep h
  | tmOwnerSet => exact execTmOwnerSet_keep h
  | tmClassSched => exact execTmClassSched_keep h
  | tmAdmitSet => exact execTmAdmitSet_keep h
  | tmQlimSet => exact execTmQlimSet_keep h
  | tmSrcClass => exact execTmSrcClass_keep h
  | tmPolicerSet => exact execTmPolicerSet_keep h
  | tmPolicerRead => exact execTmPolicerRead_keep h
  | tmShaperRead => exact execTmShaperRead_keep h
  | kekLoad => exact execKekLoad_keep h
  | kekErase => exact execKekErase_keep h
  | ctxSet => exact execCtxSet_keep h
  | ctxKey => exact execCtxKey_keep h
  | ctxBind => exact execCtxBind_keep h
  | ctxQuery => exact execCtxQuery_keep h
  | ctxSave => exact execCtxSave_keep h
  | ctxRestore => exact execCtxRestore_keep h
  | ctxClear => exact execCtxClear_keep h
  | tlsResync => exact execTlsResync_keep h
  | replaySet => exact execReplaySet_keep h
  | secySet => exact execSecySet_keep h
  | stoConnSet => exact execStoConnSet_keep h
  | stoConnClear => exact execStoConnClear_keep h
  | stoConnQuery => exact execStoConnQuery_keep h
  | stoResync => exact execStoResync_keep h
  | stoNsSet => exact execStoNsSet_keep h
  | stoNsQuota => exact execStoNsQuota_keep h
  | stoNsQuery => exact execStoNsQuery_keep h
  | schedLoad => exact execSchedLoad_keep h
  | timJoin => exact execTimJoin_keep h
  | timLeave => exact execTimLeave_keep h
  | timQuery => exact execTimQuery_keep h
  | timSteer => exact execTimSteer_keep h
  | timPtpMap => exact execTimPtpMap_keep h
  | triSet => exact execTriSet_keep h
  | triQuery => exact execTriQuery_keep h
  | triHandover => exact execTriHandover_keep h
  | triRearm => exact execTriRearm_keep h
  | triIsoClear => exact execTriIsoClear_keep h
  | triForce => exact execTriForce_keep h
  | pwrSet => exact execPwrSet_keep h
  | thmSet => exact execThmSet_keep h
  | pwrQuery => exact execPwrQuery_keep h
  | thmQuery => exact execThmQuery_keep h
  | pwrInject => exact execPwrInject_keep h
  | injectEnd => exact execInjectEnd_keep h
  | thmClearLatch => exact execThmClearLatch_keep h
  | nvmInfo => exact execNvmInfo_keep h
  | nvmCfgWrite => exact execNvmCfgWrite_keep h
  | nvmCfgRead => exact execNvmCfgRead_keep h
  | nvmProvWrite => exact execNvmProvWrite_keep h
  | fwBegin => exact execFwBegin_keep h
  | fwWrite => exact execFwWrite_keep h
  | fwEnd => exact execFwEnd_keep h
  | fwActivate => exact execFwActivate_keep h
  | fwConfirm => exact execFwConfirm_keep h
  | fwAbort => exact execFwAbort_keep h
  | svnCommit => exact execSvnCommit_keep h
  | logRead => exact execLogRead_keep h
  | logFlush => exact execLogFlush_keep h
  | logClearFail => exact execLogClearFail_keep h
  | logMark => exact execLogMark_keep h
  | idCertRead => exact execIdCertRead_keep h
  | idAttest => exact execIdAttest_keep h
  | echo => exact execEcho_keep h
  | burn => exact execBurn_keep h
  | flashOpDone => exact execFlashOpDone_keep h
  | sessionTimeout => exact execSessionTimeout_keep h
  | autoConfirm => exact execAutoConfirm_keep h
  | portUp => exact execPortUp_keep h
  | laneSignalLoss => exact execLaneSignalLoss_keep h
  | laneSignalReturn => exact execLaneSignalReturn_keep h
  | laneFailed => exact execLaneFailed_keep h
  | laneRecovered => exact execLaneRecovered_keep h
  | trainFail => exact execTrainFail_keep h
  | pllLockFail => exact execPllLockFail_keep h
  | lanePowerStep => exact execLanePowerStep_keep h
  | autoRestore => exact execAutoRestore_keep h
  | sweepStep => exact execSweepStep_keep h
  | anPage => exact execAnPage_keep h
  | coeffRequest => exact execCoeffRequest_keep h
  | refLost => exact execRefLost_keep h
  | refReturned => exact execRefReturned_keep h
  | virasFrameTx => exact execVirasFrameTx_keep h
  | guardWindowClose => exact execGuardWindowClose_keep h
  | virasCopyReceived => exact execVirasCopyReceived_keep h
  | slotViolation => exact execSlotViolation_keep h
  | branchShut => exact execBranchShut_keep h
  | branchRestart => exact execBranchRestart_keep h
  | slotEndVote => exact execSlotEndVote_keep h
  | lastSlotEnd => exact execLastSlotEnd_keep h
  | chanDown => exact execChanDown_keep h
  | chanUp => exact execChanUp_keep h
  | hello => exact execHello_keep h
  | helloAck => exact execHelloAck_keep (x2 := 0) (x3 := 0) h
  | rateReq => exact execRateReq_keep h
  | rateAck => exact execRateAck_keep h
  | rateSwitch => exact execRateSwitch_keep h
  | ping => exact execPing_keep h
  | pongSend => exact execPongSend_keep h
  | pong => exact execPong_keep h
  | ready => exact execReady_keep h
  | reject => exact execReject_keep (x2 := 0) h
  | ladderBad => exact execLadderBad_keep h
  | helloTimer => exact execHelloTimer_keep h
  | ladderTimeout => exact execLadderTimeout_keep h
  | ladderHoldEnd => exact execLadderHoldEnd_keep h
  | coldstart => exact execColdstart_keep h
  | syncLost => exact execSyncLost_keep h
  | holdoverEnd => exact execHoldoverEnd_keep h
  | isolateLevelChange => exact execIsolateLevelChange_keep h
  | isoDiscrepancy => exact execIsoDiscrepancy_keep h
  | announcement => exact execAnnouncement_keep h
  | droopSoft => exact execDroopSoft_keep h
  | droopSoftStep => exact execDroopSoftStep_keep h
  | droopHard => exact execDroopHard_keep h
  | hardEnd => exact execHardEnd_keep h
  | holdExpiry => exact execHoldExpiry_keep h
  | stepUp => exact execStepUp_keep h
  | brdAlert => exact execBrdAlert_keep h
  | brdAlertDeassert => exact execBrdAlertDeassert_keep h
  | hintLeadExpiry => exact execHintLeadExpiry_keep h
  | detectorFail => exact execDetectorFail_keep h
  | supplyLow => exact execSupplyLow_keep h
  | supplyHigh => exact execSupplyHigh_keep h
  | tempWarn => exact execTempWarn_keep h
  | throttle => exact execThrottle_keep h
  | thmStep => exact execThmStep_keep h
  | sensorFail => exact execSensorFail_keep h
  | quench => exact execQuench_keep h
  | quenchHalt => exact execQuenchHalt_keep h
  | hardTrip => exact execHardTrip_keep h
  | powerOnReset => exact execPowerOnReset_keep h
  | standbyRelease => exact execStandbyRelease_keep h
  | rstNAssert => exact execRstNAssert_keep h
  | railDrop => exact execRailDrop_keep h
  | rstNRelease => exact execRstNRelease_keep h
  | bootStageDone x => exact @execBootStageDone_keep p b x s h
  | tempWaitRecheck => exact execTempWaitRecheck_keep h
  | idResetWarm => exact execIdResetWarm_keep h
  | idResetLifeboat => exact execIdResetLifeboat_keep h
  | resetKey => exact execResetKey_keep h
  | setEndpointId => exact execSetEndpointId_keep h
  | getEndpointId => exact execGetEndpointId_keep h
  | getMctpVersionSupport => exact execGetMctpVersionSupport_keep h
  | getMessageTypeSupport => exact execGetMessageTypeSupport_keep h
  | getEndpointUuid => exact execGetEndpointUuid_keep h
  | gettid => exact execGettid_keep h
  | settid => exact execSettid_keep h
  | getpldmversion => exact execGetpldmversion_keep h
  | getpldmtypes => exact execGetpldmtypes_keep h
  | getpldmcommands => exact execGetpldmcommands_keep h
  | getpdr => exact execGetpdr_keep h
  | getsensorreading => exact execGetsensorreading_keep h
  | getstatesensorreadings => exact execGetstatesensorreadings_keep h
  | seteventreceiver => exact execSeteventreceiver_keep h
  | querydeviceidentifiers => exact execQuerydeviceidentifiers_keep h
  | getfirmwareparameters => exact execGetfirmwareparameters_keep h
  | requestupdate => exact execRequestupdate_keep h
  | passcomponenttable => exact execPasscomponenttable_keep h
  | updatecomponent => exact execUpdatecomponent_keep h
  | requestfirmwaredata => exact execRequestfirmwaredata_keep h
  | activatefirmware => exact execActivatefirmware_keep h
  | getstatus => exact execGetstatus_keep h
  | cancelupdatecomponent => exact execCancelupdatecomponent_keep h
  | cancelupdate => exact execCancelupdate_keep h
  | unsupportedMessage => exact execUnsupportedMessage_keep h
  | smbusBadPec => exact execSmbusBadPec_keep h
  | mctpBadPacket => exact execMctpBadPacket_keep h
  | mctpForeignEid => exact execMctpForeignEid_keep h
  | arbitrationLost => exact execArbitrationLost_keep h
  | arbitrationRetry => exact execArbitrationRetry_keep h
  | smbusSclTimeout => exact execSmbusSclTimeout_keep h
  | smbusSdaStuck => exact execSmbusSdaStuck_keep h
  | busMasterSet => exact execBusMasterSet_keep h
  | bankedExitTimeout => exact execBankedExitTimeout_keep h
  | refillTick => exact execRefillTick_keep h
  | governorTick => exact execGovernorTick_keep h
  | starLinkDown => exact execStarLinkDown_keep h
  | guardCrc => exact execGuardCrc_keep h
  | tempWarnEnd => exact execTempWarnEnd_keep h
  | railReturn => exact execRailReturn_keep h
  | dramUnavailable => exact execDramUnavailable_keep h
  | managementSramError => exact execManagementSramError_keep h

/-- Settles O6: `exec_keep` with no claim about the stores. -/
theorem execLeavesTheQueue : Obligations.ExecLeavesTheQueue := by
  intro c s t h
  have hk : KeepO s.pending False (exec c s) := exec_keep c ⟨rfl, False.elim⟩
  rw [h] at hk
  exact hk.1

theorem step_keeps_canon {s t : State} (hc : Canon s) (h : step s = .next t) : Canon t := by
  have hk : ∀ {u : State} {p : List Instr}, Canon u → u.pending = p → Keep p True u := fun h hp => ⟨hp, fun _ => h⟩
  cases hp : s.pending with
  | nil =>
    rw [step_nil hp, Host.Outcome.next.injEq] at h
    exact h ▸ (idleTick_keep (hk hc hp)).2 trivial
  | cons c rest =>
    rw [step_cons hp] at h
    have := exec_keep c (hk (u := { s with pending := rest }) hc rfl)
    rw [h] at this
    exact this.2 trivial

/-- Settles O5: the step of an empty queue and the step of a command each keep the canonical form. -/
theorem everyStepKeepsCanonicalForm : Obligations.EveryStepKeepsCanonicalForm := fun _ _ => step_keeps_canon

/-- Settles O4: every store of the reset state is empty. -/
theorem resetIsCanonical : Obligations.ResetIsCanonical :=
  ⟨⟨regsOk_nil, rfl, rfl, by decide, by decide⟩, rfl⟩

end Sys2Proof.Machine
end

section
/-!
SUPPORT. Families 0x01, 0x02, 0x0B and 0x0F: what the own part of each row answers under the conditions of its statement. Every
proof names the body and the branches that its conditions shut out; `replies_of` and `stages_of` say the rest once for all rows.
-/

namespace Sys2Proof.Machine

/-- A row whose own part answers DONE, as an equation of `exec`. -/
theorem exec_done {row : Cmd → Instr} {op : Op} {body : Cmd → State → Body} {c : Cmd} {s t e : State} {target : Heat} {late : Bool}
    {r : Nat} (hx : exec (row c) s = runCmd op c body s) (ht : takenFrom op c s = t) (ha : Admits op c s)
    (hl : checkLate c t = .ok (target, late)) (hb : body c t = .done e r) :
    exec (row c) s = .next (doneWith op c t e r) := by
  subst ht
  rw [hx, runCmd_admitted ha]
  simp only [runAlone, hl, reach_admitted ha, hb]
  rfl

/-- A row whose own part stages items for which the store has room, as an equation of `exec`. -/
theorem exec_staged {row : Cmd → Instr} {op : Op} {body : Cmd → State → Body} {c : Cmd} {s t e st : State} {target : Heat}
    {late flow : Bool} {entries : List (List Byte)} {r : Nat} (hx : exec (row c) s = runCmd op c body s)
    (ht : takenFrom op c s = t) (ha : Admits op c s) (hl : checkLate c t = .ok (target, late))
    (hs : stagedAs op c e entries flow target = some st) (hb : body c t = .stage e entries flow r) :
    exec (row c) s = .next (ends op c t st (.seal e.staging.nextUnit target late r)) := by
  subst ht
  rw [hx, runCmd_admitted ha]
  simp only [runAlone, hl, reach_admitted ha, hb]
  simp only [stagedAs] at hs
  rw [hs]
  rfl

/-- A row whose own part begins a long operation, as an equation of `exec`. -/
theorem exec_waits {row : Cmd → Instr} {op : Op} {body : Cmd → State → Body} {c : Cmd} {s t e : State} {target : Heat} {late : Bool}
    (hx : exec (row c) s = runCmd op c body s) (ht : takenFrom op c s = t) (ha : Admits op c s)
    (hl : checkLate c t = .ok (target, late)) (hb : body c t = .wait e) :
    exec (row c) s = .next (refund e c.src (spareOf op c)) := by
  subst ht
  rw [hx, runCmd_admitted ha]
  simp only [runAlone, hl, reach_admitted ha, hb]

/-- A row whose own part gives another answer together with an effect, as an equation of `exec`. -/
theorem exec_other {row : Cmd → Instr} {op : Op} {body : Cmd → State → Body} {c : Cmd} {s t e : State} {target : Heat} {late : Bool}
    {f : Fail} (hx : exec (row c) s = runCmd op c body s) (ht : takenFrom op c s = t) (ha : Admits op c s)
    (hl : checkLate c t = .ok (target, late)) (hb : body c t = .other e f) :
    exec (row c) s = .next (otherWith op c t e f) := by
  subst ht
  rw [hx, runCmd_admitted ha]
  simp only [runAlone, hl, reach_admitted ha, hb]
  rfl

/-- Settles O8: each row's own part is one equation, which holds where its statement's condition does. -/
theorem deviceCommandsComplete : Obligations.DeviceCommandsComplete := by
  refine ⟨?nop, ?info, ?serial, ?queue, ?echo, ?burn⟩
  case nop => exact fun c s target late ha hl => exec_done rfl rfl ha hl rfl
  case info =>
    intro c s target late t ha hl
    refine exec_done rfl rfl ha hl ?_
    simp only [bodyGetDeviceInfo]
    cases t.nvm.running <;> rfl
  case serial => exact fun c s target late ha hl => exec_done rfl rfl ha hl rfl
  case queue =>
    intro c s target late t ha hl hf
    exact exec_done rfl rfl ha hl (by simp [bodyGetQueueInfo, hf])
  case echo => exact fun c s target late ha hl => exec_done rfl rfl ha hl rfl
  case burn =>
    intro c s target late n t ha hl hn h1
    exact exec_done rfl rfl ha hl (by simp only [bodyBurn, hn]; rw [if_neg (by omega)])

/-- Settles O9: the conditions of each row shut out the refusals of its own part. -/
theorem strikeCommandsComplete : Obligations.StrikeCommandsComplete := by
  refine ⟨?length, ?time, ?query, ?cancel, ?barrier⟩
  case length =>
    refine stages_of (fun _ _ _ _ => rfl) fun c s ⟨_, hmin, hmax, hc, himg⟩ => ?_
    simp only [bodySetHeatLength, hc]
    rw [if_neg (by omega), if_neg (by simp)]
    cases hm : s.vrs.img with
    | none => rfl
    | some m => exact if_neg fun ⟨hst, hlt⟩ => (himg m hm).elim hst (by omega)
  case time => exact replies_of (fun _ _ _ _ => rfl) fun _ _ _ => rfl
  case query =>
    refine fun h => replies_of (fun _ _ _ _ => rfl) fun c s ⟨hh, hk⟩ => ?_
    simp only [bodyQueryStaged, ← hh]
    rw [if_neg]
    simp only [Bool.not_eq_true', Bool.not_eq_false, List.contains_iff_mem, List.mem_eraseDups, List.mem_append, List.mem_map]
    rcases hk with ⟨i, hi, rfl⟩ | ⟨hm, b, hb, rfl⟩
    · exact .inl ⟨i, hi, rfl⟩
    · exact .inr (by simp only [hm, if_true, List.mem_map]; exact ⟨b, hb, rfl⟩)
  case cancel =>
    refine fun h tag => replies_of (fun _ _ _ _ => rfl) fun c s ⟨hh, ht, ⟨i, hi, hs, hl, hg, ho⟩, hc, hp⟩ => ?_
    simp only [bodyCancelStaged, ← hh, ← ht]
    rw [if_neg, if_neg, if_neg]
    · rintro ⟨hn, hq⟩
      simp_all
    · simp only [List.any_eq_true, List.mem_filter, not_exists, not_and]
      rintro x ⟨hx, hy⟩
      simp only [Bool.and_eq_true, beq_iff_eq] at hy
      obtain ⟨⟨⟨h1, h2⟩, h3⟩, h4⟩ := hy
      simp [hc x hx h1 h2 h3 h4]
    · simp only [List.isEmpty_iff, List.filter_eq_nil_iff, Classical.not_forall]
      exact ⟨i, hi, by simp [hs, hl, hg, ho]⟩
  case barrier =>
    exact stages_of (fun _ _ _ _ => rfl) fun c s h => by simp [bodyBarrier, h]

/-- Settles O10: the conditions of each row shut out the refusals of its own part. -/
theorem commitCommandsComplete : Obligations.CommitCommandsComplete := by
  refine ⟨?open_, ?cancel, ?query⟩
  case open_ =>
    refine stages_of (fun _ _ _ _ => rfl) fun c s ⟨hid, hown, ⟨m, hm, hn⟩, hst, hlen, ht⟩ => ?_
    have habs : ((bitList (pf c.params 15 8) 64).any fun n => (m.node? n).isNone) = false := by
      simp only [List.any_eq_false]
      intro n h
      simp [Option.isSome_iff_ne_none.mp (hn n h)]
    have hu : (s.tim.units.any fun u => u.target == c.target) = false := by
      simp only [List.any_eq_false, beq_iff_eq]
      exact ht
    simp only [bodyCommitOpen, hm, habs, hown, hu]
    rw [if_neg hid, if_neg (by simp), if_neg hst, if_neg (by simp; omega)] <;> rfl
  case cancel =>
    refine fun u => replies_of (fun _ _ _ _ => rfl) fun c s ⟨hu, ht⟩ => ?_
    simp only [bodyCommitCancel, hu]
    rw [if_neg (by omega)]
  case query =>
    exact fun u => replies_of (fun _ _ _ _ => rfl) fun c s hu => by simp only [bodyCommitQuery, hu]

/-- Settles O11: the conditions of each row shut out the refusals of its own part. -/
theorem clusterTimeCommandsComplete : Obligations.ClusterTimeCommandsComplete := by
  refine ⟨?load, ?join, ?again, ?leave, ?query, ?steer, ?map⟩
  case load => exact stages_of (fun _ _ _ _ => rfl) fun c s ⟨hc, hi⟩ => by simp [bodySchedLoad, hc, hi]
  case join => 
    refine replies_of (fun _ _ _ _ => rfl) fun c s ⟨hi, hst⟩ => ?_
    simp [bodyTimJoin, hst, Option.isSome_iff_ne_none.mp hi]
  case again =>
    refine replies_of (fun _ _ _ _ => rfl) fun c s ⟨hi, hst⟩ => ?_
    simp [bodyTimJoin, hst, Option.isSome_iff_ne_none.mp hi]
  case leave => exact replies_of (fun _ _ _ _ => rfl) fun _ _ _ => rfl
  case query => exact replies_of (fun _ _ _ _ => rfl) fun _ _ _ => rfl
  case steer =>
    refine stages_of (fun _ _ _ _ => rfl) fun c s ⟨hmin, hmax, hc⟩ => ?_
    simp only [bodyTimSteer, hc]
    rw [if_neg (by omega), if_neg (by simp)]
  case map =>
    refine stages_of (fun _ _ _ _ => rfl) fun c s ⟨hmax, hc⟩ => ?_
    simp only [bodyTimPtpMap, hc]
    rw [if_neg (by omega), if_neg (by simp)]

end Sys2Proof.Machine
end

section
/-!
SUPPORT. Families 0x03 and 0x04: what the own part of each row answers under the conditions of its statement.
-/

namespace Sys2Proof.Machine

theorem bodyInsSetLimits_ok {c : Cmd} {s : State} (hd : destroying s c.id = false)
    (h0 : bit (pf c.params 24 24) 0 = true → pf c.params 3 0 ≤ 1600000 ∧ 1 ≤ pf c.params 11 8 ∧ pf c.params 11 8 ≤ 16384)
    (h1 : bit (pf c.params 24 24) 1 = true → pf c.params 7 4 ≤ 1600000 ∧ 1 ≤ pf c.params 15 12 ∧ pf c.params 15 12 ≤ 16384)
    (h2 : bit (pf c.params 24 24) 2 = true → weightOk (pf c.params 17 16) = true)
    (h3 : bit (pf c.params 24 24) 3 = true → pf c.params 18 18 ≤ 3 ∧ (pf c.params 18 18 = 0 → State.isPf0 c.id = true))
    (h4 : bit (pf c.params 24 24) 4 = true → capOk (pf c.params 23 20) = true) :
    bodyInsSetLimits c s = .stage s [c.data] false 0 := by
  simp only [bodyInsSetLimits, hd, Bool.false_eq_true, if_false]
  rw [if_neg, if_neg, if_neg, if_neg, if_neg, if_neg]
  · simpa using h4
  · simpa using fun hb hz => (h3 hb).2 hz
  · simpa using fun hb => (h3 hb).1
  · simpa using h2
  · simpa [Decidable.imp_iff_not_or, and_assoc, Nat.one_le_iff_ne_zero] using h1
  · simpa [Decidable.imp_iff_not_or, and_assoc, Nat.one_le_iff_ne_zero] using h0

/-- Settles O16: the conditions of each row shut out the refusals of its own part. -/
theorem instanceCommandsComplete : Obligations.InstanceCommandsComplete := by
  refine ⟨?create, ?destroy, ?resize, ?limits, ?query, ?pool⟩
  case create =>
    intro c s target late st t ha hl hlink hpf hfree hcr hmin hmax hw hcap hg hs
    refine exec_staged rfl rfl ha hl hs ?_
    have hb : (t.boot.strapLink && (c.id == 2 || c.id == 3)) = false := by
      rcases hlink with h | ⟨h2, h3⟩
      · simp [h]
      · simp [h2, h3]
    simp only [bodyInsCreate, hb, hpf, hfree, hcr, hw, hcap, hg]
    rw [if_neg (by simp), if_neg (by simp), if_neg (by omega), if_neg (by omega), if_neg (by simp), if_neg (by simp)]
  case destroy =>
    intro c s target late st t ha hl hpf hd hs
    exact exec_staged rfl rfl ha hl hs (by simp [bodyInsDestroy, hpf, hd])
  case resize =>
    intro c s target late st t ha hl hd he hg hs
    exact exec_staged rfl rfl ha hl hs (by simp [bodyInsResize, hd, he, hg])
  case limits =>
    intro c s target late st t ha hl hd h0 h1 h2 h3 h4 hs
    exact exec_staged rfl rfl ha hl hs (bodyInsSetLimits_ok hd h0 h1 h2 h3 h4)
  case query =>
    intro c s target late t ha hl hle
    refine exec_done rfl rfl ha hl ?_
    simp only [bodyInsQuery]
    match h : pf c.params 0 0, hle with
    | 0, _ | 1, _ | 2, _ => rfl
  case pool =>
    intro c s target late t ha hl hle
    exact exec_done rfl rfl ha hl (if_neg (by omega))

/-- The own part of a row of a queue pair within its grant. -/
theorem withQp_of_lt {c : Cmd} {s : State} {k : Nat → Qp → Body} (h : pf c.params 1 0 < (s.insOf c.id).grants.getD 0 0) :
    withQp c s k = k (pf c.params 1 0) (s.qp c.id (pf c.params 1 0)) := by
  simp only [withQp]
  rw [if_neg (by omega)]

/-- Settles O17: the conditions of each row shut out the refusals of its own part. -/
theorem queuePairCommandsComplete : Obligations.QueuePairCommandsComplete := by
  refine ⟨?config, ?start, ?stop, ?stopHeld, ?state, ?root, ?inval, ?probe, ?fault⟩
  case config =>
    intro c s target late t ha hl hg hr h1 h2 hx hy hz hv a1 a2 a3
    refine exec_done rfl rfl ha hl ?_
    simp only [bodyQpConfig, withQp_of_lt hg, hr, hx, hy, hz]
    rw [if_neg (by simp), if_neg (by simp [h1, h2]), if_neg (by simp), if_neg (by simp), if_neg (by simp), if_neg (by omega),
      if_neg (by omega), if_neg (by omega), if_neg (by omega)]
  case start =>
    intro c s target late t ha hl hg hr hst hh
    exact exec_done rfl rfl ha hl (by simp [bodyQpStart, withQp_of_lt hg, hr, hst, hh])
  case stop =>
    intro c s target late t ha hl hg hst hh
    exact exec_done rfl rfl ha hl (by simp [bodyQpStop, withQp_of_lt hg, hst, hh, qpStop])
  case stopHeld =>
    intro c s target late t ha hl hg hst hh
    have hb : bodyQpStop c t = .wait (qpWait (qpStop t c.id (pf c.params 1 0)) (State.qpKey c.id (pf c.params 1 0)) c) := by
      simp [bodyQpStop, withQp_of_lt hg, hst, hh]
    exact exec_waits rfl rfl ha hl hb
  case state =>
    intro c s target late t ha hl hg
    refine exec_done rfl rfl ha hl ?_
    simp only [bodyQpState, withQp_of_lt hg]
    rfl
  case root =>
    intro c s target late t ha hl hp hr
    exact exec_done rfl rfl ha hl (by simp [bodyItuSetRoot, hp, hr])
  case inval =>
    intro c s target late t ha hl hle h0
    refine exec_done rfl rfl ha hl ?_
    simp only [bodyItuInvalidate]
    match h : pf c.params 0 0, hle with
    | 0, _ =>
      obtain ⟨h1, h2, h3⟩ := h0 h
      simp only [h1]
      rw [if_neg (by simp), if_neg (by omega)]
    | 1, _ | 2, _ => rfl
  case probe =>
    intro c mem s target late t ha hl hp hle
    refine exec_done (row := fun c => .ituProbe c mem) rfl rfl ha hl ?_
    simp only [bodyItuProbe, hp]
    rw [if_neg (by simp), if_neg (by omega)]
    cases translate (seeTables t mem) c.id (pf c.params 7 0) (pf c.params 8 8 == 1) <;> rfl
  case fault =>
    intro c s target late r rest t ha hl hf
    refine exec_done rfl rfl ha hl ?_
    simp only [bodyItuFaultRead, hf]

end Sys2Proof.Machine
end

section
/-!
SUPPORT. Families 0x05 and 0x06: what the own part of each row answers under the conditions of its statement.
-/

namespace Sys2Proof.Machine

/-- PORT_CONFIG of a port that is not removed, within the ranges of R250 to R252 and R267 to R270. -/
theorem bodyPortConfig_ok {c : Cmd} {s : State} (hp : pf c.params 0 0 ≤ 15) (hr : 1 ≤ pf c.params 2 2 ∧ pf c.params 2 2 ≤ 5)
    (hw : pf c.params 3 3 ≤ 3) (h4 : pf c.params 4 4 ≤ 3) (h5 : pf c.params 5 5 ≤ 3)
    (ha : anchorOf (pf c.params 0 0) % 2 ^ pf c.params 3 3 = 0)
    (hfree : ∀ q < 16, q ≠ pf c.params 0 0 → ∀ x ∈ portShapes s q (targetOfCmd c s).toNat, ∀ n ∈ groupLanes (anchorOf q) x.2,
      n ∉ groupLanes (anchorOf (pf c.params 0 0)) (pf c.params 3 3))
    (hdiag : ∀ n ∈ groupLanes (anchorOf (pf c.params 0 0)) (pf c.params 3 3), inDiag s n = false)
    (hshape : ∀ x ∈ portShapes s (pf c.params 0 0) (targetOfCmd c s).toNat, x.2 = pf c.params 3 3)
    (hquad : ∀ q < 4, (quadRates s (pf c.params 0 0) (pf c.params 2 2)
      (groupLanes (anchorOf (pf c.params 0 0)) (pf c.params 3 3)) (targetOfCmd c s).toNat q).length ≤ 2)
    (hspeed : if bit (pf c.params 1 1) 0 then
        pf c.params 7 6 ≠ 0 ∧ ∀ sp ∈ bitList (pf c.params 7 6) 16, (resolveRate sp (pf c.params 2 2) (pf c.params 3 3)).isSome = true
      else speedOf (pf c.params 2 2) (pf c.params 3 3) ≠ 0) :
    bodyPortConfig c s = .stage s [c.data] false 0 := by
  simp only [bodyPortConfig]
  rw [if_neg (by omega)]
  by_cases hremove : bit (pf c.params 1 1) 3 = true
  · rw [if_pos hremove]
  rw [if_neg hremove, if_neg (by omega), if_neg (by omega), if_neg (by omega), if_neg (by omega), if_neg (by omega), if_neg, if_neg, if_neg, if_neg]
  · split at hspeed
    · next hb =>
      obtain ⟨hne, hall⟩ := hspeed
      simpa [hb, hne, Option.isSome_iff_ne_none] using hall
    · next hb => simpa [hb] using hspeed
  · rw [List.any_eq_true]
    rintro ⟨q, hq, h⟩
    have hq4 : q < 4 := by
      simp only [List.mem_cons, List.not_mem_nil, or_false] at hq
      omega
    exact absurd (hquad q hq4) (Nat.not_le.mpr (of_decide_eq_true h))
  · simpa using hshape
  · simpa [not_or] using ⟨fun q hq hne a b hx n hn => hfree q hq hne (a, b) hx n hn, hdiag⟩

theorem bodyLnSetEq_ok {c : Cmd} {s : State} {y : Lane} (hp : pf c.params 0 0 ≤ 15) (hm : pf c.params 1 1 ≤ 1)
    (ht : pf c.params 1 1 = 1 → tapsOk (pf c.params 5 2) = true)
    (hy : y = if pf c.params 1 1 = 1
      then { s.lane (pf c.params 0 0) with fixed := true, eqTx := pf c.params 5 2, eqRx := pf c.params 9 6 }
      else { s.lane (pf c.params 0 0) with fixed := false }) :
    bodyLnSetEq c s = .done (s.setLane (pf c.params 0 0)
      (if y ≠ s.lane (pf c.params 0 0) ∧ y.readapt.isSome then { y with readapt := none, restart := true } else y)) 0 := by
  have hr : y.readapt = (s.lane (pf c.params 0 0)).readapt := by
    rw [hy]
    split <;> rfl
  simp only [bodyLnSetEq, ← hy]
  rw [if_neg (by omega), if_neg (by omega), if_neg (by simpa using ht), hr]
  simp only [Bool.and_eq_true, bne_iff_ne]

/-- LN_DIAG within its ranges, on lanes that no port and no other diagnostic holds. -/
theorem bodyLnDiag_ok {c : Cmd} {s : State} {a w mode : Nat} (ea : a = pf c.params 0 0) (ew : w = pf c.params 1 1)
    (em : mode = pf c.params 2 2) (ha : a ≤ 15) (hw : w ≤ 3) (hal : a % 2 ^ w = 0) (h16 : a + 2 ^ w ≤ 16) (hm : mode ≤ 4)
    (hr : pf c.params 3 3 ≤ 5) (hr1 : 1 ≤ mode → mode ≤ 3 → 1 ≤ pf c.params 3 3) (h4 : pf c.params 4 4 ≤ 4)
    (hport : ∀ n ∈ groupLanes a w, portOfLane s n = none)
    (hdiag : ∀ d ∈ s.ln.diags, d.anchor ≠ a → d.runs = true → ∀ n ∈ groupLanes d.anchor d.width, n ∉ groupLanes a w) :
    bodyLnDiag c s = .done (
      let rest := s.ln.diags.filter (fun d => d.anchor != a)
      let rate := if mode = 4 then 1 else pf c.params 3 3
      let d : Diag := { anchor := a, width := w, mode := mode, rate := rate,
                        pattern := if mode = 4 then sweepPattern 1 else pf c.params 4 4, best := 0, ended := false,
                        since := s.time.refNow }
      if mode = 0 then askPower { s with ln := { s.ln with diags := rest } } (groupLanes a w) false
      else askPower (rateLanes { s with ln := { s.ln with diags := d :: rest } } (groupLanes a w) rate) (groupLanes a w) true) 0 := by
  have hfree : ((s.ln.diags.filter fun d => d.anchor != a).any
      fun d => d.runs && (groupLanes d.anchor d.width).any (groupLanes a w).contains) = false := by
    simpa [List.any_eq_false] using hdiag
  simp only [bodyLnDiag, ← ea, ← ew, ← em]
  rw [if_neg (by omega), if_neg (by omega), if_neg (by omega), if_neg (by omega), if_neg (by omega), if_neg (by omega),
    if_neg (by simpa using hport), if_neg (by simp [hfree])]
  split <;> rfl

/-- Settles O18: the conditions of each row shut out the refusals of its own part. -/
theorem laneCommandsComplete : Obligations.LaneCommandsComplete := by
  refine ⟨?config, ?bank, ?status, ?setEq, ?getEq, ?restore, ?diag, ?result, ?draws⟩
  case config =>
    refine stages_of (fun _ _ _ _ => rfl) fun c s ⟨hp, h⟩ => ?_
    rcases h with hb | ⟨hr1, hr2, hw, h4, h5, ha, hf, hd, hs, hq, hsp⟩
    · simp only [bodyPortConfig, hb, if_true]
      rw [if_neg (by omega)]
    · exact bodyPortConfig_ok hp ⟨hr1, hr2⟩ hw h4 h5 ha hf hd hs hq hsp
  case bank =>
    refine stages_of (fun _ _ _ _ => rfl) fun c s ⟨hp, hm, hst⟩ => ?_
    simp only [bodyPortBank]
    rw [if_neg (by omega), if_neg (by omega), if_neg fun ⟨h1, hd⟩ => hst h1 hd]
  case status => exact replies_of (fun _ _ _ _ => rfl) fun c s hp => if_neg (by omega)
  case setEq =>
    exact fun y => replies_of (fun _ _ _ _ => rfl) fun c s ⟨hp, hm, ht, hy⟩ => bodyLnSetEq_ok hp hm ht hy
  case getEq => exact replies_of (fun _ _ _ _ => rfl) fun c s hp => if_neg (by omega)
  case restore =>
    refine stages_of (fun _ _ _ _ => rfl) fun c s ⟨hp, hst⟩ => ?_
    simp only [bodyPortRestore, hst]
    rw [if_neg (by omega), if_neg (by simp)]
  case diag =>
    exact fun a w mode => replies_of (fun _ _ _ _ => rfl)
      fun c s ⟨ea, ew, em, ha, hw, hal, h16, hm, hr, hr1, h4, hport, hdiag⟩ =>
        bodyLnDiag_ok ea ew em ha hw hal h16 hm hr hr1 h4 hport hdiag
  case result =>
    refine fun d => replies_of (fun _ _ _ _ => rfl) fun c s ⟨hp, hd, hm⟩ => ?_
    simp only [bodyLnDiagResult, hd]
    rw [if_neg (by omega), if_neg hm]
    split <;> rfl
  case draws =>
    refine fun d => replies_of (fun _ _ _ _ => rfl) fun c s ⟨hp, hd, hm⟩ => ?_
    simp only [bodyLnDiagResult, hd, hm]
    rw [if_neg (by omega)]
    rfl

/-- Settles O23: the conditions of each row shut out the refusals of its own part. -/
theorem macCommandsComplete : Obligations.MacCommandsComplete := by
  refine ⟨?rx, ?fc, ?preempt, ?gateSet, ?gateOff, ?gateStatus, ?fcStatus, ?release⟩
  case rx =>
    refine stages_of (fun _ _ _ _ => rfl) fun c s ⟨h0, h1, hmin, hmax⟩ => ?_
    simp only [bodyMacSetRx]
    rw [if_neg (by omega), if_neg (by omega), if_neg (by omega)]
  case fc =>
    refine stages_of (fun _ _ _ _ => rfl) fun c s ⟨h0, h1, h4, h6, h7, h8, h9⟩ => ?_
    simp only [bodyMacSetFc]
    rw [if_neg (by omega), if_neg (by omega), if_neg (by omega), if_neg (by omega), if_neg (by omega)]
  case preempt =>
    refine stages_of (fun _ _ _ _ => rfl) fun c s ⟨h0, h2, h4, h5, h7, h9⟩ => ?_
    simp only [bodyMacSetPreempt]
    rw [if_neg (by omega), if_neg (by omega), if_neg (by omega), if_neg (by omega), if_neg (by omega)]
  case gateSet =>
    refine stages_of (fun _ _ _ _ => rfl) fun c s ⟨h0, hmin, hmax, hlen, hbase, hentry⟩ => ?_
    have hbad : ((List.range (pf c.params 3 2)).any fun k => !gateEntryOk c.data k) = false := by
      simpa [List.any_eq_false] using hentry
    simp only [bodyGateSet, hbad]
    rw [if_neg (by omega), if_neg (by omega), if_neg (by omega), if_neg, if_neg, if_neg (by simp)]
    · rcases hbase with hb | hb
      · simp [hb]
      · simp [Nat.not_lt.mpr hb.2]
    · rcases hbase with hb | hb
      · simp [hb]
      · simp [Nat.not_le.mpr hb.1]
  case gateOff => exact stages_of (fun _ _ _ _ => rfl) fun c s hp => if_neg (by omega)
  case gateStatus =>
    refine replies_of (fun _ _ _ _ => rfl) fun c s hp => ?_
    simp only [bodyGateStatus]
    rw [if_neg (by omega)]
    cases (s.mac (pf c.params 0 0)).gate <;> rfl
  case fcStatus => exact replies_of (fun _ _ _ _ => rfl) fun c s hp => if_neg (by omega)
  case release => exact replies_of (fun _ _ _ _ => rfl) fun c s hp => if_neg (by omega)

end Sys2Proof.Machine
end

section
/-!
SUPPORT. Family 0x07: what the own part of each row answers under the conditions of its statement. An answer that goes to host memory
and a command of several entries are said once for all rows.
-/

namespace Sys2Proof.Machine

/-- An answer whose write to host memory does not fault. -/
theorem doneAt_of_ok {s : State} {c : Cmd} {a r : Nat} {d : List Byte} (h : (hostWrite s (cmdFunc s c) none a d).2 = true) :
    doneAt s c a d r = .done (hostWrite s (cmdFunc s c) none a d).1 r := by
  unfold doneAt
  split
  · next h1 => rw [h1]
  · next h1 =>
    rw [h1] at h
    cases h

/-- A row whose own part answers at the host address of its parameter bytes 8 to 15. -/
theorem repliesAt_of {row : Cmd → Instr} {op : Op} {body : Cmd → State → Body} {ok : Cmd → State → Prop}
    {data : Cmd → State → List Byte} {result : Cmd → State → Nat} (hx : ∀ c s, exec (row c) s = runCmd op c body s)
    (hb : ∀ c s, ok c s → body c s = doneAt s c (pf c.params 15 8) (data c s) (result c s)) : RepliesAt row op ok data result :=
  replies_of (fun c s _ _ => hx c s) fun c s ⟨hk, hw⟩ => (hb c s hk).trans (doneAt_of_ok hw)

theorem chunks_length (k n : Nat) (l : List Byte) : (chunks k n l).length = n := by
  induction n generalizing l with
  | zero => rfl
  | succ n ih => simp [chunks, ih]

/-- Where no entry fails, all of them have been written. -/
theorem eachEntry_count {check : State → Nat → List Byte → Option Fail} {put : State → Nat → List Byte → State} {s : State} {n : Nat}
    {es : List (List Byte)} (h : (eachEntry check put s n es).2.2 = none) : (eachEntry check put s n es).2.1 = n + es.length := by
  induction es generalizing s n with
  | nil => rfl
  | cons b t ih =>
    cases hc : check s n b with
    | some f =>
      rw [eachEntry, hc] at h
      cases h
    | none =>
      simp only [eachEntry, hc] at h ⊢
      rw [ih h, List.length_cons]
      omega

theorem nowBody_eachEntry {check : State → Nat → List Byte → Option Fail} {put : State → Nat → List Byte → State} {s : State}
    {k n : Nat} {l : List Byte} (h : (eachEntry check put s 0 (chunks k n l)).2.2 = none) :
    nowBody (eachEntry check put s 0 (chunks k n l)) = .done (eachEntry check put s 0 (chunks k n l)).1 n := by
  have hn := eachEntry_count h
  rw [chunks_length, Nat.zero_add] at hn
  rcases he : eachEntry check put s 0 (chunks k n l) with ⟨t, m, f⟩
  rw [he] at h hn
  cases h
  cases hn
  rfl

theorem stageBody_eachEntry {check : State → Nat → List Byte → Option Fail} {put : State → Nat → List Byte → State} {s : State}
    {k n : Nat} {l : List Byte} {flow : Bool} (h : (eachEntry check put s 0 (chunks k n l)).2.2 = none) :
    stageBody s flow check put (chunks k n l) = .stage s (chunks k n l) flow n := by
  simp only [stageBody, h, chunks_length]

/-- RULE_WRITE of as many whole entries as its count says. -/
theorem bodyRuleWrite_of_len {c : Cmd} {s : State} (hn : 1 ≤ pf c.params 5 4) (hl : c.data.length = 176 * pf c.params 5 4) :
    bodyRuleWrite c s =
      if isNow c then nowBody (eachEntry (fun s i b => checkRule s c.id (pf c.params 3 2 + i) b)
        (fun s i b => putRule s c.id (pf c.params 3 2 + i) b) s 0 (chunks 176 (pf c.params 5 4) c.data))
      else stageBody s false (fun s i b => checkRule s c.id (pf c.params 3 2 + i) b)
        (fun s i b => putRule s c.id (pf c.params 3 2 + i) b) (chunks 176 (pf c.params 5 4) c.data) := by
  simp only [bodyRuleWrite]
  rw [if_neg (by omega), if_neg (by omega), if_neg (by omega)]

/-- Settles O26: a command of several entries whose entries all pass, and the two reads. -/
theorem orderedRuleCommandsComplete : Obligations.OrderedRuleCommandsComplete := by
  refine ⟨?write, ?writeLater, ?delete, ?deleteLater, ?read, ?count⟩
  case write =>
    refine fun op => replies_of (fun c s s' hk => by rw [hk.1]; rfl) fun c s ⟨_, hnow, hn, hl, he⟩ => ?_
    rw [bodyRuleWrite_of_len hn hl, if_pos hnow, nowBody_eachEntry he]
  case writeLater =>
    refine fun op => stages_of (fun c s s' hk => by rw [hk.1]; rfl) fun c s ⟨_, hnow, hn, hl, he⟩ => ?_
    rw [bodyRuleWrite_of_len hn hl, if_neg (by simp [hnow]), stageBody_eachEntry he]
  case delete =>
    refine fun op => replies_of (fun c s s' hk => by rw [hk.1]; rfl) fun c s ⟨_, hnow, hn, hg⟩ => ?_
    simp only [bodyRuleDelete, hnow, if_true, List.foldl_map, List.filter_map, List.length_map]
    rw [if_neg (by omega), if_neg (by omega)]
    rfl
  case deleteLater =>
    refine fun op => stages_of (fun c s s' hk => by rw [hk.1]; rfl) fun c s ⟨_, hnow, hn, hg⟩ => ?_
    simp only [bodyRuleDelete, hnow]
    rw [if_neg (by omega), if_neg (by omega)]
    rfl
  case read =>
    refine repliesAt_of (fun _ _ => rfl) fun c s hg => ?_
    simp only [bodyRuleRead]
    rw [if_neg (by omega)]
    cases mGet? s.rul.rules (c.id * 65536 + pf c.params 3 2) <;> rfl
  case count =>
    refine replies_of (fun _ _ _ _ => rfl) fun c s ⟨hg, h4⟩ => ?_
    simp only [bodyRuleCount]
    rw [if_neg (by omega), if_neg (by omega)]
    cases mGet? s.rul.rules (c.id * 65536 + pf c.params 3 2) <;> rfl

/-- Settles O27: a command of several entries whose entries all pass, the lookup, the flush and the two rings. -/
theorem flowCommandsComplete : Obligations.FlowCommandsComplete := by
  have hlen : ∀ c : Cmd, c.data ≠ [] → c.data.length % 64 = 0 → ¬ (c.data.length % 64 ≠ 0 ∨ c.data.isEmpty = true) := by
    intro c h1 h2
    simp [h1, h2]
  refine ⟨?insert, ?insertLater, ?delete, ?deleteLater, ?lookup, ?lookupAt, ?flush, ?aged, ?captured⟩
  case insert =>
    refine fun op => replies_of (fun c s s' hk => by rw [hk.1]; rfl) fun c s ⟨_, hnow, h1, h2, he⟩ => ?_
    simp only [bodyFlowInsert, hnow, if_true]
    rw [if_neg (hlen c h1 h2), nowBody_eachEntry he]
  case insertLater =>
    refine fun op => stages_of (fun c s s' hk => by rw [hk.1]; rfl) fun c s ⟨_, hnow, h1, h2, he⟩ => ?_
    simp only [bodyFlowInsert, hnow, Bool.false_eq_true, if_false]
    rw [if_neg (hlen c h1 h2), stageBody_eachEntry he]
  case delete =>
    refine fun op => replies_of (fun c s s' hk => by rw [hk.1]; rfl) fun c s ⟨_, hnow, h1, h2, he⟩ => ?_
    simp only [bodyFlowDelete, hnow, if_true]
    rw [if_neg (hlen c h1 h2), nowBody_eachEntry he]
  case deleteLater =>
    refine fun op => stages_of (fun c s s' hk => by rw [hk.1]; rfl) fun c s ⟨_, hnow, h1, h2, he⟩ => ?_
    simp only [bodyFlowDelete, hnow, Bool.false_eq_true, if_false]
    rw [if_neg (hlen c h1 h2), stageBody_eachEntry he]
  case lookup =>
    refine fun pos f => replies_of (fun _ _ _ _ => rfl) fun c s ⟨hl, hz, hf⟩ => ?_
    simp only [bodyFlowLookup, hf, hz, hl, ne_eq, not_true_eq_false, if_false, if_true]
  case lookupAt =>
    refine fun pos f => repliesAt_of (fun _ _ => rfl) fun c s ⟨hl, hz, hf⟩ => ?_
    simp only [bodyFlowLookup, hf, hl, ne_eq, not_true_eq_false, if_false]
    rw [if_neg hz]
  case flush =>
    refine waits_of (fun _ _ _ _ => rfl) fun c s hf => ?_
    simp only [bodyFlowFlush, hf, Option.isSome_none, Bool.false_eq_true, if_false]
  case aged =>
    refine fun n t => replies_of (fun _ _ _ _ => rfl) fun c s ⟨ha, hw⟩ => ?_
    simp only [bodyFlowAgedRead, ha]
    exact doneAt_of_ok hw
  case captured =>
    refine fun r b t => replies_of (fun _ _ _ _ => rfl) fun c s ⟨ha, hw⟩ => ?_
    simp only [bodyCaptureRead, ha]
    exact doneAt_of_ok hw

/-- Settles O28: the conditions of each row shut out the refusals of its own part. -/
theorem pipelineTableCommandsComplete : Obligations.PipelineTableCommandsComplete := by
  refine ⟨?source, ?domain, ?rewrite, ?tunnel, ?mirror, ?parser⟩
  case source =>
    refine stages_of (fun _ _ _ _ => rfl) fun c s ⟨h3, h4, h5, h7, h8⟩ => ?_
    simp only [bodySrcConfig, h3]
    rw [if_neg (by simp), if_neg (by omega), if_neg (by omega), if_neg (by omega)]
  case domain =>
    refine stages_of (fun _ _ _ _ => rfl) fun c s ⟨h3, h4, h12, h13, hl, hm⟩ => ?_
    simp only [bodyBdConfig, hm]
    rw [if_neg (by omega), if_neg (by omega), if_neg (by omega), if_neg (by omega), if_neg (by omega), if_neg (by simp)]
  case rewrite =>
    refine stages_of (fun _ _ _ _ => rfl) fun c s ⟨h3, hl, hr⟩ => ?_
    simp only [bodyRewriteSet]
    rw [if_neg (by omega), if_neg (by simp [hl, hr])]
  case tunnel =>
    refine stages_of (fun _ _ _ _ => rfl) fun c s ⟨h3, hl, hr⟩ => ?_
    simp only [bodyTunnelSet]
    rw [if_neg (by omega), if_neg (by simp [hl, hr])]
  case mirror =>
    refine stages_of (fun _ _ _ _ => rfl) fun c s ⟨h2, h3, h3', h5, hp, hcut, h10, h10'⟩ => ?_
    simp only [bodyMirrorSet]
    rw [if_neg (by omega), if_neg (by omega), if_neg (by omega), if_neg (by omega), if_neg (by omega)]
  case parser => exact stages_of (fun _ _ _ _ => rfl) fun _ _ _ => rfl

end Sys2Proof.Machine
end

section
/-!
SUPPORT. Family 0x08: what the own part of each row answers under the conditions of its statement.
-/

namespace Sys2Proof.Machine

/-- TM_SHAPER_SET of each kind of object, within its ranges and for objects that the caller has. -/
theorem bodyTmShaperSet_root {c : Cmd} {s : State} (hk : pf c.params 0 0 = 0) (hr : rootOk (pf c.params 3 2) = true)
    (hs : shaperRange c.params = none) : bodyTmShaperSet c s = .stage s [c.data] false 0 := by
  simp [bodyTmShaperSet, hk, hr, hs]

theorem bodyTmShaperSet_group {c : Cmd} {s : State} (hk : pf c.params 0 0 = 1) (hr : rootOk (pf c.params 3 2) = true)
    (h1 : 1 ≤ pf c.params 5 4) (h2 : pf c.params 5 4 ≤ 1023) (hg : groupHere s (pf c.params 3 2) (pf c.params 5 4) = true)
    (hs : shaperRange c.params = none) : bodyTmShaperSet c s = .stage s [c.data] false 0 := by
  simp only [bodyTmShaperSet, hk, hr, hs, hg]
  simp only [show ¬ (1023 < pf c.params 5 4 ∨ pf c.params 5 4 = 0) by omega, if_false]
  rfl

theorem bodyTmShaperSet_class {c : Cmd} {s : State} (hk : pf c.params 0 0 = 2) (hr : rootOk (pf c.params 3 2) = true)
    (ho : sourceOk (pf c.params 5 4) = true) (h6 : pf c.params 6 6 ≤ 7) (hown : nodeOwner c.id (pf c.params 5 4) = true)
    (hn : (nodeCheck s c.id (pf c.params 9 8) (.cls (pf c.params 3 2) (pf c.params 5 4) (pf c.params 6 6))).isNone = true)
    (hu : bit (pf c.params 1 1) 0 = true →
      (s.node c.id (pf c.params 9 8)).use = some (.cls (pf c.params 3 2) (pf c.params 5 4) (pf c.params 6 6)))
    (hs : shaperRange c.params = none) : bodyTmShaperSet c s = .stage s [c.data] false 0 := by
  simp only [bodyTmShaperSet, hk, hr, hs, ho, hown, Option.isNone_iff_eq_none.mp hn]
  simp only [show ¬ 7 < pf c.params 6 6 by omega, if_false]
  by_cases hb : bit (pf c.params 1 1) 0 = true
  · simp [hb, hu hb]
  · simp [hb]

theorem bodyTmShaperSet_limiter {c : Cmd} {s : State} (hk : pf c.params 0 0 = 3) (ho : pf c.params 5 4 < 4096)
    (hf : (s.insOf (pf c.params 5 4)).st ≠ .free) (h6 : pf c.params 6 6 ≤ 1) (h18 : pf c.params 18 18 = 0)
    (h19 : pf c.params 19 19 = 0) (hs : shaperRange c.params = none) : bodyTmShaperSet c s = .stage s [c.data] false 0 := by
  simp [bodyTmShaperSet, hk, hs, h18, h19, Nat.not_le.mpr ho, hf, Nat.not_lt.mpr h6]

/-- Settles O29: the conditions of each row shut out the refusals of its own part. -/
theorem trafficCommandsComplete : Obligations.TrafficCommandsComplete := by
  refine ⟨?shaper, ?group, ?owner, ?classes, ?admission, ?qlim, ?source, ?policer, ?policerRead, ?shaperRead⟩
  case shaper =>
    refine stages_of (fun _ _ _ _ => rfl) fun c s ⟨hs, h⟩ => ?_
    split at h
    next hk => exact bodyTmShaperSet_root hk h hs
    next hk => 
      obtain ⟨hr, h1, h2, hg⟩ := h
      exact bodyTmShaperSet_group hk hr h1 h2 hg hs
    next hk =>
      obtain ⟨hr, ho, h6, hown, hn, hu⟩ := h
      exact bodyTmShaperSet_class hk hr ho h6 hown hn hu hs
    next hk =>
      obtain ⟨ho, hf, h6, h18, h19⟩ := h
      exact bodyTmShaperSet_limiter hk ho hf h6 h18 h19 hs
    next => exact h.elim
  case group =>
    refine stages_of (fun _ _ _ _ => rfl) fun c s ⟨hr, h1, h2, h⟩ => ?_
    simp only [bodyTmGroupSet, hr]
    rw [if_neg (by simp), if_neg (by omega)]
    split at h
    next hb => rw [if_pos hb, if_pos h]
    next hb =>
      obtain ⟨h4, h5, h6, hm, hn⟩ := h
      rw [if_neg hb, if_neg (by omega), if_neg (by omega), if_neg (by simp [hm]), Option.isNone_iff_eq_none.mp hn]
  case owner =>
    refine stages_of (fun _ _ _ _ => rfl) fun c s ⟨hr, ho, h5, h7, hg⟩ => ?_
    simp only [bodyTmOwnerSet, hr, ho, hg]
    rw [if_neg (by simp), if_neg (by simp), if_neg (by omega), if_neg (by omega), if_neg (by simp)]
  case classes =>
    refine stages_of (fun _ _ _ _ => rfl) fun c s ⟨hr, hw⟩ => ?_
    have hnone : (List.range 8).find? (fun k => pf c.params (3 + k) (3 + k) == 0) = none := by
      simpa [List.find?_eq_none] using hw
    simp only [bodyTmClassSched, hr, hnone]
    rfl
  case admission =>
    refine stages_of (fun _ _ _ _ => rfl) fun c s ⟨h0, h1, h2, h3, h4⟩ => ?_
    have hnone : [2, 6, 10, 14].find? (fun b => decide (131072 < pf c.params (b + 3) b)) = none := by
      simp only [List.find?_eq_none, List.mem_cons, List.not_mem_nil, or_false, decide_eq_true_eq]
      rintro b (rfl | rfl | rfl | rfl) <;> simp only [Nat.reduceAdd] <;> omega
    simp only [bodyTmAdmitSet, hnone]
    rw [if_neg (by omega), if_pos ⟨h1, h2, h3⟩]
  case qlim =>
    refine stages_of (fun _ _ _ _ => rfl) fun c s ⟨hr, h7⟩ => ?_
    simp only [bodyTmQlimSet, hr]
    rw [if_neg (by simp), if_neg (by omega)]
  case source =>
    refine stages_of (fun _ _ _ _ => rfl) fun c s ⟨ho, h2, h3⟩ => ?_
    simp only [bodyTmSrcClass, ho]
    rw [if_neg (by simp), if_neg (by omega), if_neg (by omega)]
  case policer =>
    refine stages_of (fun _ _ _ _ => rfl) fun c s ⟨hc, hr⟩ => ?_
    simp only [bodyTmPolicerSet, Option.isNone_iff_eq_none.mp hc, hr]
  case policerRead =>
    refine repliesAt_of (fun _ _ => rfl) fun c s ⟨hc, h4⟩ => ?_
    simp only [bodyTmPolicerRead, Option.isNone_iff_eq_none.mp hc]
    rw [if_neg (by omega)]
  case shaperRead =>
    refine replies_of (fun _ _ _ _ => rfl) fun c s ⟨h10, h⟩ => ?_
    split at h
    next hk =>
      obtain ⟨hr, hm⟩ := h
      simp [bodyTmShaperRead, hk, hr, hm, Nat.not_lt.mpr h10]
    next hk =>
      obtain ⟨hr, hm, ho, hg⟩ := h
      simp [bodyTmShaperRead, hk, hr, hm, ho, hg, Nat.not_lt.mpr h10]
    next hk =>
      obtain ⟨hr, hm, hg, hret, hu⟩ := h
      have hown : (!isManager c.src && pf c.params 5 4 != ownOf c.src) = false := by
        rcases hm with hm | hm <;> simp [hm]
      rw [List.getD_eq_getElem?_getD] at hg
      simp [bodyTmShaperRead, hk, hr, hown, hret, hu, Nat.not_lt.mpr h10, Nat.not_le.mpr hg]
    next hk =>
      obtain ⟨hm, ho, hf, h6⟩ := h
      have hown : (!isManager c.src && pf c.params 5 4 != ownOf c.src) = false := by
        rcases hm with hm | hm <;> simp [hm]
      simp [bodyTmShaperRead, hk, hown, hf, Nat.not_lt.mpr h10, Nat.not_le.mpr ho, Nat.not_lt.mpr h6]
    next => exact h.elim

end Sys2Proof.Machine
end

section
/-!
SUPPORT. Family 0x09: what the own part of each row answers under the conditions of its statement.
-/

namespace Sys2Proof.Machine

/-- A row of either class whose own part, once its conditions hold, acts at once or stages as NOW says. -/
theorem actsOrStages_of {row : Cmd → Instr} {op : Cmd → Op} {body : Cmd → State → Body} {now : Bool} {ok : Cmd → State → Prop}
    {effect : Cmd → State → State} (hx : ∀ c s, exec (row c) s = runCmd (op c) c body s)
    (hb : ∀ c s, isNow c = now → ok c s → body c s = if now then .done (effect c s) 0 else .stage s [c.data] false 0) :
    ActsOrStages row op now ok effect := by
  intro o
  cases now with
  | true =>
    change Replies row o (fun c s => o = op c ∧ isNow c = true ∧ ok c s) effect fun _ _ => 0
    exact replies_of (fun c s s' hk => by rw [hk.1, hx]) fun c s ⟨_, hn, hk⟩ => hb c s hn hk
  | false =>
    change Stages row o (fun c s => o = op c ∧ isNow c = false ∧ ok c s)
    exact stages_of (fun c s s' hk => by rw [hk.1, hx]) fun c s ⟨_, hn, hk⟩ => hb c s hn hk

/-- The own part of a row of a context within its grant. -/
theorem withCtx_of_has {s : State} {c : Cmd} {k : Body} (h : HasCtx c s) : withCtx s c k = k := by
  rw [withCtx, if_neg (Nat.not_le.mpr h.1), if_neg (by simp [h.2])]

theorem bodyKekLoad_ok {c : Cmd} {s : State} {key : List Byte} {under : Option Nat} (h1 : 1 ≤ pf c.params 5 4)
    (h2 : pf c.params 5 4 ≤ 4095) (ho : pf c.params 7 6 ≤ 4095) (hf : (s.insOf (pf c.params 7 6)).st ≠ .free)
    (hw : pf c.params 8 8 ≤ 1) (hl : c.data.length = (if pf c.params 8 8 = 0 then 32 else 60))
    (he : mGet? s.cip.slots (pf c.params 5 4) = none)
    (hk : if pf c.params 8 8 = 0 then key = c.data ∧ under = none
       else slotOk s (pf c.params 7 6) (pf c.params 11 10) = true ∧ under = some (pf c.params 11 10) ∧
         unwrapKey s (pf c.params 11 10) (leBytes 2 (pf c.params 5 4) ++ leBytes 2 (pf c.params 7 6)) c.data = some key) :
    bodyKekLoad c s = .done { s with cip := { s.cip with
      slots := mPut s.cip.slots (pf c.params 5 4) { owner := pf c.params 7 6, key := key, under := under } } } 0 := by
  have hfree : ((s.insOf (pf c.params 7 6)).st == InsState.free) = false := by simpa using hf
  simp only [bodyKekLoad, he, hfree]
  rw [if_neg (by omega), if_neg (by simp; omega), if_neg (by omega), if_neg (not_not_intro hl), if_neg (by simp)]
  rcases Nat.le_one_iff_eq_zero_or_eq_one.mp hw with hz | hz
  · rw [if_pos hz] at hk
    obtain ⟨rfl, rfl⟩ := hk
    simp [hz]
  · rw [if_neg (by omega)] at hk
    obtain ⟨hs, rfl, hu⟩ := hk
    simp [hz, hs, hu]

theorem bodyCtxSet_ok {c : Cmd} {s : State} (hc : HasCtx c s) (h1 : 1 ≤ pf c.params 4 4) (h2 : pf c.params 4 4 ≤ 7)
    (ha : algOk (pf c.params 4 4) (pf c.params 5 5) = true) (h7 : pf c.params 4 4 = 4 → 31 ≤ pf c.params 7 7)
    (h10 : pf c.params 10 10 ≤ 1) (hs : slotOk s c.id (pf c.params 9 8) = true)
    (hl : c.data.length = 24 + keysLen (pf c.params 10 10))
    (hk : (takeKeys s c.id (ctxIdx c) (pf c.params 9 8) (pf c.params 10 10 == 1) (pf c.params 4 4 == 7) (c.data.drop 24)).isSome = true)
    (hb : isNow c = true → (s.ctx (ctxOf c)).binding = none) :
    bodyCtxSet c s = if isNow c then .done (bodyCtxSet.put c.id c.params c.data s) 0 else .stage s [c.data] false 0 := by
  simp only [bodyCtxSet, withCtx_of_has hc, ha, hs, Option.isNone_eq_false_iff.mpr hk]
  rw [if_neg (by omega), if_neg (by simp), if_neg (by omega), if_neg (by omega), if_neg (by simp), if_neg (by omega), if_neg (by simp)]
  split
  next hn => rw [if_neg (by simp [hb hn])]
  next => rfl

/-- CTX_KEY of a context whose keys can be taken, up to what its kind decides. -/
theorem bodyCtxKey_of_keys {c : Cmd} {s : State} {k : List Byte × List Byte} (hc : HasCtx c s) (h16 : pf c.params 16 16 ≤ 1)
    (hst : (s.ctx (ctxOf c)).st ≠ .unset)
    (hkind : (s.ctx (ctxOf c)).kind = 3 ∨ (s.ctx (ctxOf c)).kind = 5 ∨ (s.ctx (ctxOf c)).kind = 6 ∨ (s.ctx (ctxOf c)).kind = 7)
    (hl : c.data.length = 12 + keysLen (pf c.params 16 16))
    (hk : takeKeys s c.id (ctxIdx c) (s.ctx (ctxOf c)).slot (pf c.params 16 16 == 1) ((s.ctx (ctxOf c)).kind == 7)
      (c.data.drop 12) = some k) :
    bodyCtxKey c s =
      if (s.ctx (ctxOf c)).kind = 6 then
        if pf c.params 11 4 < (s.ctx (ctxOf c)).nextSeq then .fail { status := St.late }
        else .done (s.setCtx (ctxOf c) { s.ctx (ctxOf c) with
          nextKey := some (c.data.take 12, k.1.take (keyLen (s.ctx (ctxOf c)).alg)), firstRec := pf c.params 11 4 }) 0
      else if (s.ctx (ctxOf c)).kind = 7 && oldKeyKept s c.id (ctxIdx c) then .fail { status := St.busy }
      else .stage s [c.data] false 0 := by
  have hgo : ((s.ctx (ctxOf c)).st == CtxState.unset || !((s.ctx (ctxOf c)).kind == 3 || (s.ctx (ctxOf c)).kind == 5 ||
      (s.ctx (ctxOf c)).kind == 6 || (s.ctx (ctxOf c)).kind == 7)) = false := by
    simpa [hst, Decidable.or_iff_not_imp_left] using hkind
  simp only [bodyCtxKey, withCtx_of_has hc, hgo, hk]
  rw [if_neg (by omega), if_neg (by simp), if_neg (by omega)]

/-- CTX_BIND of a context of a kind that may be bound, by a caller that may bind it. -/
theorem bodyCtxBind_of_kind {c : Cmd} {s : State} (hc : HasCtx c s)
    (hm : isManager c.src = true ∨ (s.ctx (ctxOf c)).kind = 4 ∨ (s.ctx (ctxOf c)).kind = 6)
    (hk : (s.ctx (ctxOf c)).kind ∈ [1, 2, 4, 6]) :
    bodyCtxBind c s =
      let x := s.ctx (ctxOf c)
      let go (b : Option Binding) : Body :=
        if isNow c then .done (s.setCtx (ctxOf c) { x with binding := b }) 0 else .stage s [c.data] false 0
      if bit (pf c.params 0 0) 1 then (if x.binding.isNone then .missing else go none)
      else (bindingOf x.kind c.data).elim (.bad CipCause.kind) fun b =>
        if x.binding.isSome || keyTaken s b then .fail { status := St.exists_ }
        else if scFull s b then .full 0
        else go (some b) := by
  have hmay : (!isManager c.src && (s.ctx (ctxOf c)).kind != 4 && (s.ctx (ctxOf c)).kind != 6) = false := by
    rcases hm with h | h | h <;> simp [h]
  have hkind : (!((s.ctx (ctxOf c)).kind == 1 || (s.ctx (ctxOf c)).kind == 2 || (s.ctx (ctxOf c)).kind == 4 ||
      (s.ctx (ctxOf c)).kind == 6)) = false := by
    simpa [Decidable.or_iff_not_imp_left] using hk
  simp only [bodyCtxBind, withCtx_of_has hc, hmay, hkind, Bool.false_eq_true, if_false]
  cases bindingOf (s.ctx (ctxOf c)).kind c.data <;> rfl

/-- Settles O33: the conditions of each row shut out the refusals of its own part. -/
theorem cipherKeyCommandsComplete : Obligations.CipherKeyCommandsComplete := by
  refine ⟨?load, ?erase, ?set, ?keyNow, ?keyLater, ?bind, ?unbind⟩
  case load =>
    exact fun key under => replies_of (fun _ _ _ _ => rfl) fun c s ⟨h1, h2, ho, hf, hw, hl, he, hk⟩ =>
      bodyKekLoad_ok h1 h2 ho hf hw hl he hk
  case erase =>
    refine replies_of (fun _ _ _ _ => rfl) fun c s ⟨h5, hs, hu⟩ => ?_
    simp only [bodyKekErase, hu, Option.isNone_eq_false_iff.mpr hs]
    rw [if_neg h5]
    rfl
  case set =>
    refine fun now => actsOrStages_of (fun _ _ => rfl) fun c s hn ⟨hc, h1, h2, ha, h7, h10, hs, hl, hk, hb⟩ => ?_
    rw [bodyCtxSet_ok hc h1 h2 ha h7 h10 hs hl hk fun h => hb (hn ▸ h), hn]
  case keyNow =>
    intro c s target late k1 k2 op t x ha hl hc h16 hst hkind hlen hk hseq
    refine exec_done rfl rfl ha hl ?_
    rw [bodyCtxKey_of_keys (k := (k1, k2)) hc h16 hst (.inr (.inr (.inl hkind))) hlen (hkind ▸ hk), if_pos hkind,
      if_neg (Nat.not_lt.mpr hseq)]
  case keyLater =>
    intro c s target late st op t x ha hl hc h16 hst hkind hlen hk hs
    obtain ⟨k, hk⟩ := Option.isSome_iff_exists.mp hk
    refine exec_staged rfl rfl ha hl hs ?_
    have hkind' : x.kind = 3 ∨ x.kind = 5 ∨ x.kind = 6 ∨ x.kind = 7 := by
      rcases hkind with h | h | ⟨h, _⟩ <;> simp [h]
    rw [bodyCtxKey_of_keys hc h16 hst hkind' hlen hk]
    rcases hkind with h | h | ⟨h, hold⟩
    · simp [show (t.ctx (ctxOf c)).kind = 3 from h]
    · simp [show (t.ctx (ctxOf c)).kind = 5 from h]
    · simp [show (t.ctx (ctxOf c)).kind = 7 from h, hold]
  case bind =>
    refine fun now b => actsOrStages_of (fun _ _ => rfl) fun c s hn ⟨hadd, hc, hm, hk, hb, hnone, hkey, hsc⟩ => ?_
    simp [bodyCtxBind_of_kind hc hm hk, hadd, hb, hnone, hkey, hsc, hn]
  case unbind =>
    refine fun now => actsOrStages_of (fun _ _ => rfl) fun c s hn ⟨hrem, hc, hm, hk, hbound⟩ => ?_
    simp [bodyCtxBind_of_kind hc hm hk, hrem, hbound, hn]

/-- CTX_SAVE in clear. -/
theorem bodyCtxSave_clear {c : Cmd} {s : State} (hc : HasCtx c s) (h4 : pf c.params 4 4 = 1) (hx : (s.insOf c.id).clearExp = true)
    (h1 : (s.ctx (ctxOf c)).st ≠ .unset) (h2 : (s.ctx (ctxOf c)).st ≠ .fault) :
    bodyCtxSave c s = doneAt
      { s with cip := { s.cip with
          counts := mPut s.cip.counts c.id (((countsOf s c.id).1 + 1) % 2 ^ 48, (countsOf s c.id).2) } } c (pf c.params 15 8)
      ([0x50, 0x4B, 0x43, 0x49, 1] ++ leBytes 1 0 ++ leBytes 2 0 ++ leBytes 2 c.id ++ leBytes 4 (ctxIdx c) ++
        leBytes 6 (((countsOf s c.id).1 + 1) % 2 ^ 48) ++ leBytes 12 0 ++ (s.ctx (ctxOf c)).image ++ leBytes 16 0 ++ leBytes 16 0)
      (((countsOf s c.id).1 + 1) % 2 ^ 48) := by
  have hgo : ((s.ctx (ctxOf c)).st == CtxState.unset || (s.ctx (ctxOf c)).st == CtxState.fault) = false := by simp [h1, h2]
  simp only [bodyCtxSave, withCtx_of_has hc, h4, hx, hgo]
  rfl

/-- CTX_SAVE under a slot of the key store. -/
theorem bodyCtxSave_wrapped {c : Cmd} {s : State} (hc : HasCtx c s) (h4 : pf c.params 4 4 = 0)
    (hs : slotOk s c.id (pf c.params 7 6) = true) (h1 : (s.ctx (ctxOf c)).st ≠ .unset) (h2 : (s.ctx (ctxOf c)).st ≠ .fault)
    {head : List Byte}
    (hh : head = [0x50, 0x4B, 0x43, 0x49, 1] ++ leBytes 1 1 ++ leBytes 2 (pf c.params 7 6) ++ leBytes 2 c.id ++
      leBytes 4 (ctxIdx c) ++ leBytes 6 (((countsOf s c.id).1 + 1) % 2 ^ 48) ++ leBytes 12 s.draw.1) :
    bodyCtxSave c s = doneAt
      { s.draw.2 with cip := { s.cip with
          counts := mPut s.cip.counts c.id (((countsOf s c.id).1 + 1) % 2 ^ 48, (countsOf s c.id).2) } } c (pf c.params 15 8)
      (head ++
        (gcmSeal (((mGet? s.cip.slots (pf c.params 7 6)).map (·.key)).getD []) (leBytes 12 s.draw.1) head (s.ctx (ctxOf c)).image).1 ++
        (gcmSeal (((mGet? s.cip.slots (pf c.params 7 6)).map (·.key)).getD []) (leBytes 12 s.draw.1) head (s.ctx (ctxOf c)).image).2 ++
        leBytes 16 0)
      (((countsOf s c.id).1 + 1) % 2 ^ 48) := by
  have hgo : ((s.ctx (ctxOf c)).st == CtxState.unset || (s.ctx (ctxOf c)).st == CtxState.fault) = false := by simp [h1, h2]
  subst hh
  simp only [bodyCtxSave, withCtx_of_has hc, h4, hs, hgo]
  rfl

/-- CTX_RESTORE of an image whose checks pass. -/
theorem bodyCtxRestore_ok {c : Cmd} {s : State} {b : List Byte} {x : Ctx} (hc : HasCtx c s) (hl : c.data.length = 320)
    (hb : (s.ctx (ctxOf c)).binding = none) (hmagic : dn c.data 3 0 = 0x49434B50) (hver : byteAt c.data 4 = 1)
    (hform : byteAt c.data 5 ≤ 1) (ho : dn c.data 9 8 < 4096) (hz : allZero (c.data.drop 304) = true)
    (hopen : if byteAt c.data 5 = 0 then
        dn c.data 7 6 = 0 ∧ dn c.data 31 20 = 0 ∧ dn c.data 303 288 = 0 ∧ (s.insOf c.id).clearExp = true ∧
          b = (c.data.drop 32).take 256
      else slotOk s c.id (dn c.data 7 6) = true ∧
        gcmOpen (((mGet? s.cip.slots (dn c.data 7 6)).map (·.key)).getD []) ((c.data.drop 20).take 12) (c.data.take 32)
          ((c.data.drop 32).take 256) ((c.data.drop 288).take 16) = some b)
    (howner : dn c.data 9 8 = c.id ∨ (isManager c.src = true ∧ pf c.params 4 4 = 1))
    (hfloor : (countsOf s (dn c.data 9 8)).2 ≤ dn c.data 19 14) (hx : ctxOfImage b (dn c.data 7 6) s.draw.1 = some x) :
    bodyCtxRestore c s = .done (placeCtx { s.draw.2 with cip := { s.cip with
      counts := mPut s.cip.counts (dn c.data 9 8)
        (max (countsOf s (dn c.data 9 8)).1 (dn c.data 19 14), (dn c.data 19 14 + 1) % 2 ^ 48) } } (ctxOf c) x)
      (dn c.data 19 14) := by
  have hmine : (decide (dn c.data 9 8 ≠ c.id) && !(isManager c.src && pf c.params 4 4 == 1)) = false := by
    rcases howner with h | ⟨h1, h2⟩
    · simp [h]
    · simp [h1, h2]
  simp only [bodyCtxRestore, withCtx_of_has hc, hl, hb, hz]
  rcases Nat.le_one_iff_eq_zero_or_eq_one.mp hform with hf | hf
  · rw [if_pos hf] at hopen
    obtain ⟨h7, h31, h303, hexp, rfl⟩ := hopen
    rw [if_neg (by simp), if_neg (by simp), if_neg (by simp [hmagic, hver, hf, h7, h31, h303]; omega), if_neg (by simp [hexp]),
      if_neg (by simp [hf]), if_pos hf]
    simp only [hmine, hx, Nat.not_lt.mpr hfloor, Bool.false_eq_true, if_false]
    rfl
  · rw [if_neg (by omega)] at hopen
    obtain ⟨hs, hopen⟩ := hopen
    rw [if_neg (by simp), if_neg (by simp), if_neg (by simp [hmagic, hver, hf]; omega), if_neg (by simp [hf]),
      if_neg (by simp [hs]), if_neg (by omega), hopen]
    simp only [hmine, hx, Nat.not_lt.mpr hfloor, Bool.false_eq_true, if_false]
    rfl

/-- Settles O34: the conditions of each row shut out the refusals of its own part. -/
theorem cipherContextCommandsComplete : Obligations.CipherContextCommandsComplete := by
  refine ⟨?query, ?saveClear, ?saveWrapped, ?restore, ?clear, ?resync, ?replay, ?secy⟩
  case query =>
    refine replies_of (fun _ _ _ _ => rfl) fun c s ⟨hg, h4⟩ => ?_
    simp only [bodyCtxQuery]
    rw [if_neg (by omega), if_neg (by omega)]
  case saveClear =>
    refine fun n s2 d => replies_of (fun _ _ _ _ => rfl) fun c s ⟨hc, h4, hx, h1, h2, hn, hs2, hd, hw⟩ => ?_
    subst hn hs2 hd
    rw [bodyCtxSave_clear hc h4 hx h1 h2, doneAt_of_ok hw]
  case saveWrapped =>
    refine fun n s2 head d => replies_of (fun _ _ _ _ => rfl) fun c s ⟨hc, h4, hs, h1, h2, hn, hs2, hh, hd, hw⟩ => ?_
    subst hn hs2 hd
    rw [bodyCtxSave_wrapped hc h4 hs h1 h2 hh, doneAt_of_ok hw]
  case restore =>
    exact fun b x => replies_of (fun _ _ _ _ => rfl)
      fun c s ⟨hc, hl, hb, hmagic, hver, hform, ho, hz, hopen, howner, hfloor, hx⟩ =>
        bodyCtxRestore_ok hc hl hb hmagic hver hform ho hz hopen howner hfloor hx
  case clear =>
    refine replies_of (fun _ _ _ _ => rfl) fun c s ⟨hc, hb⟩ => ?_
    simp only [bodyCtxClear, withCtx_of_has hc, hb, Option.isSome_none, Bool.false_eq_true, if_false]
  case resync =>
    refine replies_of (fun _ _ _ _ => rfl) fun c s ⟨hc, hst⟩ => ?_
    simp only [bodyTlsResync, withCtx_of_has hc, hst]
    rfl
  case replay => exact replies_of (fun _ _ _ _ => rfl) fun _ _ _ => rfl
  case secy =>
    refine stages_of (fun _ _ _ _ => rfl) fun c s ⟨h1, h3, h3', h4, h5, h6⟩ => ?_
    simp only [List.mem_cons, List.not_mem_nil, or_false] at h5
    simp only [bodySecySet]
    rw [if_neg (by omega), if_neg (by omega), if_neg (by omega), if_neg (by omega), if_neg (by omega)]

end Sys2Proof.Machine
end

section
/-!
SUPPORT. Families 0x0A, 0x0C and 0x0D: what the own part of each row answers under the conditions of its statement.
-/

namespace Sys2Proof.Machine

theorem bodyStoConnSet_ok {c : Cmd} {s : State} (hg : pf c.params 3 2 < (s.insOf c.id).grants.getD 0 0)
    (hr : retiring s c.id 0 (pf c.params 3 2) = false) (h5 : pf c.params 5 5 ≤ 31) (h6 : 4 ≤ pf c.params 6 6)
    (h6' : pf c.params 6 6 ≤ 10) (hl : c.data.length = 37) (hv : byteAt c.data 0 = 4 ∨ byteAt c.data 0 = 6)
    (hi : isNow c = true → connIdle s c = true) (ht : connTaken s (connOf c) (connBinding c.data) = false)
    (hs : slotsBut s (connOf c) + 2 ^ pf c.params 6 6 ≤ 2097152) :
    bodyStoConnSet c s = if isNow c then .done (setConnAs s (connOf c) c.params c.data) 0 else .stage s [c.data] false 0 := by
  simp only [bodyStoConnSet, hr, ht]
  rw [if_neg (Nat.not_le.mpr hg), if_neg (by simp), if_neg (by omega), if_neg (by omega), if_neg (by omega), if_neg (by omega),
    if_neg (by simpa using hi), if_neg (by simp), if_neg (by omega)]

/-- Settles O35: the conditions of each row shut out the refusals of its own part. -/
theorem connectionCommandsComplete : Obligations.ConnectionCommandsComplete := by
  refine ⟨?set, ?clear, ?query, ?resync⟩
  case set =>
    refine fun now => actsOrStages_of (fun _ _ => rfl) fun c s hn ⟨hg, hr, h5, h6, h6', hl, hv, hi, ht, hs⟩ => ?_
    rw [bodyStoConnSet_ok hg hr h5 h6 h6' hl hv (fun h => hi (hn ▸ h)) ht hs, hn]
  case clear =>
    refine fun now => actsOrStages_of (fun _ _ => rfl) fun c s hn ⟨hc, hi⟩ => ?_
    have hidle : (now && !connIdle s c) = false := by simpa using hi
    simp only [bodyStoConnClear, hn, hidle, Option.isNone_eq_false_iff.mpr hc]
    rfl
  case query =>
    refine fun x v => replies_of (fun _ _ _ _ => rfl) fun c s ⟨h4, hx, hv⟩ => ?_
    simp only [bodyStoConnQuery, hx, ← hv]
    rw [if_neg (by omega)]
    by_cases h : v.getD 1 0 < 256
    · simp only [if_pos h]
    · simp only [if_neg h]
  case resync =>
    refine fun x => replies_of (fun _ _ _ _ => rfl) fun c s ⟨hx, hst⟩ => ?_
    simp only [bodyStoResync, hx, hst]
    rfl

/-- STO_NS_SET of an entry whose fields are within their ranges and whose key is free. -/
theorem bodyStoNsSet_put {c : Cmd} {s : State} (hadd : bit (pf c.params 0 0) 1 = false) (hq : pf c.params 3 2 < nsQuota s c.id)
    (hb : pf c.params 10 10 = 9 ∨ pf c.params 10 10 = 12) (hp : (nsOf c.params).pi ≤ 2)
    (ht : (nsOf c.params).pi = 0 ∨ (1 ≤ (nsOf c.params).piType ∧ (nsOf c.params).piType ≤ 3))
    (htx : (nsOf c.params).txAct ≤ 2) (hrx : (nsOf c.params).rxAct ≤ 1) (hx : xtsOk s c.id (nsOf c.params).xts = true)
    (hr : ∀ k, (nsOf c.params).xts = some k → retiring s c.id 3 k = false)
    (hk : nsTaken s c.id (pf c.params 3 2) (nsOf c.params) = false) :
    bodyStoNsSet c s =
      if isNow c then .done (setNs s c.id (pf c.params 3 2) (some (nsOf c.params))) 0 else .stage s [c.data] false 0 := by
  simp only [bodyStoNsSet, hadd, hx, hk]
  rw [if_neg (by omega), if_neg (by simp), if_neg (by omega), if_neg (by omega), if_neg (by omega), if_neg (by omega),
    if_neg (by omega), if_neg (by simp)]
  cases hxts : (nsOf c.params).xts with
  | none => rfl
  | some k => simp [hr k hxts]

/-- Settles O36: the conditions of each row shut out the refusals of its own part. -/
theorem namespaceCommandsComplete : Obligations.NamespaceCommandsComplete := by
  refine ⟨?set, ?remove, ?quota, ?query⟩
  case set =>
    refine fun now => actsOrStages_of (fun _ _ => rfl) fun c s hn ⟨hadd, hq, hb, hp, ht, htx, hrx, hx, hr, hk⟩ => ?_
    rw [bodyStoNsSet_put hadd hq hb hp ht htx hrx hx hr hk, hn]
  case remove =>
    refine fun now => actsOrStages_of (fun _ _ => rfl) fun c s hn ⟨hrem, hq, hs⟩ => ?_
    simp only [bodyStoNsSet, hrem, Option.isNone_eq_false_iff.mpr hs, hn]
    rw [if_neg (by omega)]
    rfl
  case quota => exact stages_of (fun _ _ _ _ => rfl) fun c s h => if_neg (by omega)
  case query => exact fun n => replies_of (fun _ _ _ _ => rfl) fun c s h => by simp only [bodyStoNsQuery, h]

/-- Settles O39: the conditions of each row shut out the refusals of its own part. -/
theorem triadCommandsComplete : Obligations.TriadCommandsComplete := by
  refine ⟨?set, ?query, ?handover, ?rearm, ?isoClear, ?force⟩
  case set =>
    refine stages_of (fun _ _ _ _ => rfl) fun c s ⟨h0, hc, h⟩ => ?_
    simp only [bodyTriSet, hc]
    rw [if_neg (by omega), if_neg (by simp)]
    rcases h with hb | ⟨hl, h1, hfree, hm, h6, h7⟩
    · rw [if_pos hb]
    · have hid : (s.tri.slots.any fun x => x.1 != pf c.params 0 0 && x.2.cfg.triad == pf c.params 1 1) = false := by
        simpa [List.any_eq_false] using fun a b hx => hfree (a, b) hx
      split
      · rfl
      · rw [if_neg (by omega), if_neg (by simp [h1, hid]), if_neg (by simp [hm]), if_neg (by omega), if_neg (by omega)]
  case query =>
    refine fun x => replies_of (fun _ _ _ _ => rfl) fun c s ⟨h0, hx⟩ => ?_
    simp only [bodyTriQuery, hx, decide_eq_true_eq]
    rw [if_neg (by omega)]
  case handover =>
    refine fun x => stages_of (fun _ _ _ _ => rfl) fun c s ⟨h0, h1, hx, hst⟩ => ?_
    simp only [bodyTriHandover, hx]
    rw [if_neg (by omega), if_neg (by omega), if_pos hst]
  case rearm => exact replies_of (fun _ _ _ _ => rfl) fun _ _ _ => rfl
  case isoClear =>
    refine replies_of (fun _ _ _ _ => rfl) fun c s ⟨ha, hb⟩ => ?_
    simp only [bodyTriIsoClear, ha, hb]
    rfl
  case force =>
    refine fun x => replies_of (fun _ _ _ _ => rfl) fun c s ⟨h0, hx, hf⟩ => ?_
    simp only [bodyTriForce, hx, hf]
    rw [if_neg (by omega)]
    rfl

/-- Every range that is checked holds its value. -/
theorem firstOut_none {l : List (Nat × Nat × Nat × Nat)} (h : ∀ x ∈ l, x.2.1 ≤ x.2.2.1 ∧ x.2.2.1 ≤ x.2.2.2) : firstOut l = none := by
  simp only [firstOut, Option.map_eq_none_iff, List.find?_eq_none]
  intro x hx
  obtain ⟨h1, h2⟩ := h x hx
  simp [Nat.not_lt.mpr h1, Nat.not_lt.mpr h2]

/-- Members of a list of ranges that is checked only where its bit is set. -/
theorem mem_of_selected {α : Type} {b : Bool} {l : List α} {x : α} (h : x ∈ if b then l else []) : b = true ∧ x ∈ l := by
  cases b
  · simp at h
  · exact ⟨rfl, h⟩

/-- Settles O40: the values of the selected fields lie in their ranges and keep their order. -/
theorem powerCommandsComplete : Obligations.PowerCommandsComplete := by
  refine ⟨?power, ?thermal, ?powerQuery, ?thermalQuery, ?inject, ?latch⟩
  case power =>
    refine stages_of (fun _ _ _ _ => rfl) fun c s ⟨h1, h2, h3⟩ => ?_
    have hin : firstOut (pwrRanges c.params) = none := by
      refine firstOut_none fun x hx => ?_
      simp only [pwrRanges, List.mem_append] at hx
      rcases hx with (hx | hx) | hx <;> obtain ⟨hb, hx⟩ := mem_of_selected hx <;>
        simp only [List.mem_cons, List.not_mem_nil, or_false] at hx
      · obtain ⟨h2l, h2h, h3h⟩ := h1 hb
        rcases hx with rfl | rfl <;> constructor <;> dsimp only <;> omega
      · obtain ⟨h5l, h5h, h7l, h7h⟩ := h2 hb
        rcases hx with rfl | rfl <;> constructor <;> dsimp only <;> omega
      · obtain ⟨h9l, h9h, h10h, h11l, h11h, h14l, h14h, ho⟩ := h3 hb
        rcases hx with rfl | rfl | rfl | rfl <;> constructor <;> dsimp only <;> omega
    simp only [bodyPwrSet, hin]
    refine if_neg ?_
    rintro ⟨hb, hlt⟩
    obtain ⟨_, _, _, _, _, _, _, ho⟩ := h3 hb
    omega
  case thermal =>
    refine stages_of (fun _ _ _ _ => rfl) fun c s ⟨h0, h1⟩ => ?_
    simp only [bodyThmSet]
    rw [firstOut_none]
    · refine if_neg ?_
      rintro ⟨hb, hlt⟩
      obtain ⟨_, _, _, _, ho⟩ := h0 hb
      omega
    · intro x hx
      rcases List.mem_append.mp hx with hx | hx <;> obtain ⟨hb, hx⟩ := mem_of_selected hx <;>
        simp only [List.mem_cons, List.not_mem_nil, or_false] at hx
      · obtain ⟨h1l, h1h, h2l, h2h, _⟩ := h0 hb
        rcases hx with rfl | rfl <;> constructor <;> dsimp only <;> omega
      · obtain ⟨h3l, h3h⟩ := h1 hb
        subst hx
        constructor <;> dsimp only <;> omega
  case powerQuery => exact replies_of (fun _ _ _ _ => rfl) fun _ _ _ => rfl
  case thermalQuery => exact replies_of (fun _ _ _ _ => rfl) fun _ _ _ => rfl
  case inject =>
    refine replies_of (fun _ _ _ _ => rfl) fun c s ⟨h0, h0', h4, h4'⟩ => ?_
    simp only [bodyPwrInject]
    rw [if_neg (by omega), if_neg (by omega)]
  case latch => exact replies_of (fun _ _ _ _ => rfl) fun _ _ _ => rfl

end Sys2Proof.Machine
end

section
/-!
SUPPORT. Family 0x0E: what the own part of each row answers under the conditions of its statement.
-/

namespace Sys2Proof.Machine

theorem pf_lt (p : Params) (hi lo : Nat) : pf p hi lo < 2 ^ (8 * (hi - lo + 1)) := Nat.mod_lt _ (Nat.two_pow_pos _)

/-- The first four parameter bytes fit a word. -/
theorem ofNat_pf_toNat (p : Params) : (BitVec.ofNat 32 (pf p 3 0)).toNat = pf p 3 0 := by
  rw [BitVec.toNat_ofNat]
  exact Nat.mod_eq_of_lt (pf_lt p 3 0)

/-- Settles O44: the conditions of each row shut out the refusals of its own part. -/
theorem flashCommandsComplete : Obligations.FlashCommandsComplete := by
  refine ⟨?info, ?write, ?read, ?prov, ?begin_, ?fwWrite, ?fwEnd, ?activate, ?confirm, ?abort, ?commit⟩
  case info => exact replies_of (fun _ _ _ _ => rfl) fun _ _ _ => rfl
  case write =>
    refine waits_of (fun _ _ _ _ => rfl) fun c s ⟨h0, hk, hl, hm⟩ => ?_
    simp only [bodyNvmCfgWrite]
    rw [if_neg (by omega), if_neg (by omega), if_neg hm]
  case read => exact fun v => repliesAt_of (fun _ _ => rfl) fun c s h => by simp only [bodyNvmCfgRead, h]
  case prov =>
    refine waits_of (fun _ _ _ _ => rfl) fun c s ⟨hl, hp, hm, hr⟩ => ?_
    simp only [bodyNvmProvWrite, hp]
    rw [if_neg (by omega), if_neg (by simp), if_neg (by omega)]
  case begin_ =>
    refine waits_of (fun _ _ _ _ => rfl) fun c s ⟨hm, hl⟩ => ?_
    simp only [bodyFwBegin, hl]
    rw [if_neg hm, if_neg (by simp)]
  case fwWrite =>
    refine fun x => waits_of (fun _ _ _ _ => rfl) fun c s ⟨hm, hx, ho, h1, h2, h3, h4, h5, h6⟩ => ?_
    simp only [bodyFwWrite, hx]
    rw [if_neg hm, if_neg (not_not_intro ho), if_neg (by omega), if_neg (by omega)]
  case fwEnd =>
    refine fun x => replies_of (fun _ _ _ _ => rfl) fun c s ⟨hm, hx, ho, hc⟩ => ?_
    simp only [bodyFwEnd, hx, hc]
    rw [if_neg hm, if_neg (not_not_intro ho)]
  case activate =>
    refine waits_of (fun _ _ _ _ => rfl) fun c s ⟨hm, hl, hk⟩ => ?_
    simp only [bodyFwActivate, hl]
    rw [if_neg hm, if_neg (by simp), if_neg (not_not_intro hk)]
    rfl
  case confirm =>
    refine waits_of (fun _ _ _ _ => rfl) fun c s ⟨hm, hs, ht⟩ => ?_
    simp only [bodyFwConfirm, hs, ht]
    rw [if_neg hm, if_neg (by simp), if_neg (by simp)]
    rfl
  case abort =>
    refine fun x => replies_of (fun _ _ _ _ => rfl) fun c s ⟨hm, hx, ho⟩ => ?_
    simp only [bodyFwAbort, hx]
    rw [if_neg hm, if_neg (not_not_intro ho)]
  case commit =>
    refine fun r => replies_of (fun _ _ _ _ => rfl) fun c s ⟨hs, hr, ha, ht, hother⟩ => ?_
    simp only [bodySvnCommit, hs, hr]
    rw [if_neg (by simp), if_neg (by simp [ha, ht]), if_neg]
    rintro ⟨h0, hn, hlt⟩
    rcases hother with h | h | h
    · omega
    · exact h (Option.isNone_iff_eq_none.mp hn)
    · omega

/-- LOG_READ of 1 to 4,096 entries, where the copy to host memory does not fault. -/
theorem bodyLogRead_ok {c : Cmd} {s : State} {l : List LogEntry} {r : Nat}
    (hl : l = logFrom s (BitVec.ofNat 32 (pf c.params 3 0)) (pf c.params 5 4))
    (hr : r = (l.head?.elim (pf c.params 3 0) (·.seq.toNat)) + l.length * 2 ^ 32 + s.log.seqNext.toNat * 2 ^ 48)
    (h1 : 1 ≤ pf c.params 5 4) (h2 : pf c.params 5 4 ≤ 4096)
    (hw : (hostWrite s (cmdFunc s c) none (pf c.params 15 8) (l.flatMap LogEntry.bytes)).2 = true) :
    bodyLogRead c s =
      let t := (hostWrite s (cmdFunc s c) none (pf c.params 15 8) (l.flatMap LogEntry.bytes)).1
      if s.log.fallback then .other t { status := St.degraded, result := r } else .done t r := by
  simp only [bodyLogRead, ← hl, ofNat_pf_toNat]
  rw [if_neg (by omega), doneAt_of_ok hw, hr]
  cases l <;> rfl

/-- Settles O45: the conditions of each row shut out the refusals of its own part. -/
theorem logAndIdentityCommandsComplete : Obligations.LogAndIdentityCommandsComplete := by
  refine ⟨?read, ?degraded, ?flush, ?clear, ?mark, ?cert, ?attest⟩
  case read =>
    refine replies_of (fun _ _ _ _ => rfl) fun c s ⟨⟨h1, h2, hf⟩, hw⟩ => ?_
    refine (bodyLogRead_ok rfl ?_ h1 h2 hw).trans (if_neg (by simp [hf]))
    cases logFrom s (BitVec.ofNat 32 (pf c.params 3 0)) (pf c.params 5 4) <;> rfl
  case degraded =>
    intro c s target late t l w ha hl h1 h2 hf hw
    refine exec_other rfl rfl ha hl ?_
    refine (bodyLogRead_ok (l := l) rfl ?_ h1 h2 hw).trans (if_pos hf)
    cases l <;> rfl
  case flush => exact waits_of (fun _ _ _ _ => rfl) fun c s h => if_neg h
  case clear =>
    refine replies_of (fun _ _ _ _ => rfl) fun c s h => ?_
    simp only [bodyLogClearFail, h]
    rfl
  case mark => exact replies_of (fun _ _ _ _ => rfl) fun _ _ _ => rfl
  case cert => exact fun d => repliesAt_of (fun _ _ => rfl) fun c s h => by simp only [bodyIdCertRead, h]
  case attest => exact repliesAt_of (fun _ _ => rfl) fun c s h => if_neg (not_not_intro h)

end Sys2Proof.Machine
end

section
/-!
SUPPORT. Events of device time, of the firmware's surroundings, of reset, boot and shutdown: each row's meaning in the branch that its
conditions choose.
-/

namespace Sys2Proof.Machine

/-- The bits of STK_OVERRUN_CAUSE, one for each category with unfinished work (R74). -/
theorem Work.cause_eq (w : Work) :
    w.cause = (if w.svc = 0 then 0 else 1) + (if w.cmds = 0 then 0 else 2) + (if w.aging = 0 then 0 else 4) +
      (if w.log = 0 then 0 else 8) + (if w.telem = 0 then 0 else 16) := by
  have hbit : ∀ k n : Nat, k * b2n (n != 0) = if n = 0 then 0 else k := by
    intro k n
    by_cases h : n = 0 <;> simp [b2n, h]
  rw [Work.cause, hbit, hbit, hbit, hbit, ← Nat.one_mul (b2n (w.svc != 0)), hbit]

/-- Settles O12: each event in the branch that its conditions choose. -/
theorem deviceTimeEventsComplete : Obligations.DeviceTimeEventsComplete := by
  refine ⟨?strike, ?strikeBefore, ?jump, ?sealPoint, ?judge, ?pulse⟩
  case strike =>
    intro x s hb ha
    change execStrike x s = _
    simp [execStrike, hb, ha]
  case strikeBefore =>
    intro x s n t hb ha ht
    change execStrike x s = _
    simp [execStrike, hb, ha, Nat.not_le.mpr ht]
  case jump =>
    intro x s s1 n t hb ha h1 ht
    subst h1
    change execTimeJump x s = _
    simp [execTimeJump, hb, ha, Nat.not_lt.mpr ht]
  case sealPoint =>
    intro s hd hb
    change execSealPoint s.time.heat s = _
    simp [execSealPoint, hd, hb]
  case judge =>
    intro s w cause hd hf hw hc
    have hopen : s.budget.open_ = w := hw.symm
    rw [State.judge, if_neg (by simp [hd]), Budget.close, if_neg (by simp [Budget.live, hf])]
    simp only [hopen, Work.cause_eq, ← hc, hf, Bool.true_and, if_true]
  case pulse =>
    intro s hp hb
    change execStrikeIoPulseEnd s = _
    simp only [execStrikeIoPulseEnd, hp, hb]
    rfl

theorem refEvent_eq (s : State) (code : Nat) (data : List Byte) :
    refEvent s code data = if s.cmd.fw = .boot
      then { s with boot := { s.boot with deferred := s.boot.deferred ++ [(code, data)] } } else s.post code data := rfl

/-- Settles O13: each event in the branch that its conditions choose. -/
theorem firmwareEventsComplete : Obligations.FirmwareEventsComplete := by
  refine ⟨?chain, ?watchdog, ?restart, ?again, ?boot, ?lost, ?back, ?dram, ?sram⟩
  case chain =>
    intro f ch s hch hage hhead
    change execChainOpen f s = _
    simp only [execChainOpen, hch]
    cases hh : (s.func f).q.head with
    | none => rw [if_neg (by simp; omega)]
    | some h =>
      have := hhead h hh
      rw [if_neg (by simp; omega)]
  case watchdog =>
    intro s t hf hb ht
    change execFwRestart s = _
    simp [execFwRestart, hf, hb, ht]
  case restart =>
    intro s s1 s2 s3 s4 h1 h2 h3 h4
    subst h4 h3 h2 h1
    rfl
  case again =>
    intro s hb hf
    change execFwRun s = _
    simp [execFwRun, hb, hf]
  case boot =>
    intro s s1 hb hf hst h1
    subst h1
    change execFwRun s = _
    simp [execFwRun, hb, hf, hst]
  case lost =>
    intro s s1 s2 hr hb h1 h2
    subst h2 h1
    change execRefLost s = _
    simp only [execRefLost, hr, hb, refEvent_eq, Bool.false_eq_true, if_false]
  case back =>
    intro s hr hb
    change execRefReturned s = _
    simp only [execRefReturned, hr, hb]
    rfl
  case dram => exact fun s => rfl
  case sram =>
    intro ring rom s s1 hb h1
    subst h1
    change execManagementSramError ring rom s = _
    simp only [execManagementSramError, hb]
    cases ring <;> rfl

/-- Settles O14: each event in the branch that its conditions choose. -/
theorem resetEventsComplete : Obligations.ResetEventsComplete := by
  refine ⟨?power, ?standby, ?assert, ?held, ?drop, ?return_, ?release, ?register, ?key⟩
  case power => exact fun s => rfl
  case standby => exact fun s => rfl
  case assert =>
    intro t s s1 hr h1
    subst h1
    change execRstNAssert t s = _
    rw [execRstNAssert, if_neg (by simp [hr])]
  case held =>
    intro t s hr
    change execRstNAssert t s = _
    rw [execRstNAssert, if_pos hr]
  case drop =>
    intro s s1 hr h1
    subst h1
    change execRailDrop s = _
    rw [execRailDrop, if_neg (by simp [hr])]
  case return_ =>
    intro lost s hr
    change execRailReturn lost s = _
    rw [execRailReturn, if_neg (by simp [hr])]
  case release =>
    intro straps lost t s s1 hr h1
    subst h1
    change execRstNRelease straps lost t s = _
    rw [execRstNRelease, if_neg (by simp [hr])]
  case register =>
    intro l pageDone s s0 s1 hi h0 h1
    subst h1 h0
    exact ⟨if_pos hi, if_pos hi⟩
  case key => exact fun l s hi => if_pos hi

/-- Settles O15: each event in the branch that its conditions choose. -/
theorem bootAndShutdownEventsComplete : Obligations.BootAndShutdownEventsComplete := by
  refine ⟨?stages, ?lifeboat, ?recheck, ?quench, ?halt, ?trip⟩
  case stages =>
    intro b s s1 hb hf hh h1
    subst h1
    have hgo : (s.boot.stopped || s.cmd.fw != .boot) = false := by simp [hb, hf]
    refine ⟨?selftest, ?clocks, ?memory, ?flash, ?image, ?noImage, ?load⟩
    case selftest =>
      intro hst h2 hs hl
      change execBootStageDone b s = _
      simp only [execBootStageDone, hgo, hh, hst, h2, hs, hl, ne_eq, not_true_eq_false, Bool.false_eq_true, if_false]
      split <;> rfl
    case clocks =>
      intro hst
      change execBootStageDone b s = _
      simp only [execBootStageDone, hgo, hh, hst, Bool.false_eq_true, if_false]
    case memory =>
      intro hst
      change execBootStageDone b s = _
      simp only [execBootStageDone, hgo, hh, hst, Bool.false_eq_true, if_false]
    case flash =>
      intro hst
      change execBootStageDone b s = _
      simp only [execBootStageDone, hgo, hh, hst, Bool.false_eq_true, if_false]
    case image =>
      intro s2 hst hc
      change execBootStageDone b s = _
      simp only [execBootStageDone, hgo, hh, hst, hc, Bool.false_eq_true, if_false]
    case noImage =>
      intro hst hc
      change execBootStageDone b s = _
      simp only [execBootStageDone, hgo, hh, hst, hc, Bool.false_eq_true, if_false]
    case load =>
      intro s2 hst h2
      subst h2
      change execBootStageDone b s = _
      simp only [execBootStageDone, hgo, hh, hst, Bool.false_eq_true, if_false]
  case lifeboat =>
    intro b s s1 hb hf hh h1 hst hany
    subst h1
    have hgo : (s.boot.stopped || s.cmd.fw != .boot) = false := by simp [hb, hf]
    change execBootStageDone b s = _
    simp only [execBootStageDone, hgo, hh, hst, Bool.false_eq_true, if_false]
    by_cases h2 : b.failed % 32 / 2 = 0
    · by_cases hs : (setTemps s b.temps).boot.strapBoot = true
      · simp only [h2, hs, ne_eq, not_true_eq_false, if_false, if_true]
      · have hl : (setTemps s b.temps).boot.lbRequest = true := by simpa [h2, hs] using hany
        simp only [h2, hs, hl, ne_eq, not_true_eq_false, if_false, if_true, Bool.false_eq_true]
    · simp only [ne_eq, h2, not_false_eq_true, if_true]
  case recheck =>
    intro temps s s1 hb hf hst h1
    subst h1
    change execTempWaitRecheck temps s = _
    rw [execTempWaitRecheck, if_neg (by simp [hb, hf, hst])]
  case quench =>
    intro t s s1 h1 ht hb hq hf
    subst h1
    change execQuench t s = _
    rw [execQuench, if_neg (by simp [hb, hq, Int.not_lt.mpr ht]), if_neg hf]
  case halt =>
    intro done s s1 halt hq hp h1 hh
    subst h1 hh
    change execQuenchHalt done s = _
    rw [execQuenchHalt, if_neg (by simp [hp]; omega)]
    simp only [Bool.not_eq_true']
  case trip =>
    intro t s s1 h1 ht hb
    subst h1
    change execHardTrip t s = _
    rw [execHardTrip, if_neg (by simp [ht, hb])]

end Sys2Proof.Machine
end

section
/-!
SUPPORT. Fields of register words: what replacing bits of a word leaves of its bits, what a clear on write leaves of a field's, and
what one field's write makes of the register file.
-/

namespace Sys2Proof.Machine

theorem bit_eq_testBit (v i : Nat) : bit v i = v.testBit i := by
  rw [bit, Nat.testBit_eq_decide_div_mod_eq] <;> rfl

/-- Taking away from a number the bits that it shares with another leaves those of its own. -/
theorem testBit_sub_and (a b i : Nat) : (a - (a &&& b)).testBit i = (a.testBit i && !b.testBit i) := by
  induction i generalizing a b with
  | zero =>
    have hle : a &&& b ≤ a := Nat.and_le_left
    have hmod : (a &&& b) % 2 = 1 ↔ a % 2 = 1 ∧ b % 2 = 1 := Nat.and_mod_two_eq_one
    rw [Bool.eq_iff_iff]
    simp only [Nat.testBit_zero, Bool.and_eq_true, decide_eq_true_eq, Bool.not_eq_true', decide_eq_false_iff_not]
    omega
  | succ i ih =>
    have hle : a &&& b ≤ a := Nat.and_le_left
    have hmod : (a &&& b) % 2 = 1 ↔ a % 2 = 1 ∧ b % 2 = 1 := Nat.and_mod_two_eq_one
    have hdiv : (a - (a &&& b)) / 2 = a / 2 - (a / 2 &&& b / 2) := by
      have : (a &&& b) / 2 = a / 2 &&& b / 2 := Nat.and_div_two
      omega
    rw [Nat.testBit_succ, hdiv, ih, ← Nat.testBit_succ, ← Nat.testBit_succ]

/-- R20: a clear on write takes the bits written as 1 but for those set in the same cycle. -/
theorem bit_cleared (old v now i : Nat) : bit (cleared old v now) i = (bit old i && !(bit v i && !bit now i)) := by
  have hsub : (old &&& v) - ((old &&& v) &&& now) = old &&& ((old &&& v) - ((old &&& v) &&& now)) := by
    refine Nat.eq_of_testBit_eq fun j => ?_
    simp only [Nat.testBit_and, testBit_sub_and]
    cases old.testBit j <;> rfl
  have hval : cleared old v now = old - (old &&& ((old &&& v) - ((old &&& v) &&& now))) := by
    rw [← hsub]
    rfl
  simp only [bit_eq_testBit, hval, testBit_sub_and, Nat.testBit_and]
  cases old.testBit i <;> simp

theorem cleared_le (old v now : Nat) : cleared old v now ≤ old := Nat.sub_le _ _

theorem bits_lt (v hi lo : Nat) : bits v hi lo < 2 ^ (hi - lo + 1) := Nat.mod_lt _ (Nat.two_pow_pos _)

section setBits
variable (v x : Nat) {hi lo : Nat}

/-- The parts of a word with a field replaced. -/
theorem setBits_eq (hl : lo ≤ hi) :
    setBits v hi lo x = ((v / 2 ^ (hi + 1) * 2 ^ (hi - lo + 1) + x % 2 ^ (hi - lo + 1)) * 2 ^ lo) + v % 2 ^ lo := by
  have : 2 ^ (hi + 1) = 2 ^ (hi - lo + 1) * 2 ^ lo := by rw [← Nat.pow_add]; congr 1; omega
  rw [setBits, Nat.add_mul, Nat.mul_assoc, ← this]

theorem setBits_div (hl : lo ≤ hi) :
    setBits v hi lo x / 2 ^ lo = v / 2 ^ (hi + 1) * 2 ^ (hi - lo + 1) + x % 2 ^ (hi - lo + 1) := by
  rw [setBits_eq v x hl, Nat.mul_comm, Nat.mul_add_div (Nat.two_pow_pos _), Nat.div_eq_of_lt (Nat.mod_lt _ (Nat.two_pow_pos _)),
    Nat.add_zero]

theorem bits_setBits_same (hl : lo ≤ hi) : bits (setBits v hi lo x) hi lo = x % 2 ^ (hi - lo + 1) := by
  rw [bits, setBits_div v x hl, Nat.mul_comm, Nat.mul_add_mod, Nat.mod_mod]

theorem setBits_mod (hl : lo ≤ hi) : setBits v hi lo x % 2 ^ lo = v % 2 ^ lo := by
  rw [setBits_eq v x hl, Nat.mul_comm, Nat.mul_add_mod, Nat.mod_mod]

theorem setBits_div_above (hl : lo ≤ hi) : setBits v hi lo x / 2 ^ (hi + 1) = v / 2 ^ (hi + 1) := by
  have : 2 ^ (hi + 1) = 2 ^ lo * 2 ^ (hi - lo + 1) := by rw [← Nat.pow_add]; congr 1; omega
  rw [this, ← Nat.div_div_eq_div_mul, setBits_div v x hl, Nat.mul_comm, Nat.mul_add_div (Nat.two_pow_pos _),
    Nat.div_eq_of_lt (Nat.mod_lt _ (Nat.two_pow_pos _)), Nat.add_zero, this]

/-- Bits below a field depend on the word below it only. -/
theorem bits_mod {h l n : Nat} (hn : h < n) (hlh : l ≤ h) : bits (v % 2 ^ n) h l = bits v h l := by
  have hcut : ∀ u, bits u h l = u % 2 ^ (h + 1) / 2 ^ l := fun u => by
    have : 2 ^ (h + 1) = 2 ^ l * 2 ^ (h - l + 1) := by rw [← Nat.pow_add]; congr 1; omega
    rw [bits, this, Nat.mod_mul_right_div_self]
  rw [hcut, hcut, Nat.mod_mod_of_dvd _ (Nat.pow_dvd_pow 2 hn)]

/-- Bits above a field depend on the word above it only. -/
theorem bits_div {h l n : Nat} (hn : n ≤ l) : bits v h l = v / 2 ^ n / 2 ^ (l - n) % 2 ^ (h - l + 1) := by
  rw [Nat.div_div_eq_div_mul, ← Nat.pow_add, Nat.add_sub_cancel' hn, bits]

/-- R18: the bits outside a field stay as they were. -/
theorem bits_setBits_other (hl : lo ≤ hi) {h l : Nat} (hlh : l ≤ h) (hout : h < lo ∨ hi < l) :
    bits (setBits v hi lo x) h l = bits v h l := by
  obtain hbelow | habove := hout
  · rw [← bits_mod _ hbelow hlh, setBits_mod v x hl, bits_mod _ hbelow hlh]
  · rw [bits_div _ habove, bits_div _ habove, setBits_div_above v x hl]

end setBits

theorem mGet?_mDel {α : Type} (m : SMap α) (q j : Nat) : mGet? (mDel m q) j = if j = q then none else mGet? m j := by
  induction m with
  | nil => simp [mDel, mGet?]
  | cons e t ih =>
    obtain ⟨k, v⟩ := e
    by_cases hk : k = q
    · subst hk
      rw [show mDel ((k, v) :: t) k = mDel t k by simp [mDel], ih, mGet?]
      split <;> simp_all [eq_comm]
    · rw [show mDel ((k, v) :: t) q = (k, v) :: mDel t q by simp [mDel, hk], mGet?, mGet?, ih]
      by_cases hj : k = j
      · subst hj; simp [hk]
      · simp [hj]

/-- The rule of a register word: a write is read back at its own offset, and no other word changes. -/
theorem word_setWord (s : State) (a v o : Nat) : (s.setWord a v).word o = if o = a then v else s.word o := by
  have hregs : (s.setWord a v).regs = if v = resetWord a then mDel s.regs a else mPut s.regs a v := rfl
  rw [State.word, hregs]
  by_cases hv : v = resetWord a
  · rw [if_pos hv, mGet?_mDel]
    by_cases ho : o = a
    · simp [ho, hv]
    · simp [ho, State.word]
  · rw [if_neg hv, mGet?_mPut]
    by_cases ho : o = a <;> simp [ho, State.word]

/-- R18: a field that takes what is written, or is cleared by it, changes its own word. -/
theorem fieldWrite_of_silent {s : State} {off bo x y : Nat} {f : Fld}
    (hy : fldAfter s f (bits (s.word off) f.hi f.lo) (bits x f.hi f.lo) (bits (s.justSet off) f.hi f.lo) = y)
    (hq : f.w1c = true ∨ y = bits x f.hi f.lo) :
    fieldWrite s off bo x f = s.setWord off (setBits (s.word off) f.hi f.lo y) := by
  subst hy
  simp only [fieldWrite]
  rw [if_pos (by simpa using hq)]

/-- Settles O54: within the range, outside it, and for a field whose bits a write clears. -/
theorem registerFieldsTakeTheirRange : Obligations.RegisterFieldsTakeTheirRange := by
  intro s off bo x f hl
  refine ⟨fun hw hmn hmx => ?stored, fun hw hrange hout => ?clamped, fun hw => ?cleared⟩
  case stored =>
    have hy : fldAfter s f (bits (s.word off) f.hi f.lo) (bits x f.hi f.lo) (bits (s.justSet off) f.hi f.lo) =
        bits x f.hi f.lo := by
      simp only [fldAfter, hw, Bool.false_eq_true, if_false, nearest]
      omega
    rw [fieldWrite_of_silent hy (.inr rfl)]
    refine ⟨?_, fun h l hlh hout => ?_, fun o ho => ?_, rfl⟩
    · rw [word_setWord, if_pos rfl, bits_setBits_same _ _ hl, Nat.mod_eq_of_lt (bits_lt _ _ _)]
    · rw [word_setWord, if_pos rfl, bits_setBits_other _ _ hl hlh hout]
    · rw [word_setWord, if_neg ho]
  case clamped =>
    have hy : fldAfter s f (bits (s.word off) f.hi f.lo) (bits x f.hi f.lo) (bits (s.justSet off) f.hi f.lo) =
        if bits x f.hi f.lo < f.mn then f.mn else fldMax s f := by
      simp only [fldAfter, hw, Bool.false_eq_true, if_false, nearest]
      split <;> omega
    have hne : (if bits x f.hi f.lo < f.mn then f.mn else fldMax s f) ≠ bits x f.hi f.lo := by
      split <;> omega
    simp only [fieldWrite, hy, hw, Bool.false_or, beq_iff_eq, if_neg hne, regEvent]
  case cleared =>
    have hy : fldAfter s f (bits (s.word off) f.hi f.lo) (bits x f.hi f.lo) (bits (s.justSet off) f.hi f.lo) =
        cleared (bits (s.word off) f.hi f.lo) (bits x f.hi f.lo) (bits (s.justSet off) f.hi f.lo) := if_pos hw
    rw [fieldWrite_of_silent hy (.inl hw)]
    refine ⟨fun i _ => ?_, fun o ho => ?_, rfl⟩
    · rw [word_setWord, if_pos rfl, bits_setBits_same _ _ hl,
        Nat.mod_eq_of_lt (Nat.lt_of_le_of_lt (cleared_le _ _ _) (bits_lt _ _ _)), bit_cleared]
    · rw [word_setWord, if_neg ho]

end Sys2Proof.Machine
end

section
/-!
SUPPORT. What signalling an event leaves as it is: counters, status bits and the interrupt vectors of functions change, nothing else.
-/

namespace Sys2Proof.Machine

/-- Nothing differs but the functions, the counters, and the registers with the status bits set in the cycle. -/
def Signalled (s t : State) : Prop :=
  t = { s with funcs := t.funcs, ctrs := t.ctrs, regs := t.regs, setAt := t.setAt, setNow := t.setNow }

namespace Signalled

theorem refl (s : State) : Signalled s s := rfl

theorem trans {s t u : State} (h : Signalled s t) (h' : Signalled t u) : Signalled s u := by
  rw [Signalled, h', h]

theorem ite {s t u : State} {P : Prop} [Decidable P] (h : Signalled s t) (h' : Signalled s u) :
    Signalled s (if P then t else u) := by
  split
  · exact h
  · exact h'

theorem add (s : State) (k n : Nat) : Signalled s (s.add k n) := rfl

theorem inc (s : State) (k : Nat) : Signalled s (s.inc k) := rfl

theorem mark (s : State) (a m : Nat) : Signalled s (s.mark a m) := rfl

theorem setWord (s : State) (a v : Nat) : Signalled s (s.setWord a v) := rfl

theorem modFunc (s : State) (f : Nat) (g : Func → Func) : Signalled s (s.modFunc f g) := rfl

theorem fire (s : State) (f v : Nat) : Signalled s (s.fire f v) := by
  rw [State.fire]
  exact ite (ite (refl s) (modFunc s _ _)) (refl s)

theorem fireDev (s : State) (v : Nat) : Signalled s (s.fireDev v) := by
  have hfold : ∀ (l : List Nat) (s : State), Signalled s (l.foldl (fun s l => s.fire (2 * l) v) s) := by
    intro l
    induction l with
    | nil => exact refl
    | cons a l ih => exact fun s => (fire s _ _).trans (ih _)
  exact hfold _ s

theorem raise (s : State) (f : Fld) (b vec : Nat) (i : Nat := 0) : Signalled s (s.raise f b vec i) := by
  rw [State.raise]
  have hset := (mark s (f.addr + i * f.stride) (2 ^ b)).trans (setWord _ (f.addr + i * f.stride)
    (setBits (s.word (f.addr + i * f.stride)) b b 1))
  exact ite (mark s _ _) (ite (hset.trans (fireDev _ _)) hset)

end Signalled

end Sys2Proof.Machine
end

section
/-!
SUPPORT. The vote over the copies of a slot, and the place of a posted event in the log's main ring.
-/

namespace Sys2Proof.Machine

/-- How many of the copies at hand carry some words: the first one, where it does, and those of the rest. -/
theorem carriers_cons (k : VCopy) (l : List VCopy) (ws : List Nat) :
    ((k :: l).filter (fun k => k.words == ws)).length =
      (if k.words = ws then 1 else 0) + (l.filter (fun k => k.words == ws)).length := by
  by_cases h : k.words = ws <;> simp [h, Nat.add_comm]

/-- Settles O55: one, two and three copies, by which of them carry the same words. -/
theorem voteAcceptsTheMajority : Obligations.VoteAcceptsTheMajority := by
  intro l h1 h3
  match l with
  | [a] =>
    rw [show voteOf [a] = (some a.words, none) from rfl]
    exact ⟨fun ws => by simp only [carriers_cons]; grind, by grind⟩
  | [a, b] =>
    by_cases hab : a.words = b.words
    · rw [show voteOf [a, b] = (some a.words, none) from if_pos hab]
      exact ⟨fun ws => by simp only [carriers_cons]; grind, by grind⟩
    · rw [show voteOf [a, b] = (none, none) from if_neg hab]
      exact ⟨fun ws => by simp only [carriers_cons]; grind, by simp⟩
  | [a, b, c] =>
    by_cases hab : a.words = b.words
    · rw [show voteOf [a, b, c] = (some a.words, if c.words = a.words then none else some c.chan) from if_pos hab]
      exact ⟨fun ws => by simp only [carriers_cons]; grind, by grind⟩
    by_cases hac : a.words = c.words
    · rw [show voteOf [a, b, c] = (some a.words, some b.chan) from (if_neg hab).trans (if_pos hac)]
      exact ⟨fun ws => by simp only [carriers_cons]; grind, by grind⟩
    by_cases hbc : b.words = c.words
    · rw [show voteOf [a, b, c] = (some b.words, some a.chan) from (if_neg hab).trans ((if_neg hac).trans (if_pos hbc))]
      exact ⟨fun ws => by simp only [carriers_cons]; grind, by grind⟩
    · rw [show voteOf [a, b, c] = (none, none) from (if_neg hab).trans ((if_neg hac).trans (if_neg hbc))]
      exact ⟨fun ws => by simp only [carriers_cons]; grind, by simp⟩

/-- What the log's overwriting signals; it counts the entries lost since, and changes no other part of the log. -/
theorem overwrite_signalled (s : State) (ring : List LogEntry) (cap : Nat) :
    ∃ n, Signalled { s with log := { s.log with lostSince := n } } (s.overwrite ring cap).1 := by
  cases ring with
  | nil => exact ⟨s.log.lostSince, Signalled.refl s⟩
  | cons e t =>
    rw [State.overwrite]
    split
    · exact ⟨s.log.lostSince, Signalled.refl s⟩
    · split
      · exact ⟨s.log.lostSince + 1, (Signalled.inc _ _).trans (Signalled.raise _ _ _ _ _)⟩
      · exact ⟨s.log.lostSince, Signalled.refl s⟩

/-- R664, R669: a ring with room keeps its entries; a full one loses the oldest. -/
theorem overwrite_ring (s : State) (ring : List LogEntry) (h : ring.length ≤ 4096) :
    (s.overwrite ring 4096).2 = if ring.length < 4096 then ring else ring.tail := by
  cases ring with
  | nil => rfl
  | cons e t =>
    rw [State.overwrite, List.length_cons]
    by_cases hlt : t.length + 1 < 4096
    · rw [if_pos hlt, if_pos hlt]
    · rw [if_neg hlt, if_neg hlt]
      split <;> rfl

/-- What is left as it is where an event is posted, apart from the log. -/
def Aside (s t : State) : Prop :=
  t.time = s.time ∧ t.staging = s.staging ∧ t.ins = s.ins ∧ t.pending = s.pending

theorem Aside.of_signalled {s t u : State} (h : Aside s t) (h' : Signalled t u) : Aside s u := by
  obtain ⟨h1, h2, h3, h4⟩ := h
  rw [Signalled] at h'
  rw [h']
  exact ⟨h1, h2, h3, h4⟩

theorem Signalled.log {s t : State} (h : Signalled s t) : t.log = s.log := by
  rw [Signalled] at h
  rw [h]

theorem renumber_eq (s : State) (e : LogEntry) (old new : List LogEntry) :
    s.renumber e old new = { s with sb := (s.renumber e old new).sb } := by
  rw [State.renumber]
  dsimp only
  split <;> rfl

/-- The entry that a posted event makes in the main ring (Table 16.6). -/
def postedEntry (s : State) (code : Nat) (data : List Byte) : LogEntry :=
  { seq := s.log.seqNext, code := code, flags := if severeCodes.contains code then 1 else 0,
    cls := s.time.cls, heat := s.time.edge.getD s.time.heat, ns := if s.time.edge.isSome then 0 else s.time.ns,
    data := padTo 12 data }

/-- A posting has put a ring in the place of the main one: of the log only the SEQ, the count of lost entries and the need of a
flush differ besides, and device time, staged items, functions' pools and the queue of commands are as they were. -/
def Posted (s : State) (ring : List LogEntry) (t : State) : Prop :=
  Aside s t ∧ ∃ n due, t.log =
    { s.log with main := ring, seqNext := s.log.seqNext + 1, lostSince := n, flushDue := due }

namespace Posted
variable {s t u : State} {ring : List LogEntry}

theorem of_signalled (h : Posted s ring t) (h' : Signalled t u) : Posted s ring u := by
  obtain ⟨haside, hlog⟩ := h
  exact ⟨haside.of_signalled h', by rwa [h'.log]⟩

theorem sbEvent (h : Posted s ring t) (e : LogEntry) : Posted s ring (t.sbEvent e) := h

theorem renumber (h : Posted s ring t) (e : LogEntry) (old new : List LogEntry) : Posted s ring (t.renumber e old new) := by
  rw [renumber_eq]
  exact h

theorem withFlushDue (h : Posted s ring t) (due : Bool) :
    Posted s ring { t with log := { t.log with flushDue := due } } := by
  obtain ⟨haside, n, _, hlog⟩ := h
  exact ⟨haside, n, due, by simp only [hlog]⟩

end Posted

/-- What a posting makes of the log while the main ring is in use. -/
theorem post_main {s : State} (code : Nat) (data : List Byte) (hf : s.log.fallback = false) (hl : s.log.main.length ≤ 4096) :
    Posted s (intoRing (postedEntry s code data) (if s.log.main.length < 4096 then s.log.main else s.log.main.tail))
      (s.post code data) := by
  rw [State.post, State.postF]
  have h0 : (if State.memCause code then { s with tri := { s.tri with mem := true } } else s).log = s.log ∧
      (if State.memCause code then { s with tri := { s.tri with mem := true } } else s).time = s.time ∧
      Aside s (if State.memCause code then { s with tri := { s.tri with mem := true } } else s) := by
    split <;> exact ⟨rfl, rfl, rfl, rfl, rfl, rfl⟩
  generalize (if State.memCause code then { s with tri := { s.tri with mem := true } } else s) = s0 at h0
  obtain ⟨hlog, htime, haside⟩ := h0
  obtain ⟨n, hn⟩ := overwrite_signalled s0 s.log.main 4096
  have hring := overwrite_ring s0 s.log.main hl
  have he : LogEntry.mk s.log.seqNext code (if severeCodes.contains code then 1 else 0) s.time.cls
      (s.time.edge.getD s.time.heat) (if s.time.edge.isSome then 0 else s.time.ns) (padTo 12 data) =
      postedEntry s code data := rfl
  simp only [hlog, htime, hf, Bool.false_eq_true, if_false, Nat.add_zero, he]
  generalize postedEntry s code data = e
  generalize s0.overwrite s.log.main 4096 = w at hn hring
  obtain ⟨w1, kept⟩ := w
  dsimp only at hn hring ⊢
  subst hring
  have h1 : Posted s (intoRing e (if s.log.main.length < 4096 then s.log.main else s.log.main.tail))
      { w1 with log := { w1.log with 
         main := intoRing e (if s.log.main.length < 4096 then s.log.main else s.log.main.tail),
         seqNext := s.log.seqNext + 1 } } := by
    have hw := Aside.of_signalled (s := s) (t := { s0 with log := { s0.log with lostSince := n } }) haside hn
    exact ⟨hw, n, s.log.flushDue, by simp only [hn.log, hlog]⟩
  have h2 := (h1.renumber e (if s.log.main.length < 4096 then s.log.main else s.log.main.tail)
    (intoRing e (if s.log.main.length < 4096 then s.log.main else s.log.main.tail))).of_signalled (Signalled.inc _ Ctr.logEntry)
  by_cases hsev : severeCodes.contains code = true
  · rw [if_pos hsev]
    exact ((((h2.withFlushDue _).of_signalled (Signalled.inc _ _)).of_signalled (Signalled.raise _ _ _ _)).of_signalled
      (Signalled.fireDev _ _)).sbEvent _
  · rw [if_neg hsev]
    exact h2.withFlushDue _

/-- R680: an entry goes behind the newest one, where that stands at another edge or comes before it. -/
theorem placeEntry_behind (e : LogEntry) (l : List LogEntry) (h : ∀ p ∈ l.head?, e.sameEdge p = false ∨ p.rank ≤ e.rank) :
    placeEntry e l = e :: l := by
  cases l with
  | nil => rfl
  | cons p t =>
    rw [placeEntry]
    obtain hedge | hrank := h p rfl
    · rw [if_neg (by simp [hedge])]
    · rw [if_neg (by simp [Nat.not_lt.mpr hrank])]

/-- Settles O56: the entry posted, and its place among the events of its edge. -/
theorem postedEventIsTheNewestEntry : Obligations.PostedEventIsTheNewestEntry := by
  refine ⟨?posted, ?behind, ?before⟩
  case posted =>
    intro s code data t kept hf hl ht hk
    subst ht
    obtain ⟨⟨htime, hstaging, hins, hpending⟩, n, due, hlog⟩ := post_main code data hf hl
    rw [← hk] at hlog
    refine ⟨by rw [hlog], by rw [hlog, intoRing_length], ⟨postedEntry s code data, by rw [hlog], rfl, rfl, fun he => ?_,
      fun m he => ?_, rfl, rfl, ?_⟩, by rw [hlog], by rw [hlog], htime, hstaging, hins, hpending⟩
    · simp [postedEntry, he]
    · simp [postedEntry, he]
    · rw [show (postedEntry s code data).flags = if severeCodes.contains code then 1 else 0 from rfl]
      cases severeCodes.contains code <;> rfl
  case behind =>
    intro e kept h
    rw [intoRing, placeEntry_behind e _ (by simpa using h)]
    simp
  case before =>
    intro e p kept hedge hrank hp he
    rw [intoRing, List.reverse_append, List.reverse_singleton, List.singleton_append, placeEntry,
      if_pos (by simp [hedge, hrank, hp, he]), List.reverse_cons]
    rfl

end Sys2Proof.Machine
end

section
/-!
SUPPORT. The frame of a command: what taking it and answering it leave as they are, step by step along the take (its fetch, the
choice's accounting, the head's departure, the charge) and along the answer.
-/

namespace Sys2Proof.Machine

theorem insOf_modIns (s : State) (f i : Nat) (g : Ins → Ins) :
    (s.modIns f g).insOf i = if i = f then g (s.insOf f) else s.insOf i := mGetD_mPut _ _ _ _ _

/-- What a take leaves as it is: everything but the functions, the counters, the budget, the links, the choice's pointers, the CU
that instances have used, and the translations and tables kept. -/
def Taken (u t : State) : Prop :=
  t = { u with
    funcs := t.funcs, ctrs := t.ctrs, budget := t.budget, links := t.links,
    cmd := { u.cmd with ptrs := t.cmd.ptrs, visits := t.cmd.visits },
    ins := { u.ins with ins := t.ins.ins, tlb := t.ins.tlb, tables := t.ins.tables } } ∧
  ∀ i, u.insOf i = { t.insOf i with heatCu := (u.insOf i).heatCu }

namespace Taken

theorem refl (u : State) : Taken u u := ⟨rfl, fun _ => rfl⟩

theorem trans {u v t : State} (h : Taken u v) (h' : Taken v t) : Taken u t := by
  obtain ⟨h1, h2⟩ := h
  obtain ⟨h1', h2'⟩ := h'
  refine ⟨?_, fun i => (h2 i).trans (by rw [h2' i])⟩
  rw [h1', h1]

theorem add (s : State) (k n : Nat) : Taken s (s.add k n) := ⟨rfl, fun _ => rfl⟩

theorem inc (s : State) (k : Nat) : Taken s (s.inc k) := add s k 1

theorem modQueue (s : State) (f : Nat) (g : Queue → Queue) : Taken s (s.modQueue f g) := ⟨rfl, fun _ => rfl⟩

theorem setLink (s : State) (l : Nat) (x : HostLink) : Taken s (s.setLink l x) := ⟨rfl, fun _ => rfl⟩

theorem setPtrs (s : State) (p : List Nat) (v : List Bool) :
    Taken s { s with cmd := { s.cmd with ptrs := p, visits := v } } := ⟨rfl, fun _ => rfl⟩

theorem tlbPut (s : State) (x : Tlb) : Taken s (tlbPut s x) := ⟨rfl, fun _ => rfl⟩

theorem seeTables (s : State) (m : TableMem) : Taken s (seeTables s m) := ⟨rfl, fun _ => rfl⟩

theorem ite {s t u : State} {P : Prop} [Decidable P] (h : Taken s t) (h' : Taken s u) : Taken s (if P then t else u) := by
  split
  · exact h
  · exact h'

theorem passReq (s : State) (f addr : Nat) : Taken s (passReq s f addr).1 := by
  rw [Machine.passReq]
  split
  · exact refl s
  · dsimp only
    split
    · exact refl s
    · exact setLink s _ _

/-- A translated access keeps what it found: a hit counts, a walk's leaf is cached. -/
theorem access {s : State} {f : Nat} {k : Option Nat} {addr : Nat} {write : Bool}
    (h : (access s f k addr write).2.isSome = true) : Taken s (access s f k addr write).1 := by
  rw [Machine.access] at h ⊢
  split at h
  · rename_i hp
    rw [if_pos hp]
    exact passReq s f addr
  · rename_i hp
    rw [if_neg hp]
    cases hx : translate s f addr write with
    | error w => simp [hx] at h
    | ok x => exact ite (inc s _) ((inc s _).trans (tlbPut _ _))

theorem readSpans {l : List (Nat × Nat)} {s : State} {f : Nat} {k : Option Nat} (h : (readSpans s f k l).2 = true) :
    Taken s (readSpans s f k l).1 := by
  induction l generalizing s with
  | nil => exact refl s
  | cons x t ih =>
    have ha := access (s := s) (f := f) (k := k) (addr := x.1) (write := false)
    rw [Machine.readSpans] at h ⊢
    rcases hx : Machine.access s f k x.1 false with ⟨s1, r⟩
    rw [hx] at ha h
    cases r with
    | none => simp at h
    | some r => exact (ha rfl).trans (ih h)

theorem fetchCmd {s : State} {f : Nat} {c : Cmd} {data : Bool} (h : (fetchCmd s f c data).2 = true) :
    Taken s (fetchCmd s f c data).1 := (seeTables s c.mem).trans (readSpans h)

theorem chargeDeficit (s : State) (f : Nat) (h : Head) : Taken s (chargeDeficit s f h) := by
  have hfold : ∀ (l : List Cand) (k : Cand → Nat) (s : State),
      Taken s (l.foldl (fun s c => s.modQueue c.f (fun q => { q with deficit := q.deficit + k c * c.gain })) s) := by
    intro l k
    induction l with
    | nil => exact refl
    | cons c l ih => exact fun s => (modQueue s _ _).trans (ih _)
  rw [Machine.chargeDeficit]
  dsimp only
  split
  · exact refl s
  · rename_i w n before _
    exact ((hfold (eligibles s f h) (fun c => if c.f = w.f ∨ before.any (fun b => b.f == c.f) then n else n - 1) s).trans
      (modQueue _ f _)).trans (setPtrs _ _ _)

theorem takeHead (s : State) (f : Nat) (c : Cmd) : Taken s (takeHead s f c) := by
  have hcount := ((modQueue s f (fun q => { q with
    consumer := (q.consumer + c.slots) % 65536, stalled := false, head := none, loose := q.loose && c.chain })).trans
    (inc _ Ctr.taken)).trans (inc _ (Ctr.qTaken f))
  exact ite (hcount.trans (modQueue _ _ _)) hcount

theorem useCu (s : State) (f n : Nat) : Taken s (s.modIns f (fun i => { i with heatCu := i.heatCu + n })) := by
  refine ⟨rfl, fun i => ?_⟩
  rw [insOf_modIns]
  by_cases hi : i = f
  · rw [if_pos hi, hi]
  · rw [if_neg hi]

theorem charge (s : State) (src : Src) (cost own : Nat) : Taken s (charge s src cost own) := by
  have hbudget : Taken s { s with budget := { s.budget with
      cmdLeft := s.budget.cmdLeft - cost,
      todo := if s.budget.live then { s.budget.todo with cmds := s.budget.todo.cmds + own } else s.budget.todo } } :=
    ⟨rfl, fun _ => rfl⟩
  cases src with
  | mbox => exact hbudget
  | queue f =>
    exact ((hbudget.trans (useCu _ f cost)).trans (modQueue _ f (fun q => { q with heatCu := q.heatCu + cost }))).trans
      (add _ (Ctr.qCu f) cost)

end Taken

/-- Taking a command: its fetch, the choice's accounting, the head's departure and the charge. -/
theorem takenFrom_taken (op : Op) (c : Cmd) (s : State)
    (hf : ∀ f, c.src = .queue f → (fetchCmd (finishJobs s) f c true).2 = true) : Taken (finishJobs s) (takenFrom op c s) := by
  rw [takenFrom]
  cases hs : c.src with
  | queue f =>
    simp only [fetched, hs]
    exact (((Taken.fetchCmd (hf f hs)).trans (Taken.chargeDeficit _ _ _)).trans (Taken.takeHead _ _ _)).trans
      (Taken.charge _ _ _ _)
  | mbox =>
    simp only [fetched, hs]
    exact (Taken.ite (Taken.charge _ _ _ _) (Taken.refl _)).trans (Taken.inc _ _)

/-- What an answer leaves as it is: everything but the functions, the counters, the registers with the status bits set in the cycle,
the links, what was sent, the budget's command share, the mailbox, and the translations kept. -/
def Answered (s t : State) : Prop :=
  t = { s with
    funcs := t.funcs, ctrs := t.ctrs, regs := t.regs, links := t.links, out := t.out, setAt := t.setAt, setNow := t.setNow,
    budget := { s.budget with cmdLeft := t.budget.cmdLeft }, cmd := { s.cmd with mbox := t.cmd.mbox },
    ins := { s.ins with tlb := t.ins.tlb } }

theorem Signalled.answered {s t : State} (h : Signalled s t) : Answered s t := by
  rw [Signalled] at h
  rw [Answered, h]

namespace Answered

theorem refl (s : State) : Answered s s := rfl

theorem trans {s t u : State} (h : Answered s t) (h' : Answered t u) : Answered s u := by
  rw [Answered, h', h]

theorem ite {s t u : State} {P : Prop} [Decidable P] (h : Answered s t) (h' : Answered s u) :
    Answered s (if P then t else u) := by
  split
  · exact h
  · exact h'

theorem modQueue (s : State) (f : Nat) (g : Queue → Queue) : Answered s (s.modQueue f g) := rfl

theorem emitLink (s : State) (l : Nat) (o : Output) : Answered s (s.emitLink l o) := rfl

theorem passReq (s : State) (f addr : Nat) : Answered s (passReq s f addr).1 := by
  rw [Machine.passReq]
  split
  · exact refl s
  · dsimp only
    split
    · exact refl s
    · exact rfl

theorem access {s : State} {f : Nat} {k : Option Nat} {addr : Nat} {write : Bool}
    (h : (access s f k addr write).2.isSome = true) : Answered s (access s f k addr write).1 := by
  rw [Machine.access] at h ⊢
  split at h
  · rename_i hp
    rw [if_pos hp]
    exact passReq s f addr
  · rename_i hp
    rw [if_neg hp]
    cases hx : translate s f addr write with
    | error w => simp [hx] at h
    | ok x => exact ite (Signalled.inc s _).answered rfl

theorem putReply {s : State} {f : Nat} {r : Reply} (h : (Machine.access s f none ((s.func f).q.replyBase +
      32 * ((s.func f).q.replyProd % 2 ^ (s.func f).q.logReplies)) true).2.isSome = true) : Answered s (s.putReply f r) := by
  have ha := access h
  rw [State.putReply]
  dsimp only
  generalize Machine.access s f none _ true = w at ha h
  obtain ⟨s1, x⟩ := w
  cases x with
  | none => exact ha
  | some x =>
    have hsent := fun l o g => (ha.trans (emitLink s1 l o)).trans (modQueue _ f g)
    exact ite ((hsent _ _ _).trans (Signalled.fire _ _ _).answered) (hsent _ _ _)

theorem issueReply {s : State} {f : Nat} {r : Reply} {drop : Bool} (hr : r.status ≤ 1)
    (h : (Machine.access s f none ((s.func f).q.replyBase +
      32 * ((s.func f).q.replyProd % 2 ^ (s.func f).q.logReplies)) true).2.isSome = true) :
    Answered s (s.issueReply f r drop) := by
  rw [State.issueReply, if_pos hr]
  have hheld := modQueue s f (fun q => { q with held := q.held ++ [(r, drop)] })
  exact ite (refl s) (ite (putReply h) (ite hheld (hheld.trans (Signalled.raise _ _ _ _).answered)))

theorem mboxDone (s : State) (r : Option Reply) (busy : Bool) : Answered s (mboxDone s r busy) := by
  have hset : ∀ m : Mbox, Answered s { s.mark 0x040204 4 with cmd := { (s.mark 0x040204 4).cmd with mbox := m } } := fun _ => rfl
  unfold Machine.mboxDone
  dsimp only
  exact ite ((hset _).trans (Signalled.fire _ _ _).answered) (hset _)

theorem withShare {s t : State} (h : Answered s t) (n : Nat) : Answered s { t with budget := { s.budget with cmdLeft := n } } := by
  rw [Answered] at h
  rw [Answered, h]

theorem refund (s : State) (src : Src) (n : Nat) : Answered s (refund s src n) := by
  have hsrc : Answered s (match src with
      | .queue f => if n = 0 ∨ 4096 ≤ f then s else s.add (Ctr.qCu f) (2 ^ 64 - n)
      | .mbox => s) := by
    cases src with
    | mbox => exact refl s
    | queue f => exact ite (refl s) rfl
  exact ite (hsrc.withShare _) hsrc

end Answered

/-- An answer DONE: a reply whose address translates, or the mailbox's registers. -/
theorem answer_done_answered {s : State} {c : Cmd} (low : Nat) (fl : Fail) (heat : Heat) (r : Nat)
    (h : ∀ f, c.src = .queue f → (access s f none ((s.func f).q.replyBase +
      32 * ((s.func f).q.replyProd % 2 ^ (s.func f).q.logReplies)) true).2.isSome = true) :
    Answered s (answer s c St.done low fl heat r) := by
  unfold answer
  cases hs : c.src with
  | queue f => exact Answered.ite (Answered.refl s) (Answered.issueReply (Nat.zero_le 1) (h f hs))
  | mbox => exact Answered.mboxDone s _ false

/-- A command that is not sure to be finished joins those in work. -/
theorem doneWith_later {op : Op} {c : Cmd} {s0 st : State} {r : Nat} (h : assured s0 = false) :
    doneWith op c s0 st r = { st with cmd := { st.cmd with jobs := st.cmd.jobs ++
      [{ cmd := c, spare := spareOf op c, left := cmdWork st, own := ownWork op c, early := false,
         fin := .reply St.done 0 0 st.time.heat r }] } } := by
  rw [doneWith, ends, settle, h]
  rfl

/-- A command that is sure to be finished is answered at once. -/
theorem doneWith_now {op : Op} {c : Cmd} {s0 st : State} {r : Nat} (h : assured s0 = true) :
    doneWith op c s0 st r = refund (answer st c St.done 0 { status := St.done } st.time.heat r) c.src (spareOf op c) := by
  rw [doneWith, ends, settle, h]
  rfl

/-- Settles O57: the take's frame, the answer's, and the command that waits. -/
theorem takingAndAnsweringFrame : Obligations.TakingAndAnsweringFrame := by
  refine ⟨fun op c s t u ht hu hf => ?take, fun op c s0 st t r hq ht ha => ?answer, fun op c s0 st r hq => doneWith_later hq⟩
  case take =>
    subst ht hu
    exact takenFrom_taken op c s hf
  case answer =>
    subst ht
    rw [doneWith_now hq]
    exact (answer_done_answered _ _ _ _ ha).trans (Answered.refund _ _ _)

theorem func_modFunc (s : State) (f g : Nat) (h : Func → Func) :
    (s.modFunc f h).func g = if g = f then h (s.func f) else s.func g := mGetD_mPut _ _ _ _ _

theorem func_modQueue_self (s : State) (f : Nat) (h : Queue → Queue) : ((s.modQueue f h).func f).q = h (s.func f).q := by
  rw [State.modQueue, func_modFunc, if_pos rfl]

/-- A vector that fires leaves the function's queue as it is. -/
theorem fire_queue (s : State) (f v : Nat) : ((s.fire f v).func f).q = (s.func f).q := by
  have hput : ∀ g : Func → SMap Vec, ((s.modFunc f (fun x => { x with vecs := g x })).func f).q = (s.func f).q := fun g => by
    rw [func_modFunc, if_pos rfl]
  rw [State.fire]
  split
  · dsimp only
    generalize (if s.vecCount f = 1 then 0 else v) = v'
    split
    · rfl
    · exact hput _
  · rfl

/-- An access that is translated changes no function. -/
theorem access_funcs {s s1 : State} {f : Nat} {k : Option Nat} {addr : Nat} {write : Bool} {x : Req}
    (h : access s f k addr write = (s1, some x)) : s1.funcs = s.funcs := by
  rw [access] at h
  split at h
  · obtain ⟨rfl, _⟩ := Prod.mk.inj h
    rw [passReq]
    split
    · rfl
    · dsimp only
      split <;> rfl
  · cases hx : translate s f addr write with
    | error w => simp [hx] at h
    | ok y =>
      simp only [hx, Prod.mk.injEq] at h
      obtain ⟨rfl, _⟩ := h
      split <;> rfl

theorem access_out {s s1 : State} {f : Nat} {k : Option Nat} {addr : Nat} {write : Bool} {x : Req}
    (h : access s f k addr write = (s1, some x)) : s1.out = s.out := by
  have ht := Taken.access (s := s) (f := f) (k := k) (addr := addr) (write := write)
  rw [h] at ht
  exact (congrArg State.out (ht rfl).1 :)

/-- R161, R162: the one write of a reply. -/
theorem putReply_written {s s1 : State} {f : Nat} {r : Reply} {x : Req}
    (h : access s f none ((s.func f).q.replyBase + 32 * ((s.func f).q.replyProd % 2 ^ (s.func f).q.logReplies)) true =
      (s1, some x)) :
    (s.putReply f r).out = .reply f ((s.func f).q.replyProd % 2 ^ (s.func f).q.logReplies) x
      { r with phase := (s.func f).q.phase } :: s.out ∧
    ((s.putReply f r).func f).q = { (s.func f).q with
      replyProd := ((s.func f).q.replyProd + 1) % 65536, armed := false,
      phase := if (s.func f).q.replyProd % 2 ^ (s.func f).q.logReplies + 1 = 2 ^ (s.func f).q.logReplies
        then !(s.func f).q.phase else (s.func f).q.phase } := by
  have hsame : s1.func f = s.func f := congrArg (fun m => mGetD m f Func.fresh) (access_funcs h)
  have hfuncs : ∀ l o, ((s1.emitLink l o).func f).q = (s.func f).q := fun l o => congrArg Func.q hsame
  rw [State.putReply]
  simp only [h]
  generalize ho : Output.reply f _ x _ = o
  split
  · refine ⟨?_, ?_⟩
    · rw [congrArg State.out (Signalled.fire _ f (State.replyVec f))]
      exact congrArg (o :: ·) (access_out h)
    · rw [fire_queue, func_modQueue_self, hfuncs]
  · exact ⟨congrArg (o :: ·) (access_out h), by rw [func_modQueue_self, hfuncs]⟩

/-- R165, R181: what the mailbox's registers hold after an answer. -/
theorem mboxDone_cmd (s : State) (r : Option Reply) (busy : Bool) :
    (mboxDone s r busy).cmd = { s.cmd with mbox := { s.cmd.mbox with
      reply := if r.isSome then r else s.cmd.mbox.reply, busy := busy, done := true } } := by
  unfold mboxDone
  dsimp only
  split
  · rw [congrArg State.cmd (Signalled.fire _ _ _)]
    cases r <;> rfl
  · cases r <;> rfl

/-- Settles O58: a written reply, a reply kept back, and the mailbox's. -/
theorem repliesReachTheirSender : Obligations.RepliesReachTheirSender := by
  refine ⟨?written, ?quiet, ?mailbox⟩
  case written =>
    intro c st s0 s1 status low fl heat r f n x hsrc hf hq hs0 hdma hheld hn hroom hacc
    have hans : answer st c status low fl heat r = s0.putReply f
        { tag := c.tag, status := status, detail := mkDetail low fl, heat := heat, phase := false,
          result := BitVec.ofNat 128 r } := by
      have hfunc : s0.func f = st.func f := by rw [hs0]; split <;> rfl
      have hdma0 : s0.canDma f = true := by rw [hs0]; split <;> exact hdma
      have hloud : (c.noReply && decide (status ≤ 1)) = false := by
        cases hnr : c.noReply <;> simp [hnr] at hq ⊢
        omega
      unfold answer
      rw [hsrc]
      simp only [hloud, Bool.false_eq_true, if_false, State.issueReply, ← hs0, if_neg (Nat.not_le.mpr hf), hdma0, hfunc, hheld,
        ← hn, decide_eq_true hroom, List.isEmpty_nil, Bool.and_self, if_true]
    have hfunc : s0.func f = st.func f := by rw [hs0]; split <;> rfl
    have hout : s0.out = st.out := by rw [hs0]; split <;> rfl
    subst hn
    rw [← hfunc] at hacc
    have hwritten := fun r => putReply_written (r := r) hacc
    rw [hans, (hwritten _).1, (hwritten _).2, hfunc, hout]
    exact ⟨rfl, rfl, rfl⟩
  case quiet =>
    intro c st status low fl heat r f hsrc hn hst
    unfold answer
    rw [hsrc, hn]
    exact if_pos (by simpa using hst)
  case mailbox =>
    intro c st status low fl heat r hsrc
    have hloud : (c.noReply = false ∨ 1 < status) → (c.noReply && decide (status ≤ 1)) = false := fun hq => by
      cases hnr : c.noReply <;> simp [hnr] at hq ⊢
      omega
    unfold answer
    rw [hsrc]
    simp only [mboxDone_cmd]
    exact ⟨trivial, trivial, fun hq => by rw [hloud hq]; rfl⟩

end Sys2Proof.Machine
end

section
/-!
SUPPORT. What a warm reset makes of the counters and of the reset's cause.
-/

namespace Sys2Proof.Machine

/-- A read of a map that keeps the entries of some keys. -/
theorem mGet?_filter {α : Type} (m : SMap α) (p : Nat → Bool) (j : Nat) :
    mGet? (m.filter (fun e => p e.1)) j = if p j then mGet? m j else none := by
  induction m with
  | nil => simp [mGet?]
  | cons e t ih =>
    obtain ⟨k, v⟩ := e
    rw [List.filter_cons]
    by_cases hkj : k = j
    · subst hkj
      cases hp : p k <;> simp [hp, mGet?, ih]
    · cases hp : p k <;> simp [mGet?, ih, hkj]

/-- A mask holds the last bit put into it. -/
theorem bit_maskOf_last (l : List Nat) (i : Nat) : bit (maskOf (l ++ [i])) i = true := by
  rw [maskOf, List.foldl_append]
  generalize l.foldl _ 0 = a
  simp only [List.foldl_cons, List.foldl_nil]
  by_cases h : bit a i = true
  · rw [if_pos h, h]
  · rw [if_neg h]
    simp only [bit, beq_iff_eq] at h ⊢
    rw [Nat.add_div_right _ (Nat.two_pow_pos i)]
    omega

/-- R690: a warm reset's cause is shown. -/
theorem bit_cause_withCause (s : State) (i : Nat) (hi : bitList (2 ^ i) 5 = [i]) : bit (withCause s (2 ^ i)).boot.cause i = true := by
  show bit (maskOf (bitList _ 5 ++ bitList (2 ^ i) 5)) i = true
  rw [hi]
  exact bit_maskOf_last _ i

section linksDown
variable (s : State)

/-- The count of one host link that goes down, where it was trained. -/
def linkGoesDown (l : Nat) : State := if (s.link l).trained then s.inc (Ctr.linkDown (2 * l)) else s

theorem linksDown_eq : linksDown s false = linkGoesDown (linkGoesDown s 0) 1 := rfl

theorem linkGoesDown_eq (l : Nat) : linkGoesDown s l = { s with ctrs := (linkGoesDown s l).ctrs } := by
  rw [linkGoesDown]
  split <;> rfl

theorem linksDown_with_ctrs : linksDown s false = { s with ctrs := (linksDown s false).ctrs } := by
  rw [linksDown_eq, linkGoesDown_eq, linkGoesDown_eq s 0]

theorem ctr_linkGoesDown (l : Nat) : (linkGoesDown s l).ctr (Ctr.linkDown (2 * l)) =
    s.ctr (Ctr.linkDown (2 * l)) + if (s.link l).trained then 1 else 0 := by
  rw [linkGoesDown]
  split <;> simp

theorem ctr_linkGoesDown_of_ne {l k : Nat} (hk : k ≠ Ctr.linkDown (2 * l)) : (linkGoesDown s l).ctr k = s.ctr k := by
  rw [linkGoesDown]
  split <;> simp [State.inc, hk]

theorem link_linkGoesDown (l j : Nat) : (linkGoesDown s l).link j = s.link j := by rw [linkGoesDown_eq]; rfl

theorem ctr_linksDown_of_ne {k : Nat} (h0 : k ≠ Ctr.linkDown 0) (h1 : k ≠ Ctr.linkDown 2) :
    (linksDown s false).ctr k = s.ctr k := by
  rw [linksDown_eq, ctr_linkGoesDown_of_ne _ h1, ctr_linkGoesDown_of_ne _ h0]

theorem ctr_linksDown {l : Nat} (h : l ≤ 1) :
    (linksDown s false).ctr (Ctr.linkDown (2 * l)) = s.ctr (Ctr.linkDown (2 * l)) + if (s.link l).trained then 1 else 0 := by
  have hne : Ctr.linkDown (2 * 0) ≠ Ctr.linkDown (2 * 1) := by decide
  rw [linksDown_eq]
  obtain rfl | rfl : l = 0 ∨ l = 1 := by omega
  · rw [ctr_linkGoesDown_of_ne _ hne, ctr_linkGoesDown]
  · rw [ctr_linkGoesDown, ctr_linkGoesDown_of_ne _ hne.symm, link_linkGoesDown]

end linksDown

/-- Table 17.4: of the counters the STICKY ones outlive a warm reset. -/
theorem ctr_warmClear (s : State) (k : Nat) :
    (warmClear s).ctr k = if stickyCtrs.contains k then (linksDown s false).ctr k else 0 := by
  have h : (warmClear s).ctr k = (mGet? ((linksDown s false).ctrs.filter (fun e => stickyCtrs.contains e.1)) k).getD 0 := rfl
  rw [h, mGet?_filter]
  split <;> rfl

theorem sticky_linkDown {l : Nat} (h : l ≤ 1) : stickyCtrs.contains (Ctr.linkDown (2 * l)) = true := by
  obtain rfl | rfl : l = 0 ∨ l = 1 := by omega
  · decide
  · decide

/-- Settles O59: the state that a dropped rail leaves, part by part. -/
theorem warmResetKeepsOnlySticky : Obligations.WarmResetKeepsOnlySticky := by
  intro s t hr ht
  change execRailDrop s = _ at ht
  rw [execRailDrop, if_neg (by simp [hr])] at ht
  obtain rfl := Host.Outcome.next.inj ht
  have hkept := linksDown_with_ctrs (withCause s 16)
  refine ⟨rfl, rfl, rfl, rfl, rfl, rfl, rfl, rfl, rfl, rfl, rfl, rfl, rfl, rfl, rfl, ?cause, fun k h0 h2 => ?other,
    fun l hl => ?down, ?cfg, ?prov, ?journal, rfl, ?main, ?fb, ?pages, ?node, ?pending⟩
  case cause =>
    show bit (linksDown (withCause s 16) false).boot.cause 4 = true
    rw [hkept]
    exact bit_cause_withCause s 4 (by decide)
  case other =>
    show (warmClear (withCause s 16)).ctr k = _
    rw [ctr_warmClear, ctr_linksDown_of_ne _ h0 h2]
    rfl
  case down =>
    show (warmClear (withCause s 16)).ctr _ = _
    rw [ctr_warmClear, if_pos (sticky_linkDown hl), ctr_linksDown _ hl]
    rfl
  case cfg => exact (congrArg (fun u : State => u.nvm.cfg) hkept :)
  case prov => exact (congrArg (fun u : State => u.nvm.prov) hkept :)
  case journal => exact (congrArg (fun u : State => u.nvm.journal) hkept :)
  case main => exact (congrArg (fun u : State => u.log.main) hkept :)
  case fb => exact (congrArg (fun u : State => u.log.fb) hkept :)
  case pages => exact (congrArg (fun u : State => u.log.pages) hkept :)
  case node => exact (congrArg (fun u : State => u.boot.strapNode) hkept :)
  case pending => exact (congrArg (fun u : State => u.pending) hkept :)

end Sys2Proof.Machine
end

section
/-!
SUPPORT. A command of a queue at each fork of its take (Order of checks, R166, R172): what lets it wait, what answers it whole, and the
members of a chain (R175 to R178).
-/

namespace Sys2Proof.Machine

theorem runCmd_queue {op : Op} {c : Cmd} {body : Cmd → State → Body} {s : State} {f : Nat} (h : c.src = .queue f) :
    runCmd op c body s = .next (runQueue op c f (reach op body) (finishJobs s)) := by
  simp only [runCmd, h]

section runQueue
variable {op : Op} {c0 c : Cmd} {f : Nat} {body : Cmd → State → Body} {s : State} {q : Queue} {h : Head}
  (hq : q = (s.func f).q) (hc : c = asTaken q c0)
include hq hc

theorem runQueue_unready (hr : queueReady s f c.slots = false) : runQueue op c0 f body s = s := by
  subst hc hq
  exact if_pos (by simp [headOf, hr])

theorem runQueue_noRoom (hr : queueReady s f c.slots = true) (hroom : roomFor q c.cluster = false) :
    runQueue op c0 f body s = stallReply s f := by
  subst hc hq
  exact (if_neg (by simp [headOf, hr])).trans (if_pos (by simp [headOf, hroom]))

/-- R166: a header that fails a check is answered where the fetch of its slots succeeds. -/
theorem runQueue_badHeader {fl : Fail} (hr : queueReady s f c.slots = true) (hroom : roomFor q c.cluster = true)
    (hx : checkHeader op c s q.chain.isNone (openCount q) = some fl) :
    runQueue op c0 f body s = if (fetchCmd s f c false).2 then refuseHead (fetchCmd s f c false).1 f { c with flags := c0.flags } fl
      else (fetchCmd s f c false).1 := by
  subst hc hq
  refine (if_neg (by simp [headOf, hr])).trans ((if_neg (by simp [headOf, hroom])).trans ?_)
  simp only [hx]
  rcases fetchCmd s f (asTaken (s.func f).q c0) false with ⟨t, b⟩
  cases b <;> rfl

/-- R172: a head that the choice does not fall on, or that costs too much, stays. -/
theorem runQueue_notChosen (hr : queueReady s f c.slots = true) (hroom : roomFor q c.cluster = true)
    (hx : checkHeader op c s q.chain.isNone (openCount q) = none) (hh : h = headOf op c q s)
    (hn : costFits s f h.cost = false ∨ chosen s f h = false) :
    runQueue op c0 f body s = s := by
  subst hh hc hq
  refine (if_neg (by simp [headOf, hr])).trans ((if_neg (by simp [headOf, hroom])).trans ?_)
  simp only [hx]
  exact if_pos (by simpa using hn)

/-- R160: the head that the choice falls on is not taken where a translation of its fetch faults. -/
theorem runQueue_fetchFault {t : State} (hr : queueReady s f c.slots = true) (hroom : roomFor q c.cluster = true)
    (hx : checkHeader op c s q.chain.isNone (openCount q) = none) (hh : h = headOf op c q s) (hf : costFits s f h.cost = true)
    (hn : chosen s f h = true) (ht : fetchCmd s f c true = (t, false)) : runQueue op c0 f body s = t := by
  subst hh hc hq
  refine (if_neg (by simp [headOf, hr])).trans ((if_neg (by simp [headOf, hroom])).trans ?_)
  simp only [hx]
  refine (if_neg (by simp [hf, hn])).trans ?_
  rw [ht]

end runQueue

/-- R172: what the head of a queue whose header passes the checks costs. -/
theorem headOf_cost {op : Op} {c : Cmd} {q : Queue} {s : State} (hx : checkHeader op c s q.chain.isNone (openCount q) = none) :
    (headOf op c q s).cost = listedCost op c := by
  simp only [headOf, hx]
  rfl

/-- R177: the head that the choice falls on joins the chain that is open. -/
theorem runQueue_joins {op : Op} {c : Cmd} {f : Nat} {body : Cmd → State → Body} {s t : State} {q : Queue} {ch : Chain}
    (hq : q = (s.func f).q) (hch : q.chain = some ch) (hl : q.loose = false)
    (hr : queueReady s f c.slots = true) (hx : checkHeader op c s false ch.members.length = none)
    (hf : costFits s f (listedCost op c) = true) (hn : chosen s f (headOf op c q s) = true)
    (ht : fetchCmd s f c true = (t, true)) :
    runQueue op c f body s = joinChain op c f ch body
      (charge (takeHead (chargeDeficit t f (headOf op c q s)) f c) (.queue f) (listedCost op c) (ownWork op c)) := by
  have hsame : asTaken q c = c := by rw [asTaken, hl]; rfl
  have hopen : openCount q = ch.members.length := by simp only [openCount, hch]
  have hx' : checkHeader op c s q.chain.isNone (openCount q) = none := by rw [hopen, hch]; exact hx
  have hcost := headOf_cost hx'
  have hroom : roomFor q (headOf op c q s).cluster = true := by simp [roomFor, hch]
  unfold runQueue
  simp only [← hq, hsame, hx', hcost, hroom, hf, hn, ht]
  rw [if_neg (by simp [headOf, hr]), if_neg (by simp), if_neg (by simp)]
  simp only [hch]


theorem readSpans_funcs {l : List (Nat × Nat)} {s t : State} {f : Nat} {k : Option Nat} (h : readSpans s f k l = (t, true)) :
    t.funcs = s.funcs := by
  induction l generalizing s with
  | nil =>
    obtain ⟨rfl, _⟩ := Prod.mk.inj h
    rfl
  | cons x l ih =>
    rw [readSpans] at h
    rcases hx : access s f k x.1 false with ⟨s1, r⟩
    rw [hx] at h
    cases r with
    | none => simp at h
    | some r => exact (ih h).trans (access_funcs hx)

theorem fetchCmd_funcs {s t : State} {f : Nat} {c : Cmd} {data : Bool} (h : fetchCmd s f c data = (t, true)) :
    t.funcs = s.funcs := readSpans_funcs (s := seeTables s c.mem) h

/-- R178: a head refused outside a chain; where it was to open one, the chain has failed. -/
theorem refuseHead_alone {s : State} {f : Nat} {c : Cmd} {fl : Fail} (h : (s.func f).q.chain = none) :
    refuseHead s f c fl = answer (if c.chain then (takeHead s f c).modQueue f (fun q => { q with loose := true })
      else takeHead s f c) c fl.status 0 fl s.time.heat fl.result := by
  have htime : (if c.chain then (takeHead s f c).modQueue f (fun q => { q with loose := true }) else takeHead s f c).time = s.time := by
    have ht := congrArg State.time (Taken.takeHead s f c).1
    split
    · exact ht
    · exact ht
  simp only [refuseHead, h, failAnswer, htime]

/-- Settles O51: the forks of a queue's take that leave its head or answer it whole. -/
theorem queuedCommandsWaitOrFailWhole : Obligations.QueuedCommandsWaitOrFailWhole := by
  intro row op body hrow c0 s0 f s q c h hsrc hs hq hc hh
  have hexec : exec (row c0) s0 = .next (runQueue op c0 f (reach op body) s) := by rw [hrow, runCmd_queue hsrc, hs]
  have hroom : q.chain = none → (if c.cluster then 2 else 1) ≤ State.replyRoom q → roomFor q c.cluster = true := fun hch hn => by
    simp only [roomFor, hch, Option.isSome_none, Bool.false_or, decide_eq_true_eq]
    exact hn
  have hheader : ∀ {x}, q.chain = none → checkHeader op c s true 0 = x →
      checkHeader op c s q.chain.isNone (openCount q) = x := fun hch hx => by
    simp only [openCount, hch]
    exact hx
  have hcost : q.chain = none → checkHeader op c s true 0 = none → h.cost = listedCost op c := fun hch hx => by
    rw [hh]
    exact headOf_cost (hheader hch hx)
  have hback : { c with flags := c0.flags } = c0 := by
    rw [hc, asTaken]
    split <;> rfl
  rw [hexec]
  refine ⟨fun hr => ?unready, fun hr hch hn => ?noRoom, fun fl t hr hch hn hx ht => ?refused, fun fl t hr hch hn hx ht => ?fault,
    fun hr hch hn hx hno => ?waits, fun t hr hch hn hx hf hw ht => ?fetch⟩
  case unready => rw [runQueue_unready hq hc hr]
  case noRoom =>
    have hno : roomFor q c.cluster = false := by simpa [roomFor, hch] using hn
    rw [runQueue_noRoom hq hc hr hno, stallReply, ← hq]
  case refused =>
    have hopen : (t.func f).q.chain = none := by
      have : t.func f = s.func f := congrArg (fun m => mGetD m f Func.fresh) (fetchCmd_funcs ht)
      rw [this, ← hq, hch]
    rw [runQueue_badHeader hq hc hr (hroom hch hn) (hheader hch hx), ht, if_pos rfl, hback, refuseHead_alone hopen]
  case fault =>
    rw [runQueue_badHeader hq hc hr (hroom hch hn) (hheader hch hx), ht]
    rfl
  case waits => rw [runQueue_notChosen hq hc hr (hroom hch hn) (hheader hch hx) hh (by rwa [hcost hch hx])]
  case fetch => rw [runQueue_fetchFault hq hc hr (hroom hch hn) (hheader hch hx) hh (by rwa [hcost hch hx]) hw ht]

/-- Settles O60: the first member of a chain, a later one, and the last one's seal. -/
theorem chainMembersSealTogether : Obligations.ChainMembersSealTogether := by
  intro row op body hrow c s f k hsrc hk
  refine ⟨fun target late st entries flow r s1 ht hc hl hb hst => ?first, fun u ch hu hch hl hr hx hf hn ht => ?later⟩
  case first =>
    rw [hrow, runCmd_taken ht, hsrc]
    subst hk
    simp only [hc, if_true, openChain, hl, hb, hst]
  case later =>
    have hexec : exec (row c) s = .next (joinChain op c f ch (reach op body) k) := by
      obtain ⟨t, hfetch⟩ : ∃ t, fetchCmd u f c true = (t, true) := ⟨(fetchCmd u f c true).1, Prod.ext rfl ht⟩
      have hk' : k = charge (takeHead (chargeDeficit t f (headOf op c (u.func f).q u)) f c) (.queue f) (listedCost op c)
          (ownWork op c) := by
        rw [hk, takenFrom]
        simp only [fetched, hsrc, ← hu, hfetch]
      rw [hrow, runCmd_queue hsrc, ← hu, hk', runQueue_joins rfl hch hl hr hx hf hn hfetch]
    rw [hexec]
    refine ⟨fun fl hb => ?fails, fun st entries flow r s1 all ch2 s2 hb hst hall hch2 hs2 => ?joins⟩
    case fails => simp only [joinChain, hb]
    case joins =>
      have hjoin : joinChain op c f ch (reach op body) k =
          if c.chain then refund s2 c.src (spareOf op c) else settle (assured k) s2 c (ownWork op c) (spareOf op c) .chain := by
        simp only [joinChain, hb, hst, hs2, hch2, hall]
      have hopen : (s2.func f).q.chain = some ch2 := by rw [hs2, func_modQueue_self]
      have hseal : c.chain = false → assured k = true → joinChain op c f ch (reach op body) k =
          refund (sealChain s2 s2.pastSeal f ch2) c.src (spareOf op c) := fun hlast hq => by
        rw [hjoin, hlast, hq]
        simp only [Bool.false_eq_true, if_false, settle, if_true, endCmd, hsrc, hopen]
      refine ⟨fun hmore => ?more, fun hlast hq => ?later, fun s3 land hlast hq hs => ?sealed, fun t p hlast hq hs => ?unsealed⟩
      case more => rw [hjoin, if_pos hmore]
      case later =>
        rw [hjoin, hlast, hq]
        rfl
      case sealed =>
        rw [hseal hlast hq]
        subst hch2 hall
        simp only [sealChain, hs]
      case unsealed =>
        rw [hseal hlast hq]
        subst hch2 hall
        simp only [sealChain, hs, List.length_append, List.length_singleton, Nat.add_sub_cancel]

end Sys2Proof.Machine
end

section
/-!
SUPPORT. Events of the host links and their functions: each row's meaning in the branch that its conditions choose.
-/

namespace Sys2Proof.Machine

theorem BarAccess.sizeOk_of {a : BarAccess} (hs : a.size = 4 ∨ a.size = 8) (ho : a.offset % a.size = 0) :
    BarAccess.sizeOk a = true := by
  simp [BarAccess.sizeOk, hs, ho]

theorem BarAccess.not_sizeOk {a : BarAccess} (h : (a.size ≠ 4 ∧ a.size ≠ 8) ∨ a.offset % a.size ≠ 0) :
    BarAccess.sizeOk a = false := by
  obtain ⟨h4, h8⟩ | ho := h
  · simp [BarAccess.sizeOk, h4, h8]
  · simp [BarAccess.sizeOk, ho]

/-- A read that can be sent and is covered: what its answer does hangs on the access and on the answer's fate. -/
theorem execDmaReadCompletion_live {d : DmaRead} {s s1 : State} {r : Option Req} (hp : s.present d.func = true)
    (hd : s.canDma d.func = true) (hq : queueLive s d.func d.qp = true) (hc : readCovered s d = true)
    (ha : access (seeTables s d.mem) d.func d.qp d.addr false = (s1, r)) :
    exec (.dmaReadCompletion d) s = .next (if r.isNone then s1 else
      if d.fate.isNone ∨ d.fate = some .ecrc ∧ ecrcOn s1 (s1.linkOf d.func) = false then readGot s1 d.func d.qp d.got
      else dmaFails s1 d.func d.qp (readAer (d.fate.getD .timeout)) (readEvent (d.fate.getD .timeout))) := by
  change execDmaReadCompletion d s = _
  rw [execDmaReadCompletion, if_neg (by simp [hp, hd, hq, hc]), ha]
  cases r with
  | none => rfl
  | some x =>
    cases hf : d.fate with
    | none => rfl
    | some e =>
      simp only [Option.isNone_some, Bool.false_eq_true, if_false, false_or, Option.some.injEq, Option.getD_some,
        Bool.not_eq_true']
      split <;> rfl

/-- Settles O19: each event in the branch that its conditions choose. -/
theorem requestErrorEventsComplete : Obligations.RequestErrorEventsComplete := by
  refine ⟨?mmio, ?poison, ?unsupported, ?malformed, ?unexpected, ?ecrcFunc, ?ecrcLink, ?read, ?faulted, ?failed, ?timeout, ?ats⟩
  case mmio =>
    intro a write ecrc s hp he l
    have hserved : (!(s.present a.func || lifeboatFunc s a.func)) = false := by
      obtain h | h := hp <;> simp [h]
    refine ⟨fun hc hw => ?_, fun hc hm hs ho => ?_, fun hc hs => ?_, fun hc hm hs ho hw => ?_⟩ <;>
      change execMmioAccess a write ecrc s = _ <;>
      simp only [execMmioAccess, hserved, he, Bool.false_eq_true, if_false]
    · simp only [hc, hw, beq_self_eq_true, if_true, Bool.false_eq_true, if_false]
      rfl
    · simp [hc, BarAccess.sizeOk_of hs ho, hm]
      rfl
    · simp [hc, BarAccess.not_sizeOk hs]
      rfl
    · simp [hc, BarAccess.sizeOk_of hs ho, hm, hw, readBar]
      rfl
  case poison =>
    intro f ecrc s hp he
    change execMmioPoison f ecrc s = _
    rw [execMmioPoison, if_neg (by simp [hp]), if_neg (by simp [he])]
  case unsupported =>
    intro l ecrc s he
    exact if_neg (by simp [he])
  case malformed => exact fun l s => rfl
  case unexpected =>
    intro l ecrc s he
    exact if_neg (by simp [he])
  case ecrcFunc =>
    intro f s hp he
    refine ⟨fun a write ha => ?_, ?_⟩
    · subst ha
      change execMmioAccess a write true s = _
      simp only [execMmioAccess]
      rw [if_neg (by simp [hp]), if_pos (by simp [he])]
      rfl
    · change execMmioPoison f true s = _
      rw [execMmioPoison, if_neg (by simp [hp]), if_pos (by simp [he])]
      rfl
  case ecrcLink => exact fun l s he => ⟨if_pos (by simp [he]), if_pos (by simp [he])⟩
  case read =>
    intro d s s1 x hp hd hq hc ha hf
    rw [execDmaReadCompletion_live hp hd hq hc ha, if_neg (by simp), if_pos (by simp [hf])]
    refine ⟨fun hg => by rw [hg]; rfl, fun slot ptrs hg => by rw [hg]; rfl, fun r k hg hk => ?_⟩
    rw [hg, hk]
    simp only [readGot, rxDescOk, Bool.and_eq_true, decide_eq_true_eq, beq_iff_eq, and_assoc]
    rfl
  case faulted =>
    intro d s s1 hp hd hq hc ha
    rw [execDmaReadCompletion_live hp hd hq hc ha, if_pos (by simp)]
  case failed =>
    intro d s s1 x r hp hd hq hc ha hf he
    have hfails : ¬ (d.fate.isNone ∨ d.fate = some .ecrc ∧ ecrcOn s1 (s1.linkOf d.func) = false) := by
      simp only [hf, Option.isNone_some, Bool.false_eq_true, false_or, Option.some.injEq]
      rintro ⟨hr, hoff⟩
      simp [he hr] at hoff
    rw [execDmaReadCompletion_live hp hd hq hc ha, if_neg (by simp), if_neg hfails, hf]
    cases r <;> rfl
  case timeout =>
    intro f k s hp hq hc
    exact if_neg (by simp [hp, hq, hc])
  case ats =>
    intro f page count s hp
    exact if_neg (by simp [hp])

/-- Settles O20: each event in the branch that its conditions choose. -/
theorem linkAndFunctionEventsComplete : Obligations.LinkAndFunctionEventsComplete := by
  refine ⟨?up, ?reset, ?deassert, ?flr, ?flrVfs, ?flrDone, ?clear, ?set, ?vfSet, ?vfClear⟩
  case up =>
    intro l width speed flit s he ht hp hr hb hn hw h1 h6 hf
    have hwidth : [1, 4, 8, 15].contains width = true := by
      obtain rfl | rfl | rfl | rfl := hw <;> rfl
    have hflit : (speed == 6 && !flit) = false := by
      by_cases h : speed = 6
      · simp [hf h]
      · simp [h]
    have hspeed : (speed == 0) = false := by simpa using Nat.one_le_iff_ne_zero.mp h1
    change execLinkUp l width speed flit s = _
    simp only [execLinkUp, he, ht, hp, hr, hb, hwidth, hflit, hspeed, decide_eq_false (Nat.not_lt.mpr hn),
      decide_eq_false (Nat.not_lt.mpr h6)]
    rfl
  case reset =>
    intro l kind s s1 s2 s3 s4 he h1 h2 h3 h4
    subst h4 h3 h2 h1
    change execLinkReset l kind s = _
    rw [execLinkReset, if_neg (by rw [he]; decide)]
    rfl
  case deassert => exact fun l s => rfl
  case flr =>
    intro f s s1 s2 hp hne h1 h2
    subst h2 h1
    change execFlr f s = _
    rw [execFlr, if_neg (by simp [hp])]
    simp only [if_neg hne]
  case flrVfs =>
    intro f l s s1 hp hl hf h0 h1
    subst h1
    change execFlr f s = _
    rw [execFlr, if_neg (by simp [hp])]
    simp only [hl, if_pos hf, h0, Bool.false_eq_true, if_false]
  case flrDone => exact fun f s h => if_pos h
  case clear => exact fun f s hp hb => if_pos (by simp [hp, hb])
  case set => exact fun f s hp => ⟨if_pos hp, if_pos hp, if_pos hp⟩
  case vfSet =>
    intro l n s s1 hl hp hv hn h1
    subst h1
    change execVfEnableSet l n s = _
    rw [execVfEnableSet, if_neg (by simp [hp, hv, Nat.lt_succ_of_le hl, Nat.not_lt.mpr hn])]
  case vfClear => exact fun l s h => if_pos h

theorem RegWrite.sizeOk_of {w : RegWrite} (hs : w.size = 4 ∨ w.size = 8) (ho : w.offset % w.size = 0) :
    RegWrite.sizeOk w = true := by
  simp [RegWrite.sizeOk, hs, ho]

theorem RegWrite.not_sizeOk {w : RegWrite} (h : (w.size ≠ 4 ∧ w.size ≠ 8) ∨ w.offset % w.size ≠ 0) :
    RegWrite.sizeOk w = false := by
  obtain ⟨h4, h8⟩ | ho := h
  · simp [RegWrite.sizeOk, h4, h8]
  · simp [RegWrite.sizeOk, ho]

/-- A word of configuration space is written through the function's fields, under the lifeboat too. -/
theorem wordWrite_cfg {s : State} {w : RegWrite} {off x : Nat} (h : w.space = .cfg) :
    wordWrite s w off x = cfgWrite s w.func off x := by
  rw [wordWrite, h]
  split <;> rfl

/-- Settles O22: the write's checks in their order, its one word or its two, and the shares. -/
theorem registerWriteEventsComplete : Obligations.RegisterWriteEventsComplete := by
  refine ⟨fun w s hp hl => ?write, fun v s => rfl⟩
  have hexec : exec (.registerWrite w) s = if w.space = .cfg then .next (wordWrite s w w.offset (w.value.toNat % 2 ^ 32))
      else if RegWrite.sizeOk w = false then .next (((aer s w.func Aer.completerAbort).inc (Ctr.mmioErr w.func)).post 0x2040 [])
      else .next (mmioWrite s w.func (barWrite w)) := by
    change execRegisterWrite w s = _
    have hserved : (!(s.present w.func || lifeboatFunc s w.func) || s.linkOf w.func != w.link) = false := by
      obtain h | h := hp <;> simp [h, hl]
    simp only [execRegisterWrite, hserved, Bool.false_eq_true, if_false, beq_iff_eq, Bool.not_eq_true']
  rw [hexec]
  refine ⟨fun hc => ?_, fun hc hm hs ho => ?_, fun hc hm hs ho => ?_, fun hc hs => ?_, fun hc hm hs ho => ?_⟩
  · rw [if_pos hc, wordWrite_cfg hc]
  · rw [if_neg hc, if_neg (by simp [RegWrite.sizeOk, hs, ho]), mmioWrite, if_pos hm, barWrite, hs]
    rfl
  · rw [if_neg hc, if_neg (by simp [RegWrite.sizeOk, hs, ho]), mmioWrite, if_pos hm, barWrite, hs]
    rfl
  · rw [if_neg hc, if_pos (RegWrite.not_sizeOk hs)]
  · rw [if_neg hc, if_neg (by simp [RegWrite.sizeOk_of hs ho]), mmioWrite, if_neg (by simp [hm])]

end Sys2Proof.Machine
end

section
/-!
SUPPORT. Reads into a requester's shadow, doorbells, queues switched on and off, messages and the mailbox's owner: each row's meaning
in the branch that its conditions choose.
-/

namespace Sys2Proof.Machine

theorem mmioWrite_of_open {s : State} {f : Nat} {act : State → State} (h : memOpen s f = true) : mmioWrite s f act = act s :=
  if_pos h

/-- A producer index written to a live slot of a function whose memory is open. -/
theorem execDoorbellProducer_live {s : State} {f : Nat} (slot : Nat) (rx : Bool) (idx : BitVec 16) (hb : bellsLive s f = true)
    (hm : memOpen s f = true) : exec (.doorbellProducer f slot rx idx) s = .next (producerBell f slot rx idx s) := by
  change execDoorbellProducer f slot rx idx s = _
  rw [execDoorbellProducer, if_pos hb, mmioWrite_of_open hm]

theorem execDoorbellConsumer_live {s : State} {f : Nat} (slot : Nat) (idx : BitVec 16) (hb : bellsLive s f = true)
    (hm : memOpen s f = true) : exec (.doorbellConsumer f slot idx) s = .next (consumerBell f slot idx false s) := by
  change execDoorbellConsumer f slot idx s = _
  rw [execDoorbellConsumer, if_pos hb, mmioWrite_of_open hm]

theorem execArm_live {s : State} {f : Nat} (slot : Nat) (idx : BitVec 16) (hb : bellsLive s f = true)
    (hm : memOpen s f = true) : exec (.arm f slot idx) s = .next (consumerBell f slot idx true s) := by
  change execArm f slot idx s = _
  rw [execArm, if_pos hb, mmioWrite_of_open hm]

/-- The slot of a granted queue pair that runs, with package DRAM at work: the index is judged. -/
theorem producerBell_qp {s : State} {f k : Nat} (rx : Bool) (idx : BitVec 16) (hk : k < (s.insOf f).grants.getD 0 0)
    (hr : (s.qp f k).st = .running) (hd : s.rul.dramDown = false) :
    producerBell f (k + 1) rx idx s =
      if rx then
        if 2 ^ (s.qp f k).logRx - 1 < bellSpan (s.qp f k).rxProd (s.qp f k).rxCons idx then bellRange s f (some k)
        else s.setQp f k { s.qp f k with rxProd := idx.toNat }
      else if 2 ^ (s.qp f k).logTx - 1 < bellSpan (s.qp f k).txProd (s.qp f k).txCons idx then bellRange s f (some k)
      else s.setQp f k { s.qp f k with txProd := idx.toNat } := by
  rw [producerBell, if_neg (Nat.succ_ne_zero k), Nat.add_sub_cancel, if_neg (Nat.not_le.mpr hk)]
  exact if_neg (by simp [hr, hd])

/-- R778, R780: a consumer index of the reply ring within the entries written. -/
theorem consumerBell_ring {s : State} {f : Nat} (idx : BitVec 16) (arm : Bool) (he : (s.func f).q.enable = true)
    (ha : (s.func f).q.again = false) (hr : (s.func f).q.st = .run)
    (hi : (idx.toNat + 65536 - (s.func f).q.replyCons) % 65536 ≤ State.replyUsed (s.func f).q) :
    consumerBell f 0 idx arm s =
      (let left := decide (State.replyUsed { (s.func f).q with replyCons := idx.toNat } ≠ 0)
       let s1 := s.modQueue f (fun q => { q with replyCons := idx.toNat, armed := if arm then !left else q.armed })
       if arm && left then s1.fire f (State.replyVec f) else s1) := by
  rw [consumerBell, if_pos rfl]
  simp only [he, ha, hr, if_neg (Nat.not_lt.mpr hi)]
  rfl

/-- R778, R780: a consumer index of a completion ring within the entries written. -/
theorem consumerBell_qp {s : State} {f k : Nat} (idx : BitVec 16) (arm : Bool) (hk : k < (s.insOf f).grants.getD 0 0)
    (hr : (s.qp f k).st = .running) (hd : s.rul.dramDown = false)
    (hi : (idx.toNat + 65536 - (s.qp f k).cqCons) % 65536 ≤ cqUsed (s.qp f k)) :
    consumerBell f (k + 1) idx arm s =
      (let left := decide (cqUsed { s.qp f k with cqCons := idx.toNat } ≠ 0)
       let s1 := s.setQp f k { s.qp f k with cqCons := idx.toNat, armed := if arm then !left else (s.qp f k).armed }
       finishStops (cqDrain (if arm && left then s1.fire f (s.qp f k).vec else s1) f k (s.qp f k).held.length)) := by
  rw [consumerBell, if_neg (Nat.succ_ne_zero k), Nat.add_sub_cancel, if_neg (Nat.not_le.mpr hk)]
  simp only [hr, hd, if_neg (Nat.not_lt.mpr hi)]
  rfl

theorem stkRegs_stkNs (s : State) (l : Nat) : mGet? (stkRegs s l) 0x010000 = some (s.time.ns + s.time.cls * 2 ^ 24) := by
  simp only [stkRegs, mGet?, if_true]

theorem pf0Read_strike (s : State) (l : Nat) :
    pf0Read s l 0x010000 = (mGet? (stkRegs s l) 0x010000).getD (s.word 0x010000) := by
  unfold pf0Read
  rw [if_neg (by decide), if_pos (by decide)]

/-- Table 2.8: STK_NS holds the time within the heat and the class of the clock. -/
theorem pf0Read_stkNs (s : State) (l : Nat) : pf0Read s l 0x010000 = s.time.ns + s.time.cls * 2 ^ 24 := by
  rw [pf0Read_strike, stkRegs_stkNs, Option.getD_some]

/-- R55: a read of STK_NS returns it and takes the heat number into the requester's shadow. -/
theorem execStkNsRead_eq {r : Nat} {s : State} (hr : r ≤ 1) (hl : lifeboatFunc s (2 * r) = false) :
    exec (.stkNsRead r) s = .next (State.emitLink
      { s with shadows := mMod s.shadows r Shadow.fresh (fun x => { x with heat := some s.time.heat }) }
      r (.readData r (s.time.ns + s.time.cls * 2 ^ 24))) := by
  have hpf0 : State.isPf0 (2 * r) = true := by
    obtain rfl | rfl : r = 0 ∨ r = 1 := by omega
    · rfl
    · rfl
  have hplain : ∀ {t : State}, lifeboatFunc t (2 * r) = false → counterSeen t (2 * r) .bar0 0x010000 = none := fun ht => by
    have hat : counterAt (2 * r) .bar0 0x010000 = none := by
      obtain rfl | rfl : r = 0 ∨ r = 1 := by omega
      · decide
      · decide
    exact (if_neg (by simp [ht])).trans hat
  have heff : readEffect s r (2 * r) .bar0 0x010000 4 = takeHeat s r := by
    simp only [readEffect, hplain hl, hpf0, hl]
    rfl
  change execStkNsRead r s = _
  have hl' : lifeboatFunc (takeHeat s r) (2 * r) = false := hl
  rw [execStkNsRead, readBar, heff]
  simp only [readValue, readWord, hplain hl', plainRead, hl', hpf0, pf0Read_stkNs, if_true, Bool.false_eq_true, if_false]
  rfl

/-- Settles O21: each event in the branch that its conditions choose. -/
theorem queueEventsComplete : Obligations.QueueEventsComplete := by
  refine ⟨?nsRead, ?ctrRead, ?enable, ?disable, ?idle, ?bell, ?bellQp, ?bellRange, ?consumer, ?consumerQp, ?held, ?message, ?holdoff,
    ?mailbox⟩
  case nsRead =>
    intro r s hr hl
    exact execStkNsRead_eq hr hl
  case ctrRead =>
    refine fun r key s => ⟨?_, ?_⟩
    · change execCounterLowRead r false key s = _
      simp only [execCounterLowRead, wordOf, Nat.mul_zero, Nat.pow_zero, Nat.div_one]
      rfl
    · change execCounterLowRead r true key s = _
      simp only [execCounterLowRead, wordOf, Nat.mul_zero, Nat.pow_zero, Nat.div_one]
      rfl
  case enable =>
    intro f s hp hm he
    change execQueueEnable f s = _
    rw [execQueueEnable, if_pos hp, mmioWrite_of_open hm, queueOn]
    simp only [he, Bool.false_eq_true, if_false, beq_iff_eq]
  case disable =>
    intro f s hp hm he
    change execQueueDisable f s = _
    rw [execQueueDisable, if_pos hp, mmioWrite_of_open hm, queueOff, if_neg (by simp [he])]
  case idle =>
    intro f s hs he hw hh
    change execQueueIdle f s = _
    simp only [execQueueIdle]
    rw [if_neg (by obtain he | he := he <;> simp [hs, he, hw, hh])]
    split <;> rfl
  case bell =>
    intro f idx s hb hm he ha hr hspan
    rw [execDoorbellProducer_live _ _ _ hb hm, producerBell, if_pos rfl]
    simp only [he, ha, hr, if_neg (Nat.not_lt.mpr hspan)]
    rfl
  case bellQp =>
    intro f k idx s hb hm hk hr hd
    refine ⟨fun hspan => ?_, fun hspan => ?_⟩
    · rw [execDoorbellProducer_live _ _ _ hb hm, producerBell_qp _ _ hk hr hd, if_pos rfl, if_neg (Nat.not_lt.mpr hspan)]
    · rw [execDoorbellProducer_live _ _ _ hb hm, producerBell_qp _ _ hk hr hd, if_neg (by decide), if_neg (Nat.not_lt.mpr hspan)]
  case bellRange =>
    intro f k rx idx s hb hm hk hr hd hspan
    rw [execDoorbellProducer_live _ _ _ hb hm, producerBell_qp _ _ hk hr hd]
    cases rx with
    | true => rw [if_pos rfl, if_pos (by simpa using hspan)]; rfl
    | false => rw [if_neg (by decide), if_pos (by simpa using hspan)]; rfl
  case consumer =>
    intro f idx s hb hm he ha hr hi
    refine ⟨?_, ?_⟩
    · rw [execDoorbellConsumer_live _ _ hb hm, consumerBell_ring _ _ he ha hr hi]
      rfl
    · rw [execArm_live _ _ hb hm, consumerBell_ring _ _ he ha hr hi]
      rfl
  case consumerQp =>
    intro f k idx s hb hm hk hr hd hi
    refine ⟨?_, ?_⟩
    · rw [execDoorbellConsumer_live _ _ hb hm, consumerBell_qp _ _ hk hr hd hi]
      rfl
    · rw [execArm_live _ _ hb hm, consumerBell_qp _ _ hk hr hd hi]
      rfl
  case held =>
    intro f r t s hh hd hn
    change execReplyHeldWrite f s = _
    simp only [execReplyHeldWrite, hh, hd, decide_eq_true hn]
    rfl
  case message =>
    intro f v w s hw ho hp hn
    subst hw
    change execMsixMessage f v s = _
    simp only [execMsixMessage, ho, hp]
    exact (if_neg (by decide)).trans (if_pos hn)
  case holdoff =>
    intro f v w s hw ho hp hm hn hc
    subst hw
    change execMsixMessage f v s = _
    simp only [execMsixMessage, ho, hp, hc]
    exact (if_neg (by decide)).trans ((if_neg (by omega)).trans (if_neg (by decide)))
  case mailbox =>
    intro l s hl hm
    refine ⟨fun ho => ?_, fun ho hb => ?_⟩
    · change execMboxClaim l (l + 1) s = _
      rw [execMboxClaim, mmioWrite_of_open hm, mboxOwnerWrite, if_pos ⟨ho, rfl, Nat.succ_le_succ hl⟩]
    · change execMboxRelease l s = _
      rw [execMboxRelease, mmioWrite_of_open hm, mboxOwnerWrite, if_neg (by simp [ho]), if_pos ⟨rfl, ho, hb⟩]

end Sys2Proof.Machine
end

section
/-!
SUPPORT. Reception, and the timers of pause, verification, hold and gates: each row's meaning in the branch that its conditions choose.
-/

namespace Sys2Proof.Machine

/-- A port receives, or is down with a frame cut by its loss: the frame that arrives is judged. -/
theorem frame_served {x : RxFrame} {s : State} (hp : x.port ≤ 15)
    (hl : s.portLive x.port = true ∨ (x.abort = true ∧ (s.port x.port).st = .down)) (hd : s.rul.dramDown = false) :
    (decide (15 < x.port) || s.rul.dramDown || !(s.portLive x.port || (x.abort && (s.port x.port).st == .down))) = false := by
  obtain hl | ⟨hab, hst⟩ := hl
  · simp [hd, hl, Nat.not_lt.mpr hp]
  · simp [hd, hab, hst, Nat.not_lt.mpr hp]

/-- Settles O24: each event in the branch that its conditions choose. -/
theorem receptionEventsComplete : Obligations.ReceptionEventsComplete := by
  refine ⟨?good, ?discard, ?control, ?handoff, ?tail, ?pause, ?pfc, ?malformed⟩
  case good =>
    intro x s s0 s1 b cip hp hl hd h0 hs ha hc hr hcut ho hsat hm
    have hcut' : (cutMode s0 x.port && decide (256 < x.bytes.length + 4)) = false := by
      obtain hcut | hlen := hcut
      · simp [hcut]
      · simp [Nat.not_lt.mpr hlen]
    have hsat' : (x.sat && (s0.secy x.port).enable && netAt x.bytes 12 2 == 0x88E5) = false := by
      obtain h | h | h := hsat <;> simp [h]
    change execFrameReceived x s = _
    simp only [execFrameReceived, frame_served hp (.inl hl) hd, Bool.false_eq_true, if_false, ← h0, hs, ha, hr, if_neg hc, hcut', ho,
      hsat', hm]
  case discard =>
    intro x s s0 n hp hl hd h0 hs ha hr
    change execFrameReceived x s = _
    simp only [execFrameReceived, frame_served hp hl hd, Bool.false_eq_true, if_false, ← h0, hs, ha, hr]
  case control =>
    intro x s s0 hp hl hd h0 hs ha hr hc
    change execFrameReceived x s = _
    simp only [execFrameReceived, frame_served hp (.inl hl) hd, Bool.false_eq_true, if_false, ← h0, hs, ha, hr, if_pos hc]
  case handoff =>
    intro h s hp hl hd hc hn hh hm he hs ho
    have hserved : (decide (15 < h.port) || !s.portLive h.port || s.rul.dramDown || !cutMode s h.port || decide (h.len ≤ 256) ||
        h.head.length != 256 || (mGet? s.tm.cuts h.port).isSome || netAt h.head 12 2 == 0x8808) = false := by
      simp [hl, hd, hc, hh, hm, he, Nat.not_lt.mpr hp, Nat.not_le.mpr hn]
    change execCutHandoff h s = _
    simp only [execCutHandoff, hserved, hs, ho, Bool.false_eq_true, if_false]
  case tail =>
    intro t s s0 c hc hd h0 hlen
    change execFrameTail t s = _
    simp only [execFrameTail, hc, hd, ← h0, Bool.false_eq_true, if_false, hlen, ne_eq, not_true_eq_false]
    split
    · rfl
    · split
      · rfl
      · split <;> rfl
  case pause =>
    intro p q s hp hl hf hh
    change execCtrlFramePause p q s = _
    rw [execCtrlFramePause, if_neg (by simp [hl, Nat.not_lt.mpr hp]), pauseFrame, if_neg (not_not_intro hf)]
    simp only [if_pos hh]
  case pfc =>
    intro p mask quanta s hp hl hf
    change execCtrlFramePfc p mask quanta s = _
    rw [execCtrlFramePfc, if_neg (by simp [hl, Nat.not_lt.mpr hp]), pfcFrame, if_neg (not_not_intro hf)]
  case malformed =>
    intro p opcode s hp hl
    change execCtrlMalformed p opcode s = _
    rw [execCtrlMalformed, if_neg (by simp [hl, Nat.not_lt.mpr hp])]
    rfl

/-- An event at an instant of a slot: it is looked for again at that instant, and acts where it is due by then. -/
theorem atSlot_eq {s : State} {due : State → Option Nat} {act g : State → State} {t : Nat} (h : due s = some t)
    (hnone : ∀ u, due u = none → g u = u) (hsome : ∀ u v, due u = some v → g u = if v ≤ u.devNow then act u else u) :
    s.atSlot due act = s.atDev t g := by
  unfold State.atSlot
  simp only [h]
  refine congrArg (s.atDev t) (funext fun u => ?_)
  cases hd : due u with
  | none => exact (hnone u hd).symm
  | some v => exact (hsome u v hd).symm

/-- Settles O25: each timer in the branch that its conditions choose. -/
theorem pauseAndGateEventsComplete : Obligations.PauseAndGateEventsComplete := by
  refine ⟨?expiry, ?again, ?cap, ?window, ?storm, ?recovery, ?verifyAgain, ?verifyFails, ?respond, ?verify, ?hold, ?release, ?entry,
    ?active⟩
  case expiry =>
    intro p c s t t1 s1 hd hr hd1 hn
    exact congrArg Host.Outcome.next (State.atTimer_acts hd hr hd1 hn)
  case again =>
    intro p c s s1 hx hp hr hx1 hp1 hn
    exact congrArg Host.Outcome.next (State.atTimer_acts (due := repeatDue p c) (act := repeatAct p c) (if_pos (by simp [hx, hp])) hr
      (if_pos (by simp [hx1, hp1])) hn)
  case cap =>
    intro p c s s1 s2 hx hc hr hx1 hc1 hn h2
    subst h2
    exact congrArg Host.Outcome.next (State.atTimer_acts (due := capDue p c) (act := capAct p c) (if_pos (by simp [hx, hc])) hr
      (if_pos (by simp [hx1, hc1])) (by omega))
  case window =>
    intro p s s1 hl hr hl1 hn
    exact congrArg Host.Outcome.next (State.atTimer_acts (due := windowDue p) (act := windowAct p) (if_pos hl) hr (if_pos hl1) hn)
  case storm =>
    intro p c s t u s1 s2 ht hu hlt hr h1 h2
    obtain ⟨t1, u1, ht1, hu1, hlt1, hn⟩ := h1
    subst h2
    have hdue : stormDue p c s = some (t + (s.mac p).cfg.wdLimit * 1000000) := by
      simp only [stormDue, ht, hu, if_neg (Nat.not_le.mpr hlt)]
    have hdue1 : stormDue p c s1 = some (t1 + (s1.mac p).cfg.wdLimit * 1000000) := by
      simp only [stormDue, ht1, hu1, if_neg (Nat.not_le.mpr hlt1)]
    exact congrArg Host.Outcome.next (State.atTimer_acts (act := stormAct p c) hdue hr hdue1 hn)
  case recovery =>
    intro p c s t t1 s1 hd hr hd1 hn
    exact congrArg Host.Outcome.next (State.atTimer_acts hd hr hd1 hn)
  case verifyAgain =>
    intro p s s1 hv hl hr hv1 hl1 hn hsent
    exact congrArg Host.Outcome.next ((State.atTimer_acts (due := verifyDue p) (act := verifyAct p) (if_pos (by simp [hv, hl])) hr
      (if_pos (by simp [hv1, hl1])) hn).trans (if_pos hsent))
  case verifyFails =>
    intro p s s1 hv hl hr hv1 hl1 hn hsent
    exact congrArg Host.Outcome.next ((State.atTimer_acts (due := verifyDue p) (act := verifyAct p) (if_pos (by simp [hv, hl])) hr
      (if_pos (by simp [hv1, hl1])) hn).trans (if_neg (Nat.not_lt.mpr hsent)))
  case respond => exact fun p s hv hl => if_pos (by simp [hv, hl])
  case verify => exact fun p s he hl => if_pos (by simp [he, hl])
  case hold =>
    intro p s t e h
    refine congrArg Host.Outcome.next (atSlot_eq (by simp only [h]; rfl) (fun u hd => ?_) (fun u v hd => ?_))
    · simp only [Option.map_eq_none_iff.mp hd]
    · obtain ⟨⟨w, d⟩, hx, rfl⟩ := Option.map_eq_some_iff.mp hd
      simp only [hx, holdNext, holdOn]
  case release =>
    intro p s t e h
    refine congrArg Host.Outcome.next (atSlot_eq (by simp only [h]; rfl) (fun u hd => ?_) (fun u v hd => ?_))
    · simp only [Option.map_eq_none_iff.mp hd]
    · obtain ⟨⟨w, d⟩, hx, rfl⟩ := Option.map_eq_some_iff.mp hd
      simp only [hx, releaseNext, holdOff]
  case entry =>
    intro p s g h
    refine congrArg Host.Outcome.next (atSlot_eq (by simp only [h]; rfl) (fun u hd => ?_) (fun u v hd => ?_))
    · simp only [Option.map_eq_none_iff.mp hd]
    · obtain ⟨x, hx, rfl⟩ := Option.map_eq_some_iff.mp hd
      simp only [hx, boundary]
  case active =>
    intro p s g h
    refine congrArg Host.Outcome.next (atSlot_eq (by simp only [h]; rfl) (fun u hd => ?_) (fun u v hd => ?_))
    · simp only [Option.map_eq_none_iff.mp hd]
    · obtain ⟨x, hx, rfl⟩ := Option.map_eq_some_iff.mp hd
      simp only [hx, gateBegins]

end Sys2Proof.Machine
end

section
/-!
SUPPORT. Cluster time, triads and the work that goes on in the background: each row's meaning in the branch that its conditions choose.
-/

namespace Sys2Proof.Machine

/-- Settles O30: each event in the branch that its conditions choose. -/
theorem clusterTimeEventsComplete : Obligations.ClusterTimeEventsComplete := by
  refine ⟨?cold, ?lost, ?holdover, ?last, ?lastBus, ?isolate, ?discrepancy, ?announcement⟩
  case cold =>
    intro s m s1 hm ht hc hs ha hn ho h1
    subst h1
    change execColdstart s = _
    simp only [execColdstart, hm]
    rw [if_neg (by simp only [ht, hc, hs, ha, ho]; simp; omega)]
  case lost => exact fun s ht hb ho => if_pos ⟨ht, hb, ho⟩
  case holdover => exact fun s ht => if_neg (not_not_intro ht)
  case last => exact fun s hb => if_neg (by simp [hb])
  case lastBus =>
    intro s m t v hm hb hc hv
    subst hv
    unfold doBus
    simp only [hm, hb]
    exact if_neg (by simp [hc])
  case isolate =>
    intro level s
    refine ⟨?_, ?_⟩
    · change execIsolateLevelChange false level s = _
      simp only [execIsolateLevelChange, Bool.and_eq_true, bne_iff_ne, beq_iff_eq, Bool.false_eq_true, if_false]
    · change execIsolateLevelChange true level s = _
      simp only [execIsolateLevelChange, Bool.and_eq_true, bne_iff_ne, beq_iff_eq, if_true]
  case discrepancy =>
    intro s hd hl he hb
    exact if_neg (by simp [hd, hl, he, hb])
  case announcement =>
    intro n x s hx ha ho hs
    change execAnnouncement n s = _
    simp only [execAnnouncement, hx]
    rw [if_neg (by simp [ha, ho, hs])]

/-- Settles O31: each event in the branch that its conditions choose. -/
theorem backgroundEventsComplete : Obligations.BackgroundEventsComplete := by
  refine ⟨?flash, ?session, ?confirm, ?flush, ?flowDown, ?flow, ?aging⟩
  case flash => exact fun ok s hb => if_neg (by simp [hb])
  case session =>
    intro s x hx
    change execSessionTimeout s = _
    simp only [execSessionTimeout, hx] <;> rfl
  case confirm =>
    intro s ha hf ht hs hm
    exact if_neg (by simp [ha, hf, ht, hs, hm])
  case flush =>
    intro s hd hm hb hw
    have hgo : (!s.log.flushDue || s.nvm.mib == 0 || s.boot.stopped || s.logWriting) = false := by simp [hd, hm, hb, hw]
    refine ⟨fun hf => ?_, fun t n hf hfull hlog hbook hfl => ?_⟩
    · change execLogFlushWork s = _
      simp only [execLogFlushWork, hgo, hf, Bool.false_eq_true, if_false]
    · change execLogFlushWork s = _
      simp only [execLogFlushWork, hgo, hf, hfull, hlog, hfl, Bool.false_eq_true, if_false]
      rw [if_neg (by simp [hbook])]
  case flowDown =>
    intro s u hu hd
    change execFlushDone s = _
    simp only [execFlushDone, hu]
    rw [if_pos hd]
  case flow =>
    intro s u hu hd
    change execFlushDone s = _
    simp only [execFlushDone, hu]
    rw [if_neg (by simp [hd])]
  case aging =>
    intro n hits s k size total done s1 h1 h2 h3 h4 h5
    subst h5 h4 h3 h2 h1
    rfl

end Sys2Proof.Machine
end

section
/-!
SUPPORT. Host frames fetched, granted, sent, dropped as stale, or written to their queue: each row's meaning in the branch that its
conditions choose.
-/

namespace Sys2Proof.Machine

/-- The descriptors at hand are covered, whole, and joined into one frame: the fetch is judged. -/
theorem fetch_covered {t : TxFetch} {q : Qp} (hne : t.descs ≠ []) (hn : t.descs.length ≤ (q.txProd + 65536 - q.txCons) % 65536)
    (hl : ∀ d ∈ t.descs, d.length = 64) (hb : ∀ d ∈ t.descs.dropLast, bit (txFlags d) 0 = true) :
    (decide (t.descs.length = 0) || decide ((q.txProd + 65536 - q.txCons) % 65536 < t.descs.length) ||
      t.descs.any (fun d => d.length != 64) || t.descs.dropLast.any (fun d => !bit (txFlags d) 0)) = false := by
  have h64 : t.descs.any (fun d => d.length != 64) = false := by
    simpa using hl
  have hjoined : t.descs.dropLast.any (fun d => !bit (txFlags d) 0) = false := by
    simpa using hb
  rw [h64, hjoined, decide_eq_false (by simpa using hne), decide_eq_false (Nat.not_lt.mpr hn)]
  rfl

/-- Settles O32: each event in the branch that its conditions choose. -/
theorem transmitEventsComplete : Obligations.TransmitEventsComplete := by
  refine ⟨?fetch, ?cut, ?start, ?done, ?host, ?stale⟩
  case fetch =>
    intro t s q s1 s2 s3 b c st d0 info hq hd0 hne hcut hdma hrun hfull hheld hquench hdram hn hl hb hok hrecs hrec hlen hspans h2
      hover hgo hinfo
    subst hq hd0 h2 hinfo
    change execTxDescriptorFetchDone t s = _
    have hready : (!s.canDma t.func || (s.qp t.func t.qp).st != .running || cqFull (s.qp t.func t.qp) ||
        !(s.qp t.func t.qp).held.isEmpty || decide (2 ≤ s.pwr.quench) || s.rul.dramDown) = false := by
      simp [hdma, hrun, hfull, hheld, hdram, Nat.not_le.mpr hquench]
    simp only [execTxDescriptorFetchDone, fetch_covered hne hn hl hb, hcut, hready, hok, hrec, Bool.not_true,
      Bool.and_false, Bool.or_self, Bool.false_eq_true, if_false, hlen, hrecs, ne_eq, not_true_eq_false, or_self, hspans, hover, hgo]
  case cut =>
    intro t s q hq hne hcut hn hl hb
    subst hq
    change execTxDescriptorFetchDone t s = _
    simp only [execTxDescriptorFetchDone, fetch_covered hne hn hl hb, hcut, Bool.false_eq_true, if_false, if_true]
  case start =>
    intro root pend ecc s p f rest s2 hr hd hp hf h2
    subst h2
    change execFrameTxStart root pend none ecc s = _
    rw [execFrameTxStart, if_neg (by simp [hd, Nat.not_lt.mpr hr])]
    simp only [hp, hf]
  case done =>
    intro root g rest left s s1 s2 hr hd hg hcut hleft h1 h2
    subst h2 h1 hleft
    change execFrameTxDone root s = _
    rw [execFrameTxDone, if_neg (by simp [hd, Nat.not_le.mpr hr])]
    simp only [hg, hcut, Bool.false_eq_true, if_false]
  case host =>
    intro l d mem g rest s i k exc q s1 data s2 q2 hl hd hg hdest hq hi hrun hd3 hflr hbme hfull hcov hok hbytes hlen hspans h2
    subst hq h2
    change execHostWriteDone l d mem s = _
    rw [execHostWriteDone, if_neg (by simp [hd, Nat.not_lt.mpr hl])]
    simp only [hg, hdest]
    rw [if_neg (by simp [hi]), if_neg (by simp [hrun, hd3, hflr, hbme]), if_neg (by simp [hfull, hcov]), if_neg (by simp [hok])]
    simp only [hbytes, hspans, decide_eq_false (Nat.not_lt.mpr hlen), Bool.false_eq_true, if_false, b2n, Nat.mul_zero, Nat.zero_add]
  case stale =>
    intro root owner cls q q1 f rest s s1 s2 s3 hq hd hr hq1 hd1 hn hf h2 h3
    subst h3 h2
    have hdue : staleDue root owner cls s = some (q.since + s.tm.stale * 1000000) := by
      rw [staleDue, if_neg (by simp [hd]), hq]
      rfl
    have hdue1 : staleDue root owner cls s1 = some (q1.since + s1.tm.stale * 1000000) := by
      rw [staleDue, if_neg (by simp [hd1]), hq1]
      rfl
    have hhead : (mGetD s1.tm.queues (queueKey root owner cls) { frames := [], since := 0 }).frames = f :: rest := by
      rw [mGetD, hq1]
      exact hf
    refine congrArg Host.Outcome.next ((State.atTimer_acts (act := staleAct root owner cls) hdue hr hdue1 hn).trans ?_)
    simp only [staleAct, hhead]

end Sys2Proof.Machine
end

section
/-!
SUPPORT. Frames, copies and votes of the bus, and the ladder of its star links: each row's meaning in the branch that its conditions
choose.
-/

namespace Sys2Proof.Machine

/-- R509: what a hub passes on of a whole frame. -/
theorem relayFrom_whole {s : State} {m : Img} {x : VirasRx} (b : Nat) :
    relayFrom s m x b x.words x.ok =
      if s.topOn x.chan then
        receiveCopy ((upBranches s x.chan).foldl (fun u d => u.emit (.relay x.chan d x.words)) (s.inc (brCtr x.chan b 0x10))) m
          { x with at_ := x.at_ + latOf m.starRate }
      else (s.inc (brCtr x.chan b 0x10)).emit (.relay x.chan 255 x.words) := rfl

/-- What the copy of a branch does at its instant: it is passed on while its branch's window is open, and cut where that is shut. -/
theorem execVirasCopyReceived_branch {x : VirasRx} {s : State} {m : Img} {b : Nat} {t : State} (hm : s.vrs.img = some m)
    (hc : x.chan < 3) (hst : s.boot.stopped = false) (hb : x.branch = some b) (h8 : b < 8)
    (hat : ∀ f, s.atNs (x.at_ / 256) f = f t) (hh : t.hubOn x.chan = true) (hl : linkCarries t m (brKey x.chan b) x.at_ = true) :
    (relayUntil t m x.chan b (x.at_ - groupsTime m.starRate 2) = none →
      exec (.virasCopyReceived x) s = .next (hubCut t x.chan b)) ∧
    ∀ close, relayUntil t m x.chan b (x.at_ - groupsTime m.starRate 2) = some close → exec (.virasCopyReceived x) s = .next (
      if x.at_ - groupsTime m.starRate 2 + groupsTime m.starRate (3 * x.words.length + 4) ≤ close then relayFrom t m x b x.words x.ok
      else hubCut (relayFrom t m x b (wordsIn m.starRate (close - (x.at_ - groupsTime m.starRate 2)) x.words) false) x.chan b) := by
  have hgo : ¬ (3 ≤ x.chan ∨ s.boot.stopped = true) := by simp [hst, Nat.not_le.mpr hc]
  have hin : (!t.hubOn x.chan || decide (8 ≤ b) || !linkCarries t m (brKey x.chan b) x.at_) = false := by
    simp [hh, hl, Nat.not_le.mpr h8]
  refine ⟨fun hr => ?_, fun close hr => ?_⟩ <;>
    change execVirasCopyReceived x s = _ <;>
    simp only [execVirasCopyReceived, hm, if_neg hgo, hat, hb, hin, Bool.false_eq_true, if_false, hr]

section doBus
variable {s : State} {m : Img} {i c t : Nat} (hi : s.vrs.img = some m)
include hi

theorem doBus_send (hb : nextBus s = some (t, .send i c)) :
    doBus s = slotSend { s with vrs := { s.vrs with pos := s.vrs.pos + 1 } } m i c := by
  unfold doBus
  simp only [hi, hb]

theorem doBus_close (hb : nextBus s = some (t, .close i c)) :
    doBus s = slotClose { s with vrs := { s.vrs with pos := s.vrs.pos + 1 } } i c := by
  unfold doBus
  simp only [hi, hb]

theorem doBus_vote (hb : nextBus s = some (t, .vote i)) :
    doBus s = slotVote { s with vrs := { s.vrs with pos := s.vrs.pos + 1 } } m i := by
  unfold doBus
  simp only [hi, hb]

end doBus

/-- R503: the words of a slot's frame are chosen once, and every channel carries them. -/
theorem slotSend_of_words {u : State} {m : Img} {i c : Nat} {x : ImgSlot} {ws : List Nat} (hx : m.slots[i]? = some x)
    (hmay : mayTransmit u = true)
    (hws : mGet? u.vrs.sent i = some ws ∨ (mGet? u.vrs.sent i = none ∧ ws = frameWords u m i)) :
    slotSend u m i c =
      transmitOn { u with vrs := { u.vrs with sent := mPut u.vrs.sent i ws } } m i x (mGetD u.vrs.lags i 0) ws c := by
  unfold slotSend
  simp only [hx]
  rw [if_neg (by simp [hmay])]
  obtain hws | ⟨hnone, rfl⟩ := hws
  · simp only [hws]
  · simp only [hnone]

/-- R503, R504: a channel whose transmitter is up carries the frame that keeps its guard window. -/
theorem transmitOn_drives {u : State} {m : Img} {i lag c : Nat} {x : ImgSlot} {ws : List Nat} (hup : (u.vchan c).txUp = true)
    (hmay : mayTransmit u = true) (hle : 256 * lag ≤ frameTime (m.rate c) x.pmax + 256 * m.gw) :
    transmitOn u m i x lag ws c = (State.inc { u with vrs := { u.vrs with driving := u.vrs.driving ++
      [(c, i, u.time.refNow + ceilDiv (frameTime (m.rate c) (fPlen ws)) 256)] } } (vrsCtr c 0x30)).emit
        (.viras c i (ws ++ [crc24 ws])) := by
  unfold transmitOn
  rw [if_neg (by simp [hup, hmay]), if_neg (Nat.not_lt.mpr hle)]

/-- Settles O37: each event in the branch that its conditions choose. -/
theorem busFrameEventsComplete : Obligations.BusFrameEventsComplete := by
  refine ⟨?tx, ?close, ?slotVote, ?plan, ?sends, ?closes, ?votes, ?guard, ?copy, ?branch, ?violation, ?shut, ?restart, ?down, ?up⟩
  case tx =>
    intro i lag s hm hp
    exact if_neg (by simp [hm, hp])
  case close => exact fun i c s => rfl
  case slotVote => exact fun i s => rfl
  case plan =>
    intro p s k t hp
    refine ⟨fun hk => ?_, fun hk => ?_⟩
    · simp only [busThrough, hp, if_neg (Nat.not_lt.mpr hk)]
    · simp only [busThrough, hp, if_pos hk]
  case sends =>
    intro i c s m x t ws s1 lag hi hb hx hmay hup hlag hle hws h1
    subst h1 hlag
    refine (doBus_send hi hb).trans ((slotSend_of_words hx ?_ ?_).trans (transmitOn_drives ?_ ?_ ?_))
    · exact hmay
    · exact hws
    · exact hup
    · exact hmay
    · exact hle
  case closes =>
    intro i c s m t cut hi hb hcut
    subst hcut
    rw [doBus_close hi hb]
    rfl
  case votes =>
    intro i s m x t l s0 s1 s2 hi hb hx hl h0 hsome hnone
    rw [doBus_vote hi hb]
    rcases hv : voteOf l with ⟨acc, minority⟩
    simp only [hv] at hsome hnone
    subst h0
    simp only [slotVote, hx, ← hl, hv]
    cases acc with
    | none =>
      simp only [hnone rfl] <;> rfl
    | some ws =>
      obtain ⟨h1, h2⟩ := hsome ws rfl
      subst h2 h1
      cases minority <;> simp only [decide_eq_true_eq] <;> rfl
  case guard =>
    intro s m s0 s1 hi hg h0 h1
    subst h1 h0
    exact if_neg (by simp [hi, hg])
  case copy =>
    intro x s m t hm hc hst hb hat hcar
    have hgo : ¬ (3 ≤ x.chan ∨ s.boot.stopped = true) := by simp [hst, Nat.not_le.mpr hc]
    change execVirasCopyReceived x s = _
    simp only [execVirasCopyReceived, hm, if_neg hgo, hat, hb, hcar, Bool.not_true, Bool.false_eq_true, if_false]
  case branch =>
    intro x s m b t from_ hm hc hst hb h8 hat hh hl hfrom
    subst hfrom
    obtain ⟨hnone, hsome⟩ := execVirasCopyReceived_branch hm hc hst hb h8 hat hh hl
    refine ⟨hnone, fun close hr hle => ?_, fun close hr hlt => ?_⟩
    · rw [hsome close hr, if_pos hle, relayFrom_whole]
    · rw [hsome close hr, if_neg (Nat.not_le.mpr hlt)]
  case violation =>
    intro c b s hh hb hst
    exact if_pos (by simp [hh, hb, hst])
  case shut =>
    intro c b s x hh hx hs hn
    subst hx
    exact if_neg (by simp [hh, hs, Nat.not_lt.mpr hn])
  case restart =>
    intro c b s x hh hx hs
    subst hx
    exact if_neg (by simp [hh, hs])
  case down =>
    intro c s hm hd hn ho
    exact if_neg (by simp [hm, hd, ho, Nat.not_lt.mpr hn])
  case up =>
    intro c s hd hn ho
    exact if_neg (by simp [hd, ho, Nat.not_lt.mpr hn])

end Sys2Proof.Machine
end

section
/-!
SUPPORT. The ladder of a star link: each message, wait and loss in the branch that its conditions choose.
-/

namespace Sys2Proof.Machine

/-- Settles O38: each event in the branch that its conditions choose. -/
theorem ladderEventsComplete : Obligations.LadderEventsComplete := by
  refine ⟨?hello, ?helloAck, ?rateReq, ?rateAck, ?rateSwitch, ?ping, ?pongSend, ?pong, ?pongLast, ?ready, ?reject, ?bad, ?helloTimer,
    ?timeout, ?holdEnd, ?down⟩
  case hello =>
    intro c b w0 w1 s m x hi hh hb hx ha
    subst hx
    have hon : ¬ ((!s.hubOn c) = true ∨ 8 ≤ b) := by simp [hh, Nat.not_le.mpr hb]
    change execHello c b w0 w1 s = _
    simp only [execHello, hi, if_neg hon, ha, lNode, lRole]
    cases helloReject s m c b (bits w0 19 14) (bits w0 13 12) w1 <;> rfl
  case helloAck =>
    intro c w0 w1 s m x hi hm hx ha
    subst hx
    change execHelloAck c w0 w1 s = _
    simp only [execHelloAck, hi, hm, ha]
    rfl
  case rateReq =>
    intro c w0 s x hm hx hst hstep hr
    subst hx
    change execRateReq c w0 s = _
    rw [execRateReq, if_neg (by simp [hm]), if_neg (by simp [hst, hstep, lRate, hr])]
  case rateAck =>
    intro c b w0 s x hh hb hx hst hstep hr
    subst hx
    change execRateAck c b w0 s = _
    rw [execRateAck, if_neg (by simp [hh, Nat.not_le.mpr hb]), if_neg (by simp [hst, hstep, lRate, hr])]
  case rateSwitch =>
    intro k s x hx hst hstep
    subst hx
    exact if_neg (by simp [hst, hstep])
  case ping =>
    intro c s x hm hx hst hstep
    subst hx
    change execPing c s = _
    rw [execPing, if_neg (by simp [hm]), if_neg (by simp [hst, hstep])]
  case pongSend =>
    intro c s t ht
    change execPongSend c s = _
    simp only [execPongSend, ht]
  case pong =>
    intro c b rt s x hh hb hx hst hstep hn
    subst hx
    change execPong c b rt s = _
    rw [execPong, if_neg (by simp [hh, Nat.not_le.mpr hb]), if_neg (by simp [hst, hstep])]
    have h16 : (s.vlink (brKey c b)).pongs + 1 < 16 := by omega
    exact if_pos h16
  case pongLast =>
    intro c b rt s x d hh hb hx hst hstep hn hd
    subst hx
    rw [hd]
    change execPong c b rt s = _
    rw [execPong, if_neg (by simp [hh, Nat.not_le.mpr hb]), if_neg (by simp [hst, hstep])]
    have h16 : ¬ (s.vlink (brKey c b)).pongs + 1 < 16 := by omega
    simp only [if_neg h16]
  case ready =>
    intro c p s x hm hx hst hstep
    subst hx
    change execReady c p s = _
    rw [execReady, if_neg (by simp [hm]), if_neg (by simp [hst, hstep])]
  case reject =>
    intro c reason s hm hst hstep
    exact if_neg (by simp [hm, hst, hstep])
  case bad =>
    intro k msg s hk hst
    exact if_neg (by simp [hst, Nat.not_le.mpr hk])
  case helloTimer =>
    intro c s x hm hx ha
    subst hx
    have hon : (decide (s.vmode c ≠ 2) || !atHello (s.vlink (upKey c))) = false := by simp [hm, ha]
    refine ⟨fun ht => ?_, fun t ht => ?_⟩
    · have hsend : execHelloTimer c s = .next (sendHello (upKey c) s) := by
        simp only [execHelloTimer, hon, ht, Bool.false_eq_true, if_false]
      exact hsend
    · change execHelloTimer c s = _
      simp only [execHelloTimer, hon, ht, Bool.false_eq_true, if_false]
  case timeout =>
    intro k s x hk hx hst
    subst hx
    have hon : ¬ (27 ≤ k ∨ (s.vlink k).st ≠ 1) := by simp [hst, Nat.not_le.mpr hk]
    refine ⟨fun hstep => ?_, fun hstep hup => ?_, fun hstep => ?_, fun hstep hbr => ?_⟩ <;>
      change execLadderTimeout k s = _ <;>
      simp only [execLadderTimeout, if_neg hon, hstep]
    · exact if_neg (Nat.not_lt.mpr hup)
    · exact if_neg (Nat.not_le.mpr hbr)
  case holdEnd =>
    intro k s x hk hx hst
    subst hx
    change execLadderHoldEnd k s = _
    rw [execLadderHoldEnd, if_neg (Nat.not_le.mpr hk), if_pos hst]
  case down =>
    intro k s hk hm hst
    change execStarLinkDown k s = _
    rw [execStarLinkDown, if_neg (by simp [hm, hst, Nat.not_le.mpr hk])]

end Sys2Proof.Machine
end

section
/-!
SUPPORT. Supply and temperature: each row's meaning in the branch that its conditions choose.
-/

namespace Sys2Proof.Machine

/-- R643: eight watched detectors that see no sag contradict the one that does. -/
theorem selfTestFails_of {d : Nat} {s : State} (hb : bit s.pwr.belowSoft d = true)
    (h8 : 8 ≤ ((List.range 16).filter (fun k => k != d && watched s k && !bit s.pwr.belowSoft k)).length) :
    selfTestFails d s = true := by
  rw [selfTestFails, hb, decide_eq_true h8]
  rfl

/-- Settles O41: each event in the branch that its conditions choose. -/
theorem supplyEventsComplete : Obligations.SupplyEventsComplete := by
  refine ⟨?soft, ?softStep, ?hard, ?hardEnd, ?hold, ?step, ?alert, ?alertEnd, ?hint, ?governor, ?refill, ?detector, ?low, ?high,
    ?inject⟩
  case soft =>
    intro d s s1 hw h1
    subst h1
    exact if_neg (by simp [hw])
  case softStep => exact fun mask s hs => if_neg (by simp [hs])
  case hard =>
    intro d s s1 s2 hw h1 h2
    subst h2 h1
    exact if_neg (by simp [hw])
  case hardEnd => exact fun mask s => rfl
  case hold =>
    intro s hst ha hh hi
    exact if_neg (by simp [hst, ha, hh, hi])
  case step =>
    intro s t ht
    change execStepUp s = _
    simp only [execStepUp, ht]
    rfl
  case alert =>
    intro s s1 ha h1
    subst h1
    exact if_neg (by simp [ha])
  case alertEnd =>
    intro s ha
    change execBrdAlertDeassert s = _
    simp only [execBrdAlertDeassert, ha, if_true]
  case hint =>
    intro s t b ht
    change execHintLeadExpiry s = _
    simp only [execHintLeadExpiry, ht]
  case governor => exact fun demand s => rfl
  case refill => exact fun s => rfl
  case detector =>
    intro d s s1 s2 hw h1 h2
    subst h2 h1
    refine ⟨fun hn => ?_, fun hn hb => ?_, fun hf => ?_, fun hf hb hn => ?_⟩
    · exact if_pos (.inl hn)
    · exact if_neg (not_or.mpr ⟨Nat.not_le.mpr hn, by rw [hb]; decide⟩)
    · change execDetectorFail d s = _
      rw [execDetectorFail, if_neg (by simp [hw]), if_pos hf]
    · change execDetectorFail d s = _
      rw [execDetectorFail, if_neg (by simp [hw]), if_neg (by simp [hf]), if_neg (by simp [selfTestFails_of hb hn])]
  case low => exact fun s hb ht => if_neg (by simp [hb, ht])
  case high => exact fun s hb => if_neg (by simp [hb])
  case inject =>
    intro src s t ht
    change execInjectEnd src s = _
    simp only [execInjectEnd, ht]

/-- Settles O42: each event in the branch that its conditions choose. -/
theorem temperatureEventsComplete : Obligations.TemperatureEventsComplete := by
  refine ⟨?warn, ?noWarn, ?warnEnd, ?throttle, ?step, ?throttledStep, ?sensor, ?power⟩
  case warn =>
    intro t s s1 h1 hw ht
    subst h1
    exact if_neg (by simp [hw, Int.not_lt.mpr ht])
  case noWarn =>
    intro t s s1 h1 hw
    subst h1
    exact if_pos (by simpa using hw)
  case warnEnd =>
    intro t s s1 h1
    subst h1
    change execTempWarnEnd t s = _
    simp only [execTempWarnEnd, decide_eq_true_eq]
    split <;> rfl
  case throttle =>
    intro t s s1 h1 hth ht
    subst h1
    exact if_neg (by simp [hth, Int.not_lt.mpr ht])
  case step => exact fun t s ht => if_pos (by simp [ht])
  case throttledStep =>
    intro t s ht
    change execThmStep t s = _
    rw [execThmStep, if_neg (by simp [ht])]
    refine congrArg (fun f => Host.Outcome.next (s.atRef (s.pwr.thmAt + s.fld Reg.stepMs * 1000000) f)) (funext fun u => ?_)
    dsimp only
    by_cases hr : (setTemps u t).pwr.region = u.pwr.region
    · rw [if_pos hr, if_neg (not_not_intro hr)]
      rfl
    · rw [if_neg hr, if_pos hr]
  case sensor =>
    intro k t s hk hb hr
    change execSensorFail k t s = _
    rw [execSensorFail, if_neg (by simp [hb, hr, Nat.not_le.mpr hk])]
  case power =>
    intro s t n on rest hat hp
    refine ⟨fun h => ?_, fun hon hw hlt => ?_⟩ <;>
      change execLanePowerStep s = _ <;>
      simp only [execLanePowerStep, hat, hp]
    · obtain ⟨rfl, hs⟩ | ⟨rfl, hw, hle⟩ := h
      · rw [if_neg (by simp [hs]), if_neg (by simp)]
      · rw [if_neg (by simp [hw]), if_neg (by simp [Nat.not_lt.mpr hle])]
    · subst hon
      rw [if_neg (by simp [hw]), if_pos (by simp [hlt])]

end Sys2Proof.Machine
end

section
/-!
SUPPORT. Lanes and ports: training, losses and their end, pages, requests, restores and sweeps, each in the branch that its conditions
choose.
-/

namespace Sys2Proof.Machine

theorem portLive_eq (s : State) (p : Nat) : s.portLive p = ((s.port p).st == .up || (s.port p).st == .degraded) := rfl

/-- A list all of whose members are taken to one value becomes that value, once for each member. -/
theorem filterMap_eq_replicate {α β : Type} {f : α → Option β} {l : List α} {b : β} (h : ∀ x ∈ l, f x = some b) :
    l.filterMap f = List.replicate l.length b := by
  induction l with
  | nil => rfl
  | cons x l ih =>
    rw [List.filterMap_cons_some (h x (List.mem_cons_self ..)), ih fun y hy => h y (List.mem_cons_of_mem _ hy),
      List.length_cons, List.replicate_succ]

/-- R262: lanes that lost their signal at one instant have lasted 1 ms at one instant. -/
theorem lossEnd_of_same {s : State} {ns : List Nat} {t : Nat} (hne : ns ≠ [])
    (h : ∀ n ∈ ns, (s.lane n).failed = false ∧ (s.lane n).lossAt = some t) : lossEnd s ns = some (t + 1000000) := by
  have hone : ∀ n ∈ ns, (if (s.lane n).failed then none else (s.lane n).lossAt.map (· + 1000000)) = some (t + 1000000) :=
    fun n hn => by
      obtain ⟨hf, hl⟩ := h n hn
      rw [hf, hl]
      rfl
  rw [lossEnd, filterMap_eq_replicate hone]
  exact List.min?_replicate_of_pos (List.length_pos_iff.mpr hne)

/-- R274: a step of the sweep, as a passed and as a failed rate leave it. -/
theorem sweepNext_eq (u : State) (d : Diag) (errors : Nat) :
    sweepNext u d errors = (
      let d1 : Diag := if errors = 0 then
          (if d.rate = 5 then { d with best := 5, ended := true }
           else { d with best := d.rate, rate := d.rate + 1, pattern := sweepPattern (d.rate + 1), since := u.time.refNow,
                         ended := false })
        else { d with ended := true }
      let s1 := { u with ln := { u.ln with diags := u.ln.diags.map (fun x => if x == d then d1 else x) } }
      if d1.ended then askPower s1 (groupLanes d.anchor d.width) false
      else rateLanes s1 (groupLanes d.anchor d.width) d1.rate) := by
  by_cases he : errors = 0
  · by_cases hr : d.rate = 5
    · simp [sweepNext, he, hr]
    · have hlast : (d.rate == 5) = false := by simp [hr]
      simp [sweepNext, he, hr, hlast]
  · simp [sweepNext, he]

/-- Losses reported as such are lanes to watch, not failures of training. -/
theorem lostLanes (ns : List Nat) : ((ns.map (fun n => (n, 1))).filter (fun x => x.2 != 5)).map (·.1) = ns := by
  induction ns with
  | nil => rfl
  | cons n l ih => rw [List.map_cons, List.filter_cons_of_pos rfl, List.map_cons, ih]

theorem trainLanes_none (ns : List Nat) (q : Nat × Nat → Bool) : (ns.map (fun n => (n, 1))).filter (fun x => x.2 == 5 && q x) = [] := by
  simp

/-- Settles O43: each event in the branch that its conditions choose. -/
theorem laneEventsComplete : Obligations.LaneEventsComplete := by
  refine ⟨?up, ?loss, ?back, ?trainFailed, ?lost, ?recovered, ?trainFail, ?pll, ?restore, ?sweep, ?page, ?coeff, ?banked⟩
  case up =>
    intro p c up r w fec speed rs x s hx hc hst hr hsp hend hres hl
    subst hx
    have hlanes : (groupLanes (s.port p).base w).any (fun n => (s.lane n).failed || !(s.lane n).powered) = false := by
      rw [List.any_eq_false]
      intro n hn
      obtain ⟨hf, hp⟩ := hl n hn
      simp [hf, hp]
    have hend' : attemptEnd (s.port p) = if (s.port p).fromStore then (s.port p).exitAt + 5000000 else (s.port p).trainAt + 500000000 :=
      rfl
    have hgo : ((s.port p).st != .training || s.time.refHold || speed == 0 || decide (attemptEnd (s.port p) < s.time.refNow) ||
        (groupLanes (s.port p).base w).any (fun n => (s.lane n).failed || !(s.lane n).powered)) = false := by
      rw [hlanes, hend', decide_eq_false (Nat.not_lt.mpr hend)]
      simp [hst, hr, hsp]
    change execPortUp p { speed := speed, rs := rs } s = _
    cases hfs : (s.port p).fromStore with
    | true =>
      rw [hfs, if_pos rfl] at hres
      obtain ⟨y, hy, hyspeed, rfl, rfl, rfl, rfl⟩ := hres
      have hcomes : comesUp s p speed c = some (y.up, y.rate, y.width) := by
        simp only [comesUp, hfs, if_true, hy, if_pos hyspeed]
      simp only [execPortUp, hc, hcomes, hgo, Bool.false_eq_true, if_false, hfs, hy]
    | false =>
      rw [hfs, if_neg (by decide)] at hres
      obtain ⟨rfl, hres⟩ := hres
      have hcomes : comesUp s p speed c = some (up, r, w) := by
        simp only [comesUp, hfs, Bool.false_eq_true, if_false]
        split at hres
        next hred =>
          obtain ⟨hspeed, rfl, rfl, rfl⟩ := hres
          rw [if_pos hred, if_pos hspeed]
        next hred =>
          rw [if_neg hred]
          split at hres
          next han =>
            obtain ⟨hadv, rfl, hres⟩ := hres
            rw [if_pos han, if_pos hadv, hres, Option.map_some]
          next han =>
            obtain ⟨hspeed, rfl, rfl, rfl⟩ := hres
            rw [if_neg han, if_pos hspeed]
      simp only [execPortUp, hc, hcomes, hgo, Bool.false_eq_true, if_false, hfs]
  case loss =>
    intro n reason s s1 hn hp h1
    have hsame : ∀ p, s1.port p = s.port p := fun p => by rw [h1]; rfl
    refine ⟨fun hport => ?_, fun p hport => ?_⟩ <;>
      change execLaneSignalLoss n reason s = _ <;>
      rw [execLaneSignalLoss, if_neg (by simp [hp, Nat.not_lt.mpr hn])] <;>
      simp only [hport, ← h1]
    simp only [hsame, portLive_eq, Bool.and_eq_true, Bool.or_eq_true, beq_iff_eq, List.contains_iff_mem]
    exact (apply_ite Host.Outcome.next _ _ _).symm
  case back =>
    intro n s t s1 hn hp hr ht h1
    have hexec : exec (.laneSignalReturn n) s = .next (laneBack t n) := by
      subst ht
      exact if_neg (by simp [hp, hr, Nat.not_lt.mpr hn])
    rw [hexec]
    subst h1
    refine ⟨fun hport => ?_, fun p hport hnone => ?_, fun p st hport hloss => ?_⟩
    · simp only [laneBack, hport]
    · simp only [laneBack, hport, hnone]
    · simp only [laneBack, hport, hloss]
  case trainFailed =>
    intro n p s hport hst
    change execLaneFailed [(n, 5)] s = _
    simp [execLaneFailed, lossEnd, hport, hst]
  case lost =>
    intro ns t s hne h
    change execLaneFailed (ns.map (fun n => (n, 1))) s = _
    simp only [execLaneFailed, lostLanes, lossEnd_of_same hne h, trainLanes_none, List.append_nil]
  case recovered =>
    intro n t s hn hf h1 h3 hb
    change execLaneRecovered n s = _
    rw [execLaneRecovered, if_neg (by simp [hf, h1, h3, Nat.not_lt.mpr hn])]
    simp only [hb]
    refine congrArg (fun f => Host.Outcome.next (s.atRef (t + 100000000) f)) (funext fun u => ?_)
    cases portOfLane (u.setLane n { u.lane n with failed := false, reason := 0, backAt := none }) n <;> rfl
  case trainFail => exact fun p s hst hf => if_neg (by simp [hst, hf])
  case pll =>
    intro n t s hu hn
    change execPllLockFail n s = _
    simp only [execPllLockFail, hu, if_neg (Nat.not_lt.mpr hn)]
  case restore =>
    intro p c t s hc hst ha ho hh hn hi
    change Host.Outcome.next (autoRestore s p) = _
    have hnone : s.staging.items.any (fun it => it.op == 0x0506 && pf it.params 0 0 == p) = false := by
      simpa using hi
    simp only [autoRestore, hc, hh, hst, ha, ho, decide_eq_true hn, hnone]
    rfl
  case sweep =>
    intro a errors d s hd
    change execSweepStep a errors s = _
    simp only [execSweepStep, hd, sweepNext_eq]
  case page =>
    intro p c g s hc hst hf ha
    have hon : ((s.port p).st != .training || !c.an || (s.port p).fromStore) = false := by simp [hst, hf, ha]
    refine ⟨fun hs hr he => ?_, fun hbad => ?_⟩ <;>
      change execAnPage p g s = _ <;>
      simp only [execAnPage, hc, hon, Bool.false_eq_true, if_false]
    · simp only [hs, hr, he, ne_eq, not_true_eq_false, Bool.false_eq_true, if_false, if_true, advertised]
    · have hreason : (if g.selector ≠ 1 then 1 else if g.reservedBit then 2 else if g.earlyAck then 3 else 0) =
          if g.selector ≠ 1 then 1 else if g.reservedBit then 2 else 3 := by
        by_cases hs : g.selector = 1
        · cases hr : g.reservedBit with
          | true => simp [hs]
          | false =>
            have he : g.earlyAck = true := by simpa [hs, hr] using hbad
            simp [hs, he]
        · simp [hs]
      have hne : (if g.selector ≠ 1 then 1 else if g.reservedBit then 2 else 3) ≠ 0 := by
        split
        · decide
        · split <;> decide
      rw [hreason, if_neg hne]
  case coeff =>
    intro n tap delta p x lo mn mx v s hn ht hport hx hf hst hfield hv
    subst hv hx
    change execCoeffRequest n tap delta s = _
    simp only [execCoeffRequest, hport]
    rw [if_neg (by simp [hf, hst, Nat.not_lt.mpr hn, Nat.not_lt.mpr ht])]
    simp only [hfield]
    exact (apply_ite Host.Outcome.next _ _ _).symm
  case banked =>
    intro p c s hc hst hf
    change execBankedExitTimeout p s = _
    simp only [execBankedExitTimeout, hc]
    exact if_pos (by simp [hst, hf])

end Sys2Proof.Machine
end

section
/-!
SUPPORT. The sideband: what a port that serves makes of a message, the command of a firmware device, and each row's meaning by
these two.
-/

namespace Sys2Proof.Machine

theorem sbLive_of {s : State} {p : Nat} (hp : p ≤ 1) (hs : s.boot.standby = true) : sbLive s p = true := by
  rw [sbLive, hs, decide_eq_true (Nat.lt_succ_of_le hp)]
  rfl

/-- A port that serves sends what waited, counts the message and acts on it. -/
theorem sbReceive_of_live {s t : State} {p : Nat} (hp : p ≤ 1) (hs : s.boot.standby = true)
    (ht : t = (sbDrain s p).inc (sbCtr p 0)) (f : State → State) : sbReceive s p f = f t := by
  rw [ht, sbReceive, if_pos (sbLive_of hp hs)]

section Message
variable {s t : State} {p : Nat} (hp : p ≤ 1) (hs : s.boot.standby = true) (ht : t = (sbDrain s p).inc (sbCtr p 0))
  (hlive : fdLive t = true)
include hp hs ht hlive

/-- An update command in a state that admits it acts (R659). -/
theorem fdCommand_admitted {cmd : Nat} {states : List FdState} {f : State → State} (hown : heldByOther t p = false)
    (hidle : (t.sbPort p).fd ≠ .idle) (hst : (t.sbPort p).fd ∈ states) : fdCommand s p cmd states f = f t := by
  rw [fdCommand, sbReceive_of_live hp hs ht]
  simp [hlive, hown, hidle, hst]

/-- An update command while another owner holds the session is answered ALREADY_IN_UPDATE_MODE (R659). -/
theorem fdCommand_heldByOther {cmd : Nat} {states : List FdState} {f : State → State} (hown : heldByOther t p = true) :
    fdCommand s p cmd states f = sbAnswer t p 1 (0x0500 + cmd) Cc.alreadyInUpdate [] := by
  rw [fdCommand, sbReceive_of_live hp hs ht]
  simp [hlive, hown]

/-- Outside update mode its commands are answered NOT_IN_UPDATE_MODE (R659). -/
theorem fdCommand_idle {cmd : Nat} {states : List FdState} {f : State → State} (hown : heldByOther t p = false)
    (hidle : (t.sbPort p).fd = .idle) :
    fdCommand s p cmd states f = sbAnswer t p 1 (0x0500 + cmd) Cc.notInUpdate [] := by
  rw [fdCommand, sbReceive_of_live hp hs ht]
  simp [hlive, hown, hidle]

end Message

/-- An update that nobody else is in is held by no other owner. -/
theorem heldByOther_of_not_taken {s : State} {p : Nat} (h : fdTaken s p = false) : heldByOther s p = false :=
  (Bool.or_eq_false_iff.mp h).2

/-- Settles O46: each message through `sbReceive`, its branch chosen by the operands' ranges. -/
theorem sidebandMessagesComplete : Obligations.SidebandMessagesComplete := by
  intro p s t hp hs ht
  have hrecv : ∀ f, sbReceive s p f = f t := sbReceive_of_live hp hs ht
  have hnext : ∀ {f : State → State} {u : State}, f t = u → Host.Outcome.next (sbReceive s p f) =
      (.next u : Host.Outcome State Fault Refusal) := fun h => congrArg Host.Outcome.next ((hrecv _).trans h)
  refine ⟨fun op eid hop h8 h254 => hnext (if_neg (by omega)), fun op eid h => hnext (if_pos h), hnext rfl, hnext rfl,
    fun mtype => hnext ?version, hnext rfl, fun tid h1 h254 => hnext (if_neg (by omega)), fun tid h => hnext (if_pos h), hnext rfl,
    fun ptype => hnext ?pldmVersion, hnext rfl, fun ptype => hnext ?pldmCommands, fun handle => hnext rfl,
    fun k h1 h16 => hnext (if_neg (by omega)), fun k h17 h33 => hnext (if_neg (by omega)),
    fun enable eid h => hnext (if_neg (by omega)), fun kind cmd => hnext ?unsupported⟩
  case version => simp [Cc.ok, Cc.versionUnsupported]
  case pldmVersion => simp [pldmTypes, Cc.ok, Cc.badTypeInData]
  case pldmCommands => simp [pldmTypes, Cc.ok, Cc.badTypeInData]
  case unsupported => simp [pldmTypes, Cc.invalidType, Cc.unsupported]

/-- Settles O47: each command of an update in the state that admits it. -/
theorem updateMessagesComplete : Obligations.UpdateMessagesComplete := by
  intro p s t hp hs ht hlive
  have hrecv : ∀ f, sbReceive s p f = f t := sbReceive_of_live hp hs ht
  have hnext : ∀ {f : State → State} {u : State}, f t = u → Host.Outcome.next (sbReceive s p f) =
      (.next u : Host.Outcome State Fault Refusal) := fun h => congrArg Host.Outcome.next ((hrecv _).trans h)
  have hnot : (!fdLive t) ≠ true := by simp [hlive]
  have hheld : ∀ {cmd states} {f : State → State}, heldByOther t p = true → Host.Outcome.next (fdCommand s p cmd states f) =
      (.next (sbAnswer t p 1 (0x0500 + cmd) 0x81 []) : Host.Outcome State Fault Refusal) :=
    fun h => congrArg Host.Outcome.next (fdCommand_heldByOther hp hs ht hlive h)
  have hadmit : ∀ {cmd states} {f : State → State} {u : State}, heldByOther t p = false → (t.sbPort p).fd ≠ .idle →
      (t.sbPort p).fd ∈ states → f t = u → Host.Outcome.next (fdCommand s p cmd states f) =
      (.next u : Host.Outcome State Fault Refusal) :=
    fun ho hi hm hu => congrArg Host.Outcome.next ((fdCommand_admitted hp hs ht hlive ho hi hm).trans hu)
  refine ⟨hnext (if_neg hnot), hnext (if_neg hnot), hnext (if_neg hnot), fun hidle hfree => hnext ?request,
    fun h => hnext ?refused, fun hown hfd => hadmit hown (by simp [hfd]) (by simp [hfd]) rfl, ?component, ?data,
    fun hown hfd => hadmit hown (by simp [hfd]) (by simp [hfd]) rfl, fun hown hfd => ?cancelComponent,
    fun hown hfd => hadmit hown hfd ?states rfl,
    fun hown hfd => congrArg Host.Outcome.next (fdCommand_idle hp hs ht hlive hown hfd),
    fun hown => ⟨hheld hown, fun size => hheld hown, hheld hown, hheld hown, hheld hown⟩⟩
  case request => simp [hlive, hidle, hfree, Cc.ok]
  case refused =>
    have hbusy : ((t.sbPort p).fd != .idle || fdTaken t p) = true := by simpa using h
    rw [if_neg hnot, if_pos hbusy]
    rfl
  case component =>
    intro size u hfd hmib h1 hmax hfree hu
    refine hadmit (heldByOther_of_not_taken hfree) (by simp [hfd]) (by simp [hfd]) ?_
    rw [if_neg (by omega), if_neg (by simp [hfree]), hu]
    rfl
  case data =>
    intro x data hx hown hfd hlen hcur hwait hroom
    refine hnext ?_
    simp [hx, hlive, hown, hfd, hlen, hcur, hwait, Nat.not_lt.mpr hroom]
  case cancelComponent =>
    obtain hfd | hfd := hfd <;> exact hadmit hown (by simp [hfd]) (by simp [hfd]) rfl
  case states =>
    revert hfd
    cases (t.sbPort p).fd <;> decide

/-- Settles O48: each event of a port that serves, in the branch that its conditions choose. -/
theorem smbusEventsComplete : Obligations.SmbusEventsComplete := by
  intro p s hp hs
  have hlive := sbLive_of hp hs
  have hoff : ¬ (!sbLive s p) = true := by simp [hlive]
  refine ⟨fun _ _ => if_neg hoff, fun _ _ => if_neg hoff, fun heid => if_neg (by simp [hlive, heid]),
    fun htx hb => if_neg (by simp [hlive, htx, hb]), fun hb => ?won, fun hb h7 => ?lost, fun hb h7 => ?given, if_neg hoff,
    fun ms htx => if_neg (by simp [hlive, htx])⟩
  case won =>
    change execArbitrationRetry p false s = _
    rw [execArbitrationRetry, if_neg (by simp [hlive, hb]), if_neg (by decide)]
  case lost =>
    change execArbitrationRetry p true s = _
    rw [execArbitrationRetry, if_neg (by simp [hlive, hb]), if_pos rfl]
    exact congrArg Host.Outcome.next (if_pos (by omega))
  case given =>
    change execArbitrationRetry p true s = _
    rw [execArbitrationRetry, if_neg (by simp [hlive, hb]), if_pos rfl]
    exact congrArg Host.Outcome.next (if_neg (by omega))

end Sys2Proof.Machine
end
